-- ==== Sys2Proof/Word.lean ====
section
/-!
DEFINITION. The word types of the EZK-7210 model and the sparse stores built from them.

Bits are numbered from 0 at the least significant bit (R7); every multi-byte field is little-endian (R8).
-/

namespace Sys2Proof

/-- A byte. -/
abbrev Byte := BitVec 8
/-- A 32-bit word: an FP32 element, a 32-bit register, an IMM of a LONG instruction. -/
abbrev W32 := BitVec 32
/-- A 64-bit word: an S or A register, an instruction word, a 64-bit register. -/
abbrev W64 := BitVec 64

/-- A store of `w`-bit cells by number, every unlisted cell 0. The canonical form is strictly
rising numbers and no listed 0 (see `Sys2Proof.Machine.Sparse.wf`). -/
abbrev Sparse (w : Nat) := List (Nat × BitVec w)

/-- Byte-addressed memory: unlisted bytes read as zero (the fill of R365, the wipes of R84). -/
abbrev Mem := Sparse 8

end Sys2Proof
end

