-- ==== Sys2Proof/Syntax.lean ====
section
/-!
DEFINITION. The commands of the block as syntax: `Instr`, one constructor per row of the opcode
table, and the plain data its operands are made of.
-/

namespace Sys2Proof

/-- The guard of an epilogue instruction (R180, R222): predicate register, negated, enabled. -/
structure Guard where
  g  : BitVec 3
  gn : Bool
  ge : Bool
  deriving DecidableEq, Repr

/-- One request present at an arbiter (R143, R144): the requester's number, its class, and, for the
mover of an engine core, the transfer slot whose next burst it asks for. -/
structure GrantReq where
  requester : Fin 39
  cls       : Fin 4
  slot      : Fin 8
  deriving DecidableEq, Repr

/-- The place of a superblock (R312): die set 0 to 143 and block number 0 to 14,152. -/
structure SbLoc where
  dieSet : Fin 144
  block  : Fin 14153
  deriving DecidableEq, Repr

/-- A program of a log block: the superblock that opens where one has to, and whether every program succeeds (R320,
R332; log 58). -/
structure LogProgram where
  loc  : SbLoc
  good : Bool
  deriving DecidableEq, Repr

/-- The end of a merge's copy: its logical block, and whether every program of the copy succeeded (R326, R332; log 58). -/
structure MergeEnd where
  lb   : Nat
  good : Bool
  deriving DecidableEq, Repr

/-- What a flash page holds whose LDPC decode failed (R329): sectors of a superblock, or a page of a stored
model or index. -/
inductive RebuildAt where
  | sectors (loc : SbLoc) (list : List Nat)
  | object (copy page : Nat)
  deriving DecidableEq, Repr

/-- A Spool frame as received or sent (R343). `guarded` says that it travelled protected under its
link key (R344); `good` that its tag, or its CRC in clear, was correct (R345). -/
structure Frame where
  ftype      : BitVec 8
  flags      : BitVec 8
  hops       : BitVec 8
  resv       : BitVec 8
  dst        : BitVec 16
  src        : BitVec 16
  tenant     : BitVec 16
  payloadLen : BitVec 16
  reqId      : BitVec 32
  offset     : BitVec 64
  arg        : BitVec 32
  lseq       : BitVec 32
  payload    : List Byte
  guarded    : Bool
  good       : Bool
  deriving DecidableEq, Repr

/-- The HELLO message of a peer (R343): its module ID, its life-cycle state code (R387) and its
certificate chain. -/
structure PeerHello where
  id      : BitVec 12
  lcState : BitVec 2
  chain   : List Byte
  deriving DecidableEq, Repr

/-- An SPDM 1.3 request (R401): measurements by index, the certificate chain, a key exchange (with
the requester's chain for mutual authentication, R382), the end of a session, any other request. -/
inductive SpdmMsg where
  | getMeasurement (index : Nat)
  | getCertificate
  | keyExchange (requester : Option (List Byte))
  | endSession (session : Nat)
  | other (code : Nat)
  deriving DecidableEq, Repr

/-- The three cycle counts of a TAG body (R430) and its two condition flags. -/
structure TagTimes where
  held      : BitVec 32
  accept    : BitVec 32
  done      : BitVec 32
  throttled : Bool
  fetchMiss : Bool
  deriving DecidableEq, Repr

/-- Temperatures in °C as the THERMAL register holds them (17, THERMAL). -/
structure Temps where
  inlet   : BitVec 8
  outlet  : BitVec 8
  kebex   : BitVec 8
  steward : BitVec 8
  nand    : BitVec 8
  dram    : BitVec 8
  deriving DecidableEq, Repr

/-- A coded unit that a scrub reads (R358, R364): a beat of T1, or a 64-bit word of a core's operand
store or lane weight buffers, of shared staging or of the map store. -/
inductive ScrubUnit where
  | t1 (beat : Nat)
  | operandStore (core : Fin 32) (word : Nat)
  | laneBuffer (core : Fin 32) (word : Nat)
  | staging (word : Nat)
  | mapStore (word : Nat)
  deriving DecidableEq, Repr

/-- What a start meets (R446): whether the host link trains to x8 at 32 GT/s or better, its width and
rate (R33: 32, 64 or 128 GT/s), the recorded rows that test faulty, each by a unit of it (R363), whether the entropy and known-answer tests pass
(R403), whether every word of the firmware image can be read, the handles whose key-table slot cannot
(R400), and the hold-up bank's measured time in ms (R441). -/
structure StartEnv where
  linkUp   : Bool
  x16      : Bool
  rate     : Fin 3
  badRows  : List ScrubUnit
  testsGood : Bool
  imageGood : Bool
  lostKeys : List Nat
  holdupMs : Nat
  deriving DecidableEq, Repr

/-- How far a firmware commit gets (R396): to its reset, or to a loss of power or PERST# before step 6 has
programmed the first word, or after it and before the svn fuse of step 7. -/
inductive CommitEnd where
  | whole | beforeFirstWord | beforeFuse
  deriving DecidableEq, Repr

/-- The commands of the block: one constructor per row of `spec/opcode_table.json`, in the table's
order. The operands are the model's (the table gives none); an operand that stands for a choice of
the module or for an event of its surroundings is checked by the meaning (log 9). -/
inductive Instr where
  /-- APERTURE_WRITE (R34). -/
  | apertureWrite (off : Nat) (bytes : List Byte)
  /-- SQ_TAIL_DOORBELL (R41). -/
  | sqTailDoorbell (q : Nat) (v : BitVec 64)
  /-- CQ_HEAD_DOORBELL (R41). -/
  | cqHeadDoorbell (q : Nat) (v : BitVec 64)
  /-- PACKET_FETCH (R43). -/
  | packetFetch (q : Nat)
  /-- HEADER_RETRY_TIMEOUT (R51). -/
  | headerRetryTimeout (q : Nat)
  /-- CHAIN_TIMEOUT (R54). -/
  | chainTimeout (q : Nat)
  /-- CREATE_QUEUE (R47). -/
  | createQueue (cmd : Nat)
  /-- DELETE_QUEUE (R75). -/
  | deleteQueue (cmd : Nat)
  /-- RESET_QUEUE (R74). -/
  | resetQueue (cmd : Nat)
  /-- ABORT (R73). -/
  | abort (cmd : Nat)
  /-- SET_POWER_STATE (R76). -/
  | setPowerState (cmd : Nat)
  /-- POWER_STATE_EXIT (R77). -/
  | powerStateExit
  /-- CREATE_POD (R83). -/
  | createPod (cmd : Nat)
  /-- DELETE_POD (R83). -/
  | deletePod (cmd : Nat)
  /-- MOVE_CORES (R83). -/
  | moveCores (cmd : Nat)
  /-- MOVE_T1 (R85). -/
  | moveT1 (cmd : Nat)
  /-- MOVE_OBJECT (R86). -/
  | moveObject (cmd : Nat)
  /-- MOVE_QUEUE (R83). -/
  | moveQueue (cmd : Nat)
  /-- MOVE_SLOTS (R83). -/
  | moveSlots (cmd : Nat)
  /-- CREATE_VOLUME (R316). -/
  | createVolume (cmd n : Nat)
  /-- DELETE_VOLUME (R317). -/
  | deleteVolume (cmd : Nat)
  /-- READ (R64). -/
  | read (cmd : Nat)
  /-- WRITE (R62). -/
  | write (cmd : Nat)
  /-- DISCARD (R331). -/
  | discard (cmd : Nat)
  /-- SECURE_DISCARD (R331). -/
  | secureDiscard (cmd : Nat)
  /-- LOAD_MODEL (R257). -/
  | loadModel (cmd n : Nat)
  /-- UNLOAD_MODEL (R149). -/
  | unloadModel (cmd : Nat)
  /-- BUILD_INDEX (R285). -/
  | buildIndex (cmd n : Nat)
  /-- INSERT_CODES (R287). -/
  | insertCodes (cmd : Nat)
  /-- DELETE_CODES (R289). -/
  | deleteCodes (cmd : Nat)
  /-- COMPACT_INDEX (R310). -/
  | compactIndex (cmd : Nat)
  /-- DELETE_INDEX (R311). -/
  | deleteIndex (cmd : Nat)
  /-- SUBMIT_JOB (R92). -/
  | submitJob (cmd ctx : Nat)
  /-- INVOKE (R103). -/
  | invoke (cmd : Nat)
  /-- SEARCH (R299). -/
  | search (cmd : Nat)
  /-- RECLAIM (R110). -/
  | reclaim (cmd : Nat)
  /-- END_JOB (R111). -/
  | endJob (cmd : Nat)
  /-- GLOBAL_PERSISTENT_FLUSH (R32). -/
  | globalPersistentFlush
  /-- SPDM_MESSAGE (R401). -/
  | spdmMessage (msg : SpdmMsg)
  /-- IDE_KM_MESSAGE (R383). -/
  | ideKmMessage (session : Nat)
  /-- JOB_START (R95). -/
  | jobStart (ctx : Nat) (cores : List (Fin 32))
  /-- BUDGET_EXPIRY (R106). -/
  | budgetExpiry (core : Fin 32)
  /-- CUT_GRACE_EXPIRY (R109). -/
  | cutGraceExpiry (core : Fin 32)
  /-- REGION_END (R107). -/
  | regionEnd (ctx overrun : Nat)
  /-- NOP (R210). -/
  | nop (core : Fin 32)
  /-- B (R210). -/
  | b (core : Fin 32) (cond : BitVec 4) (off : BitVec 39)
  /-- CALL (R210). -/
  | call (core : Fin 32) (cond : BitVec 4) (off : BitVec 39)
  /-- RET (R183). -/
  | ret (core : Fin 32)
  /-- MOV (R211). -/
  | mov (core : Fin 32) (d a : BitVec 5)
  /-- MOVI (R211). -/
  | movi (core : Fin 32) (d : BitVec 5) (imm : BitVec 40)
  /-- MOVL (R211). -/
  | movl (core : Fin 32) (d : BitVec 5) (imm ext : BitVec 32)
  /-- ADD (R211). -/
  | add (core : Fin 32) (d a b : BitVec 5)
  /-- SUB (R211). -/
  | sub (core : Fin 32) (d a b : BitVec 5)
  /-- MUL (R211). -/
  | mul (core : Fin 32) (d a b : BitVec 5)
  /-- AND (R211). -/
  | and (core : Fin 32) (d a b : BitVec 5)
  /-- OR (R211). -/
  | or (core : Fin 32) (d a b : BitVec 5)
  /-- XOR (R211). -/
  | xor (core : Fin 32) (d a b : BitVec 5)
  /-- SHL (R211). -/
  | shl (core : Fin 32) (d a b : BitVec 5)
  /-- SHR (R211). -/
  | shr (core : Fin 32) (d a b : BitVec 5)
  /-- SAR (R211). -/
  | sar (core : Fin 32) (d a b : BitVec 5)
  /-- MIN (R211). -/
  | min (core : Fin 32) (d a b : BitVec 5)
  /-- MAX (R211). -/
  | max (core : Fin 32) (d a b : BitVec 5)
  /-- MINU (R211). -/
  | minu (core : Fin 32) (d a b : BitVec 5)
  /-- MAXU (R211). -/
  | maxu (core : Fin 32) (d a b : BitVec 5)
  /-- CMP (R205). -/
  | cmp (core : Fin 32) (a b : BitVec 5)
  /-- ADDI (R211). -/
  | addi (core : Fin 32) (d a : BitVec 5) (imm : BitVec 40)
  /-- SUBI (R211). -/
  | subi (core : Fin 32) (d a : BitVec 5) (imm : BitVec 40)
  /-- ANDI (R211). -/
  | andi (core : Fin 32) (d a : BitVec 5) (imm : BitVec 40)
  /-- ORI (R211). -/
  | ori (core : Fin 32) (d a : BitVec 5) (imm : BitVec 40)
  /-- XORI (R211). -/
  | xori (core : Fin 32) (d a : BitVec 5) (imm : BitVec 40)
  /-- SHLI (R211). -/
  | shli (core : Fin 32) (d a : BitVec 5) (imm : BitVec 40)
  /-- SHRI (R211). -/
  | shri (core : Fin 32) (d a : BitVec 5) (imm : BitVec 40)
  /-- SARI (R211). -/
  | sari (core : Fin 32) (d a : BitVec 5) (imm : BitVec 40)
  /-- CMPI (R205). -/
  | cmpi (core : Fin 32) (a : BitVec 5) (imm : BitVec 40)
  /-- MULI (R211). -/
  | muli (core : Fin 32) (d a : BitVec 5) (imm : BitVec 40)
  /-- MOVA (R211). -/
  | mova (core : Fin 32) (d a : BitVec 5)
  /-- MOVS (R211). -/
  | movs (core : Fin 32) (d a : BitVec 5)
  /-- ADDA (R211). -/
  | adda (core : Fin 32) (d a b : BitVec 5)
  /-- ADDAI (R211). -/
  | addai (core : Fin 32) (d a : BitVec 5) (imm : BitVec 40)
  /-- LD (R188). -/
  | ld (core : Fin 32) (d a : BitVec 5) (imm : BitVec 40)
  /-- ST (R188). -/
  | st (core : Fin 32) (d a : BitVec 5) (imm : BitVec 40)
  /-- MV_LOAD (R213). -/
  | mvLoad (core : Fin 32) (d a b c : BitVec 5) (imm : BitVec 32) (direct : Bool)
  /-- MV_STORE (R213). -/
  | mvStore (core : Fin 32) (d a b c : BitVec 5) (imm : BitVec 32) (direct : Bool)
  /-- MV_SPREAD (R170). -/
  | mvSpread (core : Fin 32) (d a b c : BitVec 5) (imm : BitVec 32) (direct : Bool)
  /-- MV_TLOAD (R171). -/
  | mvTload (core : Fin 32) (d a b c : BitVec 5) (imm : BitVec 32) (direct : Bool)
  /-- MV_TSTORE (R171). -/
  | mvTstore (core : Fin 32) (d a b c : BitVec 5) (imm : BitVec 32) (direct : Bool)
  /-- MV_WAIT (R214). -/
  | mvWait (core : Fin 32) (d : BitVec 5)
  /-- MV_STAT (R214). -/
  | mvStat (core : Fin 32) (d a : BitVec 5)
  /-- PASS_FP8 (R217). -/
  | passFp8 (core : Fin 32) (d a b : BitVec 5)
  /-- PASS_BF16C (R217). -/
  | passBf16c (core : Fin 32) (d a b : BitVec 5)
  /-- PASS_BF16 (R217). -/
  | passBf16 (core : Fin 32) (d a b : BitVec 5)
  /-- PASS_BIN (R218). -/
  | passBin (core : Fin 32) (d a b : BitVec 5)
  /-- PROLOGUE_RUN (R260). -/
  | prologueRun (core : Fin 32)
  /-- EPILOGUE_RUN (R258). -/
  | epilogueRun (core : Fin 32)
  /-- FINISH_RUN (R266). -/
  | finishRun (core : Fin 32)
  /-- VRACC (R222). -/
  | vracc (core : Fin 32) (g : Guard) (d : BitVec 5) (mod : BitVec 6)
  /-- VLD (R221). -/
  | vld (core : Fin 32) (d : BitVec 5) (imm : BitVec 40)
  /-- VST (R221). -/
  | vst (core : Fin 32) (d : BitVec 5) (imm : BitVec 40)
  /-- VMOV (R222). -/
  | vmov (core : Fin 32) (g : Guard) (d a : BitVec 5) (mod : BitVec 6)
  /-- VADD (R222). -/
  | vadd (core : Fin 32) (g : Guard) (d a b : BitVec 5)
  /-- VSUB (R222). -/
  | vsub (core : Fin 32) (g : Guard) (d a b : BitVec 5)
  /-- VMUL (R222). -/
  | vmul (core : Fin 32) (g : Guard) (d a b : BitVec 5)
  /-- VFMA (R222). -/
  | vfma (core : Fin 32) (g : Guard) (d a b : BitVec 5)
  /-- VMAX (R222). -/
  | vmax (core : Fin 32) (g : Guard) (d a b : BitVec 5)
  /-- VMIN (R222). -/
  | vmin (core : Fin 32) (g : Guard) (d a b : BitVec 5)
  /-- VEXP (R222). -/
  | vexp (core : Fin 32) (g : Guard) (d a : BitVec 5)
  /-- VRCP (R222). -/
  | vrcp (core : Fin 32) (g : Guard) (d a : BitVec 5)
  /-- VRSQRT (R222). -/
  | vrsqrt (core : Fin 32) (g : Guard) (d a : BitVec 5)
  /-- VREDMAX (R222). -/
  | vredmax (core : Fin 32) (g : Guard) (d a : BitVec 5)
  /-- VREDSUM (R222). -/
  | vredsum (core : Fin 32) (g : Guard) (d a : BitVec 5)
  /-- VCVT (R222). -/
  | vcvt (core : Fin 32) (g : Guard) (d a : BitVec 5) (mod : BitVec 6)
  /-- VPACK (R222). -/
  | vpack (core : Fin 32) (g : Guard) (d a : BitVec 5) (mod : BitVec 6)
  /-- VUNPK (R222). -/
  | vunpk (core : Fin 32) (g : Guard) (d a : BitVec 5) (mod : BitVec 6)
  /-- VCMPLT (R222). -/
  | vcmplt (core : Fin 32) (g : Guard) (d a b : BitVec 5) (mod : BitVec 6)
  /-- VCMPEQ (R222). -/
  | vcmpeq (core : Fin 32) (g : Guard) (d a b : BitVec 5) (mod : BitVec 6)
  /-- VIDX (R222). -/
  | vidx (core : Fin 32) (g : Guard) (d : BitVec 5) (mod : BitVec 6)
  /-- VTK (R222). -/
  | vtk (core : Fin 32) (g : Guard) (a b : BitVec 5) (mod : BitVec 6)
  /-- RSTAT (R267). -/
  | rstat (core : Fin 32) (g : Guard) (a : BitVec 5) (mod : BitVec 6)
  /-- RSGET (R269). -/
  | rsget (core : Fin 32) (g : Guard) (d : BitVec 5)
  /-- VENC (R249). -/
  | venc (core : Fin 32) (g : Guard) (d a : BitVec 5) (mod : BitVec 6)
  /-- ESTORE (R223). -/
  | estore (core : Fin 32) (imm : BitVec 40)
  /-- CBLOAD (R225). -/
  | cbload (core : Fin 32) (a : BitVec 5) (mod : BitVec 3) (imm : BitVec 40)
  /-- SCSET (R250). -/
  | scset (core : Fin 32) (d a : BitVec 5)
  /-- SCGET (R226). -/
  | scget (core : Fin 32) (d a : BitVec 5)
  /-- SCADV (R253). -/
  | scadv (core : Fin 32) (d : BitVec 5)
  /-- TK_ON (R227). -/
  | tkOn (core : Fin 32) (mod : BitVec 3) (imm : BitVec 40)
  /-- TK_OFF (R227). -/
  | tkOff (core : Fin 32)
  /-- TK_STRIPE (R227). -/
  | tkStripe (core : Fin 32) (a : BitVec 5)
  /-- TK_CLR (R227). -/
  | tkClr (core : Fin 32) (a b : BitVec 5)
  /-- TK_MERGE (R176). -/
  | tkMerge (core : Fin 32) (d a b c : BitVec 5) (imm : BitVec 32)
  /-- SR_WALK (R293). -/
  | srWalk (core : Fin 32) (a : BitVec 5)
  /-- SR_FILT (R302). -/
  | srFilt (core : Fin 32) (a : BitVec 5)
  /-- FENCE_U (R192). -/
  | fenceU (core : Fin 32)
  /-- BAR (R192). -/
  | bar (core : Fin 32)
  /-- CUT (R231). -/
  | cut (core : Fin 32)
  /-- TAKE (R102). -/
  | take (core : Fin 32) (a b : BitVec 5)
  /-- SYSRD (R233). -/
  | sysrd (core : Fin 32) (d : BitVec 5) (imm : BitVec 40)
  /-- END (R234). -/
  | endI (core : Fin 32)
  /-- ELOAD (R224). -/
  | eload (core : Fin 32) (d a : BitVec 5) (imm : BitVec 40)
  /-- TRANSFER_START (R191). -/
  | transferStart (core : Fin 32) (x : Fin 8)
  /-- ARBITER_GRANT (R144). -/
  | arbiterGrant (arb : Fin 66) (reqs : List GrantReq) (beats : Nat)
  /-- HOLD_CUT_OFF (R146). -/
  | holdCutOff (arb : Fin 66)
  /-- PROMOTION_GRANT (R126). -/
  | promotionGrant (copy page : Nat)
  /-- PROMOTION_END (R126). -/
  | promotionEnd (copy page : Nat) (good : Bool)
  /-- TILE_FAULT (R196). -/
  | tileFault (core : Fin 32)
  /-- JOB_FAULT (R197). -/
  | jobFault (ctx : Nat) (core : Option (Fin 32))
  /-- CORE_FENCE (R373). -/
  | coreFence (core : Fin 32) (repeated : Bool)
  /-- HEARTBEAT_TIMEOUT (R373). -/
  | heartbeatTimeout (core : Fin 32)
  /-- STAGING_PROGRAM (R320). -/
  | stagingProgram (lb : Nat) (p : LogProgram)
  /-- MERGE_START (R321). -/
  | mergeStart (lb : Nat) (locs : List SbLoc)
  /-- LOG_IDLE_TIMEOUT (R321). -/
  | logIdleTimeout (lb : Nat) (locs : List SbLoc)
  /-- MERGE_COMMIT (R326). -/
  | mergeCommit (e : MergeEnd)
  /-- SUPERBLOCK_ERASE (R326). -/
  | superblockErase (loc : SbLoc) (good : Bool)
  /-- RELOCATION (R334). -/
  | relocation (src dst : SbLoc)
  /-- JOURNAL_CHECKPOINT (R325). -/
  | journalCheckpoint
  /-- STRIPE_REBUILD (R329). -/
  | stripeRebuild (at_ : RebuildAt) (rebuilt : Bool)
  /-- DIE_FAIL (R330). -/
  | dieFail (dieSet : Fin 144) (die : Fin 16)
  /-- MAP_ENTRY_REBUILD (R369). -/
  | mapEntryRebuild (lb : Nat)
  /-- LIST_COMPACTION (R307). -/
  | listCompaction (index list : Nat)
  /-- STEWARD_LIST_COMMIT (R308). -/
  | stewardListCommit (index : Nat)
  /-- AUTO_COMPACTION (R310). -/
  | autoCompaction (index : Nat)
  /-- RD_REQ (R351). -/
  | rdReq (port : Fin 8) (f : Frame)
  /-- RD_RSP (R353). -/
  | rdRsp (port : Fin 8) (f : Frame)
  /-- WR_REQ (R354). -/
  | wrReq (port : Fin 8) (f : Frame)
  /-- WR_ACK (R354). -/
  | wrAck (port : Fin 8) (f : Frame)
  /-- NAK (R356). -/
  | nak (port : Fin 8) (f : Frame)
  /-- LINK (R345). -/
  | link (port : Fin 8) (f : Frame)
  /-- KEY (R402). -/
  | key (port : Fin 8) (f : Frame) (last : Bool)
  /-- HELLO (R342). -/
  | hello (port : Fin 8) (f : Frame) (peer : PeerHello)
  /-- SPOOL_REQUEST_TIMEOUT (R355). -/
  | spoolRequestTimeout (reqId : Nat)
  /-- PORT_TRAIN_START (R342). -/
  | portTrainStart (port : Fin 8)
  /-- PORT_TRAINING_DONE (R342). -/
  | portTrainingDone (port : Fin 8) (slow : Bool)
  /-- FEC_LOCK (R342). -/
  | fecLock (port : Fin 8)
  /-- PORT_STATE_TIMEOUT (R342). -/
  | portStateTimeout (port : Fin 8)
  /-- LINK_FRAME_TIMEOUT (R347). -/
  | linkFrameTimeout (port : Fin 8)
  /-- FEC_LOCK_LOSS (R347). -/
  | fecLockLoss (port : Fin 8)
  /-- ERROR_RATE_LIMIT (R347). -/
  | errorRateLimit (port : Fin 8)
  /-- REKEY_TIMER (R344). -/
  | rekeyTimer (port : Fin 8)
  /-- GUARD_KEY_WRITE (R415). -/
  | guardKeyWrite (v : BitVec 32)
  /-- GUARD_LOCK_TIMEOUT (R415). -/
  | guardLockTimeout
  /-- ADMIN_ENABLE (R418). -/
  | adminEnable (v : BitVec 32)
  /-- ADMIN_DISABLE (R419). -/
  | adminDisable (v : BitVec 32)
  /-- LC_GO (R390). -/
  | lcGo (v : BitVec 32) (whole : Bool) (env : StartEnv)
  /-- FW_STAGE (R395). -/
  | fwStage (v : BitVec 64)
  /-- FW_VERIFY_DONE (R395). -/
  | fwVerifyDone
  /-- FW_COMMIT (R396). -/
  | fwCommit (v : BitVec 64) (stop : CommitEnd) (env : StartEnv)
  /-- CF_OPERATION_DONE (R398). -/
  | cfOperationDone (erase : Bool) (result : Fin 4)
  /-- SPOOL_ID_WRITE (R342). -/
  | spoolIdWrite (v : BitVec 32)
  /-- SPOOL_PORT_ENABLE_WRITE (R342). -/
  | spoolPortEnableWrite (port : Fin 8) (v : BitVec 64)
  /-- EXPORT_WRITE (R350). -/
  | exportWrite (i : Fin 64) (v : BitVec 256)
  /-- INBOX_WRITE (R350). -/
  | inboxWrite (i : Fin 64) (v : BitVec 32)
  /-- SPLIT_WRITE (R366). -/
  | splitWrite (v : BitVec 32)
  /-- RAW_READ (R366). -/
  | rawRead (v : BitVec 32)
  /-- FLIP_ARM (R367). -/
  | flipArm (i : Fin 82) (v : BitVec 32)
  /-- SNAP_NOW (R428). -/
  | snapNow (v : BitVec 32)
  /-- DAILIES_RING_WRITE (R427). -/
  | dailiesRingWrite (v : BitVec 64)
  /-- CNT_SEL_WRITE (R426). -/
  | cntSelWrite (i : Fin 1320) (v : BitVec 32)
  /-- SAMPLE_CFG_WRITE (R431). -/
  | sampleCfgWrite (core : Fin 32) (v : BitVec 32)
  /-- WIDE_REGISTER_READ (R409). -/
  | wideRegisterRead (off size : Nat)
  /-- REGISTER_WRITE (R412). -/
  | registerWrite (off size : Nat) (v : BitVec 256)
  /-- PERIODIC_SNAPSHOT (R428). -/
  | periodicSnapshot
  /-- COUNTER_FOLD (R425). -/
  | counterFold (i : Fin 1320)
  /-- TAG_SAMPLE_DONE (R430). -/
  | tagSampleDone (core : Fin 32) (t : TagTimes)
  /-- EXACT_DRAIN (R431). -/
  | exactDrain (core : Fin 32)
  /-- METERING_INTERVAL (R116). -/
  | meteringInterval (rails : List Nat)
  /-- POWER_THROTTLE (R440). -/
  | powerThrottle (engine : Bool)
  /-- THERMAL_THROTTLE (R443). -/
  | thermalThrottle (t : Temps)
  /-- INLET_HIGH (R443). -/
  | inletHigh (t : Temps)
  /-- THERMAL_TRIP (R443). -/
  | thermalTrip (t : Temps)
  /-- HOLDUP_MEASURE (R441). -/
  | holdupMeasure (ms : Nat)
  /-- SCRUB (R364). -/
  | scrub (unit : ScrubUnit)
  /-- SELF_TEST_PERIODIC (R403). -/
  | selfTestPeriodic (pass : Bool)
  /-- ENTROPY_TEST_FAIL (R404). -/
  | entropyTestFail (retries : Option Bool)
  /-- WATCHDOG_EXPIRY (R404). -/
  | watchdogExpiry
  /-- POWER_APPLY (R446). -/
  | powerApply (env : StartEnv)
  /-- POWER_LOSS (R327). -/
  | powerLoss (bankHolds : Bool)
  /-- PERST_ASSERT (R437). -/
  | perstAssert
  /-- PERST_RELEASE (R446). -/
  | perstRelease (env : StartEnv)
  /-- PWRDIS_ASSERT (R437). -/
  | pwrdisAssert
  /-- PWRDIS_RELEASE (R437). -/
  | pwrdisRelease (env : StartEnv)
  /-- COOLANT_FLT_ASSERT (R437). -/
  | coolantFltAssert
  /-- COOLANT_FLT_RELEASE (R437). -/
  | coolantFltRelease
  /-- HOST_LINK_RESET (R383). -/
  | hostLinkReset (env : StartEnv)
  /-- MALFORMED_FRAME (R343). -/
  | malformedFrame (port : Fin 8) (f : Frame)
  /-- ILLEGAL_INSTRUCTION (R181). -/
  | illegalInstruction (core : Fin 32) (w0 w1 : BitVec 64)
  deriving DecidableEq, Repr

end Sys2Proof
end

