-- ==== Sys2Proof/Decode.lean ====
section
/-!
DEFINITION. The command that a table word spells. The rows of the opcode table give no bits (a command
is a write, a packet, a frame, an event), so no word spells one.
-/

namespace Sys2Proof

/-- The command that a word spells by the table's bits: no row of the table gives any (log 10). -/
def decodeTableWord (_nbits _w : Nat) : Option Instr := none

end Sys2Proof
end

