-- ==== Sys2Proof/Machine/Bits.lean ====
section
/-!
DEFINITION. Bit fields, little-endian fields (R8), CRC-32C (R49) and the sparse stores' operations.
-/

namespace Sys2Proof

/-! ### Sparse stores -/

/-- The cell numbered `k`. -/
def Sparse.get {w : Nat} (m : Sparse w) (k : Nat) : BitVec w :=
  match m with
  | [] => 0
  | (a, v) :: t => if a = k then v else Sparse.get t k

/-- `m` with cell `k` set to `v`, in canonical form when `m` is. -/
def Sparse.set {w : Nat} (m : Sparse w) (k : Nat) (v : BitVec w) : Sparse w :=
  match m with
  | [] => if v = 0 then [] else [(k, v)]
  | (a, x) :: t =>
    if a < k then (a, x) :: Sparse.set t k v
    else if a = k then (if v = 0 then t else (k, v) :: t)
    else if v = 0 then (a, x) :: t
    else (k, v) :: (a, x) :: t

/-- The canonical form: every listed number is at least `lo` and below the next, no listed 0. -/
def Sparse.wfFrom {w : Nat} (lo : Nat) (m : Sparse w) : Bool :=
  match m with
  | [] => true
  | (a, v) :: t => decide (lo ≤ a) && v != 0 && Sparse.wfFrom (a + 1) t

/-- The canonical form of a sparse store. -/
def Sparse.wf {w : Nat} (m : Sparse w) : Bool := Sparse.wfFrom 0 m

/-- The cells `base` to `base + vs.length - 1` as a store of their own. -/
def Sparse.ofList {w : Nat} (base : Nat) (vs : List (BitVec w)) : Sparse w :=
  match vs with
  | [] => []
  | v :: t => if v = 0 then Sparse.ofList (base + 1) t else (base, v) :: Sparse.ofList (base + 1) t

/-- `m` with the cells from `base` on replaced by `vs`. -/
def Sparse.splice {w : Nat} (m : Sparse w) (base : Nat) (vs : List (BitVec w)) : Sparse w :=
  m.filter (fun c => decide (c.1 < base)) ++
    (Sparse.ofList base vs ++ m.filter (fun c => decide (base + vs.length ≤ c.1)))

/-- `m` with the `n` cells from `base` on cleared. -/
def Sparse.clear {w : Nat} (m : Sparse w) (base n : Nat) : Sparse w :=
  m.filter (fun c => decide (c.1 < base) || decide (base + n ≤ c.1))

/-- The `n` cells from `base` on as a store numbered from 0. -/
def Sparse.extract {w : Nat} (m : Sparse w) (base n : Nat) : Sparse w :=
  (m.filter (fun c => decide (base ≤ c.1) && decide (c.1 < base + n))).map (fun c => (c.1 - base, c.2))

/-- `m` with the `n` cells from `base` on replaced by cells 0 to n - 1 of `x`. -/
def Sparse.paste {w : Nat} (m : Sparse w) (base n : Nat) (x : Sparse w) : Sparse w :=
  m.filter (fun c => decide (c.1 < base)) ++
    ((x.filter (fun c => decide (c.1 < n))).map (fun c => (c.1 + base, c.2)) ++
      m.filter (fun c => decide (base + n ≤ c.1)))

/-- The values of the `n` cells from `base` on, in order. -/
def Sparse.window {w : Nat} (m : Sparse w) (base n : Nat) : List (BitVec w) :=
  let part := m.filter (fun c => decide (base ≤ c.1) && decide (c.1 < base + n))
  (List.range n).map fun i => Sparse.get part (base + i)

/-! ### Little-endian fields and bit fields -/

/-- The little-endian value of bytes (R8). -/
def le (bs : List Byte) : Nat :=
  match bs with
  | [] => 0
  | b :: t => b.toNat + 256 * le t

/-- The `n` little-endian bytes of a value (R8). -/
def leBytes (n v : Nat) : List Byte :=
  match n with
  | 0 => []
  | n + 1 => BitVec.ofNat 8 v :: leBytes n (v / 256)

/-- Bytes `off` to `off + n - 1` of a list, zero past its end. -/
def bytesAt (bs : List Byte) (off n : Nat) : List Byte :=
  let part := (bs.drop off).take n
  part ++ List.replicate (n - part.length) 0

/-- The `n`-byte little-endian field at `off`. -/
def fieldAt (bs : List Byte) (off n : Nat) : Nat := le (bytesAt bs off n)

/-- Bits `hi` down to `lo` of a value (R7). -/
def bits (v hi lo : Nat) : Nat := v / 2 ^ lo % 2 ^ (hi + 1 - lo)

/-- Bit `n` of a value (R7). -/
def bitOf (v n : Nat) : Bool := v / 2 ^ n % 2 = 1

/-- 1 for true. -/
def b2n (b : Bool) : Nat := if b then 1 else 0

/-- Whether every byte is zero. -/
def allZero (bs : List Byte) : Bool := bs.all (· == 0)

/-- Rounding up to a multiple. -/
def roundUp (v m : Nat) : Nat := (v + m - 1) / m * m

/-- ⌈v ÷ m⌉. -/
def ceilDiv (v m : Nat) : Nat := (v + m - 1) / m

/-- The number of 1 bits of `n` low bits of a value (R18). -/
def popcountNat (n v : Nat) : Nat :=
  match n with
  | 0 => 0
  | n + 1 => v % 2 + popcountNat n (v / 2)

/-- The number of 1 bits of a bit vector (R18). -/
def popcount {w : Nat} (v : BitVec w) : Nat := popcountNat w v.toNat

/-- Memory bytes `base` to `base + n - 1`. -/
def Mem.bytes (m : Mem) (base n : Nat) : List Byte := Sparse.window m base n

/-- Memory with bytes written from `base` on. -/
def Mem.write (m : Mem) (base : Nat) (bs : List Byte) : Mem := Sparse.splice m base bs

/-- The `n`-byte little-endian field of memory at `base`. -/
def Mem.field (m : Mem) (base n : Nat) : Nat := le (Mem.bytes m base n)

/-- The bytes of word `u` of a store with a mask applied. -/
def Mem.xorWord (m : Mem) (u : Nat) (mask : BitVec 64) : Mem :=
  Mem.write m (8 * u) (leBytes 8 ((BitVec.ofNat 64 (Mem.field m (8 * u) 8) ^^^ mask).toNat))

/-! ### CRC-32C -/

/-- Eight steps of the reflected Castagnoli polynomial. -/
def crcStep (n : Nat) (c : BitVec 32) : BitVec 32 :=
  match n with
  | 0 => c
  | n + 1 => crcStep n (if c.getLsbD 0 then (c >>> 1) ^^^ 0x82F63B78#32 else c >>> 1)

/-- The CRC register after more bytes. -/
def crcBytes (c : BitVec 32) (bs : List Byte) : BitVec 32 :=
  match bs with
  | [] => c
  | b :: t => crcBytes (crcStep 8 (c ^^^ b.zeroExtend 32)) t

/-- CRC-32C over bytes (R49), with the usual initial and final complement (log 23). -/
def crc32c (bs : List Byte) : Nat := (~~~ (crcBytes 0xFFFFFFFF#32 bs)).toNat

/-! ### Association lists -/

/-- The value listed under a key. -/
def lookupD {α : Type} (l : List (Nat × α)) (k : Nat) (d : α) : α :=
  match l with
  | [] => d
  | (a, v) :: t => if a = k then v else lookupD t k d

/-- The list with the key's value replaced or added at its place. -/
def assocSet {α : Type} (l : List (Nat × α)) (k : Nat) (v : α) : List (Nat × α) :=
  match l with
  | [] => [(k, v)]
  | (a, x) :: t =>
    if a < k then (a, x) :: assocSet t k v
    else if a = k then (k, v) :: t
    else (k, v) :: (a, x) :: t

/-- The list without the key. -/
def assocDrop {α : Type} (l : List (Nat × α)) (k : Nat) : List (Nat × α) :=
  l.filter (fun c => decide (c.1 ≠ k))

end Sys2Proof
end

