-- ==== Sys2Proof/Config.lean ====
section
/-!
DEFINITION. What the manual leaves open: free values without a body, and the functions that the
manual takes from standards outside itself (cryptography, R381) or does not publish (R352, R367).
Nothing in Lean can evaluate any of them, so a statement about one holds whatever it is.
-/

namespace Sys2Proof.Config

/-- The free value number `n` (log 3): each use takes the next number from `State.free`.
A field of `w` bits takes it modulo 2^w. -/
opaque freeValue : Nat → Nat

/-- ML-DSA-87 verification of a signature over the SHA3-512 digest of the message, under a public
key (R381, FIPS 204): message, key, signature (log 8). -/
opaque mldsaVerify : List Byte → List Byte → List Byte → Bool

/-- SHA3-512 (R381, FIPS 202; log 8). -/
opaque sha3 : List Byte → BitVec 512

/-- KMAC256 (R381, SP 800-185): key, label, context, bytes of output (log 8). -/
opaque kmac256 : List Byte → List Byte → List Byte → Nat → List Byte

/-- AES-256-KW (R381, SP 800-38F): a secret of 256 bits wrapped under a key, in 40 bytes (R386; log 8). -/
opaque keyWrap : List Byte → BitVec 256 → List Byte

/-- The device unique secret of the fuses (R384; log 8). -/
opaque dus : List Byte

/-- The digests of the four vendor keys of the boot ROM (R392; log 8). -/
opaque vendorKeyDigest : Nat → BitVec 512

/-- The Ezsin service key named in the boot ROM (R388; log 8). -/
opaque serviceKey : List Byte

/-- The SHA3-512 digest of the boot ROM (R401; log 8). -/
opaque bootRomDigest : BitVec 512

/-- The decimal digits of the module's serial: 0 to 3 year and week of assembly, 4 to 9 the sequence (R3; log 6). -/
opaque serialDigit : Nat → Fin 10

/-- The four characters of its site code (R3; log 6). -/
opaque siteCode : Fin 4 → Byte

/-- The 16 characters YYWW-SSSS-NNNNNN of the module's serial (R3): a fuse value that differs from module to module. -/
def serialText : List Byte :=
  let digit := fun (i : Nat) => 0x30#8 + BitVec.ofNat 8 (serialDigit i).val
  [digit 0, digit 1, digit 2, digit 3, 0x2D#8, siteCode 0, siteCode 1, siteCode 2, siteCode 3, 0x2D#8,
   digit 4, digit 5, digit 6, digit 7, digit 8, digit 9]

/-- The serial as ID_SERIAL holds it (R417). -/
def serial : BitVec 128 := BitVec.ofNat 128 (serialText.foldr (fun b n => b.toNat + 256 * n) 0)

/-- Whether a requester certificate chain ends in the given owner key (R382; log 8). -/
opaque chainEndsIn : List Byte → List Byte → Bool

/-- Whether a peer's chain verifies to an Ezsin root (R402 step 1; log 8). -/
opaque chainVerifies : List Byte → Bool

/-- Whether measurement 4 of the peer whose chain this is equals the given owner key's digest
(R402 step 1; log 8). -/
opaque peerOwnerMatches : List Byte → List Byte → Bool

/-- Whether one message of the SECURE exchange is correctly signed (R402; log 8). -/
opaque keyMessageGood : List Byte → Bool

/-- The check bits of the 64-bit word at an address (R358): the code is not published (R367; log 22). -/
opaque eccCheck : Nat → BitVec 64 → BitVec 8

/-- The outcome of a read whose error exceeds what the code always detects (R367): 0 reported
uncorrectable, 1 delivered with one further bit changed, 2 delivered unchanged; a function of the
address, the data mask and the check mask (log 22). -/
opaque eccBeyond : Nat → BitVec 64 → BitVec 8 → Nat

/-- The further bit (0 to 63) that outcome 1 of `eccBeyond` changes (R367; log 22). -/
opaque eccExtraBit : Nat → BitVec 64 → BitVec 8 → Nat

/-- The physical row of a coded unit (R363: which units share a row is not exposed): memory (0 T1, then
operand store and lane buffers of each core), unit (log 27). -/
opaque eccRow : Nat → Nat → Nat

/-- The beat of a page of a copy that is the first to be written through a T1 port (R142, R367; log 22). -/
opaque portBeat : Nat → Nat → Nat → Nat

/-- The macro or T1 bank in which a coded unit of a memory lies (R362, R363: it is not exposed; log 27). -/
opaque eccMacro : Nat → Nat → Nat

/-- The T1 port that serves an address of the aperture or of a page that no grant names (R142, R367):
the interleave is not stated (log 22). -/
opaque t1Port : Nat → Nat

/-- The hash of source, destination and request number that chooses among active ports (R352; log 21). -/
opaque routeHash : Nat → Nat → Nat → Nat

/-- The parts of the module's certificate chain before and after the serial of its device certificate (R382, R401;
log 8). -/
opaque chainHead : List Byte
/-- See `chainHead`. -/
opaque chainTail : List Byte

/-- The module's certificate chain (R3, R382, R401): its device certificate carries the serial of the identity
registers. -/
def ownChain : List Byte := chainHead ++ serialText ++ chainTail

/-- The bytes of a HELLO message (R343): module ID, life-cycle state code and certificate chain. The manual does not
give their layout (log 24). -/
opaque helloMessage : BitVec 12 → Nat → List Byte → List Byte

/-- The bytes of the module's next message of a SECURE exchange (R402), by a free number (log 24). -/
opaque keyMessage : Nat → List Byte

/-- What the payload of a received LINK frame says (R343, R345; its layout is not given, log 24): the
first lseq that the peer has not accepted, whether it asks for a resend, and the credits that it returns
on each of the four channels. -/
opaque linkAck : List Byte → Nat
/-- See `linkAck`. -/
opaque linkResend : List Byte → Bool
/-- See `linkAck`. -/
opaque linkCredit : List Byte → Nat → Nat

/-- The bytes of a Cut record slot that the manual leaves to the module (R450): job handle, CUTS of
the record, slot, rank, byte offset in the slot (log 17). -/
opaque cutModuleByte : Nat → Nat → Nat → Nat → Nat → Byte

/-- The codes that VENC writes with a table that breaks R236 (undefined, R5): element, scale (log 19). -/
opaque vencUndefined : BitVec 32 → BitVec 16 → Nat

end Sys2Proof.Config
end

