-- ==== Sys2Proof/Machine/State.lean ====
section
/-!
DEFINITION. The state of the module as plain data: everything the manual gives the EZK-7210, and the
queue of commands that wait. Bit vectors hold what the manual treats as bits; handles, offsets,
counts and sizes parsed from little-endian fields are natural numbers.
-/

namespace Sys2Proof.Machine

/-! ### Status codes and reasons -/

/-- The status codes of R78. -/
inductive Status where
  | ok | okUnderfilled | okReplayed
  | badPacket | chainBroken | queueHalted | notBound | outOfRange | stateBusy
  | aborted | queueReset | resetAfterBegin
  | noSpaceWorn | mediaUncorrectable | weightsLost | readOnly
  | engineFault | scaleSkew | doubleFault | budgetOverrun | pageFaultFatal
  | indexBusy | compactionRequired
  | authFail | locked
  | fabricUnreachable
  deriving DecidableEq, Repr

/-! ### Command transport (chapter 02) -/

/-- The end of a command that has been decided but whose last completion packet may still wait for
its turn (R65): status, result0, result1 and payload. -/
structure Verdict where
  status  : Status
  result0 : Nat := 0
  result1 : Nat := 0
  payload : List Byte := []
  deriving DecidableEq, Repr

/-- A sector's stored content; `bad` marks it lost (R329). It is stored as ciphertext (R319): `sealing` names the
handle of the object whose XTS key encrypted it and the sector number in its tweak (R315, R385), and `data` is what the
decryption under that key and address gives. -/
structure Sector where
  data : Mem
  bad  : Bool := false
  sealing : Option (Nat × Nat) := none
  deriving DecidableEq, Repr

/-- A fetched command without a written final completion (R43, R49, R54, R58). -/
structure Cmd where
  uid       : Nat
  queue     : Nat
  opcode    : Nat
  tag       : Nat
  fence     : Bool
  noIntr    : Bool
  hostTime  : Nat
  object    : Nat
  p0        : Nat
  p1        : Nat
  p2        : Nat
  /-- Payload bytes received so far (R55). -/
  payload   : List Byte
  /-- The chain has arrived whole. -/
  whole     : Bool
  /-- `chain_index` that the next packet of an open chain must carry (R54). -/
  nextIndex : Nat
  /-- The command has passed its commit point (R72). -/
  begun     : Bool
  /-- Completion packets produced so far (R58). -/
  posted    : Nat
  /-- The sequence number, assigned with the first packet written (R69). -/
  seqNo     : Option Nat
  /-- Sectors of a WRITE already staged, identifiers already deleted (R63, R74). -/
  progress  : Nat
  verdict   : Option Verdict
  /-- The final packet has been produced (it may be held by a full ring, R46). -/
  finished  : Bool
  /-- What the sectors held that a WRITE of an open chain has staged: logical block, sector, content (R52). -/
  undo      : List (Nat × Nat × Sector) := []
  deriving DecidableEq, Repr

/-- A completion packet that waits for room in its ring (R46). -/
structure Cpl where
  uid        : Nat
  status     : Status
  chain      : Bool
  result0    : Nat
  result1    : Nat
  chainIndex : Nat
  payload    : List Byte
  tag        : Nat
  opcode     : Nat
  hostTime   : Nat
  noIntr     : Bool
  deriving DecidableEq, Repr

/-- A RESET_QUEUE or DELETE_QUEUE in progress on a queue (R74, R75). -/
structure ResetJob where
  uid    : Nat
  count  : Nat
  delete : Bool
  deriving DecidableEq, Repr

/-- A chain whose later packets are consumed without completion (R73, R369). -/
structure Discard where
  tag       : Nat
  opcode    : Nat
  nextIndex : Nat
  deriving DecidableEq, Repr

/-- A queue (R37 to R48). Queue 0 is the admin queue. -/
structure Queue where
  id       : Nat
  pod      : Nat
  cls      : Nat
  sqLog2   : Nat
  cqLog2   : Nat
  sqOffset : Nat
  cqAddr   : Nat
  vector   : Nat
  sqHead   : Nat := 0
  sqTail   : Nat := 0
  /-- The LAP expected of a header at the head (R50). -/
  lap      : Bool := false
  cqHead   : Nat := 0
  cqTail   : Nat := 0
  /-- The PHASE of the next completion header (R57): 1 on the first pass. -/
  phase    : Bool := true
  seq      : Nat := 0
  halted   : Bool := false
  held     : List Cpl := []
  /-- The fetched command whose chain is open. -/
  chain    : Option Nat := none
  discard  : Option Discard := none
  resetting : Option ResetJob := none
  deriving DecidableEq, Repr

/-- The admin queue's registers (R418, R419). -/
structure Admin where
  sqOffset : Nat := 0
  cqAddr   : Nat := 0
  err      : Bool := false
  ready    : Bool := false
  cqLog2   : BitVec 5 := 0
  sqLog2   : BitVec 5 := 0
  enable   : Bool := false
  /-- A write of ENABLE as 0 is draining the queue (R419). -/
  draining : Bool := false
  deriving DecidableEq, Repr

/-- The host-link domain: the aperture, the queues and the host-link registers. -/
structure Transport where
  aperture : Mem := []
  admin    : Admin := {}
  queues   : List Queue := []
  cmds     : List Cmd := []
  nextUid  : Nat := 0
  dbErr    : Sparse 64 := []
  regEvent : BitVec 5 := 0
  guardOpen : Bool := false
  /-- One shadow per wide register, by the register's byte offset in BAR0 (R409). -/
  shadow   : Sparse 256 := []
  linkUp   : Bool := false
  x16      : Bool := false
  rate     : BitVec 2 := 0
  ide      : Bool := false
  session  : Bool := false
  deriving DecidableEq, Repr

/-- An answer of the module to an SPDM request (R401). -/
inductive SpdmReply where
  | measurement (index : Nat) (value : List (BitVec 512))
  | chain (bytes : List Byte)
  | session (number : Nat) (user : Bool)
  | ended (number : Nat)
  | answered (code : Nat)
  | error
  deriving DecidableEq, Repr

/-- What the module has put outside itself: host memory (R31), MSI-X vectors raised (R45), the value
of the last BAR0 read (R408), the MSI-X table (R406), acknowledged flushes (R32), SPDM replies. -/
structure HostSide where
  mem       : Mem := []
  vectors   : List Nat := []
  readData  : BitVec 256 := 0
  msix      : Sparse 32 := []
  gpfAcks   : Nat := 0
  spdm      : List SpdmReply := []
  deriving DecidableEq, Repr

/-! ### Engine cores (chapters 05 to 09) -/

/-- Direction and mode of a transfer (R169). -/
inductive XMode where
  | copy | spread | transpose
  deriving DecidableEq, Repr

/-- Transfer states (R139). STOPPED exists only inside a Cut record: see `SavedCore`. -/
inductive XState where
  | queued | active | parked | cutOff | stopped | done | failed
  deriving DecidableEq, Repr

/-- A mover transfer (R138, R139, R169, R187: captured at issue). -/
structure Xfer where
  state     : XState := .done
  store     : Bool := false
  mode      : XMode := .copy
  uaddr     : Nat := 0
  laddr     : Nat := 0
  rows      : Nat := 0
  rowBytes  : Nat := 0
  srcStride : Nat := 0
  dstStride : Nat := 0
  elem      : Nat := 1
  chunk     : Nat := 0
  direct    : Bool := false
  /-- Length of the longest written prefix, in beats (R138). -/
  progress  : Nat := 0
  /-- Consecutive cut-offs and the progress they started from (R147). -/
  cutOffs   : Nat := 0
  cutFrom   : Nat := 0
  /-- Beats asked for by remote requests (R353, R354). -/
  asked     : Nat := 0
  /-- A tile issued it as an ESTORE (R223): the tile whose pass has this place in the order of issue. -/
  estore    : Bool := false
  tile      : Nat := 0
  /-- Place in the order in which its core issues passes and transfers (R191). -/
  order     : Nat := 0
  /-- Program byte offset of the instruction that issued it (R199). -/
  pc        : Nat := 0
  deriving DecidableEq, Repr

/-- Pass modes (R157). -/
inductive PassMode where
  | fp8 | bf16c | bf16 | bin
  deriving DecidableEq, Repr

/-- A pass with the descriptor and registers captured at its issue, and its tile (R164, R216). -/
structure Tile where
  mode   : PassMode
  /-- Program byte offset of the pass instruction (R223). -/
  pc     : Nat
  sd     : Nat
  /-- Accumulator base, or TAG_BASE of PASS.BIN. -/
  sa     : Nat
  desc   : List Byte
  faults : Nat := 0
  /-- Place in the order in which its core issues passes and transfers: it tells the tile from every other (R190). -/
  order  : Nat := 0
  deriving DecidableEq, Repr

/-- One row statistic kept exactly (R268): counts of the special values, the largest element by
its order key, and the sum scaled by 2^298. -/
structure Stat where
  phase : Nat
  kind  : Nat
  row   : Nat
  nan   : Bool := false
  pinf  : Bool := false
  ninf  : Bool := false
  max   : Option (BitVec 32) := none
  sum   : Int := 0
  deriving DecidableEq, Repr

/-- A tile of a sweep. Its hold slot lies in local storage or the spill area (R270). -/
structure SweepTile where
  tile  : Tile
  /-- Phases that have ended for this tile. -/
  done  : Nat := 0
  faults : Nat := 0
  deriving DecidableEq, Repr

/-- A sweep (R265). -/
structure Sweep where
  tiles : List SweepTile := []
  ended : Bool := false
  half  : Bool := false
  stats : List Stat := []
  deriving DecidableEq, Repr

/-- A run that has begun and waits in its middle (R223, R258): how many instructions it has executed, how
many RSTATs of each kind and RSGETs among them, and its contributions so far (R267). -/
structure Run where
  /-- 0 prologue, 1 phase 0, 2 a finish run. -/
  kind  : Nat
  pos   : Nat := 0
  rstat : List Nat := [0, 0, 0]
  rsget : Nat := 0
  stats : List Stat := []
  /-- What a fault of the run restores (R259, R274): the V and P registers and the scale state of its slot as the run
  before left them. -/
  vregs : Sparse 32 := []
  pregs : Sparse 128 := []
  scale : List Byte := []
  deriving DecidableEq, Repr

/-- What a sequencer waits for. -/
inductive Hold where
  /-- MV.WAIT of a slot (R213). -/
  | wait (x : Nat)
  /-- FENCE.U: the STOREs issued before it (R192, R232), by issue order. -/
  | fence (upTo : Nat)
  | bar
  | cut
  /-- TAKE with its free places and Take table address (R201). -/
  | take (places : Nat) (table : Nat)
  /-- END (R234). -/
  | finished
  deriving DecidableEq, Repr

/-- The top-k unit (R173 to R175). -/
structure TopK where
  on      : Bool := false
  score   : Bool := false
  kLane   : Nat := 0
  /-- Entries in the list of each lane. The lists themselves lie in the lane weight buffers (R167). -/
  counts  : Sparse 16 := []
  /-- Stripe bytes by lane (R227): [6:4] log2 g, [3:0] s. -/
  stripes : Sparse 8 := []
  deriving DecidableEq, Repr

/-- Deviation of a stored unit from its code word (R358, R366, R367): data bits and check bits that
differ, by the unit's number. -/
structure EccMark where
  unit  : Nat
  data  : BitVec 64
  check : BitVec 8
  /-- The unit is known to be uncorrectable whatever its masks (R360, several words of a beat). -/
  lost  : Bool := false
  deriving DecidableEq, Repr

/-- The part of a core that a Cut saves (R97, R450). -/
structure SavedCore where
  /-- The value of CUTS that the record's Cut committed. -/
  cuts  : Nat
  pc    : Nat
  z     : Bool
  slt   : Bool
  ult   : Bool
  stack : List W64
  sregs : Sparse 64
  aregs : Sparse 64
  vregs : Sparse 32
  pregs : Sparse 128
  carry : Mem
  acc   : Sparse 32
  topk  : TopK
  /-- The bytes of the lane weight buffers that hold the top-k lists (R173). -/
  lists : Mem
  /-- Transfers not DONE, by slot (STOPPED, R139). -/
  xfers : List (Nat × Xfer)
  deriving DecidableEq, Repr

/-- An EXACT sample (R432). -/
structure ExactEntry where
  pc       : Nat
  word     : BitVec 16
  replayed : Bool
  latency  : BitVec 32
  deriving DecidableEq, Repr

/-- An instruction tagged under native sampling (R430). -/
structure TagMark where
  job  : Nat
  pc   : Nat
  word : BitVec 16
  deriving DecidableEq, Repr

/-- An engine core (R151, R153). Lanes are numbered 128 × row + lane. -/
structure Core where
  /-- The Pod that holds the core; none while fenced (R80, R373). -/
  pod      : Option Nat := some 0
  /-- The job context that holds the core, and the core's rank in it. -/
  job      : Option Nat := none
  rank     : Nat := 0
  pc       : Nat := 0
  z        : Bool := false
  slt      : Bool := false
  ult      : Bool := false
  stack    : List W64 := []
  hold     : Option Hold := none
  cutKind  : Nat := 3
  sregs    : Sparse 64 := []
  aregs    : Sparse 64 := []
  /-- V registers: element l of Vn at 128 × n + l. -/
  vregs    : Sparse 32 := []
  pregs    : Sparse 128 := []
  /-- Accumulator a of lane n at 16 × n + a. -/
  acc      : Sparse 32 := []
  os       : Mem := []
  /-- Lane weight buffers: byte o of lane n at 8192 × n + o. -/
  lwb      : Mem := []
  /-- Codebook entry i of table t (0 A, 1 B) of row r at 512 × r + 256 × t + i. -/
  cb       : Sparse 16 := []
  /-- Control part (first six bytes) of table t of row r at 2 × r + t. -/
  cbCtl    : Sparse 48 := []
  /-- Loaded epilogue program slots. -/
  progs    : List (Nat × List W64) := []
  /-- Scale state of slot e at 64 × e. -/
  scale    : Mem := []
  topk     : TopK := {}
  /-- Transfers X0 to X7; a slot that is absent is DONE with progress 0 (R214). -/
  xfers    : List (Nat × Xfer) := []
  /-- Place of the next pass or transfer in the order of issue. -/
  xorder   : Nat := 0
  /-- A pass that waits for its prologue (R220). -/
  opening  : Option Tile := none
  /-- Tiles whose phase-0 run has not ended, in issue order. -/
  tiles    : List Tile := []
  sweeps   : List Sweep := []
  sweepHalf : Bool := false
  /-- The run that has begun and waits (R223). -/
  run      : Option Run := none
  /-- The spill area: half h at 0x800000 × h (R270). -/
  spill    : Mem := []
  /-- Beats of a spilled hold slot that the unit still moves. -/
  spilling : Nat := 0
  /-- The count of R105, and that of R109. -/
  runCycles : Nat := 0
  windCycles : Nat := 0
  /-- The transfer slot whose beats the mover took last (R168). -/
  turn     : Nat := 7
  /-- The page that the walk or filter at the head of the sequencer waits for (R370), and its faults (R230). -/
  seek     : Option (Nat × Nat) := none
  searchFaults : Nat := 0
  /-- Job faults attributed to the core within the last 10 s (R373). -/
  faultCount : Nat := 0
  osEcc    : List EccMark := []
  lwbEcc   : List EccMark := []
  /-- Instructions counted since the last sample, and the open tag (R430, R431). -/
  sampled  : Nat := 0
  tagAt    : Nat := 0
  tag      : Option TagMark := none
  exact    : List ExactEntry := []
  deriving DecidableEq, Repr

/-! ### Pods and jobs (chapter 03) -/

/-- A Pod (R79, R80). Its cores, queues and objects are found by their owner fields. -/
structure Pod where
  id       : Nat
  granules : Nat
  slots    : Nat
  deriving DecidableEq, Repr

/-- The Slate's fields (R89). -/
structure Slate where
  kind          : Nat
  idleYield     : Bool
  carryTopk     : Bool
  carryAcc      : Bool
  cores         : Nat
  minCores      : Nat
  seqSlots      : Nat
  cls           : Nat
  carryBytes    : Nat
  budget        : Nat
  overrunLimit  : Nat
  cutGrace      : Nat
  programLen    : Nat
  entry         : Nat
  clientId      : Nat
  model         : Nat
  index         : Nat
  storyboard    : Nat
  storyboardLen : Nat
  writableBytes : Nat
  deriving DecidableEq, Repr

/-- Job states (R93). -/
inductive JobState where
  | ready | running | winding | ended
  deriving DecidableEq, Repr

/-- A Cut record slot of every rank (R97, R98, R450): the slot number, the CUTS value, the number of
ranks of its Cut; records beyond that number are those of an earlier Cut on more cores. -/
structure Cut where
  slot : Nat
  cuts : Nat
  n    : Nat
  recs : List SavedCore
  deriving DecidableEq, Repr

/-- The accounting of a job (R113 to R116). -/
structure Acct where
  runs          : Nat := 0
  engineCycles  : Nat := 0
  overrunCycles : Nat := 0
  t0Bytes       : Nat := 0
  t1Bytes       : Nat := 0
  t2Bytes       : Nat := 0
  t3Bytes       : Nat := 0
  hostLinkBytes : Nat := 0
  spoolBytes    : Nat := 0
  energyUj      : Nat := 0
  answered      : Nat := 0
  cuts          : Nat := 0
  overrunEvents : Nat := 0
  deriving DecidableEq, Repr

/-- Bytes that a job moved on each shared rail in the current metering interval (R116). -/
structure RailBytes where
  t1    : Nat := 0
  flash : Nat := 0
  host  : Nat := 0
  spool : Nat := 0
  deriving DecidableEq, Repr

/-- A request in a job's batch: its request number and its command (R201). -/
structure BatchReq where
  number : Nat
  uid    : Nat
  /-- The job has replayed since its admission (R198). -/
  replayed : Bool := false
  deriving DecidableEq, Repr

/-- How a job's end is recorded (R112, R115, R199). -/
structure JobEnd where
  cause      : Nat := 0
  faultCause : Nat := 0
  status     : Status := .ok
  deriving DecidableEq, Repr

/-- A job in its context (R91 to R116). -/
structure Job where
  ctx       : Nat
  handle    : Nat
  pod       : Nat
  slate     : Slate
  program   : Mem
  writable  : Mem := []
  /-- Resolved cores, fixed at the first start (R92), and the cores counted for T1 (R132). -/
  resolved  : Option Nat := none
  declared  : Nat
  state     : JobState := .ready
  /-- Order in which it became READY (R95). -/
  readyAt   : Nat := 0
  /-- READY only for a request or an END_JOB (R204). -/
  idleWait  : Bool := false
  /-- Engine cores in rank order. -/
  cores     : List Nat := []
  /-- WINDING for budget. -/
  budgetOut : Bool := false
  /-- Pending RECLAIM commands, each with the cycles of every core that held the job since its fetch (R110), the
  END_JOB commands, and the SUBMIT_JOB still without completion. -/
  reclaims  : List (Nat × List (Nat × Nat)) := []
  /-- RECLAIMs fetched and not yet acting, which a FENCE may hold, each like an entry of `reclaims` with the cycles
  of every core since its fetch (R110). -/
  watches   : List (Nat × List (Nat × Nat)) := []
  endJobs   : List Nat := []
  /-- END_JOB has stopped admission (it stays so when a queue reset ends the command). -/
  closing   : Bool := false
  reclaiming : Bool := false
  submit    : Option Nat := none
  pendingReqs : List Nat := []
  batch     : List BatchReq := []
  detached  : List Nat := []
  /-- Requests of reset queues that leave the batch at the next Take (R74). -/
  leaving   : List Nat := []
  nextReq   : Nat := 0
  takes     : Nat := 0
  cuts      : Nat := 0
  lastCut   : Option Cut := none
  prevCut   : Option Cut := none
  cursor    : Nat := 0
  /-- A recovery window of its Pod opened by this job (R376). -/
  window    : Bool := false
  /-- The next restore is a replay (R374). -/
  replayDue : Bool := false
  /-- Inside a non-pre-emptible region (R107). -/
  region    : Bool := false
  acct      : Acct := {}
  /-- engine_cycles as the status register last showed them (R421). -/
  shown     : Nat := 0
  rail      : RailBytes := {}
  ended     : JobEnd := {}
  faultAddr : Nat := 0
  faultPc   : Nat := 0xFFFFFFFFFFFFFFFF
  skew      : BitVec 64 := 0
  deriving DecidableEq, Repr

/-! ### Objects and pages (chapters 04, 08, 10, 11) -/

/-- Kinds of object (R121). -/
inductive ObjKind where
  | volume | model | index
  deriving DecidableEq, Repr

/-- A bound object (R121, R422). -/
structure Obj where
  handle   : Nat
  kind     : ObjKind
  num      : Nat
  pod      : Nat
  /-- Sectors of a volume; the stored copy of a model or index. -/
  sectors  : Nat := 0
  copy     : Nat := 0
  readOnly : Bool := false
  degraded : Bool := false
  deriving DecidableEq, Repr

/-- A list rewritten by compaction and ready for its commit (R307, R308). -/
structure ReadyList where
  list    : Nat
  s0      : Nat
  extent  : Nat
  codes   : Nat
  runs    : Nat
  first   : Nat
  /-- Identifiers dropped because they were DELETED at step 3. -/
  dropped : List Nat
  deriving DecidableEq, Repr

/-- An identifier that a commit made RETIRED and the requests it waits for (R291). -/
structure Retired where
  ident : Nat
  waits : List Nat
  deriving DecidableEq, Repr

/-- Compaction state of an index (R307 to R310). -/
structure IndexState where
  /-- A full compaction runs: the next list, and the lists rewritten so far. -/
  full     : Option (Nat × Nat) := none
  /-- The COMPACT_INDEX commands that end with it. -/
  waiting  : List Nat := []
  /-- A COMPACT_INDEX (not the module itself) runs. -/
  byCommand : Bool := false
  ready    : List ReadyList := []
  retired  : List Retired := []
  /-- Extents of the main area in use, as (offset, bytes). -/
  extents  : List (Nat × Nat) := []
  /-- Old extents, and side blocks, that leave once no transfer references them (R123, R308). -/
  leaving  : List (Nat × Nat) := []
  /-- Side blocks in use, and those that leave. -/
  sideUsed : List Nat := []
  sideLeaving : List Nat := []
  deriving DecidableEq, Repr

/-- The stored copy of a model or an index: its window's bytes (R119, R255, R279). -/
structure Copy where
  id      : Nat
  kind    : ObjKind
  size    : Nat
  mem     : Mem
  digest  : BitVec 512 := 0
  /-- Pages placed in T2, and in T3, in the order in which they were written: first page and number (R118). -/
  t2      : List (Nat × Nat) := []
  t3      : List (Nat × Nat) := []
  /-- Logical blocks that it takes (R316). -/
  lblocks : Nat := 0
  /-- Pages whose flash reads cannot be rebuilt (R329, R370). -/
  unreadable : List Nat := []
  /-- Pages of T1 metadata (R279). -/
  metaPages : Nat := 0
  index   : IndexState := {}
  deriving DecidableEq, Repr

/-- States of a read-only page (R126). -/
inductive PageState where
  | absent | queued | promoting | resident | poisoned
  deriving DecidableEq, Repr

/-- A read-only page that is not ABSENT, or that left a window (R124 to R136). -/
structure Page where
  copy    : Nat
  page    : Nat
  state   : PageState
  /-- Pods that count the frame against their share. -/
  claims  : List Nat := []
  /-- Pods whose claim waits until their share has room for it (R136, R137). -/
  wants   : List Nat := []
  /-- The job whose access started the promotion (R115). -/
  charged : Nat := 0
  /-- Last use by a Pod, and last time it left a Storyboard window of the Pod. -/
  used    : List (Nat × Nat) := []
  left    : List (Nat × Nat) := []
  deriving DecidableEq, Repr

/-! ### Arbiters (chapter 04) -/

/-- A grant in progress (R144 to R146), with the frame in progress at a Spool egress (R348). -/
structure Grant where
  req  : GrantReq
  frame : Option Frame := none
  /-- It moves beats of a spilled hold slot (R270). -/
  spill : Bool := false
  deriving DecidableEq, Repr

/-- One arbiter (R142, R144, R147). -/
structure Arb where
  cutEn    : Bool := true
  ageLimit : BitVec 8 := 32
  hold     : BitVec 64
  overrun  : BitVec 39 := 0
  /-- Requester last granted in each class. -/
  last     : List (Nat × Nat) := []
  /-- Grants to others that each waiting requester has seen, with its arrival order. -/
  waits    : List (Nat × Nat) := []
  grant    : Option Grant := none
  deriving DecidableEq, Repr

/-! ### Flash media (chapter 11) -/

/-- One entry of a log block: a sector, or a trim entry (R320). -/
structure LogEntry where
  sector : Nat
  data   : Option Sector
  deriving DecidableEq, Repr

/-- A log block of a chain (R318, R320). -/
structure LogBlock where
  loc     : SbLoc
  seq     : Nat
  entries : List LogEntry := []
  deriving DecidableEq, Repr

/-- A merge in progress (R322, R323): the new copy, its highest block sequence number, the jseq reserved for its
COMMIT record (R326), and whether the copy is closed and its record queued. -/
structure Merge where
  locs  : List SbLoc
  seq   : Nat
  jseq  : Nat
  frozen : List LogBlock
  kind  : Nat
  closed : Bool := false
  deriving DecidableEq, Repr

/-- A logical block (R316, R318): owner, mapped superblocks, chains. `num` is volume × 2^21 + part; blocks of a
stored copy of a model or index stand above the volumes', at (4096 + copy) × 2^21 + part, and their `content`
holds only the sectors that a change of the object has logged: the copy's bytes are `Copy.mem`. -/
structure LBlock where
  num     : Nat
  owner   : Nat
  /-- The index of this block in its object. -/
  part    : Nat
  mapped  : List SbLoc := []
  seq     : Nat := 0
  foldedThrough : Nat := 0
  /-- Content of the mapped superblock, by sector; an absent sector is zeros. -/
  content : List (Nat × Sector) := []
  chain   : List LogBlock := []
  merge   : Option Merge := none
  /-- When the chain received its last entry (R321 case 3). -/
  lastAt  : Nat := 0
  deriving DecidableEq, Repr

/-- Role of a superblock in use (R314, R336). -/
inductive SbRole where
  | free | mapped | log | copying | released | retired
  deriving DecidableEq, Repr

/-- Roles of the one-bit superblocks (R314). -/
inductive SbDuty where
  | t2 | log | journal | spare
  deriving DecidableEq, Repr

/-- A superblock that has been used (R312, R315, R332). -/
structure SBlock where
  loc   : SbLoc
  oneBit : Bool
  role  : SbRole
  /-- The role of R314; without meaning in four-bit mode. -/
  duty  : SbDuty := .spare
  /-- Its header (R315, R318, R324, R326): block sequence number, the jseq of the record that names it, the logical
  block it serves, folded_through, and the close marker of its last page. -/
  seq   : Nat := 0
  jseq  : Option Nat := none
  lblock : Nat := 0
  folded : Nat := 0
  closed : Bool := false
  /-- The first jseq after the record that releases it: not erased before that record is programmed (R326). -/
  freed : Nat := 0
  /-- A program has failed on one of its plane-blocks (R332). -/
  failing : Bool := false
  wear  : Nat := 0
  reads : Nat := 0
  rebuilt : Bool := false
  /-- Logical blocks whose sectors the block has held since its last erase (R331). -/
  owners : List Nat := []
  deriving DecidableEq, Repr

/-- A staged sector (R319), or a trim entry where it has no data, with the command that staged it. -/
structure Staged where
  lb     : Nat
  sector : Nat
  data   : Option Sector
  uid    : Option Nat := none
  deriving DecidableEq, Repr

/-- A journal record (R325). -/
structure JRec where
  jseq   : Nat
  type   : Nat
  lblock : Nat
  newSeq : Nat
  oldSeq : Nat
  /-- The superblocks of the copy that it names: the first is new_loc, and the others of a T2 logical block carry the
  record's jseq in their headers (R318, R326). -/
  newLocs : List SbLoc := []
  oldLoc : Option SbLoc := none
  deriving DecidableEq, Repr

/-- The flash array and its management. -/
structure Media where
  lblocks   : List LBlock := []
  sblocks   : List SBlock := []
  staging   : List Staged := []
  nextSeq   : Nat := 1
  nextJseq  : Nat := 0
  /-- The records programmed since the last checkpoint, oldest first (R325). -/
  journal   : List JRec := []
  /-- The jseq of the next record to be programmed, and the records that wait behind a reserved one (R325, R326). -/
  nextProg  : Nat := 0
  waiting   : List JRec := []
  /-- The jseq of the record after the last good one, torn by a loss of power (R327, R328). -/
  torn      : Option Nat := none
  /-- The map store in the last checkpoint: logical-block number and mapped superblocks. -/
  checkpoint : List (Nat × List SbLoc) := []
  /-- The superblock of the journal role in use, as its place in the ring of that role. -/
  ring      : Nat := 0
  /-- Logical blocks allocated (R316): the number in `LBlock.num` form of the first, its place among the 1,907,349
  logical blocks, and how many follow one another. -/
  runs      : List (Nat × Nat × Nat) := []
  /-- MEDIA_WEAR and MEDIA_SPARE have been written from the media since reset. -/
  shown     : Bool := false
  checkpointJseq : Nat := 0
  checkpoints : Nat := 0
  retired   : Nat := 0
  spareInitial : Nat := 98107
  failedDies : List (Nat × Nat) := []
  event     : BitVec 5 := 0
  wearState : Nat := 0
  wearTotal : Nat := 0
  deriving DecidableEq, Repr

/-! ### Spool (chapter 12) -/

/-- Port states (R342). -/
inductive PortState where
  | down | train | align | hello | secure | active
  deriving DecidableEq, Repr

/-- A Spool port. -/
structure Port where
  state   : PortState := .down
  fail    : Nat := 0
  peer    : BitVec 12 := 0
  slow    : Bool := false
  enable  : Bool := true
  /-- Whether each key slot is loaded, and the one that frames name (R344). -/
  keys    : Bool × Bool := (false, false)
  keyId   : Bool := false
  /-- Messages of the SECURE exchange or rekey received. -/
  keyStep : Nat := 0
  rekey   : Bool := false
  peerChain : List Byte := []
  /-- Next lseq to send and to accept (R345). -/
  txSeq   : Nat := 0
  rxSeq   : Nat := 0
  retry   : List Frame := []
  /-- Frames that wait for a grant of the port's egress and for credits, each with its requester (R346, R348). -/
  out     : List (Nat × Frame) := []
  /-- Credits in 64-byte units for the four virtual channels (R346). -/
  credits : List Nat := []
  txCount : Nat := 0
  deriving DecidableEq, Repr

/-- An EXPORT entry (R350). -/
structure Export where
  handle : Nat := 0
  tenant : Nat := 0
  cls    : Nat := 0
  valid  : Bool := false
  length : Nat := 0
  base   : Nat := 0
  deriving DecidableEq, Repr

/-- The INBOX entry of a Pod and its pages' bytes (R350). -/
structure Inbox where
  tenant : Nat := 0
  cls    : Nat := 0
  pages  : Nat := 0
  mem    : Mem := []
  deriving DecidableEq, Repr

/-- An outstanding remote request of a mover (R353 to R355). -/
structure RemoteReq where
  id       : Nat
  core     : Nat
  slot     : Nat
  /-- First beat of the transfer that it carries, and their number. -/
  beat     : Nat
  beats    : Nat
  /-- The source row of a block of a TRANSPOSE that it reads, and its bytes once they have arrived. -/
  piece    : Nat := 0
  got      : Option (List Byte) := none
  attempts : Nat
  port     : Nat
  frame    : Frame
  deriving DecidableEq, Repr

/-- The Spool block. -/
structure Spool where
  valid    : Bool := false
  hopLimit : BitVec 8 := 32
  moduleId : BitVec 12 := 0
  event    : BitVec 6 := 0
  ports    : List Port := List.replicate 8 {}
  exports  : List Export := List.replicate 64 {}
  inboxes  : List Inbox := List.replicate 64 {}
  /-- SPOOL_ROUTE by module ID, as the register holds it. -/
  routes   : Sparse 32 := []
  nextReq  : Nat := 0
  requests : List RemoteReq := []
  /-- Frames sent, with their port, latest first. -/
  sent     : List (Nat × Frame) := []
  /-- The bytes on the link of every HELLO and KEY frame sent, which travel in clear (R343, R344), latest first. -/
  clear    : List (Nat × List Byte) := []
  /-- Request numbers answered after more than one attempt, to which a further response may come, with the handle of
  the job (R355, R357). -/
  answered : List (Nat × Nat) := []
  serviceBytes : Nat := 0
  deriving DecidableEq, Repr

/-! ### Integrity, security, Dailies, hardware (chapters 13 to 17) -/

/-- An ECC_FLIP instance (R367). -/
structure Flip where
  armed : Bool := false
  check : BitVec 8 := 0
  word  : BitVec 3 := 0
  req   : BitVec 6 := 0
  mask  : BitVec 64 := 0
  deriving DecidableEq, Repr

/-- The Integrity block. -/
structure Integrity where
  event      : BitVec 5 := 0
  fenceCause : BitVec 64 := 0
  fenced     : BitVec 32 := 0
  poisonHandle : BitVec 64 := 0
  poisonRange  : BitVec 64 := 0
  /-- Copies whose first poisoned page since the last reset has been reported (R371). -/
  reported   : List Nat := []
  splitCore  : BitVec 5 := 0
  splitTarget : BitVec 2 := 0
  splitAddr  : BitVec 24 := 0
  splitData  : BitVec 64 := 0
  splitCheck : BitVec 8 := 0
  splitDone  : Bool := false
  splitRefused : Bool := false
  flips      : List (Nat × Flip) := []
  /-- Correctable errors per unit row in 24 h, and rows recorded for repair (R363). -/
  rowErrors  : List (ScrubUnit × Nat) := []
  repairs    : List ScrubUnit := []
  /-- The fuse map: rows that spare rows replace, each named by a unit of it (R362). -/
  fuses      : List ScrubUnit := []
  /-- Deviations of T1 beats (R367), by 8-byte word: see `t1Base`. -/
  t1Ecc      : List EccMark := []
  deriving DecidableEq, Repr

/-- Error state (R404). -/
inductive ErrState where
  | none | soft | hard
  deriving DecidableEq, Repr

/-- Life-cycle states (R387). -/
inductive LcState where
  | blank | seeded | service | retired
  deriving DecidableEq, Repr

/-- The firmware image of the code flash as the boot ROM finds it (R392, R394). -/
structure FwImage where
  stepping : Nat := 0xB0
  line     : Nat := 2
  svn      : Nat := 0
  keyIndex : Nat := 0
  /-- Header, vendor key, digest and signature hold (R392). -/
  genuine  : Bool := true
  digest   : BitVec 512 := 0
  /-- The execute-only range, first offset and first after it, and the first instruction (R394, R399). -/
  xoStart  : Nat := 0
  xoEnd    : Nat := 0
  entry    : Nat := 0
  deriving DecidableEq, Repr

/-- A live slot of the key table (R385, R386): the handle that it was written for, the stored copy whose handles it
serves (none for a volume), and the object secret that it holds, wrapped under the KEK. -/
structure KeySlot where
  handle : Nat
  copy   : Option Nat := none
  secret : BitVec 256 := 0
  deriving DecidableEq, Repr

/-- The security domain and the steward's code flash. -/
structure Security where
  lc        : LcState := .seeded
  changes   : Nat := 0
  erasedCount : Nat := 0
  entries   : Nat := 0
  ownerKey  : List Byte := []
  lcReason  : BitVec 8 := 0
  lcBusy    : Bool := false
  lcOffset  : BitVec 18 := 0
  nonce     : BitVec 256 := 0
  err       : ErrState := .none
  /-- 0 normal, 1 recovery, 2 committing an update. -/
  boot      : BitVec 2 := 0
  fwOffset  : BitVec 18 := 0
  fwLength  : BitVec 24 := 0
  fwReason  : BitVec 8 := 0
  /-- 0 NONE, 1 STAGING, 2 VERIFIED, 3 REFUSED, 4 COMMITTING. -/
  fwState   : BitVec 3 := 0
  staged    : List Byte := []
  /-- Aperture byte offset from which the image was staged (R393). -/
  stagedFrom : Nat := 0
  image     : Option FwImage := some {}
  svnMin    : BitVec 8 := 0
  svnRun    : BitVec 8 := 0
  revoked   : List Nat := []
  xoViolations : BitVec 16 := 0
  cfBusy    : Bool := false
  cfLastOp  : BitVec 3 := 0
  cfResult  : BitVec 4 := 0
  /-- The live slots of the key table (R386). -/
  keyTable  : List KeySlot := []
  /-- SPDM sessions by number, and whether each is one with a User; the one that set the IDE keys. -/
  sessions  : List (Nat × Bool) := []
  ideBy     : Option Nat := none
  deriving DecidableEq, Repr

/-- Selection of a counter slot that differs from its reset value, and its CHANGED mark (R426). -/
structure CntSel where
  slot    : Nat
  event   : BitVec 8
  level   : Bool
  changed : Bool
  deriving DecidableEq, Repr

/-- The Dailies (chapter 16). -/
structure Dailies where
  enable   : Bool := false
  period   : BitVec 16 := 10
  ringSize : Nat := 0
  ringOffset : Nat := 0
  head     : BitVec 32 := 0
  tail     : BitVec 32 := 0
  lostSamples : BitVec 32 := 0
  lostSnaps : BitVec 32 := 0
  sample   : Sparse 32 := []
  sel      : List CntSel := []
  /-- Slot 8b + c of block b, and its total. -/
  slots    : Sparse 48 := []
  totals   : Sparse 64 := []
  snap     : Nat := 0
  interval : Nat := 0
  since    : Nat := 0
  /-- Energy charged to no job, in µJ: engine, T1, flash, host link, Spool, steward, conversion. -/
  overhead : Sparse 64 := []
  deriving DecidableEq, Repr

/-- Where the module is in its start (R437, R446, R447). -/
inductive Phase where
  /-- No rail is on: P54 absent or PWRDIS active. -/
  | off
  /-- Only the always-on domain runs, after a coolant or thermal trip. -/
  | tripped
  /-- Rails on, held by PERST#. -/
  | held
  /-- Step 4 ended under R363: no command is ever accepted. -/
  | stuck
  /-- Started: steps 5 to 7 have been reached. -/
  | running
  deriving DecidableEq, Repr

/-- Power states (R444). -/
inductive PState where
  | active | standby | sleep
  deriving DecidableEq, Repr

/-- Pins, power, thermal and start-up (chapter 17). -/
structure Hw where
  phase    : Phase := .held
  p54      : Bool := true
  perst    : Bool := true
  pwrdis   : Bool := false
  coolant  : Bool := false
  /-- MODPRS# of each fabric cage, read active (R435). -/
  cages    : BitVec 4 := 0
  pstate   : PState := .active
  exiting  : Bool := false
  inputDv  : BitVec 12 := 0
  startStep : BitVec 4 := 0
  lastTrip : BitVec 2 := 0
  holdupWeak : Bool := false
  charged  : Bool := false
  thrFlash : Bool := false
  thrEngine : Bool := false
  /-- Whether the Gaffer has still to act on a meter reading that showed the engine cores, or the flash back-end, at their
  allowance (R27, R440). -/
  limEngine : Bool := false
  limFlash : Bool := false
  started  : Bool := false
  identify : Bool := false
  event    : BitVec 4 := 0
  temps    : Temps := ⟨0, 0, 0, 0, 0, 0⟩
  energy   : Sparse 64 := []
  /-- The last power-off wrote a SHUTDOWN record (R328). -/
  clean    : Bool := true
  deriving DecidableEq, Repr

/-- Why the machine stops. -/
inductive Fault where
  /-- Raised by APERTURE_WRITE for bytes outside the 1 GiB HDM range (R32): the address does not
  exist. Safe. -/
  | apertureRange
  deriving DecidableEq, Repr

/-- Why a command has no meaning. -/
inductive Refusal where
  /-- Raised by an arm whose command has no meaning yet. Safe. -/
  | notModelled (mnemonic : String)
  deriving DecidableEq, Repr

/-- The state of the module and the commands that wait. -/
structure State where
  /-- The commands that wait, first in, first out. -/
  pending : List Instr := []
  /-- The model's counter of free values (log 3). -/
  free    : Nat := 0
  /-- The model's order of events: ready times (R95), uses of pages (R135) (log 3). -/
  clock   : Nat := 0
  host    : HostSide := {}
  link    : Transport := {}
  cores   : List Core := List.replicate 32 {}
  pods    : List Pod := [{ id := 0, granules := 188, slots := 512 }]
  jobs    : List Job := []
  /-- Last generation used per (kind, number) of jobs and objects (R91, R121). -/
  gens    : List ((Nat × Nat) × Nat) := []
  objs    : List Obj := []
  copies  : List Copy := []
  nextCopy : Nat := 0
  pages   : List Page := []
  arbs    : List Arb := []
  media   : Media := {}
  spool   : Spool := {}
  integ   : Integrity := {}
  sec     : Security := {}
  dailies : Dailies := {}
  hw      : Hw := {}
  deriving DecidableEq, Repr

/-- ARB_HOLD after reset, classes 3 to 0 from the top (R142). -/
def Arb.resetHold (i : Nat) : BitVec 64 :=
  if i < 48 then 0x0400_0200_0100_0100
  else if i < 57 then 0x8000_4000_2000_2000
  else if i < 65 then 0x2000_1000_0800_0800
  else 0x0400_0200_0100_0100

/-- The 66 arbiters after reset (R142, R407). -/
def Arb.resetAll : List Arb := (List.range 66).map fun i => { hold := Arb.resetHold i }

/-- The module while PERST# is still held after power-on: every field at its After reset value
(R14), only Pod 0 (R79), every memory filled with zero (R365); LC_NONCE is a free value (DRBG).
PERST_RELEASE runs the start-up (log 4). -/
def State.reset : State :=
  { arbs := Arb.resetAll
    free := 1
    sec := { nonce := BitVec.ofNat 256 (Config.freeValue 0) } }

end Sys2Proof.Machine
end

