-- ==== Sys2Proof/Machine/Ops.lean ====
section
/-!
DEFINITION. The named operations over the state: access to cores, queues, jobs, objects, pages and
arbiters by number, event bits, vectors, counters, free values, and the completion of commands.
-/

namespace Sys2Proof.Machine

/-- What a meaning answers. -/
abbrev Result := Host.Outcome State Fault Refusal

/-! ### Status codes (R11, R78) -/

/-- The 16-bit value of a status (R78). -/
def Status.code (st : Status) : Nat :=
  match st with
  | .ok => 0x0000 | .okUnderfilled => 0x0001 | .okReplayed => 0x0002
  | .badPacket => 0x0101 | .chainBroken => 0x0102 | .queueHalted => 0x0103 | .notBound => 0x0104
  | .outOfRange => 0x0105 | .stateBusy => 0x0106
  | .aborted => 0x0110 | .queueReset => 0x0111 | .resetAfterBegin => 0x0112
  | .noSpaceWorn => 0x0201 | .mediaUncorrectable => 0x0202 | .weightsLost => 0x0203
  | .readOnly => 0x0204
  | .engineFault => 0x0301 | .scaleSkew => 0x0302 | .doubleFault => 0x0303
  | .budgetOverrun => 0x0304 | .pageFaultFatal => 0x0305
  | .indexBusy => 0x0401 | .compactionRequired => 0x0402
  | .authFail => 0x0501 | .locked => 0x0502
  | .fabricUnreachable => 0x0601

/-- Whether a status is of class 0x00: the command succeeded (R78). -/
def Status.success (st : Status) : Bool := decide (st.code < 0x100)

/-! ### Free values -/

/-- The next free value and the state that has used it (log 3). -/
def State.fresh (s : State) : Nat × State :=
  (Config.freeValue s.free, { s with free := s.free + 1 })

/-- The state one event later (log 3). -/
def State.later (s : State) : State := { s with clock := s.clock + 1 }

/-! ### Cores -/

/-- Engine core `i`. -/
def State.core (s : State) (i : Nat) : Core := s.cores.getD i {}

/-- The state with engine core `i` replaced. -/
def State.setCore (s : State) (i : Nat) (c : Core) : State := { s with cores := s.cores.set i c }

/-- The state with engine core `i` changed. -/
def State.modCore (s : State) (i : Nat) (f : Core → Core) : State := s.setCore i (f (s.core i))

/-! ### Queues and commands -/

/-- Queue `q`, if it exists. -/
def State.queue? (s : State) (q : Nat) : Option Queue := s.link.queues.find? (fun x => x.id == q)

/-- The state with a queue replaced. -/
def State.setQueue (s : State) (x : Queue) : State :=
  { s with link := { s.link with
      queues := s.link.queues.map (fun y => if y.id == x.id then x else y) } }

/-- The state with queue `q` changed, if it exists. -/
def State.modQueue (s : State) (q : Nat) (f : Queue → Queue) : State :=
  match s.queue? q with
  | some x => s.setQueue (f x)
  | none => s

/-- The fetched command numbered `u`, if it is outstanding. -/
def State.cmd? (s : State) (u : Nat) : Option Cmd := s.link.cmds.find? (fun c => c.uid == u)

/-- The state with an outstanding command changed. -/
def State.modCmd (s : State) (u : Nat) (f : Cmd → Cmd) : State :=
  { s with link := { s.link with
      cmds := s.link.cmds.map (fun c => if c.uid == u then f c else c) } }

/-- The state without an outstanding command. -/
def State.dropCmd (s : State) (u : Nat) : State :=
  { s with link := { s.link with cmds := s.link.cmds.filter (fun c => c.uid != u) } }

/-- The outstanding commands of a queue, in fetch order. -/
def State.cmdsOf (s : State) (q : Nat) : List Cmd := s.link.cmds.filter (fun c => c.queue == q)

/-! ### Jobs, Pods, objects, copies, pages, arbiters -/

/-- The job in context `c`. -/
def State.job? (s : State) (c : Nat) : Option Job := s.jobs.find? (fun j => j.ctx == c)

/-- The job that a handle names (R91). -/
def State.jobByHandle? (s : State) (h : Nat) : Option Job := s.jobs.find? (fun j => j.handle == h)

/-- The state with the job of context `c` changed. -/
def State.modJob (s : State) (c : Nat) (f : Job → Job) : State :=
  { s with jobs := s.jobs.map (fun j => if j.ctx == c then f j else j) }

/-- Pod `p`, if it exists. -/
def State.pod? (s : State) (p : Nat) : Option Pod := s.pods.find? (fun x => x.id == p)

/-- The state with Pod `p` changed. -/
def State.modPod (s : State) (p : Nat) (f : Pod → Pod) : State :=
  { s with pods := s.pods.map (fun x => if x.id == p then f x else x) }

/-- The object that a handle names (R121). -/
def State.obj? (s : State) (h : Nat) : Option Obj := s.objs.find? (fun o => o.handle == h)

/-- The state with the object of a handle changed. -/
def State.modObj (s : State) (h : Nat) (f : Obj → Obj) : State :=
  { s with objs := s.objs.map (fun o => if o.handle == h then f o else o) }

/-- Whether a key-table slot holds the object secret of an object (R385): a volume's own, or that of the copy which a
model's or an index's handle names. -/
def KeySlot.serves (k : KeySlot) (o : Obj) : Bool :=
  if o.kind = .volume then k.copy.isNone && k.handle == o.handle else k.copy == some o.copy

/-- A stored copy by number. -/
def State.copy? (s : State) (c : Nat) : Option Copy := s.copies.find? (fun x => x.id == c)

/-- The state with a stored copy changed. -/
def State.modCopy (s : State) (c : Nat) (f : Copy → Copy) : State :=
  { s with copies := s.copies.map (fun x => if x.id == c then f x else x) }

/-- A listed page of a copy; a page that is not listed is ABSENT. -/
def State.page? (s : State) (c p : Nat) : Option Page :=
  s.pages.find? (fun x => x.copy == c && x.page == p)

/-- The state of a page of a copy (R126). -/
def State.pageState (s : State) (c p : Nat) : PageState :=
  match s.page? c p with
  | some x => x.state
  | none => .absent

/-- Whether the data of a page of a copy cannot be had: it is POISONED, or lies only in flash that cannot be
rebuilt (R329, R370). -/
def State.pageLost (s : State) (c p : Nat) : Bool :=
  s.pageState c p == .poisoned ||
  (s.pageState c p != .resident && (s.copy? c).any (fun x => x.unreadable.contains p))

/-- The state with a page of a copy changed; the page is listed first if it was not. -/
def State.modPage (s : State) (c p : Nat) (f : Page → Page) : State :=
  match s.page? c p with
  | some _ =>
    { s with pages := s.pages.map (fun x => if x.copy == c && x.page == p then f x else x) }
  | none => { s with pages := s.pages ++ [f { copy := c, page := p, state := .absent }] }

/-- Arbiter instance `i` (R407). -/
def State.arb (s : State) (i : Nat) : Arb := s.arbs.getD i { hold := Arb.resetHold i }

/-- The state with arbiter `i` changed. -/
def State.modArb (s : State) (i : Nat) (f : Arb → Arb) : State :=
  { s with arbs := s.arbs.set i (f (s.arb i)) }

/-- The Spool port `i`. -/
def State.port (s : State) (i : Nat) : Port := s.spool.ports.getD i {}

/-- The state with Spool port `i` changed. -/
def State.modPort (s : State) (i : Nat) (f : Port → Port) : State :=
  { s with spool := { s.spool with ports := s.spool.ports.set i (f (s.port i)) } }

/-! ### Events, vectors, counters -/

/-- Sets bits of a register's event field (R16: a set bit stays until the host clears it). -/
def setBits {w : Nat} (v : BitVec w) (n : Nat) : BitVec w := v ||| BitVec.ofNat w (2 ^ n)

/-- Sets a bit of REG_EVENT. -/
def State.regEvent (s : State) (n : Nat) : State :=
  { s with link := { s.link with regEvent := setBits s.link.regEvent n } }

/-- Sets a bit of INTEGRITY_EVENT. -/
def State.integEvent (s : State) (n : Nat) : State :=
  { s with integ := { s.integ with event := setBits s.integ.event n } }

/-- Sets a bit of MEDIA_EVENT. -/
def State.mediaEvent (s : State) (n : Nat) : State :=
  { s with media := { s.media with event := setBits s.media.event n } }

/-- Sets a bit of SPOOL_EVENT. -/
def State.spoolEvent (s : State) (n : Nat) : State :=
  { s with spool := { s.spool with event := setBits s.spool.event n } }

/-- Sets a bit of HW_EVENT. -/
def State.hwEvent (s : State) (n : Nat) : State :=
  { s with hw := { s.hw with event := setBits s.hw.event n } }

/-- Raises an MSI-X vector (R45). -/
def State.raise (s : State) (v : Nat) : State :=
  { s with host := { s.host with vectors := s.host.vectors ++ [v] } }

/-- The number of counter slots of a block (R424). -/
def cntSlots (b : Nat) : Nat :=
  if b < 32 then 8 else if b < 80 then 4 else if b < 89 then 8 else if b = 89 then 8
  else if b < 165 then 4 else 0

/-- The number of event codes of a block (R424). -/
def cntEvents (b : Nat) : Nat :=
  if b < 32 then 13 else if b < 80 then 6 else if b < 89 then 10 else if b = 89 then 7
  else if b < 98 then 7 else if b = 98 then 4 else if b < 165 then 5 else 0

/-- Whether an event's natural mode is level (R424). -/
def cntNaturalLevel (b e : Nat) : Bool :=
  e == 0 ||
  (if b < 32 then e == 2 || e == 3 || e == 4 || e == 6 || e == 11
   else if b < 80 then e == 3
   else if b < 89 then false
   else if b = 89 then e == 6
   else if b < 98 then false
   else if b = 98 then e == 1
   else e == 4)

/-- The selection of slot `i` = 8b + c: event, level, CHANGED (R424, R426). -/
def State.cntSel (s : State) (i : Nat) : CntSel :=
  match s.dailies.sel.find? (fun x => x.slot == i) with
  | some x => x
  | none =>
    { slot := i, event := BitVec.ofNat 8 (i % 8), level := cntNaturalLevel (i / 8) (i % 8),
      changed := false }

/-- Counts `n` occurrences of event `e` in block `b` (R424): every slot of the block that selects the
event in edge mode advances, and reserved codes count nothing. Cycles in which an event holds are
added when the slot is folded (log 2). -/
def State.count (s : State) (b e n : Nat) : State :=
  let one := fun (m : Sparse 48) (c : Nat) =>
    let i := 8 * b + c
    if (s.cntSel i).event.toNat = e ∧ (s.cntSel i).level = false ∧ e < cntEvents b then
      Sparse.set m i (Sparse.get m i + BitVec.ofNat 48 n)
    else m
  { s with dailies := { s.dailies with
      slots := (List.range (cntSlots b)).foldl one s.dailies.slots } }

/-- Events that the model does not count, or not all of (log 2): fetch misses; beats and corrections of T1;
pages read, retried, rebuilt and promoted; host-link beats; frames sent again, and FEC corrections. -/
def cntLoose (b e : Nat) : Bool :=
  if b < 32 then e == 10 || e == 12
  else if b < 80 then e == 1 || e == 2 || e == 4
  else if b < 89 then e == 1 || e == 4 || e == 5 || e == 9
  else if b = 89 then e == 3 || e == 4
  else if b < 98 then e == 1 || e == 2 || e == 3 || e == 4
  else false

/-- Whether a slot counts something that the model does not count by itself: cycles in which an event
holds, occurrences of an event whose natural mode is level, or those of `cntLoose`. -/
def cntTimed (b : Nat) (x : CntSel) : Bool :=
  decide (x.event.toNat < cntEvents b) &&
  (x.level || cntNaturalLevel b x.event.toNat || cntLoose b x.event.toNat)

/-- Folds a slot into its total (R425). Cycle counts enter as a free value (log 2). -/
def State.foldSlot (s : State) (i : Nat) : State :=
  let timed := cntTimed (i / 8) (s.cntSel i)
  let v := Sparse.get s.dailies.slots i + (if timed then BitVec.ofNat 48 (Config.freeValue s.free) else 0)
  { s with
    free := if timed then s.free + 1 else s.free
    dailies := { s.dailies with
      slots := Sparse.set s.dailies.slots i 0
      totals := Sparse.set s.dailies.totals i
        (Sparse.get s.dailies.totals i + v.zeroExtend 64) } }

/-- Folds every slot of a block. -/
def State.foldBlock (s : State) (b : Nat) : State :=
  (List.range (cntSlots b)).foldl (fun s c => s.foldSlot (8 * b + c)) s

/-! ### Coded words and flip-masks (R358, R367) -/

/-- What a read of a coded word delivers. -/
inductive Delivery where
  /-- The word as written. -/
  | good
  /-- Reported uncorrectable. -/
  | lost
  /-- Delivered with bits changed, unreported or reported as corrected (R367). -/
  | changed (mask : BitVec 64)
  deriving DecidableEq, Repr

/-- What a read delivers, given the number of errors within and beyond what the code handles: none and
one are made good, two are always detected, more follow the unpublished code (R358, R367). -/
def deliver (errors : Nat) (m : EccMark) : Delivery :=
  if m.lost then .lost
  else if errors ≤ 1 then .good
  else if errors = 2 then .lost
  else match Config.eccBeyond m.unit m.data m.check with
    | 1 => .changed (m.data ^^^ BitVec.ofNat 64 (2 ^ (Config.eccExtraBit m.unit m.data m.check % 64)))
    | 2 => .changed m.data
    | _ => .lost

/-- A read of a marked 64-bit word of an SRAM (R358). -/
def EccMark.sram (m : EccMark) : Delivery := deliver (popcount m.data + popcount m.check) m

/-- The 8-bit symbols that a mark changes in a T1 beat: bytes of its data, and its check bits (R358). -/
def EccMark.symbols (m : EccMark) : Nat :=
  ((List.range 8).filter (fun i => m.data.toNat / 256 ^ i % 256 != 0)).length + b2n (m.check != 0)

/-- A read of a marked beat of T1 (R358). -/
def EccMark.t1 (m : EccMark) : Delivery := deliver m.symbols m

/-- The flip-mask instance of an operand store (15, ECC_FLIP block): T1 ports 0 to 47, operand stores 48
to 79, shared staging 80, map store 81. -/
def osFlip (core : Nat) : Nat := 48 + core

/-- The flip-mask registers of an instance. -/
def State.flip (s : State) (i : Nat) : Flip := lookupD s.integ.flips i {}

/-- The state with the flip-mask of an instance changed. -/
def State.setFlip (s : State) (i : Nat) (f : Flip) : State :=
  { s with integ := { s.integ with flips := assocSet s.integ.flips i f } }

/-- The deviation that an armed flip-mask of a T1 port gives the beat at 8-byte word `w`, written by a
requester (R367). -/
def State.t1Flip (s : State) (port req w : Nat) : Option EccMark :=
  let f := s.flip port
  if f.armed && f.req.toNat == req then
    some { unit := w + f.word.toNat, data := f.mask, check := f.check }
  else none

/-- A beat written at 8-byte word `w` of T1 by a requester through a port: it is valid again, unless an
armed flip-mask corrupts it (R361, R367). -/
def State.t1Write (s : State) (port req w : Nat) : State :=
  let rest := s.integ.t1Ecc.filter (fun k => k.unit / 8 != w / 8)
  match s.t1Flip port req w with
  | some m =>
    let s := s.setFlip port { s.flip port with armed := false }
    { s with integ := { s.integ with t1Ecc := rest ++ [m] } }
  | none => if rest.length = s.integ.t1Ecc.length then s else { s with integ := { s.integ with t1Ecc := rest } }

/-- The first 8-byte word of the T1 bytes of an owner: 0 the aperture, 1 + p the inbox of Pod p, a job's handle plus 100
for its writable area, and the owners below. -/
def t1Base (owner : Nat) : Nat := owner * 2 ^ 64

/-- The owner number of the spill area of a core (R270). -/
def spillOwner (n : Nat) : Nat := 2 ^ 81 + n

/-- The owner number of the Cut area of a job, by its handle (R97). -/
def recordOwner (handle : Nat) : Nat := 2 ^ 82 + handle

/-- The owner number of the frames of a stored copy (R124). -/
def frameOwner (copy : Nat) : Nat := 2 ^ 80 + copy

/-- The T1 bytes of an owner are given up, and with them what their code words recorded. -/
def State.t1Forget (s : State) (owner : Nat) : State :=
  if s.integ.t1Ecc = [] then s
  else { s with integ := { s.integ with t1Ecc := s.integ.t1Ecc.filter (fun k => k.unit / 2 ^ 64 != owner) } }

/-- The beats of a range of an owner's bytes are written anew: what their code words recorded is gone (R361). -/
def State.t1Renew (s : State) (owner off n : Nat) : State :=
  if s.integ.t1Ecc = [] then s
  else { s with integ := { s.integ with t1Ecc := s.integ.t1Ecc.filter (fun k =>
    !(decide (t1Base owner + off / 64 * 8 ≤ k.unit) && decide (k.unit < t1Base owner + ceilDiv (off + n) 64 * 8))) } }

/-- Writes to T1 by a requester that no grant names, at offset `off` of an owner (R367, log 22): every
beat written meets its port's flip-mask, if one is armed for the requester. -/
def State.t1Range (s : State) (req owner off n : Nat) : State :=
  if s.integ.t1Ecc = [] ∧ s.integ.flips.all (fun f => !(f.2.armed && f.2.req.toNat == req)) then s
  else
    (List.range (ceilDiv (off % 64 + n) 64)).foldl (fun s i =>
      let beat := off / 64 + i
      s.t1Write (Config.t1Port (t1Base owner + beat) % 48) req (t1Base owner + 8 * beat)) s

/-- The deviations of the T1 words that the bytes of an owner touch. -/
def State.t1Marks (s : State) (owner off n : Nat) : List EccMark :=
  s.integ.t1Ecc.filter (fun k =>
    decide (t1Base owner + off / 64 * 8 ≤ k.unit) && decide (k.unit < t1Base owner + ceilDiv (off + n) 64 * 8))

/-- The marks of the beats that a write to T1 bytes of an owner changes in part. -/
def State.t1Partial (s : State) (owner off n : Nat) : List EccMark :=
  (s.t1Marks owner off n).filter (fun k =>
    let beat := k.unit % 2 ^ 64 / 8 * 64
    !(decide (off ≤ beat) && decide (beat + 64 ≤ off + n)))

/-- The bytes `m` of an owner after a write to T1 (R360): a beat written in part is read, merged and written whole. -/
def State.t1Merge (s : State) (m : Mem) (owner off : Nat) (bs : List Byte) : Mem :=
  let read := (s.t1Partial owner off bs.length).foldl (fun m k =>
    match k.t1 with
    | .changed x => Mem.xorWord m (k.unit % 2 ^ 64) x
    | .good => m
    | .lost => m) m
  Mem.write read off bs

/-- The check bits after a write to T1 bytes of an owner by a requester (R360, R361, R367): a beat written whole is
valid again, and a lost beat written in part stays lost. -/
def State.t1Encode (s : State) (req owner off n : Nat) : State :=
  let lost := (s.t1Partial owner off n).filter (fun k => k.t1 == .lost)
  let s := s.t1Range req owner off n
  { s with integ := { s.integ with
      t1Ecc := s.integ.t1Ecc.filter (fun k => !lost.any (fun l => l.unit / 8 == k.unit / 8)) ++
        lost.map (fun k => { k with lost := true }) } }

/-- Whether a read of T1 bytes meets an uncorrectable beat. -/
def State.t1Lost (s : State) (owner off n : Nat) : Bool :=
  (s.t1Marks owner off n).any (fun k => k.t1 == .lost)

/-- Bytes of T1 as a read delivers them: `bs` from offset `off`, with the changes that the code lets
pass (R367). -/
def State.t1Deliver (s : State) (owner off : Nat) (bs : List Byte) : List Byte :=
  (s.t1Marks owner off bs.length).foldl (fun bs k =>
    match k.t1 with
    | .changed x =>
      bs.zipIdx.map (fun p =>
        let a := off + p.2
        if t1Base owner + a / 8 = k.unit then p.1 ^^^ BitVec.ofNat 8 (x.toNat / 256 ^ (a % 8)) else p.1)
    | .good => bs
    | .lost => bs) bs

/-! ### Rows with errors (R363) -/

/-- The memory and the unit in it of a coded unit, as numbers. -/
def scrubPlace (u : ScrubUnit) : Nat × Nat :=
  match u with
  | .t1 b => (0, b)
  | .operandStore n w => (1 + n.val, w)
  | .laneBuffer n w => (33 + n.val, w)
  | .staging w => (65, w)
  | .mapStore w => (66, w)

/-- Whether two units lie in one physical row (R363). -/
def sameRow (a b : ScrubUnit) : Bool :=
  let p := scrubPlace a
  let q := scrubPlace b
  p.1 == q.1 && (p.2 == q.2 || Config.eccRow p.1 p.2 == Config.eccRow q.1 q.2)

/-- Records a row for repair (R363). -/
def State.recordRow (s : State) (u : ScrubUnit) : State :=
  if s.integ.repairs.any (sameRow u) then s.integEvent 3
  else ({ s with integ := { s.integ with repairs := s.integ.repairs ++ [u] } }).integEvent 3

/-- Counts a correctable error of a row; the eighth within 24 h records it (R363). How many of the earlier ones lie within
24 h is a free value (log 27). -/
def State.rowError (s : State) (u : ScrubUnit) : State :=
  let old := ((s.integ.rowErrors.find? (fun r => sameRow r.1 u)).map (fun r => r.2)).getD 0
  let rest := s.integ.rowErrors.filter (fun r => !sameRow r.1 u)
  let kept := min old s.fresh.1
  let s := if old = 0 then s else s.fresh.2
  let s := { s with integ := { s.integ with rowErrors := rest ++ [(u, kept + 1)] } }
  if 8 ≤ kept + 1 then s.recordRow u else s

/-- What the module keeps of a read that met a deviating unit: an uncorrectable error records its row, and a
correction, also a wrong one, counts (R363, R367). -/
def State.noteError (s : State) (u : ScrubUnit) (k : EccMark) (d : Delivery) : State :=
  match d with
  | .lost => s.recordRow u
  | .good => if k.data = 0 ∧ k.check = 0 then s else s.rowError u
  | .changed _ => if Config.eccBeyond k.unit k.data k.check = 1 then s.rowError u else s

/-- The errors that a read of T1 bytes of an owner meets (R363). -/
def State.noteT1 (s : State) (owner off n : Nat) : State :=
  (s.t1Marks owner off n).foldl (fun s k => s.noteError (.t1 (k.unit / 8)) k k.t1) s

/-! ### Completion packets (R56 to R58) -/

/-- The depth of a queue's completion ring. -/
def Queue.cqDepth (q : Queue) : Nat := 2 ^ q.cqLog2
/-- The depth of a queue's submission ring (R37). -/
def Queue.depth (q : Queue) : Nat := 2 ^ q.sqLog2

/-- Payload limit of one packet in a ring of `d` slots (R39). -/
def packetLimit (d : Nat) : Nat := min 65536 ((d - 2) * 64)

/-- Slots of a packet with `l` payload bytes (R38). -/
def packetSlots (l : Nat) : Nat := 1 + ceilDiv l 64

/-- Free slots of a completion ring: one slot always stays unused. -/
def Queue.cqRoom (q : Queue) : Nat :=
  q.cqDepth - 1 - (q.cqTail + q.cqDepth - q.cqHead) % q.cqDepth

/-- The 64-byte completion header (R56). -/
def cplHeader (q : Queue) (c : Cpl) (seq : Nat) : List Byte :=
  let body :=
    leBytes 2 c.status.code ++ leBytes 2 c.tag ++ leBytes 2 q.id ++ leBytes 1 c.opcode ++
    leBytes 1 (128 * b2n q.phase + b2n c.chain) ++ leBytes 8 seq ++ leBytes 8 c.hostTime ++
    leBytes 4 q.sqHead ++ leBytes 4 c.payload.length ++ leBytes 8 c.result0 ++
    leBytes 8 c.result1 ++ leBytes 4 c.chainIndex ++ List.replicate 8 0
  body ++ leBytes 4 (crc32c body)

/-- Host memory with the slots `first`, `first + 1`, … of a ring written, wrapping (R57). -/
def writeSlots (m : Mem) (base depth first : Nat) (slots : List (List Byte)) : Mem :=
  match slots with
  | [] => m
  | x :: t => writeSlots (Mem.write m (base + 64 * (first % depth)) x) base depth (first + 1) t

/-- Bytes cut into pieces of `n` (at least one byte each), the last one shorter. -/
def piecesOf {α : Type} (n fuel : Nat) (bs : List α) : List (List α) :=
  match fuel with
  | 0 => []
  | fuel + 1 =>
    match bs with
    | [] => []
    | x :: t => ((x :: t).take n) :: piecesOf n fuel ((x :: t).drop n)

/-- Bytes cut into pieces of `n`. -/
def pieces {α : Type} (n : Nat) (bs : List α) : List (List α) := piecesOf n bs.length bs

/-- Writes one completion packet into its ring (R57), or keeps it while the ring has no room (R46). The bytes of the
last payload slot after the payload are zeros, and a link that is down holds nothing back (DESIGN CHOICE, log 66). -/
def State.writeCpl (s : State) (qid : Nat) (c : Cpl) : State :=
  match s.queue? qid with
  | none => s
  | some q =>
    if q.held ≠ [] ∨ q.cqRoom < packetSlots c.payload.length then
      s.setQueue { q with held := q.held ++ [c] }
    else
      let seq := match (s.cmd? c.uid).bind (fun x => x.seqNo) with
        | some n => n
        | none => q.seq
      let newSeq := if ((s.cmd? c.uid).bind (fun x => x.seqNo)).isSome then q.seq else q.seq + 1
      let data := pieces 64 c.payload
      let slots := packetSlots c.payload.length
      let m := writeSlots s.host.mem q.cqAddr q.cqDepth (q.cqTail + 1)
        (data.map (fun x => x ++ List.replicate (64 - x.length) 0))
      let m := writeSlots m q.cqAddr q.cqDepth q.cqTail [cplHeader q c seq]
      let wraps := q.cqDepth ≤ q.cqTail + slots
      let q' := { q with
        seq := newSeq
        cqTail := (q.cqTail + slots) % q.cqDepth
        phase := if wraps then !q.phase else q.phase }
      let s := { s with host := { s.host with mem := m } }
      let s := (s.setQueue q').modCmd c.uid (fun x => { x with seqNo := some seq })
      let s := s.count 89 2 1
      let s := if c.noIntr then s else s.raise q.vector
      if c.chain then s else s.dropCmd c.uid

/-- Produces the completion packets of a command (R58): data in packets of at most the ring's limit;
when `last` is set the final packet carries the status, and a failure carries no payload in it. -/
def State.emit (s : State) (u : Nat) (last : Bool) (v : Verdict) : State :=
  match s.cmd? u with
  | none => s
  | some c =>
    match s.queue? c.queue with
    | none => s
    | some q =>
      let chunks := pieces (packetLimit q.cqDepth) v.payload
      let data := if v.status.success then chunks.dropLast else chunks
      let tail := if v.status.success then chunks.getLast?.getD [] else []
      let mk := fun (i : Nat) (p : List Byte) (ch : Bool) =>
        { uid := u, status := if ch then Status.ok else v.status, chain := ch
          result0 := if ch && last then 0 else v.result0
          result1 := if ch && last then 0 else v.result1
          chainIndex := c.posted + i, payload := p, tag := c.tag, opcode := c.opcode
          hostTime := c.hostTime, noIntr := c.noIntr : Cpl }
      let packets := data.zipIdx.map (fun x => mk x.2 x.1 true) ++ [mk data.length tail (!last)]
      let s := s.modCmd u (fun x =>
        { x with posted := x.posted + packets.length, finished := last })
      packets.foldl (fun s p => s.writeCpl c.queue p) s

/-! ### Resets, the admin queue's order, and completion -/

/-- A queue as it starts (R48), its ring places kept. -/
def Queue.restart (q : Queue) : Queue :=
  { id := q.id, pod := q.pod, cls := q.cls, sqLog2 := q.sqLog2, cqLog2 := q.cqLog2,
    sqOffset := q.sqOffset, cqAddr := q.cqAddr, vector := q.vector }

/-- Ends the RESET_QUEUE or DELETE_QUEUE of a queue once its last command has completed (R74 step 4,
R75): the reset command gets its verdict. -/
def State.settleReset (s : State) (qid : Nat) : State :=
  match s.queue? qid with
  | none => s
  | some q =>
    match q.resetting with
    | none => s
    | some r =>
      if s.cmdsOf qid = [] then
        let s := if r.delete then
            { s with link := { s.link with queues := s.link.queues.filter (fun x => x.id != qid) } }
          else s.setQueue q.restart
        s.modCmd r.uid (fun c =>
          { c with verdict := some { status := .ok, result0 := if r.delete then 0 else r.count } })
      else s

/-- An ABORT that caught its target completes once the target's completion has been written (R73): its
`progress` holds the target's number plus 1. -/
def State.settleAbort (s : State) : State :=
  { s with link := { s.link with cmds := s.link.cmds.map (fun c =>
      if c.opcode = 4 ∧ c.queue = 0 ∧ c.verdict.isNone ∧ c.progress ≠ 0 ∧ (s.cmd? (c.progress - 1)).isNone then
        { c with verdict := some { status := .ok, result0 := 1 } }
      else c) } }

/-- Produces the decided completions of the admin queue in fetch order (R65); one that a full ring holds does not
keep the next from being decided (R46). -/
def State.settleAdmin (fuel : Nat) (s : State) : State :=
  match fuel with
  | 0 => s
  | fuel + 1 =>
    match (s.cmdsOf 0).find? (fun c => !c.finished) with
    | some c =>
      match c.verdict with
      | some v => State.settleAdmin fuel (s.emit c.uid true v)
      | none => s
    | none => s

/-- Takes the admin queue down once it has drained (R419 steps 3 and 4). -/
def State.settleDown (s : State) : State :=
  if s.link.admin.draining ∧ s.cmdsOf 0 = [] then
    { s with link := { s.link with
        admin := { s.link.admin with draining := false, ready := false }
        queues := s.link.queues.filter (fun x => x.id != 0) } }
  else s

/-- What follows from completions that have just been written. -/
def State.settle (s : State) : State :=
  let s := ((s.link.queues.map (fun q => q.id)).foldl State.settleReset s).settleAbort
  let s := State.settleAdmin s.link.cmds.length s
  s.settleDown

/-- Counts a command that a RESET_QUEUE ends (R74). -/
def State.countReset (s : State) (q : Nat) : State :=
  s.modQueue q (fun x => { x with resetting := x.resetting.map (fun r => { r with count := r.count + 1 }) })

/-- Decides the end of a command: on an I/O queue its final packet is produced at once; on the admin
queue in fetch order (R65). -/
def State.complete (s : State) (u : Nat) (v : Verdict) : State :=
  match s.cmd? u with
  | none => s
  | some c =>
    if c.finished ∨ c.verdict.isSome ∧ c.queue = 0 then s
    else
      let s := s.modCmd u (fun x => { x with verdict := some v, begun := true })
      let counted := v.status == .queueReset || v.status == .resetAfterBegin
      let s := if counted then s.countReset c.queue else s
      let s := if c.queue = 0 then s else s.emit u true v
      s.settle

/-- Writes the completions that a full ring held, as far as there is room now (R46). -/
def State.release (fuel : Nat) (s : State) (qid : Nat) : State :=
  match fuel with
  | 0 => s
  | fuel + 1 =>
    match s.queue? qid with
    | none => s
    | some q =>
      match q.held with
      | [] => s
      | c :: t =>
        if q.cqRoom < packetSlots c.payload.length then s
        else
          let s := (s.setQueue { q with held := [] }).writeCpl qid c
          State.release fuel (s.modQueue qid (fun q => { q with held := t })) qid

/-! ### When a command may act -/

/-- Whether a fetched command may begin: the fences of its queue (R66), the admin queue's order (R65,
R83). An earlier admin command whose completion a full ring holds has ended (R46). -/
def State.unfenced (s : State) (c : Cmd) : Bool :=
  let earlier := (s.cmdsOf c.queue).filter (fun x => decide (x.uid < c.uid))
  if c.queue = 0 then earlier.all (fun x => x.finished) && (!c.fence || earlier.isEmpty) && earlier.all (fun x => !x.fence)
  else (!c.fence || earlier.isEmpty) && earlier.all (fun x => !x.fence)

/-- Whether a fetched command that has arrived whole may begin. -/
def State.mayBegin (s : State) (c : Cmd) : Bool :=
  !c.finished && c.verdict.isNone && c.whole && s.unfenced c

/-- Whether the module runs and is Active, and neither a life-cycle change nor a firmware commit has it: only
then do commands, jobs and media act (R447, R77, R390, R396). -/
def State.awake (s : State) : Bool :=
  decide (s.hw.phase = .running) && s.hw.started && !s.sec.lcBusy && decide (s.sec.boot ≠ 2) && decide (s.hw.pstate = .active) &&
  !s.hw.exiting && decide (s.sec.err ≠ .hard)

/-- Runs a command's meaning on the fetched command numbered `u` when it is outstanding, of the given
opcode, and may begin; otherwise this step does not occur now and nothing changes (log 1). -/
def State.onCmd (s : State) (u opcode : Nat) (f : Cmd → State) : Result :=
  match s.cmd? u with
  | some c =>
    if c.opcode = opcode ∧ s.mayBegin c = true ∧ s.awake = true then .next (f c).settle else .next s
  | none => .next s

/-- Completes with OK and no results. -/
def State.ok (s : State) (c : Cmd) : State := s.complete c.uid { status := .ok }

/-- Completes with a failure. -/
def State.fail (s : State) (c : Cmd) (st : Status) (r0 r1 : Nat) : State :=
  s.complete c.uid { status := st, result0 := r0, result1 := r1 }

/-- BAD_PACKET with a reason in result1 (R87). -/
def State.refuse (s : State) (c : Cmd) (reason : Nat) : State := s.fail c .badPacket 0 reason

end Sys2Proof.Machine
end

