-- ==== Sys2Proof/Machine/Flash.lean ====
section
/-!
DEFINITION. The flash array (R312 to R318): superblocks and their roles, logical blocks and their allocation, and
the placement of objects in T2 and T3 (R118).
-/

namespace Sys2Proof.Machine

/-! ### Geometry (R312, R313) -/

/-- Data pages of a superblock: those of 60 of its 64 plane-blocks. -/
def dataPages (oneBit : Bool) : Nat := 60 * (if oneBit then 69 else 276)
/-- Data pages that hold sectors. -/
def sectorPages (oneBit : Bool) : Nat := if oneBit then 4096 else 16384
/-- Data pages that hold the superblock's header, and in four-bit mode the per-sector metadata. -/
def headerPages (oneBit : Bool) : Nat := dataPages oneBit - sectorPages oneBit
/-- The die of its die set whose plane-blocks hold a superblock's parity. -/
def parityDie (loc : SbLoc) : Nat := loc.block.val % 16
/-- Sectors of a logical block: those of a four-bit superblock. -/
def lbSectors : Nat := 4 * sectorPages false
/-- Entries of a log block: the sectors of a one-bit superblock. -/
def logEntries : Nat := 4 * sectorPages true
/-- Bytes of a logical block. -/
def lbBytes : Nat := 268435456
/-- A page of an object: 2 MiB. -/
def pageBytes : Nat := 2097152

/-- The number of a superblock: block numbers count up through the die sets. -/
def sbNumber (loc : SbLoc) : Nat := loc.dieSet.val + 144 * loc.block.val
/-- The superblock of a number. -/
def sbAt (n : Nat) : SbLoc := ⟨Fin.ofNat 144 n, Fin.ofNat 14153 (n / 144)⟩
/-- One-bit superblocks of the module (R313). -/
def oneBitSbs : Nat := 144 * 212
/-- Four-bit superblocks of the module (R313). -/
def fourBitSbs : Nat := 144 * 13941
/-- The one-bit superblocks of each role (R314). -/
def SbDuty.size (d : SbDuty) : Nat :=
  match d with
  | .t2 => 23844
  | .log => 4096
  | .journal => 288
  | .spare => 2300
/-- The number of the first superblock of each role as shipped (log 28). -/
def SbDuty.base (d : SbDuty) : Nat :=
  match d with
  | .t2 => 0
  | .log => 23844
  | .journal => 27940
  | .spare => 28228
/-- The role of a superblock as shipped. -/
def shippedDuty (n : Nat) : SbDuty :=
  if n < SbDuty.log.base then .t2 else if n < SbDuty.journal.base then .log
  else if n < SbDuty.spare.base then .journal else .spare
/-- A superblock as shipped: erased, with its mode and role (log 28). -/
def shippedSb (loc : SbLoc) : SBlock :=
  { loc := loc, oneBit := decide (sbNumber loc < oneBitSbs), role := .free, duty := shippedDuty (sbNumber loc) }

/-! ### Superblocks (R314, R315, R336) -/

/-- A superblock that has been used. -/
def State.sblock? (s : State) (loc : SbLoc) : Option SBlock := s.media.sblocks.find? (fun b => b.loc == loc)

/-- A superblock. -/
def State.sblock (s : State) (loc : SbLoc) : SBlock := (s.sblock? loc).getD (shippedSb loc)

/-- The state with a superblock written. -/
def State.setSb (s : State) (b : SBlock) : State :=
  let bs := if (s.sblock? b.loc).isSome then s.media.sblocks.map (fun x => if x.loc == b.loc then b else x)
    else s.media.sblocks ++ [b]
  { s with media := { s.media with sblocks := bs } }

/-- Failed dies of a die set. -/
def State.diesFailed (s : State) (d : Nat) : Nat := (s.media.failedDies.filter (fun f => f.1 == d)).length

/-- A die set with a failed die (R330). -/
def State.setFailed (s : State) (d : Nat) : Bool := decide (0 < s.diesFailed d)

/-- Whether a superblock is free (R336): erased or released. -/
def SBlock.idle (b : SBlock) : Bool := b.role == .free || b.role == .released

/-- Free superblocks of a kind among `whole` shipped ones: each one used so far counts as it now is. -/
def State.freeAmong (s : State) (whole : Nat) (kind : SBlock → Bool) (open_ : SBlock → Bool) : Nat :=
  whole - (s.media.sblocks.filter (fun b => kind (shippedSb b.loc))).length +
    (s.media.sblocks.filter (fun b => kind b && open_ b)).length

/-- Free one-bit superblocks (R336); the journal's own are never free. -/
def State.free1 (s : State) : Nat :=
  s.freeAmong (oneBitSbs - SbDuty.journal.size) (fun b => b.oneBit && b.duty != .journal) SBlock.idle

/-- Free four-bit superblocks (R336). -/
def State.free4 (s : State) : Nat := s.freeAmong fourBitSbs (fun b => !b.oneBit) SBlock.idle

/-- Erased superblocks of a role. -/
def State.dutyFree (s : State) (d : SbDuty) : Nat :=
  s.freeAmong d.size (fun b => b.oneBit && b.duty == d) (fun b => b.role == .free)

/-- A superblock of a role that is not in use and cannot be opened now: a spare may take its place (R314). -/
def State.idleOf (s : State) (d : SbDuty) : Option SbLoc :=
  let unused := if s.media.failedDies = [] then [] else (List.range d.size).map (fun i => sbAt (d.base + i))
  ((s.media.sblocks.map (fun b => b.loc)) ++ unused).find? (fun l =>
    let b := s.sblock l
    b.oneBit && b.duty == d && (b.role == .released || (b.role == .free && s.setFailed l.dieSet.val)))

/-- Whether a superblock is erased, in a mode, and not of a die set with a failed die. -/
def State.erased (s : State) (loc : SbLoc) (oneBit : Bool) : Bool :=
  (s.sblock loc).role == .free && (s.sblock loc).oneBit == oneBit && !s.setFailed loc.dieSet.val

/-- Whether a superblock may be opened in a mode, in one-bit mode for a role: it has the role, or it is a spare
and replaces one that has (R314). -/
def State.locFree (s : State) (loc : SbLoc) (oneBit : Bool) (d : SbDuty) : Bool :=
  s.erased loc oneBit && (!oneBit || (s.sblock loc).duty == d ||
    ((s.sblock loc).duty == .spare && (s.idleOf d).isSome))

/-- The openable superblock of lowest number (log 28). -/
def State.pickLoc (s : State) (oneBit : Bool) (d : SbDuty) : SbLoc :=
  let base := if oneBit then d.base else oneBitSbs
  let fits := fun (n : Nat) => s.locFree (sbAt n) oneBit d
  let fresh := ((List.range ((s.media.sblocks.length + 1) * 144)).map (fun i => base + i)).find? fits
  let used := (s.media.sblocks.map (fun b => sbNumber b.loc)).filter fits
  match used ++ fresh.toList with
  | [] => sbAt base
  | n :: t => sbAt (t.foldl Nat.min n)

/-- The next block sequence number, and the state that has used it (R315). -/
def State.newSeq (s : State) : Nat × State :=
  (s.media.nextSeq, { s with media := { s.media with nextSeq := s.media.nextSeq + 1 } })

/-- The next jseq, reserved (R325, R326). -/
def State.newJseq (s : State) : Nat × State :=
  (s.media.nextJseq, { s with media := { s.media with nextJseq := s.media.nextJseq + 1 } })

/-- A spare that is opened for a role swaps roles with a superblock that has it and is not in use (R314). -/
def State.takeDuty (s : State) (loc : SbLoc) (d : SbDuty) : State :=
  if (s.sblock loc).oneBit = false ∨ (s.sblock loc).duty = d then s
  else match s.idleOf d with
    | none => s
    | some x =>
      let s := s.setSb { s.sblock x with duty := (s.sblock loc).duty }
      s.setSb { s.sblock loc with duty := d }

/-! ### Logical blocks (R316, R318) -/

/-- Number of the logical block that holds part `p` of a volume. -/
def lbNum (vol p : Nat) : Nat := vol * 2097152 + p

/-- Number of logical block `p` of a stored copy. -/
def objectLb (copy p : Nat) : Nat := (4096 + copy) * 2097152 + p

/-- A logical block that has been touched. -/
def State.lblock? (s : State) (n : Nat) : Option LBlock := s.media.lblocks.find? (fun l => l.num == n)

/-- A logical block; one never touched is UNWRITTEN. -/
def State.lblock (s : State) (n : Nat) : LBlock :=
  (s.lblock? n).getD { num := n, owner := n / 2097152, part := n % 2097152 }

/-- The state with a logical block written. -/
def State.setLb (s : State) (l : LBlock) : State :=
  let ls := if (s.lblock? l.num).isSome then s.media.lblocks.map (fun x => if x.num == l.num then l else x)
    else s.media.lblocks ++ [l]
  { s with media := { s.media with lblocks := ls } }

/-- The log blocks that a merge has frozen. -/
def LBlock.frozen (l : LBlock) : List LogBlock :=
  match l.merge with
  | some m => m.frozen
  | none => []

/-- Log blocks in use. -/
def State.logsUsed (s : State) : Nat :=
  (s.media.lblocks.map (fun l => l.frozen.length + l.chain.length)).sum

/-- Sectors in staging; a trim entry has no content. -/
def State.stagedSectors (s : State) : Nat := (s.media.staging.filter (fun e => e.data.isSome)).length

/-- Opens a superblock for programming (R315): it takes the next block sequence number, and its header names the
logical block it serves and the jseq of its record. -/
def State.openSb (s : State) (loc : SbLoc) (d : SbDuty) (role : SbRole) (lb : Nat) (jseq : Option Nat) :
    Nat × State :=
  let q := (s.takeDuty loc d).newSeq
  (q.1, q.2.setSb { q.2.sblock loc with
    role := role, seq := q.1, jseq := jseq, lblock := lb, folded := 0, closed := false, reads := 0
    rebuilt := false, owners := [lb] })

/-! ### Allocation (R316) -/

/-- Whole logical blocks of the module; one more, its last, holds 41,472 sectors. -/
def wholeLblocks : Nat := 1907348
/-- Sectors of the last logical block. -/
def lastSectors : Nat := 41472

/-- A run put in its place by its first logical block. -/
def insertRun (r : Nat × Nat × Nat) (l : List (Nat × Nat × Nat)) : List (Nat × Nat × Nat) :=
  match l with
  | [] => [r]
  | x :: t => if r.2.1 < x.2.1 then r :: x :: t else x :: insertRun r t

/-- The whole logical blocks from `lo` on that runs in ascending order leave free: first and number. -/
def gapsFrom (lo : Nat) (runs : List (Nat × Nat × Nat)) : List (Nat × Nat) :=
  match runs with
  | [] => if lo < wholeLblocks then [(lo, wholeLblocks - lo)] else []
  | r :: t =>
    let rest := gapsFrom (r.2.1 + r.2.2) t
    if lo < min r.2.1 wholeLblocks then (lo, min r.2.1 wholeLblocks - lo) :: rest else rest

/-- Free whole logical blocks, as runs. -/
def State.gaps (s : State) : List (Nat × Nat) := gapsFrom 0 (s.media.runs.foldl (fun l r => insertRun r l) [])

/-- Whether the last logical block is free. -/
def State.lastFree (s : State) : Bool := s.media.runs.all (fun r => decide (r.2.1 + r.2.2 ≤ wholeLblocks))

/-- Free whole logical blocks. -/
def State.freeWhole (s : State) : Nat := (s.gaps.map (fun g => g.2)).sum

/-- `n` logical blocks from gaps, for the blocks numbered from `lb` on: the runs, and the gaps left. -/
def takeGaps (lb n : Nat) (gaps : List (Nat × Nat)) : List (Nat × Nat × Nat) × List (Nat × Nat) :=
  match gaps with
  | [] => ([], [])
  | g :: t =>
    if n = 0 then ([], g :: t)
    else if n < g.2 then ([(lb, g.1, n)], (g.1 + n, g.2 - n) :: t)
    else
      let rest := takeGaps (lb + g.2) (n - g.2) t
      ((lb, g.1, g.2) :: rest.1, rest.2)

/-- The first part, of those with these numbers of sectors, that fits the last logical block. -/
def shortPart (parts : List Nat) : Option Nat := parts.findIdx? (fun n => decide (n ≤ lastSectors))

/-- Whether `n` logical blocks can be allocated, where part `short` fits the last one. -/
def State.hasRoom (s : State) (n : Nat) (short : Option Nat) : Bool :=
  decide (n ≤ s.freeWhole + (if short.isSome && s.lastFree then 1 else 0))

/-- Allocates `n` logical blocks, numbered from `lb` on: whole ones of lowest number, and the last one where they
do not suffice (log 28). -/
def State.allocate (s : State) (lb n : Nat) (short : Option Nat) : State :=
  let runs := match short with
    | some i =>
      if s.freeWhole < n then
        let front := takeGaps lb i s.gaps
        front.1 ++ [(lb + i, wholeLblocks, 1)] ++ (takeGaps (lb + i + 1) (n - i - 1) front.2).1
      else (takeGaps lb n s.gaps).1
    | none => (takeGaps lb n s.gaps).1
  { s with media := { s.media with runs := s.media.runs ++ runs } }

/-- Frees the logical blocks of an owner: a volume, or 4096 + a stored copy. -/
def State.deallocate (s : State) (owner : Nat) : State :=
  { s with media := { s.media with runs := s.media.runs.filter (fun r => r.1 / 2097152 != owner) } }

/-- The place of a logical block among the 1,907,349, as a journal record names it (R325). -/
def State.lbPlace (s : State) (lb : Nat) : Nat :=
  match s.media.runs.find? (fun r => decide (r.1 ≤ lb) && decide (lb < r.1 + r.2.2)) with
  | some r => r.2.1 + (lb - r.1)
  | none => 0xFFFFFFFF

/-! ### Objects in T2 and T3 (R118, R279) -/

/-- Whether runs of pages hold a page. -/
def hasPage (runs : List (Nat × Nat)) (p : Nat) : Bool :=
  runs.any (fun r => decide (r.1 ≤ p) && decide (p < r.1 + r.2))

/-- Pages of the T2 read-only region. -/
def t2RegionPages : Nat := 1600000000000 / pageBytes

/-- Window pages of a copy. -/
def Copy.windowPages (c : Copy) : Nat := ceilDiv c.size pageBytes

/-- Pages of the T2 read-only region not yet taken. -/
def State.t2Room (s : State) : Nat :=
  t2RegionPages - (s.copies.map (fun c => (c.t2.map (fun r => r.2)).sum)).sum

/-- The regions of a copy in its window, as first byte and bytes: the image, or the nine regions of an index,
each up to the next (R279, R316). -/
def Copy.spans (c : Copy) : List (Nat × Nat) :=
  match c.kind with
  | .index =>
    let at_ := (List.range 9).map (fun r => Mem.field c.mem (0x28 + 8 * r) 8)
    at_.zipIdx.map (fun x => (x.1, at_.getD (x.2 + 1) c.size - x.1))
  | _ => [(0, c.size)]

/-- The logical block of a copy that holds window byte `off`: each region fills its own (R316). -/
def partOf (spans : List (Nat × Nat)) (off : Nat) : Nat :=
  match spans with
  | [] => 0
  | r :: t => if off < r.1 + r.2 then (off - r.1) / lbBytes else ceilDiv r.2 lbBytes + partOf t off

/-- First sector of the region that holds window byte `off`, from which its logical blocks count. -/
def regionStart (spans : List (Nat × Nat)) (off : Nat) : Nat :=
  match spans with
  | [] => 0
  | r :: t => if off < r.1 + r.2 then r.1 else regionStart t off

/-- The logical block, and the place in it, of window sector `sec` of a copy. -/
def Copy.sectorAt (c : Copy) (sec : Nat) : Nat × Nat :=
  let off := 4096 * sec
  (objectLb c.id (partOf c.spans off), (off - regionStart c.spans off) / 4096 % lbSectors)

/-- The superblock that holds page `p` of a copy: of a T2 logical block the one of its four that the page's place
gives, else the four-bit one. -/
def State.pageLoc (s : State) (c : Copy) (p : Nat) : Option SbLoc :=
  let at_ := c.sectorAt (p * 512)
  let l := s.lblock at_.1
  let ofMode := fun (m : Bool) => l.mapped.filter (fun x => (s.sblock x).oneBit == m)
  if hasPage c.t2 p then (ofMode true)[at_.2 / logEntries]? else (ofMode false).head?

/-- Counts a read of a page of a stored copy in the superblock that served it (R334). -/
def State.notePage (s : State) (copy page : Nat) : State :=
  match (s.copy? copy).bind (fun c => s.pageLoc c page) with
  | some l => s.setSb { s.sblock l with reads := (s.sblock l).reads + 1 }
  | none => s


end Sys2Proof.Machine
end

