-- ==== Sys2Proof/Machine/Journal.lean ====
section
/-!
DEFINITION. The map journal (R325, R326), wear and retirement (R332 to R334, R337), log chains (R320) and the
commit of merges (R323, R324).
-/

namespace Sys2Proof.Machine

/-! ### Sectors and log entries (R318, R320, R324) -/

/-- A sector that reads as zeros. -/
def zeroSector : Sector := { data := [] }

/-- A log entry over what the sector held: a trim entry leaves zeros, and a bad mark stays until a WRITE supplies
the content (R320, R324). -/
def LogEntry.over (e : LogEntry) (old : Sector) : Sector :=
  match e.data with
  | some d => d
  | none => { zeroSector with bad := old.bad }

/-- A sector after log entries, oldest first. -/
def newest (es : List LogEntry) (sec : Nat) (old : Sector) : Sector :=
  (es.filter (fun e => e.sector == sec)).foldl (fun x e => e.over x) old

/-- The entries of a chain of log blocks. -/
def chainEntries (c : List LogBlock) : List LogEntry := (c.map (fun b => b.entries)).flatten

/-- The log entries of staged sectors. -/
def entriesOf (es : List Staged) : List LogEntry := es.map (fun e => { sector := e.sector, data := e.data })

/-- The newest content of a sector on the media (R318, R323). -/
def LBlock.onMedia (l : LBlock) (sec : Nat) : Sector :=
  newest (chainEntries (l.frozen ++ l.chain)) sec (lookupD l.content sec zeroSector)

/-- The newest content of sector `sec` of a logical block, staged content last (R68). -/
def State.sectorOf (s : State) (lb sec : Nat) : Sector :=
  newest (entriesOf (s.media.staging.filter (fun e => e.lb == lb))) sec ((s.lblock lb).onMedia sec)

/-- The content of a superblock after log entries are folded in (R322, R324). -/
def foldContent (content : List (Nat × Sector)) (es : List LogEntry) : List (Nat × Sector) :=
  es.foldl (fun c e =>
    let x := e.over (lookupD c e.sector zeroSector)
    if x = zeroSector then assocDrop c e.sector else assocSet c e.sector x) content

/-! ### Records (R325) -/

/-- new_loc and old_loc: the die set and the block number; zero where a record names none (log 63). -/
def locWord (l : Option SbLoc) : Nat :=
  match l with
  | some x => x.dieSet.val * 2 ^ 24 + x.block.val
  | none => 0

/-- A journal record as its 64 bytes (R325). -/
def JRec.bytes (r : JRec) : List Byte :=
  let body :=
    leBytes 8 r.jseq ++ leBytes 1 r.type ++ leBytes 3 0 ++ leBytes 4 r.lblock ++ leBytes 8 r.newSeq ++
    leBytes 8 r.oldSeq ++ leBytes 4 (locWord r.newLocs.head?) ++ leBytes 4 (locWord r.oldLoc) ++ leBytes 20 0
  body ++ leBytes 4 (crc32c body)

/-- lblock of a record that concerns none. -/
def noLblock : Nat := 0xFFFFFFFF

/-- Keeps a record for the journal: records are programmed in ascending jseq, so that one behind a reserved number
waits (R325, R326). -/
def State.queueRec (s : State) (r : JRec) : State :=
  { s with media := { s.media with waiting := s.media.waiting ++ [r] } }

/-- Forms a record with the next jseq. -/
def State.jrec (s : State) (type lb new old : Nat) (newLocs : List SbLoc) (oldLoc : Option SbLoc) : State :=
  let j := s.newJseq
  j.2.queueRec { jseq := j.1, type := type, lblock := lb, newSeq := new, oldSeq := old
                 newLocs := newLocs, oldLoc := oldLoc }

/-- The flash channel group of a superblock, as a Dailies block (R424). -/
def groupBlock (loc : SbLoc) : Nat := 80 + loc.dieSet.val / 16

/-- A write of the map store, by the fold engine (35) or the steward (36): an armed flip-mask takes it
(R367; log 29). The entry that it spoils is rebuilt by MAP_ENTRY_REBUILD. -/
def State.mapWrite (s : State) (req : Nat) : State :=
  let f := s.flip 81
  if f.armed && f.req.toNat == req then s.setFlip 81 { f with armed := false } else s

/-- Superblocks are released by the record with a jseq (R326). -/
def State.release_ (s : State) (locs : List SbLoc) (jseq : Nat) : State :=
  locs.foldl (fun s l => s.setSb { s.sblock l with role := .released, freed := jseq + 1 }) s

/-- folded_through of a merge: the highest block sequence number of the log blocks that it folds (R324). -/
def LBlock.folds (l : LBlock) (frozen : List LogBlock) : Nat :=
  (frozen.map (fun b => b.seq)).foldl Nat.max l.foldedThrough

/-- The COMMIT record of a merge is programmed: readers see the new copy, and the old one and the frozen log
blocks are released (R323, R324, R326). -/
def State.finishMerge (s : State) (l : LBlock) (m : Merge) : State :=
  let s := s.release_ (l.mapped ++ m.frozen.map (fun b => b.loc)) m.jseq
  let s := m.locs.foldl (fun s p => s.setSb { s.sblock p with role := .mapped }) s
  let s := s.setLb { l with
    mapped := m.locs, seq := m.seq, merge := none, foldedThrough := l.folds m.frozen
    content := foldContent l.content (chainEntries m.frozen) }
  m.locs.foldl (fun s p =>
    (s.count (groupBlock p) (6 + m.kind) 1).count (groupBlock p) 2 (sectorPages (s.sblock p).oneBit)) s

/-- What the map store takes from a record when it is programmed: the COMMIT of a closed copy. -/
def State.takeEffect (s : State) (r : JRec) : State :=
  match s.media.lblocks.find? (fun l => l.merge.any (fun m => m.closed && m.jseq == r.jseq)) with
  | some l =>
    match l.merge with
    | some m => s.finishMerge l m
    | none => s
  | none => s

/-- Programs a record. -/
def State.program (s : State) (r : JRec) : State :=
  let s := if r.type = 6 ∨ r.type = 7 then s else s.mapWrite (if r.type = 3 ∨ r.type = 4 then 36 else 35)
  let s : State := { s with media := { s.media with
    journal := s.media.journal ++ [r], nextProg := r.jseq + 1
    waiting := s.media.waiting.filter (fun x => x.jseq != r.jseq) } }
  (s.count 98 2 1).takeEffect r

/-- Programs at most `fuel` waiting records, up to the first number that is reserved and not yet used. -/
def State.programNext (fuel : Nat) (s : State) : State :=
  match fuel with
  | 0 => s
  | fuel + 1 =>
    match s.media.waiting.find? (fun r => r.jseq == s.media.nextProg) with
    | some r => State.programNext fuel (s.program r)
    | none => s

/-- Programs the records whose turn has come. -/
def State.sync (s : State) : State := State.programNext s.media.waiting.length s

/-- A merge that cannot commit gives its reserved number to a COMMIT that names the old copy again, so that no gap
remains (R325; log 63); its frozen log blocks still count, and its own superblocks are released. -/
def State.abandonMerge (s : State) (l : LBlock) : State :=
  match l.merge with
  | none => s
  | some m =>
    let s := s.setLb { l with chain := m.frozen ++ l.chain, merge := none }
    let s := s.release_ m.locs m.jseq
    ({ s with media := { s.media with waiting := s.media.waiting.filter (fun x => x.jseq != m.jseq) } }).queueRec
      { jseq := m.jseq, type := 1, lblock := s.lbPlace l.num, newSeq := l.seq, oldSeq := l.seq
        newLocs := l.mapped, oldLoc := l.mapped.head? }

/-! ### Wear (R332 to R334, R337) -/

/-- The wear state of a spare consumption (R337). -/
def wearOf (retired spare : Nat) : Nat :=
  if 100 * spare ≤ retired * 100 then 3 else if 97 * spare ≤ retired * 100 then 2
  else if 90 * spare ≤ retired * 100 then 1 else 0

/-- Follows spare consumption to a later wear state (R337). -/
def State.wearOn (s : State) : State :=
  let w := wearOf s.media.retired s.media.spareInitial
  if w ≤ s.media.wearState then s
  else
    let old := s.media.wearState
    let s := { s with media := { s.media with wearState := w } }
    let s := if old < 1 ∧ 1 ≤ w then s.mediaEvent 1 else s
    let s := if old < 2 ∧ 2 ≤ w then s.mediaEvent 2 else s
    s.raise 0

/-- The least-worn erased four-bit superblock of a die set, of lowest number among equals. -/
def State.leastWorn (s : State) (d : Fin 144) : Option SbLoc :=
  let fresh := ((List.range (s.media.sblocks.length + 1)).map
    (fun i => (⟨d, Fin.ofNat 14153 (212 + i)⟩ : SbLoc))).find? (fun l => (s.sblock? l).isNone)
  let used := (s.media.sblocks.map (fun b => b.loc)).filter (fun l => l.dieSet == d)
  ((fresh.toList ++ used).filter (fun l => (s.sblock l).role == .free && !(s.sblock l).oneBit)).foldl
    (fun best l =>
      match best with
      | none => some l
      | some x =>
        let a := (s.sblock l).wear
        let b := (s.sblock x).wear
        if a < b ∨ (a = b ∧ sbNumber l < sbNumber x) then some l else best) none

/-- The one-bit role of a superblock moves to a four-bit one of the same die set (R333, R334). -/
def State.giveRole (s : State) (b : SBlock) : State :=
  match s.leastWorn b.loc.dieSet with
  | none => s
  | some x => s.setSb { s.sblock x with oneBit := true, duty := b.duty }

/-- Retires a superblock (R332, R333). What it has held stays there until an erase succeeds (R331). -/
def State.retireSb (s : State) (loc : SbLoc) : State :=
  let b := s.sblock loc
  let s := s.jrec 4 noLblock 0 b.seq [] (some loc)
  let s := s.setSb { b with role := .retired }
  let s := if b.oneBit then s.giveRole b else s
  ({ s with media := { s.media with retired := s.media.retired + 1 } }).wearOn

/-- Average wear of the die set of a superblock. -/
def State.setWear (s : State) (loc : SbLoc) : Nat :=
  ((s.media.sblocks.filter (fun b => b.loc.dieSet == loc.dieSet)).map (fun b => b.wear)).sum / 14153

/-- An erased superblock with the wear of the erase (R332). -/
def SBlock.erase (b : SBlock) : SBlock :=
  { loc := b.loc, oneBit := b.oneBit, role := .free, duty := b.duty, wear := b.wear + (if b.oneBit then 1 else 10) }

/-- Erases a superblock (R332, R334): at 30,000 wear units, or after a failed program, it retires; a one-bit one
more than 1,000 units above its die set's average gives its role away. -/
def State.eraseSb (s : State) (loc : SbLoc) : State :=
  let old := s.sblock loc
  let b := old.erase
  let s := (s.setSb b).count (groupBlock loc) 3 1
  let s := { s with media := { s.media with wearTotal := s.media.wearTotal + (b.wear - old.wear) } }
  if old.failing ∨ 30000 ≤ b.wear then s.retireSb loc
  else if b.oneBit ∧ s.setWear loc + 1000 < b.wear ∧ (s.leastWorn loc.dieSet).isSome then
    (s.giveRole b).setSb { b with oneBit := false, duty := .spare }
  else s

/-! ### Log chains (R320) -/

/-- Log blocks that `k` more entries of a logical block need. -/
def LBlock.logsFor (l : LBlock) (k : Nat) : Nat :=
  ceilDiv ((chainEntries l.chain).length + k) logEntries - l.chain.length

/-- Log blocks in use, with those that the staged entries and `k` more of logical block `lb` will need. -/
def State.logsWith (s : State) (lb k : Nat) : Nat :=
  let lbs := (lb :: s.media.staging.map (fun e => e.lb)).dedup
  s.logsUsed + (lbs.map (fun x =>
    (s.lblock x).logsFor ((s.media.staging.filter (fun e => e.lb == x)).length + (if x = lb then k else 0)))).sum

/-- Whether the chain of a logical block has room for `k` more entries than are staged for it (R320, R323). -/
def State.chainRoom (s : State) (lb k : Nat) : Bool :=
  decide ((chainEntries (s.lblock lb).chain).length +
    (s.media.staging.filter (fun e => e.lb == lb)).length + k ≤ 4 * logEntries)

/-- Whether the log takes one more entry of a logical block: its chain has room, and so have the 4,096 log
blocks (R314, R320). -/
def State.logRoom (s : State) (lb : Nat) : Bool := s.chainRoom lb 1 && decide (s.logsWith lb 1 ≤ 4096)

/-- Whether staging takes one more sector for a logical block (R319, R320). -/
def State.stageRoom (s : State) (lb : Nat) : Bool := decide (s.stagedSectors < 8192) && s.logRoom lb

/-- Whether a logical block has no log block with room (R320). -/
def LBlock.logFull (l : LBlock) : Bool :=
  match l.chain.getLast? with
  | some b => decide (logEntries ≤ b.entries.length)
  | none => true

/-- Appends a further log block to the chain of a logical block, with its LOG_OPEN record (R320, R325). -/
def State.openLog (s : State) (lb : Nat) (loc : SbLoc) : State :=
  let o := s.openSb loc .log .log lb none
  let l := o.2.lblock lb
  (o.2.setLb { l with chain := l.chain ++ [{ loc := loc, seq := o.1 }] }).jrec 2 (s.lbPlace lb) o.1 0 [loc] none

/-- Programs entries into the last log block of a logical block, as many as it has room for; a full one is
closed. -/
def State.appendLog (s : State) (lb : Nat) (es : List LogEntry) : State :=
  let l := s.lblock lb
  match l.chain.getLast? with
  | none => s
  | some b =>
    let now := es.take (logEntries - b.entries.length)
    let s := s.later
    let s := s.setLb { l with
      chain := l.chain.dropLast ++ [{ b with entries := b.entries ++ now }]
      lastAt := s.clock }
    let s := if logEntries ≤ b.entries.length + now.length then s.setSb { s.sblock b.loc with closed := true } else s
    s.count (groupBlock b.loc) 2 (ceilDiv now.length 4)

/-- Programs the first staged entries of a logical block into its last log block, or into a new one at `loc` when
there is none with room. -/
def State.programLog (s : State) (lb : Nat) (loc : SbLoc) : State :=
  let mine := s.media.staging.filter (fun e => e.lb == lb)
  let s := if (s.lblock lb).logFull then s.openLog lb loc else s
  let room := logEntries - (((s.lblock lb).chain.getLast?).map (fun b => b.entries.length)).getD 0
  let rest := s.media.staging.filter (fun e => e.lb != lb)
  let s := s.appendLog lb (entriesOf mine)
  { s with media := { s.media with staging := rest ++ mine.drop room } }

end Sys2Proof.Machine
end

