-- ==== Sys2Proof/Machine/Objects.lean ====
section
/-!
DEFINITION. Models and indexes in flash: their pages are placed in T2 and T3 in the order in which they are
written (R118, R279, R285), and what a change of an index writes to pages already placed goes through the log of
their logical blocks (R123, R320; log 64).
-/

namespace Sys2Proof.Machine

/-! ### Placement (R118, R318) -/

/-- Opens the superblocks of a logical block in a tier: four one-bit ones in T2, one four-bit one in T3; they are
written and closed, and a COMMIT record names them. -/
def State.openTier (s : State) (lb : Nat) (t2 : Bool) : State :=
  let j := s.newJseq
  let opened := (List.range (if t2 then 4 else 1)).foldl (fun (x : State × List SbLoc) _ =>
    let loc := x.1.pickLoc t2 .t2
    let o := x.1.openSb loc .t2 .mapped lb (some j.1)
    (o.2.setSb { o.2.sblock loc with closed := true }, x.2 ++ [loc])) (j.2, [])
  let s := opened.1
  let l := s.lblock lb
  let locs := l.mapped ++ opened.2
  let seq := s.media.nextSeq - 1
  (s.setLb { l with mapped := locs, seq := seq }).queueRec
    { jseq := j.1, type := 1, lblock := s.lbPlace lb, newSeq := seq, oldSeq := l.seq, newLocs := locs
      oldLoc := l.mapped.head? }

/-- Whether a logical block has superblocks of a tier. -/
def State.hasTier (s : State) (lb : Nat) (t2 : Bool) : Bool :=
  (s.lblock lb).mapped.any (fun l => (s.sblock l).oneBit == t2)

/-- Runs of pages with one more. -/
def addRun (runs : List (Nat × Nat)) (first n : Nat) : List (Nat × Nat) :=
  if n = 0 then runs else runs ++ [(first, n)]

/-- Places pages of one logical block of a copy: in T2 as far as that region has room, the others in T3. A logical
block that both tiers share has superblocks of both (log 28). -/
def State.placePart (s : State) (copy first n : Nat) : State :=
  match s.copy? copy with
  | none => s
  | some c =>
    let lb := (c.sectorAt (512 * first)).1
    let k := if s.hasTier lb true || decide (4 ≤ s.dutyFree .t2) then min n s.t2Room else 0
    let s := if 0 < k ∧ s.hasTier lb true = false then s.openTier lb true else s
    let s := if k < n ∧ s.hasTier lb false = false then s.openTier lb false else s
    s.modCopy copy (fun c => { c with t2 := addRun c.t2 first k, t3 := addRun c.t3 (first + k) (n - k) })

/-- Places `n` pages of a copy from `first` on, one logical block after another. -/
def State.placeRun (fuel : Nat) (s : State) (copy first n : Nat) : State :=
  match fuel with
  | 0 => s
  | fuel + 1 =>
    match s.copy? copy with
    | none => s
    | some c =>
      if n = 0 then s
      else
        let k := min n (128 - (c.sectorAt (512 * first)).2 / 512)
        State.placeRun fuel (s.placePart copy first k) copy (first + k) (n - k)

/-- Pages that bytes `off` to `off + n - 1` of a window touch: first and number. -/
def pagesOf (off n : Nat) : Nat × Nat :=
  (off / pageBytes, if n = 0 then 0 else (off + n - 1) / pageBytes + 1 - off / pageBytes)

/-- Places bytes of a window that is written for the first time. -/
def State.placePages (s : State) (copy : Nat) (r : Nat × Nat) : State :=
  let p := pagesOf r.1 r.2
  State.placeRun p.2 s copy p.1 p.2

/-- Whether a page of a copy lies in flash: it is metadata, or has been placed. -/
def Copy.stored (c : Copy) (p : Nat) : Bool := decide (p < c.metaPages) || hasPage c.t2 p || hasPage c.t3 p

/-- The pages of a range that have not been placed. -/
def Copy.newPages (c : Copy) (r : Nat × Nat) : List Nat :=
  let p := pagesOf r.1 r.2
  ((List.range p.2).map (fun i => p.1 + i)).filter (fun p => !c.stored p)

/-! ### Changes of an index (R123, R338) -/

/-- The cells in which two stores differ, in rising order. -/
def sparseDiff (fuel : Nat) (a b : Mem) : List Nat :=
  match fuel with
  | 0 => []
  | fuel + 1 =>
    match a, b with
    | [], b => b.map (fun x => x.1)
    | a, [] => a.map (fun x => x.1)
    | x :: s, y :: t =>
      if x.1 < y.1 then x.1 :: sparseDiff fuel s (y :: t)
      else if y.1 < x.1 then y.1 :: sparseDiff fuel (x :: s) t
      else if x.2 = y.2 then sparseDiff fuel s t
      else x.1 :: sparseDiff fuel s t

/-- The window sectors that a change of a copy writes and that lie on pages already in flash. -/
def Copy.rewritten (old new : Copy) : List Nat :=
  (((sparseDiff (old.mem.length + new.mem.length + 1) old.mem new.mem).map (fun a => a / 4096)).dedup).filter
    (fun sec => old.stored (sec / 512))

/-- The logical blocks of some window sectors, with the entries that each receives. -/
def State.entriesFor (s : State) (new : Copy) (secs : List Nat) : List (Nat × List LogEntry) :=
  let key := ((s.objs.find? (fun o => o.kind != .volume && o.copy == new.id)).map (fun o => o.handle)).getD 0
  let at_ := secs.map (fun sec =>
    let x := new.sectorAt sec
    (x.1, ({ sector := x.2
             data := some { data := Sparse.extract new.mem (4096 * sec) 4096
                            sealing := some (key, sec) } } : LogEntry)))
  (at_.map (fun x => x.1)).dedup.map (fun lb => (lb, (at_.filter (fun x => x.1 == lb)).map (fun x => x.2)))

/-- Whether the log takes the entries of a change now (R320). -/
def State.logsFit (s : State) (old new : Copy) : Bool :=
  let es := s.entriesFor new (old.rewritten new)
  es.all (fun x => s.chainRoom x.1 x.2.length) &&
  decide (s.logsUsed + (es.map (fun x => (s.lblock x.1).logsFor x.2.length)).sum ≤ 4096)

/-- Whether the media have the superblocks that a change of an index needs (R338): log blocks for what it rewrites,
and those of logical blocks that it writes for the first time. -/
def State.mediaHolds (s : State) (old new : Copy) (fresh : List (Nat × Nat)) : Bool :=
  let logs := ((s.entriesFor new (old.rewritten new)).map (fun x => (s.lblock x.1).logsFor x.2.length)).sum
  let lbs := (((fresh.map old.newPages).flatten.map (fun p => (new.sectorAt (512 * p)).1)).dedup).filter
    (fun lb => (s.lblock lb).mapped == [])
  decide (logs ≤ s.free1) && (lbs == [] || decide (4 * lbs.length ≤ s.dutyFree .t2) || decide (lbs.length ≤ s.free4))

/-- Programs entries into the log of a logical block, opening log blocks as they are needed and may be had. -/
def State.logAll (fuel : Nat) (s : State) (lb : Nat) (es : List LogEntry) : State :=
  match fuel with
  | 0 => s
  | fuel + 1 =>
    let l := s.lblock lb
    if es = [] ∨ (l.logFull ∧ (4 ≤ l.chain.length ∨ 4096 ≤ s.logsUsed ∨ s.free1 = 0)) then s
    else
      let s := if l.logFull then s.openLog lb (s.pickLoc true .log) else s
      let room := logEntries - (((s.lblock lb).chain.getLast?).map (fun b => b.entries.length)).getD 0
      State.logAll fuel (s.appendLog lb es) lb (es.drop room)

/-- Replaces a stored copy by what a change made of it (R123): the bytes of `fresh` that it writes for the first
time are placed, and other sectors go to the log. -/
def State.storeCopy (s : State) (old new : Copy) (fresh : List (Nat × Nat)) : State :=
  let es := s.entriesFor new (old.rewritten new)
  let s := s.modCopy new.id (fun c => { new with t2 := c.t2, t3 := c.t3 })
  let s := ((fresh.map old.newPages).flatten.dedup).foldl (fun s p => s.placePart new.id p 1) s
  (es.foldl (fun s x => State.logAll 5 s x.1 x.2) s).sync

/-! ### Creation and removal (R118, R149, R316) -/

/-- Logical blocks of regions, and the number of sectors of each region's last one. -/
def spanParts (spans : List (Nat × Nat)) : List Nat :=
  (spans.map (fun r =>
    let n := ceilDiv r.2 lbBytes
    (List.range n).map (fun i => if i + 1 < n then lbSectors else ceilDiv (r.2 - i * lbBytes) 4096))).flatten

/-- The state with a stored copy (R118, R316): its logical blocks are allocated, the flash copies of its metadata
written in T3, and the bytes of `order` placed in the order in which they arrive. -/
def State.addCopy (s : State) (c : Copy) (order : List (Nat × Nat)) : State :=
  let id := s.nextCopy
  let c := { c with id := id }
  let parts := spanParts c.spans
  let s := s.allocate (objectLb id 0) parts.length (shortPart parts)
  let s := { s with copies := s.copies ++ [{ c with t2 := [], t3 := [] }], nextCopy := id + 1 }
  let metaParts := ((List.range c.metaPages).map (fun p => (c.sectorAt (512 * p)).1)).dedup
  let s := metaParts.foldl (fun s lb => s.openTier lb false) s
  (order.foldl (fun s r => s.placePages id r) s).sync

/-- Every superblock of a logical block. -/
def LBlock.locs (l : LBlock) : List SbLoc :=
  l.mapped ++ (l.frozen ++ l.chain).map (fun b => b.loc) ++
  (match l.merge with
   | some m => m.locs
   | none => [])

/-- Unmaps a logical block: its UNMAP record is formed, what it holds is released, and it is UNWRITTEN (R317,
R331). A block that holds nothing needs no record. -/
def State.unmap (s : State) (lb : Nat) : State :=
  match s.lblock? lb with
  | none => s
  | some l =>
    if l.locs = [] then s
    else
      let s := s.abandonMerge l
      let s := s.release_ l.locs s.media.nextJseq
      let s := s.jrec 3 (s.lbPlace lb) 0 l.seq [] l.mapped.head?
      { s with media := { s.media with lblocks := s.media.lblocks.filter (fun x => x.num != lb) } }

/-- Releases every logical block of an owner, as DISCARD does (R149, R317). -/
def State.unmapOwner (s : State) (owner : Nat) : State :=
  let mine := (s.media.lblocks.filter (fun l => l.owner == owner)).map (fun l => l.num)
  ((mine.foldl State.unmap s).deallocate owner).sync

end Sys2Proof.Machine
end

