-- ==== Sys2Proof/Machine/Transport.lean ====
section
/-!
DEFINITION. The host-link rows of chapter 02: aperture stores, doorbells, the fetch of packets and
the ends of headers and chains, the global persistent flush.
-/

namespace Sys2Proof.Machine

/-! ### The aperture and the doorbells -/

/-- Bytes written to the aperture by a requester (R360, R361, R367). -/
def State.writeAperture (s : State) (req off : Nat) (bytes : List Byte) : State :=
  if bytes = [] then s
  else
    let m := s.t1Merge s.link.aperture 0 off bytes
    ({ s with link := { s.link with aperture := m } }).t1Encode req 0 off bytes.length

/-- Bytes of the aperture as a read delivers them. -/
def State.apertureBytes (s : State) (off n : Nat) : List Byte :=
  s.t1Deliver 0 off (Mem.bytes s.link.aperture off n)

/-- APERTURE_WRITE (R34, R35): stores bytes of the 1 GiB aperture, which later reads return. An
address outside the HDM range (R32) does not exist, and with the link down nothing arrives (R33). -/
def execApertureWrite (off : Nat) (bytes : List Byte) (s : State) : Result :=
  if 2 ^ 30 < off + bytes.length then .fault .apertureRange
  else if s.link.linkUp = false then .next s
  else .next (s.writeAperture 33 off bytes)

/-- Sets the DB_ERR bit of a queue number (R40, R420). -/
def State.dbErr (s : State) (q : Nat) : State :=
  { s with link := { s.link with
      dbErr := Sparse.set s.link.dbErr (q / 64) (setBits (Sparse.get s.link.dbErr (q / 64)) (q % 64)) } }

/-- Whether doorbells may name the queue: queue 0 only while the admin queue is up (R420). -/
def State.doorbellQueue (s : State) (q : Nat) : Option Queue :=
  if q = 0 ∧ (s.link.admin.ready = false ∨ s.link.admin.draining = true) then none else s.queue? q

/-- An accepted doorbell starts an exit from Standby or Sleep (R77). -/
def State.wake (s : State) : State :=
  if s.hw.pstate = .active then s else { s with hw := { s.hw with exiting := true } }

/-- A submission tail write is valid when it does not move backward past the tail (R41). -/
def sqValid (q : Queue) (n : Nat) : Bool :=
  decide (n < q.depth) &&
  decide ((q.sqTail + q.depth - q.sqHead) % q.depth ≤ (n + q.depth - q.sqHead) % q.depth)

/-- A completion head write is valid when it does not pass the tail (R41). -/
def cqValid (q : Queue) (n : Nat) : Bool :=
  decide (n < q.cqDepth) &&
  decide ((n + q.cqDepth - q.cqHead) % q.cqDepth ≤ (q.cqTail + q.cqDepth - q.cqHead) % q.cqDepth)

/-- A write of the submission tail doorbell of a queue (R40, R41, R77, R420). -/
def State.ringSq (s : State) (q v : Nat) : State :=
  let s := s.count 89 5 1
  let n := v % 65536
  match s.doorbellQueue q with
  | none => s.dbErr q
  | some x => if sqValid x n then (s.setQueue { x with sqTail := n }).wake else s.dbErr q

/-- A write of the completion head doorbell of a queue (R40, R41, R46, R77, R420): it frees completion slots
and the completions held are written. -/
def State.ringCq (s : State) (q v : Nat) : State :=
  let s := s.count 89 5 1
  let n := v % 65536
  match s.doorbellQueue q with
  | none => s.dbErr q
  | some x =>
    if cqValid x n then
      let s := (s.setQueue { x with cqHead := n }).wake
      (State.release x.held.length s q).settle
    else s.dbErr q

/-- SQ_TAIL_DOORBELL (R40, R41): there are doorbells for queues 0 to 4095. -/
def execSqTailDoorbell (q : Nat) (v : BitVec 64) (s : State) : Result :=
  if 4096 ≤ q ∨ s.link.linkUp = false then .next s else .next (s.ringSq q v.toNat)

/-- CQ_HEAD_DOORBELL (R40, R41, R46). -/
def execCqHeadDoorbell (q : Nat) (v : BitVec 64) (s : State) : Result :=
  if 4096 ≤ q ∨ s.link.linkUp = false then .next s else .next (s.ringCq q v.toNat)

/-! ### Command headers (R49) -/

/-- A parsed command header. -/
structure Header where
  opcode : Nat
  flags  : Nat
  tag    : Nat
  len    : Nat
  index  : Nat
  time   : Nat
  object : Nat
  p0     : Nat
  p1     : Nat
  p2     : Nat
  /-- The two reserved words and reserved flag bits are zero (R13). -/
  clean  : Bool
  /-- hcrc is correct. -/
  good   : Bool
  deriving DecidableEq, Repr

/-- The header in 64 bytes (R49). -/
def parseHeader (bs : List Byte) : Header :=
  let f := fieldAt bs
  { opcode := f 0 1, flags := f 1 1, tag := f 2 2, len := f 4 4, index := f 8 4, time := f 0x10 8
    object := f 0x18 8, p0 := f 0x20 8, p1 := f 0x28 8, p2 := f 0x30 8
    clean := decide (bits (f 1 1) 6 3 = 0) && decide (f 0xC 4 = 0) && decide (f 0x38 4 = 0)
    good := decide (f 0x3C 4 = crc32c (bytesAt bs 0 0x3C)) }

/-- CHAIN, FENCE, NO_INTR and LAP of a header. -/
def Header.chain (h : Header) : Bool := bitOf h.flags 0
/-- FENCE (R66). -/
def Header.fence (h : Header) : Bool := bitOf h.flags 1
/-- NO_INTR (R45). -/
def Header.noIntr (h : Header) : Bool := bitOf h.flags 2
/-- LAP (R50). -/
def Header.lap (h : Header) : Bool := bitOf h.flags 7

/-- The aperture offset of a slot of a queue's submission ring. -/
def slotAt (q : Queue) (n : Nat) : Nat := q.sqOffset + 64 * (n % q.depth)

/-- The header at the submission head. -/
def State.headerOf (s : State) (q : Queue) : Header :=
  parseHeader (s.apertureBytes (slotAt q q.sqHead) 64)

/-- The payload of the packet whose header lies at the head (R38): it may wrap. -/
def State.payloadOf (s : State) (q : Queue) (len : Nat) : List Byte :=
  (((List.range (ceilDiv len 64)).map
    (fun i => s.apertureBytes (slotAt q (q.sqHead + 1 + i)) 64)).flatten).take len

/-- Whether some unit of the packet's payload is uncorrectable (R369). -/
def State.payloadLost (s : State) (q : Queue) (len : Nat) : Bool :=
  (List.range (ceilDiv len 64)).any (fun i => s.t1Lost 0 (slotAt q (q.sqHead + 1 + i)) 64)

/-- The errors that the reads of a packet's slots meet, header first (R363). -/
def State.noteSlots (s : State) (q : Queue) (n : Nat) : State :=
  if s.integ.t1Ecc = [] then s
  else (List.range n).foldl (fun s i => s.noteT1 0 (slotAt q (q.sqHead + i)) 64) s

/-- The header is accepted (R51): expected LAP, correct hcrc, readable. -/
def State.accepts (s : State) (q : Queue) (h : Header) : Bool :=
  (h.lap == q.lap) && h.good && !s.t1Lost 0 (slotAt q q.sqHead) 64

/-- The queue with its head moved past `n` slots; the lap changes at the wrap (R50). -/
def Queue.advance (q : Queue) (n : Nat) : Queue :=
  { q with sqHead := (q.sqHead + n) % q.depth
           lap := if q.depth ≤ q.sqHead + n then !q.lap else q.lap }

/-! ### Which packets are refused (R52, R59) -/

/-- The admin opcodes (R59). -/
def isAdminOp (op : Nat) : Bool := decide (1 ≤ op) && decide (op ≤ 8)

/-- The I/O opcodes (R59). -/
def isIoOp (op : Nat) : Bool :=
  decide (0x10 ≤ op ∧ op ≤ 0x13) || decide (0x20 ≤ op ∧ op ≤ 0x26) || decide (0x30 ≤ op ∧ op ≤ 0x34)

/-- Commands that may be sent as chains (R54). -/
def mayChain (op : Nat) : Bool :=
  op == 0x11 || op == 0x24 || op == 0x20 || op == 0x22 || op == 0x23 || op == 0x30 || op == 0x31

/-- Whether the command uses its object field (R59); a field that is not used is reserved. -/
def usesObject (op : Nat) : Bool :=
  op == 0x08 || decide (0x10 ≤ op ∧ op ≤ 0x13) || op == 0x21 || decide (0x23 ≤ op ∧ op ≤ 0x26) ||
  decide (0x31 ≤ op ∧ op ≤ 0x34)

/-- The parameters lie in their stated ranges and the unused ones are zero (R59, R299). -/
def paramsGood (h : Header) : Bool :=
  let z := fun (a b c : Bool) => (a || h.p0 == 0) && (b || h.p1 == 0) && (c || h.p2 == 0)
  (usesObject h.opcode || h.object == 0) &&
  (match h.opcode with
   | 0x02 | 0x03 => z true false false && decide (h.p0 < 2 ^ 16)
   | 0x04 => z true false false && decide (h.p0 < 2 ^ 32)
   | 0x05 => z true false false && decide (h.p0 ≤ 2)
   | 0x07 => z true true false && decide (h.p0 < 2 ^ 16)
   | 0x10 | 0x11 => z true true false && decide (1 ≤ h.p1 ∧ h.p1 ≤ 16384)
   | 0x12 | 0x13 => z true true false && decide (1 ≤ h.p1 ∧ h.p1 ≤ 2 ^ 32)
   | 0x20 => z true false false
   | 0x22 => true
   | 0x23 | 0x24 => z false true false
   | 0x31 => z true true false
   | 0x32 =>
     z true true false && decide (h.p0 < 2 ^ 49) &&
     decide (1 ≤ bits h.p0 15 0 ∧ bits h.p0 15 0 ≤ 4096) &&
     decide (1 ≤ bits h.p0 31 16 ∧ bits h.p0 31 16 ≤ 1024) &&
     (if bitOf h.p0 48 then
        decide (bits h.p0 31 16 < bits h.p0 47 32 ∧ bits h.p0 47 32 ≤ 1024)
      else bits h.p0 47 32 == 0)
   | _ => z false false false)

/-- The payload length that a command requires in all, where its header fixes it (R59); that of a BIND is judged with
its descriptor (R82), and a SEARCH's with its index (R299). -/
def requiredLen (op p1 : Nat) : Option Nat :=
  match op with
  | 0x01 => some 64
  | 0x11 => some (p1 * 4096)
  | 0x24 => some (p1 * 8)
  | 0x06 | 0x20 | 0x22 | 0x23 | 0x30 | 0x31 | 0x32 => none
  | _ => some 0

/-- The length of a single packet, or of a whole chain, is what the command requires. -/
def lengthGood (op p1 total : Nat) : Bool :=
  match requiredLen op p1 with
  | some n => n == total
  | none => true

/-- A payload is longer than its command requires in all. -/
def lengthPast (op p1 total : Nat) : Bool :=
  match requiredLen op p1 with
  | some n => decide (n < total)
  | none => false

/-- BAD_PACKET for a first packet (R52). -/
def State.badPacket (s : State) (q : Queue) (h : Header) : Bool :=
  !(if q.id = 0 then isAdminOp h.opcode else isIoOp h.opcode) || !h.clean ||
  decide (packetLimit q.depth < h.len) || (h.chain && !mayChain h.opcode) || h.index != 0 ||
  !paramsGood h || (!h.chain && !lengthGood h.opcode h.p1 h.len) ||
  lengthPast h.opcode h.p1 h.len ||
  (decide (q.depth ≤ 1024) && (s.cmdsOf q.id).any (fun c => c.tag == h.tag))

/-- The kind of object that a command addresses, as the kind field of its handle (R91, R121). -/
def objectKind (op : Nat) : Nat :=
  if op = 0x08 ∨ (0x10 ≤ op ∧ op ≤ 0x13) then 1
  else if op = 0x21 then 2
  else if 0x23 ≤ op ∧ op ≤ 0x26 then 3
  else 4

/-- The kind code of an object (R121). -/
def ObjKind.code (k : ObjKind) : Nat :=
  match k with
  | .volume => 1
  | .model => 2
  | .index => 3

/-- NOT_BOUND (R53): the handle names nothing of the kind bound to the queue's Pod; an admin command
may name any Pod's object. -/
def State.notBound (s : State) (q : Queue) (h : Header) : Bool :=
  usesObject h.opcode &&
  (if objectKind h.opcode = 4 then
     match s.jobByHandle? h.object with
     | some j => j.pod != q.pod
     | none => true
   else
     match s.obj? h.object with
     | some o => o.kind.code != objectKind h.opcode || (q.id != 0 && o.pod != q.pod)
     | none => true)

/-- A fetched command from its first packet, whose NO_INTR holds for the whole chain (DESIGN CHOICE, log 66). -/
def cmdOf (u : Nat) (q : Queue) (h : Header) (payload : List Byte) : Cmd :=
  { uid := u, queue := q.id, opcode := h.opcode, tag := h.tag, fence := h.fence,
    noIntr := h.noIntr, hostTime := h.time, object := h.object, p0 := h.p0, p1 := h.p1, p2 := h.p2,
    payload := payload, whole := !h.chain, nextIndex := 1,
    begun := decide (q.id = 0), posted := 0, seqNo := none, progress := 0, verdict := none,
    finished := false }

/-- The state with a new fetched command. -/
def State.addCmd (s : State) (c : Cmd) : State :=
  { s with link := { s.link with cmds := s.link.cmds ++ [c], nextUid := s.link.nextUid + 1 } }

/-- A packet that completes at its fetch with a status and no effect. -/
def State.refuseFetched (s : State) (q : Queue) (h : Header) (st : Status) : State :=
  let c := cmdOf s.link.nextUid q h []
  (s.addCmd { c with whole := true }).complete c.uid { status := st }

/-! ### Broken chains (R54, R63) -/

/-- Ends an open chain with a status: a WRITE keeps the sectors, and a DELETE_CODES the identifiers,
received in full, which its own row carries out under this status; any other command has no
effect (R63, R74, R369). -/
def State.breakChain (s : State) (qid u : Nat) (st : Status) : State :=
  let s := s.modQueue qid (fun q => { q with chain := none })
  match s.cmd? u with
  | none => s
  | some c =>
    let unit := if c.opcode = 0x11 then 4096 else 8
    let n := c.payload.length / unit
    if (c.opcode = 0x11 ∨ c.opcode = 0x24) ∧ 0 < n then
      s.modCmd u (fun c => { c with
        whole := true
        payload := c.payload.take (n * unit)
        verdict := some { status := st, result0 := if c.opcode = 0x11 then n else 0 } })
    else s.complete u { status := st }

/-- Whether a packet continues the open chain of a command (R54). -/
def continues (c : Cmd) (h : Header) : Bool :=
  h.opcode == c.opcode && h.tag == c.tag && h.time == c.hostTime && h.object == c.object &&
  h.p0 == c.p0 && h.p1 == c.p1 && h.p2 == c.p2 && h.fence == c.fence && h.clean &&
  h.index == c.nextIndex

/-! ### Queries and filters (R278, R280, R299) -/

/-- A little-endian field of an index's window. -/
def Copy.field (c : Copy) (off n : Nat) : Nat := Mem.field c.mem off n

/-- Code width (R280). -/
def Copy.codeBits (c : Copy) : Nat := c.field 0x04 2
/-- Bytes of a code (R278). -/
def Copy.codeBytes (c : Copy) : Nat := c.codeBits / 8

/-- Whether a 32-byte term keeps the rules of R299. -/
def termGood (t : List Byte) : Bool :=
  let f := fieldAt t
  decide (f 0 1 ≤ 2) && decide (f 1 1 ≤ 7) && decide (f 4 1 < 2) && decide (f 5 3 = 0) &&
  decide (f 0x18 8 = 0) &&
  (f 0 1 != 2 || (decide (f 2 1 ≤ 63) && decide (f 2 1 ≤ f 3 1) && decide (f 3 1 ≤ 63))) &&
  (f 0 1 != 0 || allZero (bytesAt t 0 32))

/-- The eight terms of a filter. -/
def filterTerms (bs : List Byte) : List (List Byte) := (List.range 8).map fun i => bytesAt bs (32 * i) 32

/-- Whether a 256-byte filter keeps the rules of R299. -/
def filterGood (bs : List Byte) : Bool := (filterTerms bs).all termGood

/-- Whether a SEARCH of a job keeps R299 for the index that the job's Slate names. -/
def State.searchGood (s : State) (handle : Nat) (payload : List Byte) : Bool :=
  match (s.jobByHandle? handle).bind (fun j => if j.slate.index = 0 then none else s.obj? j.slate.index) with
  | none => false
  | some o =>
    match s.copy? o.copy with
    | none => false
    | some x =>
      let cb := x.codeBytes
      payload.length == cb || (payload.length == cb + 256 && filterGood (payload.drop cb))

/-! ### PACKET_FETCH -/

/-- Whether commands may act on the module now: the life-cycle state, the session and the boot mode
(R383, R393, R404), as the status with which a fetched command otherwise completes. -/
def State.gate (s : State) : Option Status :=
  if s.sec.err = .hard ∨ s.sec.boot = 1 ∨ s.sec.lc ≠ .service then some .locked
  else if s.link.session = false then some .authFail
  else none

/-- From the fetch of a RECLAIM on, the cycles of its job's cores count for its result (R110). -/
def State.watch (s : State) (c : Cmd) : State :=
  if c.opcode ≠ 0x33 then s
  else match s.jobByHandle? c.object with
    | none => s
    | some j => s.modJob j.ctx (fun j => { j with watches := j.watches ++ [(c.uid, [])] })

/-- The first packet of a command (R52, R53, R299, R383): its end at fetch, or its place among the fetched
commands. `q` is the queue with its head already past the packet. -/
def State.firstPacket (s : State) (read q : Queue) (h : Header) (payload : List Byte) (lost : Bool) : State :=
  let skip := fun (s : State) =>
    if h.chain && mayChain h.opcode then
      s.modQueue q.id (fun q => { q with
        discard := some { tag := h.tag, opcode := h.opcode, nextIndex := 1 } })
    else s
  match s.gate with
  | some st => (skip s).refuseFetched q h st
  | none =>
    if s.badPacket q h then s.refuseFetched q h .badPacket
    else if s.notBound q h then (skip s).refuseFetched q h .notBound
    else if lost then ((skip s).noteSlots (read.advance 1) (ceilDiv h.len 64)).refuseFetched q h .mediaUncorrectable
    else if h.opcode = 0x32 ∧ s.searchGood h.object payload = false then
      (s.noteSlots (read.advance 1) (ceilDiv h.len 64)).refuseFetched q h .badPacket
    else
      let c := cmdOf s.link.nextUid q h payload
      let s := ((s.noteSlots (read.advance 1) (ceilDiv h.len 64)).addCmd c).watch c
      if h.chain then s.modQueue q.id (fun q => { q with chain := some c.uid }) else s

/-- Takes the sectors of a WRITE back, of which a refusal carries out nothing (R52, log 32): staged ones leave
staging, and one already programmed is superseded by what it held before, unless it has been written since. -/
def State.takeBack (s : State) (u : Nat) : State :=
  let staged := fun (lb sec : Nat) => s.media.staging.any (fun e => e.uid == some u && e.lb == lb && e.sector == sec)
  let out : State := { s with media := { s.media with
    staging := s.media.staging.filter (fun e => e.uid != some u) } }
  match s.cmd? u with
  | none => out
  | some c =>
    let old := (c.undo.zipIdx.filter (fun x => !staged x.1.1 x.1.2.1 &&
      (out.sectorOf x.1.1 x.1.2.1).data == Sparse.ofList 0 ((c.payload.drop (4096 * x.2)).take 4096))).map
      (fun x => ({ lb := x.1.1, sector := x.1.2.1, data := some x.1.2.2 } : Staged))
    { out with media := { out.media with staging := out.media.staging ++ old } }

/-- A later packet of the open chain of command `c` (R54, R55). A chain longer than its command requires, or
shorter at its end, is refused (R52). -/
def State.laterPacket (s : State) (read q : Queue) (c : Cmd) (h : Header) (payload : List Byte)
    (lost : Bool) : State :=
  if lost then
    let s := (s.noteSlots (read.advance 1) (ceilDiv h.len 64)).breakChain q.id c.uid .mediaUncorrectable
    if h.chain then
      s.modQueue q.id (fun q => { q with
        discard := some { tag := h.tag, opcode := h.opcode, nextIndex := h.index + 1 } })
    else s
  else
    let total := c.payload.length + payload.length
    if lengthPast c.opcode c.p1 total || (!h.chain && !lengthGood c.opcode c.p1 total) then
      let s := s.modQueue q.id (fun q => { q with
        chain := none
        discard := if h.chain then some { tag := h.tag, opcode := h.opcode, nextIndex := h.index + 1 } else none })
      (s.takeBack c.uid).complete c.uid { status := .badPacket }
    else
      let s := (s.noteSlots (read.advance 1) (ceilDiv h.len 64)).modCmd c.uid (fun c => { c with
        payload := c.payload ++ payload, nextIndex := c.nextIndex + 1, whole := !h.chain })
      if h.chain then s else s.modQueue q.id (fun q => { q with chain := none })

/-- Routes one accepted, wholly published packet: `read` is the packet's queue before its head moved. A later packet
longer than R39 allows breaks the chain and is then refused itself (DESIGN CHOICE, log 66). -/
def State.packet (s : State) (read q : Queue) (h : Header) (payload : List Byte) (lost : Bool) : State :=
  let chained := q.chain.bind s.cmd?
  match chained with
  | some c =>
    if continues c h && decide (h.len ≤ packetLimit q.depth) then s.laterPacket read q c h payload lost
    else
      let s := s.breakChain q.id c.uid .chainBroken
      s.firstPacket read { q with chain := none } h payload lost
  | none =>
    match q.discard with
    | some d =>
      if d.tag == h.tag && d.opcode == h.opcode && d.nextIndex == h.index then
        s.modQueue q.id (fun q => { q with
          discard := if h.chain then some { d with nextIndex := d.nextIndex + 1 } else none })
      else (s.modQueue q.id (fun q => { q with discard := none })).firstPacket read q h payload lost
    | none => s.firstPacket read q h payload lost

/-- Whether a queue fetches now (R43, R46, R51, R74, R396, R418, R419, R447): the module runs and its link
is up, no firmware commit runs, the queue is not halted, not being reset, has fetch room and unread slots. -/
def State.fetches (s : State) (q : Queue) : Bool :=
  decide (s.hw.phase = .running) && s.hw.started && s.link.linkUp && decide (s.sec.boot ≠ 2) &&
  decide (s.hw.pstate = .active) && !s.hw.exiting &&
  !q.halted && q.resetting.isNone && decide (q.sqHead ≠ q.sqTail) &&
  decide ((s.cmdsOf q.id).length < 256) &&
  (q.id != 0 || (s.link.admin.ready && !s.link.admin.draining))

/-- PACKET_FETCH (R43, R49 to R54): the next packet of a queue is read, checked and routed. A header
that R51 does not accept is read again later, and a packet that is not yet wholly published waits. -/
def execPacketFetch (qid : Nat) (s : State) : Result :=
  match s.queue? qid with
  | none => .next s
  | some q =>
    if s.fetches q = false then .next s
    else
      let h := s.headerOf q
      if s.accepts q h = false then .next s
      else
        let published := (q.sqTail + q.depth - q.sqHead) % q.depth
        if packetLimit q.depth < h.len then
          let q' := q.advance 1
          .next (((s.noteSlots q 1).setQueue q').packet q q' h [] false).settle
        else if published < packetSlots h.len then .next s
        else
          let payload := s.payloadOf q h.len
          let lost := s.payloadLost q h.len
          let q' := q.advance (packetSlots h.len)
          .next ((((s.noteSlots q 1).setQueue q').packet q q' h payload lost).count 89 1 1).settle

/-- HEADER_RETRY_TIMEOUT (R51): a header that still fails halts its queue, with one completion that
names the slot. -/
def execHeaderRetryTimeout (qid : Nat) (s : State) : Result :=
  match s.queue? qid with
  | none => .next s
  | some q =>
    if s.fetches q = true ∧ s.accepts q (s.headerOf q) = false then
      let c : Cmd :=
        { uid := s.link.nextUid, queue := qid, opcode := 0, tag := 0, fence := false,
          noIntr := false, hostTime := 0, object := 0, p0 := 0, p1 := 0, p2 := 0, payload := [],
          whole := true, nextIndex := 1, begun := true, posted := 0, seqNo := none, progress := 0,
          verdict := none, finished := false }
      let s := ((s.noteSlots q 1).setQueue { q with halted := true }).addCmd c
      .next (s.complete c.uid { status := .queueHalted, result0 := q.sqHead }).settle
    else .next s

/-- CHAIN_TIMEOUT (R54): 100 ms without the next packet break the queue's open chain. -/
def execChainTimeout (qid : Nat) (s : State) : Result :=
  match s.queue? qid with
  | none => .next s
  | some q =>
    match q.chain with
    | some u => .next (s.breakChain qid u .chainBroken).settle
    | none => .next s

/-- The object protocols of the module's DOE mailbox (R32): SPDM_MESSAGE and IDE_KM_MESSAGE are requests of the first two;
a CDAT read changes no state, and the manual gives no content for its answer (log 68). -/
inductive DoeProtocol where
  | cmaSpdm | ideKm | cdat
  deriving DecidableEq, Repr

/-- GLOBAL_PERSISTENT_FLUSH (R32, R33): acknowledged, no action; nothing arrives while the link is down. -/
def execGlobalPersistentFlush (s : State) : Result :=
  if s.link.linkUp = false then .next s
  else .next { s with host := { s.host with gpfAcks := s.host.gpfAcks + 1 } }

end Sys2Proof.Machine
end

