-- ==== Sys2Proof/Machine/Unified.lean ====
section
/-!
DEFINITION. The unified range (chapter 04): what an address names, the bytes it holds, pages, claims,
references, Storyboard windows, and the bytes of Cut records (R450).
-/

namespace Sys2Proof.Machine

/-- What an address of the unified range names for a job (R120, R349). -/
inductive Place where
  | writable
  | program
  | cutArea
  | object (copy : Nat)
  | remote (module : Nat)
  | unmapped
  deriving DecidableEq, Repr

/-! ### Cut records (R97, R450) -/

/-- The size of one Cut record slot (R97). -/
def Slate.slotBytes (sl : Slate) : Nat :=
  roundUp (65536 + sl.carryBytes + (if sl.carryAcc then 32768 else 0) +
    (if sl.carryTopk then 1048576 else 0)) pageBytes

/-- The bytes of one Cut record (R97). -/
def Slate.recordBytes (sl : Slate) : Nat :=
  65536 + sl.carryBytes + (if sl.carryAcc then 32768 else 0) + (if sl.carryTopk then 1048576 else 0)

/-- The declared cores that size a job's Cut area: as resolved at its first start (R97). -/
def Job.cutCores (j : Job) : Nat := j.resolved.getD j.declared

/-- The size of a job's Cut area: two slots per declared core. -/
def Job.cutBytes (j : Job) : Nat := 2 * j.cutCores * j.slate.slotBytes

/-- The bytes of the register parts of a Cut record below 0x5000 (R450). -/
def SavedCore.fixed (r : SavedCore) (rank : Nat) : List Byte :=
  let regs := fun (n w : Nat) (m : Nat → Nat) => ((List.range n).map (fun i => leBytes w (m i))).flatten
  leBytes 4 0x43520002 ++ leBytes 4 rank ++ leBytes 8 r.cuts ++ leBytes 8 r.pc ++
  leBytes 1 (b2n r.z + 2 * b2n r.slt + 4 * b2n r.ult) ++ leBytes 1 r.stack.length ++
  List.replicate 230 0 ++
  regs 32 8 (fun i => (Sparse.get r.sregs i).toNat) ++
  regs 16 8 (fun i => (Sparse.get r.aregs i).toNat) ++
  regs 8 16 (fun i => (Sparse.get r.pregs i).toNat) ++
  regs 16 8 (fun i => (r.stack.getD i 0).toNat) ++
  List.replicate 3200 0

/-- Byte `o` of a Cut record of a job (R450). The parts that the manual leaves to the module are
opaque (log 17). -/
def SavedCore.byteAt (r : SavedCore) (j : Job) (slot rank o : Nat) : Byte :=
  let own := fun (x : Nat) => Config.cutModuleByte j.handle r.cuts slot rank x
  let accAt := 0x10000 + j.slate.carryBytes
  let accLen := if j.slate.carryAcc then 32768 else 0
  if o < 0x1000 then (r.fixed rank).getD o 0
  else if o < 0x5000 then
    let v := Sparse.get r.vregs ((o - 0x1000) / 4)
    BitVec.ofNat 8 (v.toNat / 256 ^ (o % 4))
  else if o < 0x10000 then own o
  else if o < accAt then Sparse.get r.carry (o - 0x10000)
  else if o < accAt + accLen then
    let v := Sparse.get r.acc ((o - accAt) / 4)
    BitVec.ofNat 8 (v.toNat / 256 ^ ((o - accAt) % 4))
  else own o

/-- `n` bytes of a job's Cut area from offset `off`. A record that was never written is opaque. -/
def Job.cutAreaBytes (j : Job) (off n : Nat) : List Byte :=
  (List.range n).map fun i =>
    let a := off + i
    let sl := j.slate.slotBytes
    let k := a / (2 * sl)
    let s := a / sl % 2
    let o := a % sl
    let cut := if (j.lastCut.map (fun c => c.slot)) = some s then j.lastCut else j.prevCut
    match cut with
    | some c =>
      match (if c.slot = s then c.recs[k]? else none) with
      | some r => r.byteAt j s k o
      | none => Config.cutModuleByte j.handle 0 s k o
    | none => Config.cutModuleByte j.handle 0 s k o

/-! ### Addresses -/

/-- The object of a Pod that an object window names (R120, R121). -/
def State.windowObj? (s : State) (pod n : Nat) : Option Obj :=
  s.objs.find? (fun o => o.pod == pod && o.num == n && o.kind != ObjKind.volume)

/-- The stored copy behind an object, with the size that reads may reach (R122). -/
def State.objPlace (s : State) (o : Option Obj) (off : Nat) : Place × Nat :=
  match o with
  | none => (.unmapped, off)
  | some o =>
    match s.copy? o.copy with
    | some c => if off < c.size then (.object c.id, off) else (.unmapped, off)
    | none => (.unmapped, off)

/-- What address `a` names for a job, and the offset there (R120). -/
def State.place (s : State) (j : Job) (a : Nat) : Place × Nat :=
  if a < 0x000000C000000000 then
    (if a < j.slate.writableBytes then (.writable, a) else (.unmapped, a))
  else if a < 0x000000E000000000 then
    let o := a - 0x000000C000000000
    if o < roundUp j.slate.programLen pageBytes then (.program, o) else (.unmapped, o)
  else if a < 0x1000000000000000 then
    let o := a - 0x000000E000000000
    if o < j.cutBytes then (.cutArea, o) else (.unmapped, o)
  else if a < 0x2000000000000000 then
    s.objPlace (if j.slate.model = 0 then none else s.obj? j.slate.model) (a - 0x1000000000000000)
  else if a < 0x4000000000000000 then
    s.objPlace (if j.slate.index = 0 then none else s.obj? j.slate.index) (a - 0x2000000000000000)
  else if a < 0x8000000000000000 then
    s.objPlace (s.windowObj? j.pod ((a - 0x4000000000000000) / 2 ^ 50)) ((a - 0x4000000000000000) % 2 ^ 50)
  else if a < 0x9000000000000000 then
    (.remote ((a - 0x8000000000000000) / 2 ^ 48), (a - 0x8000000000000000) % 2 ^ 48)
  else (.unmapped, a)

/-- `n` bytes at a place that lies in this module's memory. -/
def State.placeBytes (s : State) (j : Job) (p : Place) (off n : Nat) : List Byte :=
  match p with
  | .writable => Mem.bytes j.writable off n
  | .program => Mem.bytes j.program off n
  | .cutArea => j.cutAreaBytes off n
  | .object c => match s.copy? c with
    | some x => Mem.bytes x.mem off n
    | none => List.replicate n 0
  | .remote _ => List.replicate n 0
  | .unmapped => List.replicate n 0

/-- `n` bytes of the unified range from address `a`, by one place. -/
def State.rangeBytes (s : State) (j : Job) (a n : Nat) : List Byte :=
  let p := s.place j a
  s.placeBytes j p.1 p.2 n

/-! ### Claims, references, quotas (R124, R125, R132) -/

/-- The page of a stored copy that holds an offset. -/
def pageOf (off : Nat) : Nat := off / pageBytes

/-- A transfer that may move or waits to move (it holds a reference on its current page, R125). -/
def Xfer.live (x : Xfer) : Bool :=
  x.state == .active || x.state == .parked || x.state == .cutOff

/-- Beats of a transfer. -/
def Xfer.beats (x : Xfer) : Nat := x.rows * x.rowBytes / 64

/-- Elements along a side of a block of a TRANSPOSE (R171). -/
def Xfer.side (x : Xfer) : Nat := 64 / x.elem

/-- The unified-range and local addresses of a beat, on the source and destination sides, of a COPY
or SPREAD (R170): source address, destination address, each relative to its base. -/
def Xfer.beatOffsets (x : Xfer) (m : Nat) : Nat × Nat :=
  let per := x.rowBytes / 64
  let row := m / per
  let col := m % per * 64
  match x.mode with
  | .copy => (row * x.srcStride + col, row * x.dstStride + col)
  | .spread => (row * x.srcStride + col, 64 * m / x.chunk * 8192 + 64 * m % x.chunk)
  | .transpose =>
    let b := x.side
    let blocks := x.rowBytes / 64
    let block := m / b
    let t := m % b
    (block / blocks * b * x.srcStride + block % blocks * 64,
     (block % blocks * b + t) * x.dstStride + block / blocks * 64)

/-- The source rows that a beat of a TRANSPOSE gathers from, as offsets from the source base. -/
def Xfer.gather (x : Xfer) (m : Nat) : List Nat :=
  match x.mode with
  | .transpose => (List.range x.side).map fun i => (x.beatOffsets m).1 + i * x.srcStride
  | .copy => [(x.beatOffsets m).1]
  | .spread => [(x.beatOffsets m).1]

/-- The unified-range addresses that beat `m` reads or writes (modulo 2^64, R187). -/
def Xfer.uAddrs (x : Xfer) (m : Nat) : List Nat :=
  (if x.store then [(x.beatOffsets m).2] else x.gather m).map fun o => (x.uaddr + o) % 2 ^ 64

/-- The local addresses that beat `m` reads or writes. -/
def Xfer.lAddrs (x : Xfer) (m : Nat) : List Nat :=
  (if x.store then x.gather m else [(x.beatOffsets m).2]).map fun o => x.laddr + o

/-- The bytes from the lowest to the highest of a transfer's source side (R191). -/
def Xfer.srcSpan (x : Xfer) : Nat := (x.rows - 1) * x.srcStride + x.rowBytes

/-- The bytes from the lowest to the highest of a transfer's destination side (R191). -/
def Xfer.dstSpan (x : Xfer) : Nat :=
  match x.mode with
  | .copy => (x.rows - 1) * x.dstStride + x.rowBytes
  | .spread =>
    let total := x.rows * x.rowBytes
    if total ≤ x.chunk then total else (ceilDiv total x.chunk - 1) * 8192 + x.chunk
  | .transpose => (x.rowBytes / x.elem - 1) * x.dstStride + x.rows * x.elem

/-- The bytes that a transfer spans in the unified range. -/
def Xfer.uSpan (x : Xfer) : Nat := if x.store then x.dstSpan else x.srcSpan

/-- The bytes that a transfer spans in local storage. -/
def Xfer.lSpan (x : Xfer) : Nat := if x.store then x.srcSpan else x.dstSpan

/-- Whether a page of a copy is T1 metadata of an index: it stays in T1 for the life of the index and is
no read-only page (R279). -/
def State.metaPage (s : State) (pg : Nat × Nat) : Bool :=
  match s.copy? pg.1 with
  | some c => decide (pg.2 < c.metaPages)
  | none => false

/-- The read-only object page that an address lies in. -/
def State.objectPage (s : State) (j : Job) (a : Nat) : Option (Nat × Nat) :=
  match s.place j a with
  | (.object c, o) => if s.metaPage (c, pageOf o) then none else some (c, pageOf o)
  | _ => none

/-- The object pages that the current beat of a transfer lies in. -/
def State.xferPages (s : State) (j : Job) (x : Xfer) : List (Nat × Nat) :=
  if x.progress < x.beats then ((x.uAddrs x.progress).filterMap (s.objectPage j)).dedup else []

/-- The job runs (its cores issue). -/
def Job.onCores (j : Job) : Bool := j.state == .running || j.state == .winding

/-- The transfers of a job's cores. -/
def State.jobXfers (s : State) (j : Job) : List Xfer :=
  (j.cores.map (fun n => (s.core n).xfers.map (fun p => p.2))).flatten

/-! ### The Storyboard (R131 to R134) -/

/-- The Storyboard of a job: entries (address, pages), window pages, CYCLIC. -/
def Job.board (j : Job) : Option (List (Nat × Nat) × Nat × Bool) :=
  if j.slate.storyboard = 0 then none
  else
    let at_ := j.slate.storyboard
    let n := Mem.field j.program (at_ + 4) 4
    some ((List.range n).map (fun e =>
        (Mem.field j.program (at_ + 32 + 16 * e) 8, Mem.field j.program (at_ + 40 + 16 * e) 4)),
      Mem.field j.program (at_ + 8) 8 / pageBytes, bitOf (Mem.field j.program (at_ + 16) 1) 0)

/-- The object pages of a Storyboard entry. -/
def State.entryPages (s : State) (j : Job) (e : Nat × Nat) : List (Nat × Nat) :=
  (List.range e.2).filterMap fun i => s.objectPage j (e.1 + i * pageBytes)

/-- The pages of a job's window, in window order (R133). -/
def State.window (s : State) (j : Job) : List (Nat × Nat) :=
  match j.board with
  | none => []
  | some (entries, n, cyclic) =>
    let order := entries.drop j.cursor ++ (if cyclic then entries.take j.cursor else [])
    (((order.map (s.entryPages j)).flatten).reverse.dedup.reverse).take n

/-- The Storyboard entry that a page of a job belongs to: the cursor's own when it does. Of several other entries
that list the page, the one of the lowest number (R133 names none: DESIGN CHOICE, log 68). -/
def State.entryOf (s : State) (j : Job) (pg : Nat × Nat) : Option Nat :=
  match j.board with
  | none => none
  | some (entries, _, _) =>
    if (s.entryPages j (entries.getD j.cursor (0, 0))).contains pg then some j.cursor
    else (List.range entries.length).find? (fun e => (s.entryPages j (entries.getD e (0, 0))).contains pg)

/-- References that a job holds on a page (R125): current beats of its transfers, its Storyboard window, and walks
and filters that wait for the page (R370). -/
def State.jobRefs (s : State) (j : Job) (pg : Nat × Nat) : Nat :=
  if j.onCores then
    ((s.jobXfers j).filter (fun x => x.live && (s.xferPages j x).contains pg)).length +
    (if (s.window j).contains pg then 1 else 0) +
    (j.cores.filter (fun n => (s.core n).seek == some pg)).length
  else 0

/-- ref[p] of a page (R125): those of the Pod's running jobs, and a promotion that waits for a frame. -/
def State.refs (s : State) (p : Nat) (pg : Nat × Nat) : Nat :=
  ((s.jobs.filter (fun j => j.pod == p)).map (fun j => s.jobRefs j pg)).sum +
  (match s.page? pg.1 pg.2 with
   | some x => if x.state == .queued && x.claims.contains p then 1 else 0
   | none => 0)

/-- References other than the queued promotion itself. -/
def State.useRefs (s : State) (p : Nat) (pg : Nat × Nat) : Nat :=
  let q := match s.page? pg.1 pg.2 with
    | some x => if x.state == .queued && x.claims.contains p then 1 else 0
    | none => 0
  s.refs p pg - q

/-- Pages of T1 that a job holds or reserves of its own (R124, R132, R270): program, Cut area,
writable area, spill area. -/
def Job.fixedPages (j : Job) : Nat :=
  ceilDiv j.slate.programLen pageBytes + j.cutBytes / pageBytes + j.slate.writableBytes / pageBytes +
  8 * j.declared

/-- The window pages that a job reserves (R132). -/
def Job.windowPages (j : Job) : Nat :=
  match j.board with
  | some (_, n, _) => n
  | none => 0

/-- Pages that a Pod holds apart from read-only frames: its unended jobs, the metadata of its objects,
its inbox pages (R124, R132, R350). -/
def State.fixedPages (s : State) (p : Nat) : Nat :=
  ((s.jobs.filter (fun j => j.pod == p && j.state != .ended)).map Job.fixedPages).sum +
  ((s.objs.filter (fun o => o.pod == p)).map (fun o =>
    match s.copy? o.copy with
    | some c => if o.kind = .volume then 0 else c.metaPages
    | none => 0)).sum +
  (s.spool.inboxes.getD (p - 1) {}).pages * (if p = 0 then 0 else 1)

/-- Frames that a Pod claims for read-only pages that have a frame. -/
def State.claimedFrames (s : State) (p : Nat) : Nat :=
  (s.pages.filter (fun x => x.state != .queued && x.claims.contains p)).length

/-- The frames of a Pod's share: 128 per granule of 256 MiB. -/
def State.shareFrames (s : State) (p : Nat) : Nat :=
  match s.pod? p with
  | some x => 128 * x.granules
  | none => 0

/-- Whether Pod `p` has free quota for one more frame. -/
def State.freeQuota (s : State) (p : Nat) : Bool :=
  decide (s.fixedPages p + s.claimedFrames p < s.shareFrames p)

/-! ### Eviction (R135, R136) -/

/-- The eviction candidates of a Pod (R135). -/
def State.candidates (s : State) (p : Nat) : List Page :=
  s.pages.filter (fun x => x.state == .resident && x.claims.contains p && s.refs p (x.copy, x.page) == 0)

/-- The better of two candidates for Pod `p`: a page that left a window of `p`, latest first, before
any other page, whose last use lies furthest back (R135). -/
def evictBetter (p : Nat) (a b : Page) : Page :=
  let la := a.left.find? (fun t => t.1 == p)
  let lb := b.left.find? (fun t => t.1 == p)
  match la, lb with
  | some x, some y => if x.2 < y.2 then b else a
  | some _, none => a
  | none, some _ => b
  | none, none =>
    if lookupD b.used p 0 < lookupD a.used p 0 then b else a

/-- The candidate that R135 takes first. -/
def State.victim (s : State) (p : Nat) : Option Page :=
  match s.candidates p with
  | [] => none
  | a :: t => some (t.foldl (evictBetter p) a)

/-- The jobs that wait on the promotion of a page (R143). -/
def State.waiters (s : State) (pg : Nat × Nat) : List Job := s.jobs.filter (fun j => decide (0 < s.jobRefs j pg))

/-- A page that no frame holds any more: ABSENT, or QUEUED again for the Pods whose claim still waits (R126, R136). -/
def State.leaveFrame (s : State) (pg : Nat × Nat) : State :=
  { s with pages := s.pages.filterMap (fun x =>
      if x.copy == pg.1 && x.page == pg.2 then
        if x.wants.isEmpty then none
        else some { x with
          state := .queued, claims := x.wants, wants := []
          charged := ((s.waiters pg).head?.map (fun j => j.ctx)).getD x.charged }
      else some x) }

/-- Removes a Pod's claim on a page, waiting or held; a RESIDENT frame without a claim is freed, and a promotion that
is QUEUED for no one is withdrawn (R126, R135). -/
def State.unclaim (s : State) (p : Nat) (pg : Nat × Nat) : State :=
  let s := s.modPage pg.1 pg.2 (fun x => { x with
    claims := x.claims.filter (fun c => c != p), wants := x.wants.filter (fun c => c != p) })
  match s.page? pg.1 pg.2 with
  | some x => if x.claims.isEmpty && (x.state == .resident || x.state == .queued) then s.leaveFrame pg else s
  | none => s

/-- Makes room for one frame of Pod `p`, evicting if its quota is used up; none while nothing can be
evicted (R135 to R137). -/
def State.makeRoom (s : State) (p : Nat) : Option State :=
  if s.freeQuota p then some s
  else match s.victim p with
    | some x => some (s.unclaim p (x.copy, x.page))
    | none => none

/-! ### Requests for promotion (R126, R128, R134) -/

/-- Claims that wait on a page which has a frame are taken as far as their Pods' shares give room (R136, R137). -/
def State.giveClaims (s : State) (pg : Nat × Nat) : State :=
  match s.page? pg.1 pg.2 with
  | none => s
  | some x => x.wants.foldl (fun s p =>
      match s.makeRoom p with
      | none => s
      | some t => t.modPage pg.1 pg.2 (fun x => { x with
          claims := x.claims ++ [p], wants := x.wants.filter (fun q => q != p) })) s

/-- Whether Pod `p` may read a page from T1: it is RESIDENT and the Pod claims its frame (R124, R128). -/
def State.holdsPage (s : State) (p : Nat) (pg : Nat × Nat) : Bool :=
  match s.page? pg.1 pg.2 with
  | some x => x.state == .resident && x.claims.contains p
  | none => false

/-- A claim of Pod `p` on a page, with the promotion of an ABSENT page requested for a job. A claim on
a frame that another Pod holds takes quota, for which one of the Pod's candidates is evicted, or waits. -/
def State.claimPage (s : State) (p ctx : Nat) (pg : Nat × Nat) : State :=
  match s.page? pg.1 pg.2 with
  | none =>
    s.modPage pg.1 pg.2 (fun x => { x with state := .queued, claims := [p], charged := ctx })
  | some x =>
    if x.state = .absent then
      s.modPage pg.1 pg.2 (fun x => { x with state := .queued, claims := [p], charged := ctx })
    else if x.claims.contains p || x.wants.contains p then s
    else if x.state = .queued then s.modPage pg.1 pg.2 (fun x => { x with claims := x.claims ++ [p] })
    else (s.modPage pg.1 pg.2 (fun x => { x with wants := x.wants ++ [p] })).giveClaims pg

/-- Frame requests whose references are all released are withdrawn: a QUEUED page that no one asks for any more
returns to ABSENT, and a claim that waits goes (R126, R137). -/
def State.settlePages (s : State) : State :=
  { s with pages := s.pages.filterMap (fun x =>
      let used := fun p => decide (0 < s.useRefs p (x.copy, x.page))
      if x.state = .queued then
        let cl := x.claims.filter used
        if cl.isEmpty then none else some { x with claims := cl }
      else some { x with wants := x.wants.filter used }) }

/-- Requests the window of a job in window order and stamps the pages that left it (R134). The request's class is
that of the jobs that wait on the page, this one among them (R143). -/
def State.openWindow (s : State) (ctx : Nat) (before : List (Nat × Nat)) : State :=
  match s.job? ctx with
  | none => s
  | some j =>
    let now := s.window j
    let s := s.later
    let s : State := { s with pages := s.pages.map (fun (x : Page) =>
      let pg := (x.copy, x.page)
      if now.contains pg then { x with left := assocDrop x.left j.pod }
      else if before.contains pg then { x with left := assocSet x.left j.pod s.clock }
      else x) }
    (now.foldl (fun s pg => s.claimPage j.pod ctx pg) s).settlePages

/-- Moves the cursor of a job when a transfer begins on a page of another entry (R133, R134). -/
def State.moveCursor (s : State) (ctx : Nat) (pg : Nat × Nat) : State :=
  match s.job? ctx with
  | none => s
  | some j =>
    match s.entryOf j pg with
    | none => s
    | some e =>
      if e = j.cursor then s
      else (s.modJob ctx (fun j => { j with cursor := e })).openWindow ctx (s.window j)

/-- Notes the use of a page by a Pod (R135). -/
def State.usePage (s : State) (p : Nat) (pg : Nat × Nat) : State :=
  match s.page? pg.1 pg.2 with
  | some _ =>
    let s := s.later
    s.modPage pg.1 pg.2 (fun x => { x with used := assocSet x.used p s.clock })
  | none => s

end Sys2Proof.Machine
end

