-- ==== Sys2Proof/Machine/IndexBase.lean ====
section
/-!
DEFINITION. The fields and regions of an index in its window (R279 to R284) and the states of record
identifiers (R284, R291).
-/

namespace Sys2Proof.Machine

/-- A copy with a little-endian field written. -/
def Copy.setField (c : Copy) (off n v : Nat) : Copy := { c with mem := Mem.write c.mem off (leBytes n v) }

/-- Number of lists (R280). -/
def Copy.lists (c : Copy) : Nat := c.field 0x08 4
/-- Identifiers (R280). -/
def Copy.identCap (c : Copy) : Nat := c.field 0x10 8
/-- Window offset of region `r`, in the order of R279: 0 header, 1 directory, 2 graph, 3 live bitmap,
4 tombstone bitmap, 5 centroids, 6 attributes, 7 main area, 8 side area. -/
def Copy.region (c : Copy) (r : Nat) : Nat := c.field (0x28 + 8 * r) 8

/-- States of an identifier (R284). -/
inductive Ident where
  | free | live | deleted | retired
  deriving DecidableEq, Repr

/-- The bit of an identifier in the bitmap of region `r`. -/
def Copy.identBit (c : Copy) (r n : Nat) : Bool :=
  (Sparse.get c.mem (c.region r + n / 8)).getLsbD (n % 8)

/-- The state of an identifier (R284). -/
def Copy.ident (c : Copy) (n : Nat) : Ident :=
  match c.identBit 3 n, c.identBit 4 n with
  | false, false => .free
  | true, false => .live
  | true, true => .deleted
  | false, true => .retired

/-- A copy with one bitmap bit written. -/
def Copy.setIdentBit (c : Copy) (r n : Nat) (b : Bool) : Copy :=
  let a := c.region r + n / 8
  let old := Sparse.get c.mem a
  let mask := BitVec.ofNat 8 (2 ^ (n % 8))
  { c with mem := Sparse.set c.mem a (if b then old ||| mask else old &&& ~~~ mask) }

/-- A copy with an identifier's state written (R284). -/
def Copy.setIdent (c : Copy) (n : Nat) (st : Ident) : Copy :=
  match st with
  | .free => (c.setIdentBit 3 n false).setIdentBit 4 n false
  | .live => (c.setIdentBit 3 n true).setIdentBit 4 n false
  | .deleted => (c.setIdentBit 3 n true).setIdentBit 4 n true
  | .retired => (c.setIdentBit 3 n false).setIdentBit 4 n true

/-- Whether some job names the index of a copy. -/
def State.indexNamed (s : State) (copy : Nat) : Bool :=
  s.objs.any (fun o => o.kind == .index && o.copy == copy &&
    s.jobs.any (fun j => j.slate.index != 0 && j.slate.index == o.handle))

/-- RETIRED identifiers whose wait is over become FREE (R291). -/
def State.releaseIdents (s : State) : State :=
  let one := fun (c : Copy) =>
    if c.kind = .index then
      let done := fun (r : Retired) =>
        !s.indexNamed c.id || r.waits.all (fun u => (s.cmd? u).all (fun c => c.finished))
      let gone := c.index.retired.filter done
      let c := gone.foldl (fun c r => c.setIdent r.ident .free) c
      { c with index := { c.index with retired := c.index.retired.filter (fun r => !done r) } }
    else c
  { s with copies := s.copies.map one }

end Sys2Proof.Machine
end

