-- ==== Sys2Proof/Machine/Local.lean ====
section
/-!
DEFINITION. The coded stores of a core (R358 to R361, R366, R367): what a read of a marked word
delivers, and how a write leaves its check bits. A store holds the data its writers meant; a mark
says how a stored word deviates from it.
-/

namespace Sys2Proof.Machine

/-- The marks of the words that bytes `a` to `a + n - 1` touch. -/
def marksIn (e : List EccMark) (a n : Nat) : List EccMark :=
  e.filter (fun m => decide (a / 8 ≤ m.unit) && decide (8 * m.unit < a + n))

/-- Whether a read of the bytes meets an uncorrectable word. -/
def lostIn (e : List EccMark) (a n : Nat) : Bool := (marksIn e a n).any (fun m => m.sram == .lost)

/-- The store as reads deliver it. -/
def delivered (m : Mem) (e : List EccMark) : Mem :=
  e.foldl (fun m k => match k.sram with
    | .changed x => Mem.xorWord m k.unit x
    | .good => m
    | .lost => m) m

/-- A write to a coded store (R360, R361): words written whole are valid; a partial write merges into
what a read delivers, and a word that was uncorrectable stays so. -/
def codedWrite (m : Mem) (e : List EccMark) (a : Nat) (bs : List Byte) : Mem × List EccMark :=
  let n := bs.length
  let touched := marksIn e a n
  let m := delivered m (touched.filter (fun k => !(decide (a ≤ 8 * k.unit) && decide (8 * k.unit + 8 ≤ a + n))))
  let keep := e.filterMap (fun k =>
    if touched.contains k then
      if decide (a ≤ 8 * k.unit) && decide (8 * k.unit + 8 ≤ a + n) then none
      else if k.sram = .lost then some { k with lost := true } else none
    else some k)
  (Mem.write m a bs, keep)

/-! ### The operand store and the lane weight buffers (R152) -/

/-- Size of the operand store. -/
def osBytes : Nat := 0x800000

/-- Bytes of the operand store as a read delivers them. -/
def Core.osRead (c : Core) (a n : Nat) : List Byte := Mem.bytes (delivered c.os c.osEcc) a n

/-- A little-endian field of the operand store. -/
def Core.osField (c : Core) (a n : Nat) : Nat := le (c.osRead a n)

/-- Bytes of the lane weight buffers, from lane 0's byte 0, as a read delivers them. -/
def Core.lwbRead (c : Core) (a n : Nat) : List Byte := Mem.bytes (delivered c.lwb c.lwbEcc) a n

/-- Writes bytes to the operand store of a core; an armed flip corrupts the first word written (R367). A word that a
partial write leaves uncorrectable stays so (R360). -/
def State.osWrite (s : State) (n a : Nat) (bs : List Byte) : State :=
  if bs = [] then s
  else
    let c := s.core n
    let w := codedWrite c.os c.osEcc a bs
    let f := s.flip (osFlip n)
    if f.armed then
      (s.setCore n { c with
        os := w.1
        osEcc := w.2.filter (fun k => k.unit != a / 8) ++
          [{ unit := a / 8, data := f.mask, check := f.check
             lost := w.2.any (fun k => k.unit == a / 8 && k.lost) }] }).setFlip (osFlip n)
        { f with armed := false }
    else s.setCore n { c with os := w.1, osEcc := w.2 }

/-- Writes bytes to the lane weight buffers of a core. -/
def State.lwbWrite (s : State) (n a : Nat) (bs : List Byte) : State :=
  let c := s.core n
  let w := codedWrite c.lwb c.lwbEcc a bs
  s.setCore n { c with lwb := w.1, lwbEcc := w.2 }

/-! ### The top-k lists (R167, R173) -/

/-- The byte of the lane weight buffers at which the list of a lane begins: byte 6144 of its lane's. Its entries lie
there best first, little-endian (log 18). -/
def listAt (lane : Nat) : Nat := 8192 * lane + 6144

/-- Length of the list of a lane. -/
def TopK.count (t : TopK) (lane : Nat) : Nat := (Sparse.get t.counts lane).toNat

/-- The top-k list of a lane, best entry first. -/
def Core.tkList (c : Core) (lane : Nat) : List (BitVec 64) :=
  (List.range (c.topk.count lane)).map (fun i => BitVec.ofNat 64 (le (c.lwbRead (listAt lane + 8 * i) 8)))

/-- Replaces the list of a lane. -/
def State.setList (s : State) (n lane : Nat) (l : List (BitVec 64)) : State :=
  (s.lwbWrite n (listAt lane) ((l.map (fun e => leBytes 8 e.toNat)).flatten)).modCore n (fun c =>
    { c with topk := { c.topk with counts := Sparse.set c.topk.counts lane (BitVec.ofNat 16 l.length) } })

/-- The bytes of the lane weight buffers that hold lists. -/
def Core.listBytes (c : Core) : Mem :=
  c.topk.counts.foldl (fun m p => Mem.write m (listAt p.1) (c.lwbRead (listAt p.1) (8 * p.2.toNat))) []

/-- Whether the list of a lane has an uncorrectable word. -/
def Core.listLost (c : Core) (lane : Nat) : Bool :=
  c.topk.count lane != 0 && lostIn c.lwbEcc (listAt lane) (8 * c.topk.count lane)

/-- Whether what a Cut saves of a core's storage has an uncorrectable word (R97). -/
def Core.savedLost (c : Core) (sl : Slate) : Bool :=
  lostIn c.osEcc 0 sl.carryBytes || (sl.carryTopk && c.topk.counts.any (fun p => c.listLost p.1))

/-! ### Local addresses (R152) -/

/-- Whether the bytes of a local range lie within one mapped range (R152). -/
def localMapped (a n : Nat) : Bool :=
  decide (a + n ≤ osBytes) || (decide (0x01000000 ≤ a) && decide (a + n ≤ 0x01400000))

/-- Bytes at a local address. -/
def Core.localRead (c : Core) (a n : Nat) : List Byte :=
  if a < 0x01000000 then c.osRead a n else c.lwbRead (a - 0x01000000) n

/-- Whether a read of a local range meets an uncorrectable word. -/
def Core.localLost (c : Core) (a n : Nat) : Bool :=
  if a < 0x01000000 then lostIn c.osEcc a n else lostIn c.lwbEcc (a - 0x01000000) n

/-- The errors that a read of a local range meets (R363). -/
def State.noteLocal (s : State) (n a len : Nat) : State :=
  let c := s.core n
  if a < 0x01000000 then
    (marksIn c.osEcc a len).foldl (fun s k => s.noteError (.operandStore (Fin.ofNat 32 n) k.unit) k k.sram) s
  else
    (marksIn c.lwbEcc (a - 0x01000000) len).foldl (fun s k =>
      s.noteError (.laneBuffer (Fin.ofNat 32 n) k.unit) k k.sram) s

/-- Writes bytes at a local address. -/
def State.localWrite (s : State) (n a : Nat) (bs : List Byte) : State :=
  if a < 0x01000000 then s.osWrite n a bs else s.lwbWrite n (a - 0x01000000) bs

end Sys2Proof.Machine
end

