-- ==== Sys2Proof/Machine/Jobs.lean ====
section
/-!
DEFINITION. What happens to jobs: cycle counts, core wipes, Cut records, starts and restores, ends and
failures, replays and fences, the accounting record (chapters 03, 06 and 13).
-/

namespace Sys2Proof.Machine

/-! ### Cycles and accounting (R105, R113 to R115) -/

/-- `k` cycles of a core count in its run and in its wind-down, in its job's engine cycles, and toward every RECLAIM
of the job that has been fetched (R105, R109, R110, R113). -/
def State.spend (s : State) (core k : Nat) : State :=
  let c := s.core core
  match c.job with
  | none => s
  | some ctx =>
    let winding := ((s.job? ctx).map (fun j => j.state == .winding)).getD false
    let s := s.setCore core { c with
      runCycles := c.runCycles + k
      windCycles := if winding then c.windCycles + k else c.windCycles }
    let since := fun (l : List (Nat × List (Nat × Nat))) =>
      l.map (fun r => (r.1, assocSet r.2 core (lookupD r.2 core 0 + k)))
    s.modJob ctx (fun j => { j with
      reclaims := since j.reclaims, watches := since j.watches
      acct := { j.acct with engineCycles := j.acct.engineCycles + k } })

/-- A core spends `n` issue slots and a free number of stalled cycles (log 2). -/
def State.tick (s : State) (core n : Nat) : State :=
  let k := s.fresh
  k.2.spend core (n + k.1)

/-- cut_grace of a Slate in cycles (R89). -/
def Slate.grace (s : Slate) : Nat := if s.cutGrace = 0 then 24000000 else s.cutGrace

/-- Updates the cycle count that a job's status register shows (R421). -/
def State.showJob (s : State) (ctx : Nat) : State :=
  s.modJob ctx (fun j => { j with shown := j.acct.engineCycles })

/-- Changes the accounting of a job. -/
def State.charge (s : State) (ctx : Nat) (f : Acct → Acct) : State :=
  s.modJob ctx (fun j => { j with acct := f j.acct })

/-- The accounting record (R115). Fields wider than their place are cut to it. -/
def acctRecord (j : Job) : List Byte :=
  let e := if j.state = .ended then j.ended else {}
  leBytes 8 j.handle ++ leBytes 8 j.slate.clientId ++ leBytes 1 e.cause ++ leBytes 1 e.faultCause ++
  leBytes 2 e.status.code ++ leBytes 4 j.acct.runs ++ leBytes 8 j.acct.engineCycles ++
  leBytes 8 (j.acct.engineCycles * 5 / 12) ++ leBytes 8 j.acct.overrunCycles ++
  leBytes 8 j.acct.t0Bytes ++ leBytes 8 j.acct.t1Bytes ++ leBytes 8 j.acct.t2Bytes ++
  leBytes 8 j.acct.t3Bytes ++ leBytes 8 j.acct.hostLinkBytes ++ leBytes 8 j.acct.spoolBytes ++
  leBytes 8 (j.acct.energyUj / 1000) ++ leBytes 4 j.acct.answered ++ leBytes 4 j.acct.cuts ++
  leBytes 4 j.acct.overrunEvents ++ List.replicate 12 0

/-! ### Wipes (R84, R186) and releases -/

/-- Forgets requests of a core: each response that may still come, one per attempt, is discarded, but counts in the
spool_bytes of the core's job (R355, R357). -/
def State.forget (s : State) (core : Nat) (gone : RemoteReq → Bool) : State :=
  let out := s.spool.requests.filter gone
  let late := match (s.core core).job.bind s.job? with
    | some j => out.flatMap (fun r => List.replicate (r.attempts - b2n r.got.isSome) (r.id, j.handle))
    | none => []
  { s with spool := { s.spool with
      requests := s.spool.requests.filter (fun r => !gone r)
      answered := s.spool.answered ++ late } }

/-- Discards the outstanding remote requests of a core, and their frames that still wait to go out (R355, R373). -/
def State.dropRemote (s : State) (core : Nat) : State :=
  let s := s.forget core (fun r => r.core == core)
  { s with spool := { s.spool with
      ports := s.spool.ports.map (fun p => { p with out := p.out.filter (fun o => o.1 != core) }) } }

/-- Discards the outstanding remote requests of one transfer slot of a core. -/
def State.dropSlot (s : State) (core slot : Nat) : State := s.forget core (fun r => r.core == core && r.slot == slot)

/-- A core wipe (R84), with the tables and program store of R186: its counters are folded first (R425),
and everything but its place in the module, its fault count and its exact samples returns to zero. -/
def State.wipeCore (s : State) (n : Nat) : State :=
  let s := (s.foldBlock n).dropRemote n
  let c := s.core n
  (s.setCore n
    { pod := c.pod, faultCount := c.faultCount, sampled := c.sampled, exact := c.exact }).t1Forget (spillOwner n)

/-- A core stops working for its job: its open work and transfers are abandoned, but for one that FAILED, which the
mover context goes on recording (R139). -/
def State.freeCore (s : State) (n : Nat) : State :=
  (s.dropRemote n).modCore n (fun c =>
    { c with job := none, hold := none, xfers := c.xfers.filter (fun p => p.2.state == .failed), tiles := [],
             opening := none, sweeps := [], run := none, spilling := 0, seek := none, tag := none })

/-- Every core of a job is released and its references with them (R125). Pages of a window that closes because its
job yields or ends get no stamp: they have not been left by a move of the cursor (DESIGN CHOICE, log 68). -/
def State.freeCores (s : State) (ctx : Nat) : State :=
  match s.job? ctx with
  | none => s
  | some j =>
    let s := j.cores.foldl State.freeCore s
    (s.modJob ctx (fun j => { j with cores := [] })).settlePages

/-! ### The end of a job (R96, R110 to R112, R199) -/

/-- How the requests of an ended job complete: a failure by its status, cause and place, any other end
by NOT_BOUND (R112, R199). -/
def requestVerdict (e : JobEnd) (pc : Nat) : Verdict :=
  if e.cause = 4 then { status := e.status, result0 := e.faultCause, result1 := pc }
  else { status := .notBound }

/-- Completes several commands alike. -/
def State.completeAll (s : State) (us : List Nat) (v : Verdict) : State :=
  us.foldl (fun s u => s.complete u v) s

/-- Completes END_JOB commands of an ended job: the first collects it with its accounting record and
frees the context, any other finds the handle gone (R91, R111). -/
def State.collect (s : State) (ctx : Nat) : State :=
  match s.job? ctx with
  | none => s
  | some j =>
    match j.endJobs with
    | [] => s
    | u :: rest =>
      let s := { s with jobs := s.jobs.filter (fun x => x.ctx != ctx) }
      let s := s.complete u { status := .ok, payload := acctRecord j }
      (s.completeAll rest { status := .notBound }).releaseIdents

/-- Ends a job: requests, RECLAIMs, END_JOBs and an unstarted SUBMIT_JOB complete, and everything but
the context and the record is released (R96, R110 to R112, R60). -/
def State.endJob (s : State) (ctx : Nat) (e : JobEnd) (pc : Nat) : State :=
  match s.job? ctx with
  | none => s
  | some j =>
    if j.state = .ended then s
    else
      let forced := if e.cause = 3 then 1 else 0
      let s := s.freeCores ctx
      let s := s.modJob ctx (fun j => { j with
        state := .ended, ended := e, faultPc := pc, pendingReqs := [], batch := [], detached := [],
        leaving := [], reclaims := [], watches := [], submit := none, lastCut := none, prevCut := none,
        program := [], writable := [], window := false, region := false, idleWait := false })
      let s := s.showJob ctx
      let s : State := { s with spool := { s.spool with
        answered := s.spool.answered.filter (fun a => a.2 != j.handle) } }
      let s := s.completeAll (j.pendingReqs ++ j.batch.map (fun b => b.uid)) (requestVerdict e pc)
      let s := j.reclaims.foldl (fun s r =>
        let spent := (r.2.map (fun h => h.2)).foldl Nat.max 0
        s.complete r.1 { status := .ok, result0 := spent, result1 := forced }) s
      let s := match j.submit with
        | some u => s.complete u { status := .ok, result0 := j.handle, result1 := 1 }
        | none => s
      (s.collect ctx).releaseIdents

/-- Fails a job with a status, a fault cause and the place of the faulting instruction (R199). -/
def State.failJob (s : State) (ctx : Nat) (st : Status) (cause pc : Nat) : State :=
  s.endJob ctx { cause := 4, faultCause := cause, status := st } pc

/-- The place that stands for 'no instruction is at fault' (R199). -/
def noPc : Nat := 0xFFFFFFFFFFFFFFFF

/-- Fails a job whose access broke R122, noting the address. -/
def State.accessFault (s : State) (ctx addr pc : Nat) : State :=
  (s.modJob ctx (fun j => { j with faultAddr := addr })).failJob ctx .pageFaultFatal 7 pc

/-! ### Cut records (R97 to R99, R140) -/

/-- The record of a core at a Cut (R97). -/
def saveCore (sl : Slate) (cuts : Nat) (c : Core) : SavedCore :=
  { cuts := cuts, pc := c.pc, z := c.z, slt := c.slt, ult := c.ult, stack := c.stack,
    sregs := c.sregs, aregs := c.aregs, vregs := c.vregs, pregs := c.pregs,
    carry := Sparse.extract (delivered c.os (marksIn c.osEcc 0 sl.carryBytes)) 0 sl.carryBytes,
    acc := if sl.carryAcc then c.acc else [],
    topk := if sl.carryTopk then c.topk else {}, lists := if sl.carryTopk then c.listBytes else [],
    xfers := (c.xfers.filter (fun p => p.2.state != .done)).map
      (fun p => (p.1, { p.2 with state := .stopped })) }

/-- A saved transfer as it resumes (R140): from its progress, or from beat 0 when a destination byte
lies in the operand store at or beyond carry_bytes. -/
def resumeXfer (carry : Nat) (x : Xfer) : Xfer :=
  let x := { x with state := .queued, asked := 0 }
  if !x.store && decide (x.laddr < 0x01000000) && decide (carry < x.laddr + x.dstSpan) then
    { x with progress := 0 }
  else x

/-- The unified-range address of rank 0's last committed record (R99). -/
def Job.recordAddr (j : Job) (slot : Nat) : Nat := 0x000000E000000000 + slot * j.slate.slotBytes

/-- A restored core (R99, R186): everything not in the record holds zero (R100). -/
def restoredCore (j : Job) (cut : Cut) (n rank kind : Nat) (old : Core) (r : SavedCore) : Core :=
  let a := if n = cut.n then r.aregs else Sparse.set r.aregs 15 (BitVec.ofNat 64 (j.recordAddr cut.slot))
  { pod := old.pod, job := some j.ctx, rank := rank, pc := r.pc, z := r.z, slt := r.slt, ult := r.ult,
    stack := r.stack, cutKind := kind, sregs := Sparse.set r.sregs 0 (BitVec.ofNat 64 n), aregs := a,
    vregs := r.vregs, pregs := r.pregs, acc := r.acc, os := r.carry, topk := r.topk, lwb := r.lists,
    xfers := r.xfers.map (fun p => (p.1, resumeXfer j.slate.carryBytes p.2)),
    xorder := r.xfers.length + (r.xfers.map (fun p => p.2.order)).foldl Nat.max 0,
    faultCount := old.faultCount, sampled := old.sampled, exact := old.exact }

/-- A core that starts without a record: at entry (R92), or joining at a Cut (R99). -/
def freshCore (j : Job) (n rank resolved kind pc : Nat) (a15 : Nat) (old : Core) : Core :=
  { pod := old.pod, job := some j.ctx, rank := rank, pc := pc, cutKind := kind,
    sregs := Sparse.ofList 0 [BitVec.ofNat 64 n, BitVec.ofNat 64 rank, BitVec.ofNat 64 resolved],
    aregs := Sparse.set [] 15 (BitVec.ofNat 64 a15),
    faultCount := old.faultCount, sampled := old.sampled, exact := old.exact }

/-- The state of a rank of a job as it is placed on a core (R92, R99). -/
def placedCore (j : Job) (n rank kind : Nat) (old : Core) : Core :=
  match j.lastCut with
  | none => freshCore j n rank (j.resolved.getD j.declared) 3 j.slate.entry 0 old
  | some cut =>
    match (if rank < cut.n then cut.recs[rank]? else none) with
    | some r => restoredCore j cut n rank kind old r
    | none => freshCore j n rank (j.resolved.getD j.declared) 4
        ((cut.recs.head?.map (fun r => r.pc)).getD j.slate.entry) (j.recordAddr cut.slot) old

/-- Places a job on cores, in rank order: each is wiped and holds its record's values, those of a
joining rank, or those of a first start (R92, R99, R100, R186); the records read count in T1 (R115). -/
def State.placeJob (s : State) (j : Job) (cores : List Nat) (kind : Nat) : State :=
  let n := cores.length
  let s := cores.zipIdx.foldl (fun s p =>
    (s.wipeCore p.1).modCore p.1 (fun old => placedCore j n p.2 kind old)) s
  let read := match j.lastCut with
    | some cut => min n cut.n * j.slate.recordBytes
    | none => 0
  s.modJob j.ctx (fun j => { j with
    acct := { j.acct with t1Bytes := j.acct.t1Bytes + read }, rail := { j.rail with t1 := j.rail.t1 + read } })

/-- The Cut record of a rank in a slot, as bytes of the job's Cut area: offset and length (R97, R450). -/
def Job.recordRange (j : Job) (rank slot : Nat) : Nat × Nat := ((2 * rank + slot) * j.slate.slotBytes, j.slate.recordBytes)

/-- The records that a restore of a job on `n` cores reads. -/
def Job.restored (j : Job) (n : Nat) : List (Nat × Nat) :=
  match j.lastCut with
  | some cut => (List.range (min n cut.n)).map (fun k => j.recordRange k cut.slot)
  | none => []

/-- Whether a restore of a job on `n` cores meets an uncorrectable word in its last committed record (R369). -/
def State.recordLost (s : State) (j : Job) (n : Nat) : Bool :=
  (j.restored n).any (fun r => s.t1Lost (recordOwner j.handle) r.1 r.2)

/-- The second fault of a recovery window of a job (R369, R376): it fails with DOUBLE_FAULT. -/
def State.secondFault (s : State) (ctx : Nat) : State := (s.failJob ctx .doubleFault 10 noPc).integEvent 2

/-- The cores of a Pod that no job holds. -/
def State.freeCoresOf (s : State) (p : Nat) : List Nat :=
  (List.range 32).filter (fun n => (s.core n).pod == some p && (s.core n).job.isNone)

/-- The cores of a Pod. -/
def State.podCores (s : State) (p : Nat) : List Nat :=
  (List.range 32).filter (fun n => (s.core n).pod == some p)

/-- Whether a READY job may start for its own sake (R204). -/
def Job.wantsCores (j : Job) : Bool :=
  j.state == .ready && (!j.idleWait || !j.pendingReqs.isEmpty || j.closing)

/-- Starts or resumes a READY job on the given cores (R92, R95, R99, R133, R134); an uncorrectable record counts as a
second fault (R369). -/
def State.startJob (s : State) (ctx : Nat) (cores : List Nat) : State :=
  match s.job? ctx with
  | none => s
  | some j =>
    if s.recordLost j cores.length then
      ((j.restored cores.length).foldl (fun s r => s.noteT1 (recordOwner j.handle) r.1 r.2) s).secondFault ctx
    else
      let resolved := j.resolved.getD
        (if j.slate.cores = 0 then (s.podCores j.pod).length else j.slate.cores)
      let j' := { j with
        resolved := some resolved, state := .running, cores := cores, cursor := 0, idleWait := false,
        budgetOut := false, submit := none, replayDue := false, shown := j.acct.engineCycles,
        acct := { j.acct with runs := j.acct.runs + 1 } }
      let s := s.modJob ctx (fun _ => j')
      let s := s.placeJob j' cores (if j.replayDue then 2 else 1)
      let s := s.openWindow ctx []
      match j.submit with
      | some u => s.complete u { status := .ok, result0 := j.handle }
      | none => s

/-- Takes the Cut of a job whose cores have all arrived (R98): every transfer stops at its progress, so that responses
still out are discarded (R355), and the records go into the slot that does not hold the last Cut. -/
def State.takeCut (s : State) (ctx : Nat) : State :=
  match s.job? ctx with
  | none => s
  | some j =>
    let slot := match j.lastCut with
      | some c => 1 - c.slot
      | none => 0
    let cuts := j.cuts + 1
    let s := j.cores.foldl (fun s n => (s.dropRemote n).modCore n (fun c =>
      { c with xfers := c.xfers.map (fun p => (p.1, { p.2 with asked := p.2.progress })) })) s
    let recs := j.cores.map (fun n => saveCore j.slate cuts (s.core n))
    let older := match j.prevCut with
      | some c => c.recs.drop recs.length
      | none => []
    let cut : Cut := { slot := slot, cuts := cuts, n := recs.length, recs := recs ++ older }
    s.modJob ctx (fun j => { j with
      cuts := cuts, lastCut := some cut, prevCut := j.lastCut, window := false
      acct := { j.acct with
        cuts := j.acct.cuts + 1, t1Bytes := j.acct.t1Bytes + recs.length * j.slate.recordBytes }
      rail := { j.rail with t1 := j.rail.t1 + recs.length * j.slate.recordBytes }
      shown := j.acct.engineCycles })
      |> fun s => j.cores.zipIdx.foldl (fun s p =>
        let r := j.recordRange p.2 slot
        s.t1Encode p.1 (recordOwner j.handle) r.1 r.2) s

/-- A job yields at a Cut: it becomes READY and keeps its last Cut (R94, R106). -/
def State.yieldJob (s : State) (ctx : Nat) (idle : Bool) : State :=
  let s := s.freeCores ctx
  let s := s.later
  s.modJob ctx (fun j => { j with
    state := .ready, readyAt := s.clock, budgetOut := false, idleWait := idle, region := false
    shown := j.acct.engineCycles })

/-! ### Job faults, replays and fences (R197, R198, R373 to R377) -/

/-- Writes the admitted field of a Take table (R201), which counts in T1 (R115). -/
def State.setAdmitted (s : State) (ctx table k : Nat) : State :=
  match s.job? ctx with
  | none => s
  | some j =>
    let s := s.modJob ctx (fun j => { j with
      writable := s.t1Merge j.writable (j.handle + 100) (table + 4) (leBytes 4 k)
      rail := { j.rail with t1 := j.rail.t1 + 4 }
      acct := { j.acct with t1Bytes := j.acct.t1Bytes + 4 } })
    s.t1Encode 36 (j.handle + 100) (table + 4) 4

/-- The places and the table of the TAKE at which a job's cores are held. -/
def State.takeAt (s : State) (j : Job) : Option (Nat × Nat) :=
  match j.cores.head?.bind (fun n => (s.core n).hold) with
  | some (.take places table) => some (places, table)
  | some (.wait _) => none
  | some (.fence _) => none
  | some .bar => none
  | some .cut => none
  | some .finished => none
  | none => none

/-- Replays a job from its last Cut on the given cores, or leaves it READY at that Cut when they are
fewer than min_cores (R197, R374). Requests of its batch will carry OK_REPLAYED (R198). In the region of a Take,
whose Cut is the last, the region goes on and step 5 of R102 follows it: the cores wait at the TAKE, or, where the
job runs no more, no request is admitted. An uncorrectable record counts as a second fault (R369). -/
def State.replay (s : State) (ctx : Nat) (cores : List Nat) : State :=
  match s.job? ctx with
  | none => s
  | some j =>
    let open_ := if j.region then s.takeAt j else none
    let budgets := j.cores.map (fun n => (n, s.core n))
    let s := s.freeCores ctx
    let batch := j.batch.map (fun b => { b with replayed := true })
    if decide (j.slate.minCores ≤ cores.length) && s.recordLost j cores.length then
      ((j.restored cores.length).foldl (fun s r => s.noteT1 (recordOwner j.handle) r.1 r.2) s).secondFault ctx
    else if cores.length < j.slate.minCores then
      let s := s.later
      let s := match open_ with
        | some (_, table) => s.setAdmitted ctx table 0
        | none => s
      s.modJob ctx (fun j => { j with
        state := .ready, readyAt := s.clock, replayDue := true, batch := batch, region := false })
    else
      let j' := { j with cores := cores, cursor := 0, batch := batch, region := open_.isSome, replayDue := open_.isSome }
      let s := s.modJob ctx (fun _ => j')
      let s := s.placeJob j' cores 2
      let s := cores.foldl (fun s n =>
        match budgets.find? (fun b => b.1 == n) with
        | some b => s.modCore n (fun c => { c with
            runCycles := b.2.runCycles, windCycles := b.2.windCycles
            hold := open_.map (fun t => .take t.1 t.2) })
        | none => s.modCore n (fun c => { c with hold := open_.map (fun t => .take t.1 t.2) })) s
      s.openWindow ctx []

/-- A job fault of a job (R197, R376, R377): a replay from its last Cut on the cores it keeps, or the
job's failure when a recovery window of its Pod is open. -/
def State.jobFault (s : State) (ctx : Nat) (keep : List Nat) : State :=
  match s.job? ctx with
  | none => s
  | some j =>
    if s.jobs.any (fun x => x.pod == j.pod && x.window) then
      s.secondFault ctx
    else
      (s.modJob ctx (fun j => { j with window := true })).replay ctx keep

/-- The job fault that the loss of a core is (R374): one that belongs to the fault of an open window of the
job itself counts with it (R376). -/
def State.lossFault (s : State) (ctx n : Nat) (same : Bool) : State :=
  match s.job? ctx with
  | none => s
  | some j =>
    let rest := j.cores.filter (fun m => m != n)
    if same && j.window then s.replay ctx rest else s.jobFault ctx rest

/-- Fences a core (R373, R374, R423, R425) with its cause code; a job on it replays on the others. `same`
says that the cause is the error that opened the window of its job. -/
def State.fenceCore (s : State) (n cause : Nat) (same : Bool) : State :=
  let c := s.core n
  let s := s.foldBlock n
  let s := (s.modCore n (fun c => { c with pod := none })).dropRemote n
  let s := { s with integ := { s.integ with
    fenced := setBits s.integ.fenced n
    fenceCause := s.integ.fenceCause ||| BitVec.ofNat 64 (cause * 4 ^ n) } }
  let s := (s.integEvent 1).raise 0
  let s := match c.job with
    | some ctx => s.lossFault ctx n same
    | none => s
  s.freeCore n

end Sys2Proof.Machine
end

