-- ==== Sys2Proof/Machine/IndexOps.lean ====
section
/-!
DEFINITION. Lists, side lists and the graph of an index, and the commit of a compacted list (R281 to
R283, R307 to R309).
-/

namespace Sys2Proof.Machine

/-! ### Directory entries (R281) -/

/-- Address of list `j`'s directory entry. -/
def Copy.dirAt (c : Copy) (j : Nat) : Nat := c.region 1 + 32 * j
/-- extent. -/
def Copy.extent (c : Copy) (j : Nat) : Nat := c.field (c.dirAt j) 8
/-- codes. -/
def Copy.codes (c : Copy) (j : Nat) : Nat := c.field (c.dirAt j + 8) 4
/-- runs. -/
def Copy.runs (c : Copy) (j : Nat) : Nat := c.field (c.dirAt j + 12) 2
/-- flags. -/
def Copy.listFlags (c : Copy) (j : Nat) : Nat := c.field (c.dirAt j + 14) 1
/-- RETIRED. -/
def Copy.listRetired (c : Copy) (j : Nat) : Bool := bitOf (c.listFlags j) 0
/-- DEFERRED. -/
def Copy.listDeferred (c : Copy) (j : Nat) : Bool := bitOf (c.listFlags j) 1
/-- side_start. -/
def Copy.sideStart (c : Copy) (j : Nat) : Nat := c.field (c.dirAt j + 15) 1
/-- side_first. -/
def Copy.sideFirst (c : Copy) (j : Nat) : Nat := c.field (c.dirAt j + 16) 4
/-- side_count. -/
def Copy.sideCount (c : Copy) (j : Nat) : Nat := c.field (c.dirAt j + 20) 4
/-- first_ident. -/
def Copy.firstIdent (c : Copy) (j : Nat) : Nat := c.field (c.dirAt j + 24) 8

/-- No block (R281, R283). -/
def noBlock : Nat := 0xFFFFFFFF

/-- A directory entry written as one (R281). -/
def Copy.setDir (c : Copy) (j extent codes runs flags start first count ident : Nat) : Copy :=
  let entry := leBytes 8 extent ++ leBytes 4 codes ++ leBytes 2 runs ++ leBytes 1 flags ++
    leBytes 1 start ++ leBytes 4 first ++ leBytes 4 count ++ leBytes 8 ident
  { c with mem := Mem.write c.mem (c.dirAt j) entry }

/-! ### Side blocks (R283) -/

/-- Bytes of a side block. -/
def Copy.sideBytes (c : Copy) : Nat := 1088 + 128 * c.codeBytes
/-- Address of side block `b`. -/
def Copy.sideAt (c : Copy) (b : Nat) : Nat := c.region 8 + b * c.sideBytes
/-- next block. -/
def Copy.sideNext (c : Copy) (b : Nat) : Nat := c.field (c.sideAt b) 4
/-- Identifier of entry `e` of block `b`. -/
def Copy.sideIdent (c : Copy) (b e : Nat) : Nat := c.field (c.sideAt b + 0x40 + 8 * e) 8
/-- Code of entry `e` of block `b`. -/
def Copy.sideCode (c : Copy) (b e : Nat) : List Byte :=
  Mem.bytes c.mem (c.sideAt b + 0x440 + c.codeBytes * e) c.codeBytes

/-- The `n` side entries from entry `e` of block `b` on, along the chain. -/
def Copy.sideFrom (c : Copy) (n b e : Nat) : List (Nat × Nat) :=
  match n with
  | 0 => []
  | n + 1 => (b, e) :: (if e < 127 then c.sideFrom n b (e + 1) else c.sideFrom n (c.sideNext b) 0)

/-- The side entries of list `j`, oldest first. -/
def Copy.sideEntries (c : Copy) (j : Nat) : List (Nat × Nat) :=
  if c.sideCount j = 0 then [] else c.sideFrom (c.sideCount j) (c.sideFirst j) (c.sideStart j)

/-! ### The extent of a list (R281) -/

/-- The runs of list `j` as (first identifier, count, offset of its codes in the window). -/
def Copy.runTable (c : Copy) (j : Nat) : List (Nat × Nat × Nat) :=
  let n := c.runs j
  if n = 0 then []
  else if n = 1 then [(c.firstIdent j, c.codes j, c.extent j)]
  else
    let table := (List.range n).map fun r =>
      (c.field (c.extent j + 16 * r) 8, c.field (c.extent j + 16 * r + 8) 4)
    let base := c.extent j + roundUp (16 * n) 64
    (List.range n).map fun r =>
      let before := ((table.take r).map (fun x => x.2)).sum
      ((table.getD r (0, 0)).1, (table.getD r (0, 0)).2, base + before * c.codeBytes)

/-- The records of the extent of list `j`: identifier and code. -/
def Copy.extentRecords (c : Copy) (j : Nat) : List (Nat × List Byte) :=
  ((c.runTable j).map (fun r => (List.range r.2.1).map (fun i =>
    (r.1 + i, Mem.bytes c.mem (r.2.2 + i * c.codeBytes) c.codeBytes)))).flatten

/-- Bytes of an extent with `codes` codes in `runs` runs. -/
def Copy.extentBytes (c : Copy) (codes runs : Nat) : Nat :=
  (if 2 ≤ runs then roundUp (16 * runs) 64 else 0) + codes * c.codeBytes

/-! ### The graph (R282) -/

/-- Address of node `j`. -/
def Copy.nodeAt (c : Copy) (j : Nat) : Nat := c.region 2 + 160 * j
/-- TOMB. -/
def Copy.tomb (c : Copy) (j : Nat) : Bool := bitOf (c.field (c.nodeAt j) 4) 0
/-- forward. -/
def Copy.forward (c : Copy) (j : Nat) : Nat := c.field (c.nodeAt j + 4) 4
/-- The neighbours of node `j`. -/
def Copy.neighbours (c : Copy) (j : Nat) : List Nat :=
  (List.range (c.field (c.nodeAt j + 8) 1)).map fun i => c.field (c.nodeAt j + 0x20 + 4 * i) 4
/-- The centroid of list `j`. -/
def Copy.centroid (c : Copy) (j : Nat) : List Byte :=
  Mem.bytes c.mem (c.region 5 + c.codeBytes * j) c.codeBytes

/-- The live node at the end of a forwarding chain, and the hops to it (R293): at most one hop per
list, since chains never form a cycle (R294). -/
def Copy.resolveFrom (c : Copy) (fuel j hops : Nat) : Nat × Nat :=
  match fuel with
  | 0 => (j, hops)
  | fuel + 1 => if c.tomb j then c.resolveFrom fuel (c.forward j) (hops + 1) else (j, hops)

/-- The live target of list `j` and the hops to it. -/
def Copy.resolve (c : Copy) (j : Nat) : Nat × Nat := c.resolveFrom c.lists j 0

/-- The distance of two codes (R278). -/
def codeDistance (a b : List Byte) : Nat := ((a.zip b).map (fun p => popcount (p.1 ^^^ p.2))).sum

/-- The list whose centroid is nearest to `x`, the lower number winning a tie (R309). -/
def Copy.nearest (c : Copy) (x : List Byte) (cands : List Nat) : Option Nat :=
  match cands with
  | [] => none
  | a :: t => some (t.foldl (fun best j =>
      let db := codeDistance x (c.centroid best)
      let dj := codeDistance x (c.centroid j)
      if dj < db ∨ dj = db ∧ j < best then j else best) a)

/-! ### Header counters (R280) -/

/-- Adds to an 8-byte counter of the header. -/
def Copy.bump8 (c : Copy) (off : Nat) (d : Int) : Copy :=
  c.setField off 8 ((c.field off 8 : Int) + d).toNat
/-- Adds to a 4-byte counter of the header. -/
def Copy.bump4 (c : Copy) (off : Nat) (d : Int) : Copy :=
  c.setField off 4 ((c.field off 4 : Int) + d).toNat

/-! ### Bytes in flash (R118, R279, R316, R336) -/

/-- What a copy holds in flash, its metadata apart, as (offset, bytes): an image; or the centroids, the
attributes, the extents and the side blocks written (R279). -/
def Copy.held (c : Copy) : List (Nat × Nat) :=
  match c.kind with
  | .index =>
    (c.region 5, c.codeBytes * c.lists) :: (c.region 6, 8 * c.identCap) ::
      (c.index.extents ++ c.index.leaving ++
        (c.index.sideUsed ++ c.index.sideLeaving).map (fun b => (c.sideAt b, c.sideBytes)))
  | _ => [(0, c.size)]

/-- Bytes that a copy holds in T2, or in T3 (R118). -/
def Copy.flashBytes (c : Copy) (t2 : Bool) : Nat :=
  let runs := if t2 then c.t2 else c.t3
  (c.held.map (fun h => (runs.map (fun r =>
    min (h.1 + h.2) ((r.1 + r.2) * pageBytes) - max h.1 (r.1 * pageBytes))).sum)).sum

/-- What a change of a copy writes for the first time: the extents and side blocks that it did not hold. -/
def Copy.grown (old new : Copy) : List (Nat × Nat) := new.held.filter (fun r => !old.held.contains r)

/-- A stored copy after a change (R123). -/
def State.keepCopy (s : State) (new : Copy) : State :=
  match s.copy? new.id with
  | some old => s.storeCopy old new (old.grown new)
  | none => s

/-! ### The commit of a list (R308, R309) -/

/-- Whether some transfer under way touches bytes of an index's window (R123). -/
def State.windowInUse (s : State) (copy off n : Nat) : Bool :=
  s.jobs.any (fun j => j.onCores && (s.jobXfers j).any (fun x =>
    x.state != .done && (match s.place j x.uaddr with
      | (.object c, o) => c == copy && decide (o < off + n) && decide (off < o + x.uSpan)
      | _ => false)))

/-- A copy with the old extents and side blocks free that no transfer references now (R123, R308). -/
def State.freed (s : State) (c : Copy) : Copy :=
  { c with index := { c.index with
    leaving := c.index.leaving.filter (fun e => s.windowInUse c.id e.1 e.2)
    sideLeaving := c.index.sideLeaving.filter (fun b => s.windowInUse c.id (c.sideAt b) c.sideBytes) } }

/-- Frees the old extents and side blocks of a copy that no transfer references any more. -/
def State.freeSpace (s : State) (copy : Nat) : State := s.modCopy copy s.freed

/-- Retires list `j`, which holds nothing, unless it is the last live list (R309). -/
def Copy.retire (c : Copy) (j : Nat) : Copy :=
  let live := (List.range c.lists).filter (fun k => !c.listRetired k && k != j)
  if live = [] then c
  else
    let x := c.centroid j
    let near := (c.neighbours j).filter live.contains
    let to_ := ((c.nearest x near).orElse (fun _ => c.nearest x live)).getD 0
    let c := (c.setField (c.nodeAt j) 4 1).setField (c.nodeAt j + 4) 4 to_
    let c := c.setField (c.dirAt j + 14) 1 (c.listFlags j / 2 * 2 + 1)
    let c := c.bump4 0x88 1
    if c.field 0x0C 4 = j then c.setField 0x0C 4 to_ else c

/-- The commit of a ready list (R308): the directory entry, the RETIRED identifiers and the counters
change in one step; the requests present are those the identifiers wait for (R291). -/
def Copy.commit (c : Copy) (r : ReadyList) (waits : List Nat) : Copy :=
  let j := r.list
  let side := c.sideEntries j
  let rest := side.drop r.s0
  let usedBefore := (side.map (fun p => p.1)).dedup
  let usedAfter := (rest.map (fun p => p.1)).dedup
  let wasDeferred := c.listDeferred j
  let old := (c.extent j, c.extentBytes (c.codes j) (c.runs j))
  let head := rest.head?
  let deleted := (r.dropped.filter (fun n => c.ident n == .deleted)).length
  let c := c.setDir j r.extent r.codes r.runs (c.listFlags j % 2)
    ((head.map (fun p => p.2)).getD 0) ((head.map (fun p => p.1)).getD noBlock) rest.length
    (if r.runs = 1 then r.first else 0)
  let c := r.dropped.foldl (fun c n => c.setIdent n .retired) c
  let k : Int := r.dropped.length
  let c := ((c.bump8 0x70 (-k)).bump8 0x78 (-(deleted : Int))).bump8 0x80 (-(r.s0 : Int))
  let c := if wasDeferred then c.bump4 0x8C (-1) else c
  let gone := usedBefore.filter (fun b => !usedAfter.contains b)
  let c := { c with index := { c.index with
    retired := c.index.retired ++ r.dropped.map (fun n => { ident := n, waits := waits })
    extents := c.index.extents.filter (fun e => e != old)
    leaving := if old.2 = 0 then c.index.leaving else c.index.leaving ++ [old]
    sideUsed := c.index.sideUsed.filter (fun b => !gone.contains b)
    sideLeaving := c.index.sideLeaving ++ gone } }
  if r.codes = 0 ∧ rest = [] then c.retire j else c

/-- The requests whose answers RETIRED identifiers of an index wait for (R291): those in the batch or
pending list of a job that names the index. -/
def State.indexRequests (s : State) (copy : Nat) : List Nat :=
  ((s.jobs.filter (fun j => j.slate.index != 0 &&
      (match s.obj? j.slate.index with
       | some o => o.copy == copy
       | none => false))).map
    (fun j => j.batch.map (fun b => b.uid) ++ j.pendingReqs)).flatten

/-- The end of a full compaction (R309, R310): forwarding chains are shortened to one hop, the count
advances, and the COMPACT_INDEX commands that wait for it complete. -/
def State.endCompaction (s : State) (copy : Nat) : State :=
  match s.copy? copy with
  | none => s
  | some c =>
    match c.index.full with
    | none => s
    | some (next, n) =>
      if next < c.lists ∨ c.index.ready ≠ [] then s
      else
        let done := (List.range c.lists).foldl (fun c j =>
          if c.tomb j then c.setField (c.nodeAt j + 4) 4 (c.resolve j).1 else c) c
        let done := done.bump8 0x98 1
        let s := s.keepCopy { done with index := { done.index with
          full := none, waiting := [], byCommand := false } }
        s.completeAll c.index.waiting { status := .ok, result0 := n }

/-- Commits the ready lists of an index, at most 4096 (R308); the number committed. -/
def State.commitReady (s : State) (copy : Nat) : State × Nat :=
  match s.copy? copy with
  | none => (s, 0)
  | some c =>
    let now := c.index.ready.take 4096
    let waits := s.indexRequests copy
    let new := now.foldl (fun c r => c.commit r waits) c
    let s := s.keepCopy { new with index := { new.index with
      ready := c.index.ready.drop 4096
      full := c.index.full.map (fun f => (f.1, f.2 + now.length)) } }
    ((s.releaseIdents.freeSpace copy).endCompaction copy, now.length)

end Sys2Proof.Machine
end

