-- ==== Sys2Proof/Machine/Filter.lean ====
section
/-!
DEFINITION. Attribute filters (R299, R300).
-/

namespace Sys2Proof.Machine

/-- Whether a used term passes attribute word `x` (R300). -/
def termPasses (t : List Byte) (x : Nat) : Bool :=
  let f := fieldAt t
  let a := f 8 8
  let b := f 0x10 8
  let r := if f 0 1 = 1 then decide (Nat.land x a = b)
    else decide (a ≤ bits x (f 3 1) (f 2 1)) && decide (bits x (f 3 1) (f 2 1) ≤ b)
  if bitOf (f 4 1) 0 then !r else r

/-- Whether a filter passes attribute word `x` (R300): some clause with a used term has all of its used
terms passing; a filter with no used term passes every record. -/
def filterPasses (bs : List Byte) (x : Nat) : Bool :=
  let used := (filterTerms bs).filter (fun t => fieldAt t 0 1 != 0)
  used.isEmpty ||
  (List.range 8).any (fun c =>
    let mine := used.filter (fun t => fieldAt t 1 1 == c)
    !mine.isEmpty && mine.all (fun t => termPasses t x))

end Sys2Proof.Machine
end

