-- ==== Sys2Proof/Machine/Flags.lean ====
section
/-!
DEFINITION. The condition flags Z, SLT, ULT and the branch conditions (R180, R205).
-/

namespace Sys2Proof.Machine

/-- The core with the flags set from two operands (R205): equal, less as signed, less as unsigned. -/
def Core.compare (c : Core) (a b : W64) : Core :=
  { c with z := a == b, slt := a.slt b, ult := a.ult b }

/-- Whether a branch condition holds (R180, R205); codes 9 to 15 are reserved and hold never. -/
def Core.holds (c : Core) (cond : Nat) : Bool :=
  match cond with
  | 0 => true
  | 1 => c.z
  | 2 => !c.z
  | 3 => c.slt
  | 4 => !c.slt
  | 5 => !c.slt && !c.z
  | 6 => c.slt || c.z
  | 7 => c.ult
  | 8 => !c.ult
  | _ => false

/-- Whether a branch condition is assigned (R180, R181). -/
def condLegal (cond : Nat) : Bool := decide (cond ≤ 8)

end Sys2Proof.Machine
end

