-- ==== Sys2Proof/Machine/Operands.lean ====
section
/-!
DEFINITION. The operand forms of sequencer instructions (R182, R206): registers by number, immediates,
local addresses.
-/

namespace Sys2Proof.Machine

/-- S register `r`. -/
def Core.sreg (c : Core) (r : BitVec 5) : W64 := Sparse.get c.sregs r.toNat

/-- A register `r`. -/
def Core.areg (c : Core) (r : BitVec 5) : W64 := Sparse.get c.aregs r.toNat

/-- The core with an S register written. -/
def Core.setS (c : Core) (r : BitVec 5) (v : W64) : Core := { c with sregs := Sparse.set c.sregs r.toNat v }

/-- The core with an A register written. -/
def Core.setA (c : Core) (r : BitVec 5) (v : W64) : Core := { c with aregs := Sparse.set c.aregs r.toNat v }

/-- Whether a field names an A register (R182). -/
def isA (r : BitVec 5) : Bool := decide (r.toNat ≤ 15)

/-- Whether a field names a transfer slot or a P register (R182). -/
def isX (r : BitVec 5) : Bool := decide (r.toNat ≤ 7)

/-- Whether a field names an epilogue program slot (R182). -/
def isE (r : BitVec 5) : Bool := decide (r.toNat ≤ 3)

/-- A 40-bit immediate as a 64-bit value (R206). -/
def imm40 (v : BitVec 40) : W64 := v.signExtend 64

/-- A 32-bit immediate as a 64-bit value (R206). -/
def imm32 (v : BitVec 32) : W64 := v.signExtend 64

/-- The transfer in a slot; a slot never used reads as DONE with progress 0 (R214). -/
def Core.xfer (c : Core) (x : Nat) : Xfer := lookupD c.xfers x {}

/-- Whether the transfer in a slot is DONE. -/
def Core.xDone (c : Core) (x : Nat) : Bool := (c.xfer x).state == .done

/-- The core with a transfer slot written. -/
def Core.setXfer (c : Core) (x : Nat) (t : Xfer) : Core := { c with xfers := assocSet c.xfers x t }

end Sys2Proof.Machine
end

