-- ==== Sys2Proof/Machine/Tile.lean ====
section
/-!
DEFINITION. Instruction words (R179, R180), pass descriptors (R216), the bases of epilogue programs
(R221), phases of a program (R266), and the local bytes that open tiles read and will write (R190,
R195, R261, R271).
-/

namespace Sys2Proof.Machine

/-! ### Fields of word 0 (R179, R180) -/

/-- CLASS. -/
def wClass (w : W64) : Nat := bits w.toNat 62 59
/-- OP. -/
def wOp (w : W64) : Nat := bits w.toNat 58 53
/-- D. -/
def wD (w : W64) : BitVec 5 := BitVec.ofNat 5 (bits w.toNat 52 48)
/-- A. -/
def wA (w : W64) : BitVec 5 := BitVec.ofNat 5 (bits w.toNat 47 43)
/-- B of formats REG and LONG. -/
def wB (w : W64) : BitVec 5 := BitVec.ofNat 5 (bits w.toNat 42 38)
/-- MOD of format REG. -/
def wMod (w : W64) : BitVec 6 := BitVec.ofNat 6 (bits w.toNat 32 27)
/-- The guard of format REG. -/
def wGuard (w : W64) : Guard :=
  { g := BitVec.ofNat 3 (bits w.toNat 37 35), gn := bitOf w.toNat 34, ge := bitOf w.toNat 33 }
/-- IMM of format IMM. -/
def wImm (w : W64) : BitVec 40 := BitVec.ofNat 40 w.toNat

/-! ### Pass descriptors (R216) -/

/-- Operands per accumulator, or codes. -/
def dOpCount (d : List Byte) : Nat := fieldAt d 0x00 4
/-- Accumulators of the range. -/
def dAccCount (d : List Byte) : Nat := fieldAt d 0x04 1
/-- Enabled lane rows, with the reserved bits above. -/
def dRows (d : List Byte) : Nat := fieldAt d 0x05 1
/-- flags. -/
def dFlags (d : List Byte) : Nat := fieldAt d 0x06 1
/-- FIRST. -/
def dFirst (d : List Byte) : Bool := bitOf (dFlags d) 0
/-- E5M2. -/
def dE5m2 (d : List Byte) : Bool := bitOf (dFlags d) 1
/-- CODE8. -/
def dCode8 (d : List Byte) : Bool := bitOf (dFlags d) 2
/-- TABLE_B. -/
def dTableB (d : List Byte) : Bool := bitOf (dFlags d) 3
/-- HALF. -/
def dHalf (d : List Byte) : Bool := bitOf (dFlags d) 4
/-- ROWSTAT. -/
def dRowstat (d : List Byte) : Bool := bitOf (dFlags d) 5
/-- programs. -/
def dPrograms (d : List Byte) : Nat := fieldAt d 0x07 1
/-- The prologue's slot. -/
def dPrologue (d : List Byte) : Option Nat :=
  let v := bits (dPrograms d) 6 4
  if v = 0 then none else some (v - 1)
/-- The epilogue's slot. -/
def dEpilogue (d : List Byte) : Option Nat :=
  let v := bits (dPrograms d) 2 0
  if v = 0 then none else some (v - 1)
/-- op_stride. -/
def dOpStride (d : List Byte) : Nat := fieldAt d 0x08 4
/-- row_stride. -/
def dRowStride (d : List Byte) : Nat := fieldAt d 0x0C 4
/-- in_origin. -/
def dInOrigin (d : List Byte) : Nat := fieldAt d 0x10 4
/-- w_offset. -/
def dWOffset (d : List Byte) : Nat := fieldAt d 0x14 2
/-- The `n`-byte field of side at `o`. -/
def dSide (d : List Byte) (o n : Nat) : Nat := fieldAt d (0x16 + o) n
/-- out_base. -/
def dOutBase (d : List Byte) : Nat := fieldAt d 0x20 4
/-- out_stride. -/
def dOutStride (d : List Byte) : Nat := fieldAt d 0x24 4
/-- u_base. -/
def dUBase (d : List Byte) : Nat := fieldAt d 0x28 8
/-- u_stride. -/
def dUStride (d : List Byte) : Nat := fieldAt d 0x30 4
/-- mask_addr. -/
def dMaskAddr (d : List Byte) : Nat := fieldAt d 0x34 4
/-- code_bits. -/
def dCodeBits (d : List Byte) : Nat := fieldAt d 0x38 2
/-- MASKED. -/
def dMasked (d : List Byte) : Bool := bitOf (fieldAt d 0x3A 1) 0

/-- TILE_ROW (R221): the floor of the quotient, taken as an unsigned 32-bit value. -/
def Tile.row (t : Tile) : Nat :=
  if t.mode = .bin ∨ dRowStride t.desc = 0 then 0
  else ((((t.sd : Int) - dInOrigin t.desc) / dRowStride t.desc) % 2 ^ 32).toNat

/-- The OUT base of a tile (R221). -/
def Tile.out (t : Tile) : Nat := (dOutBase t.desc + t.row * dOutStride t.desc) % 2 ^ 32

/-- The local address and length of a VLD or VST of a tile (R221, R222). -/
def Tile.vAddr (t : Tile) (imm : BitVec 40) : Nat × Nat :=
  let v := imm.toNat
  let base := match bits v 36 35 with
    | 0 => t.out
    | 1 => 0
    | _ => t.sd
  ((base + bits v 31 0) % 2 ^ 32, 64 * (bits v 34 32 + 1))

/-- The program in a slot. -/
def Core.prog (c : Core) (e : Nat) : List W64 := lookupD c.progs e []

/-- The epilogue program of a tile. -/
def Core.epilogue (c : Core) (t : Tile) : List W64 :=
  match dEpilogue t.desc with
  | some e => c.prog e
  | none => []

/-- The prologue program of a tile. -/
def Core.prologue (c : Core) (t : Tile) : List W64 :=
  match dPrologue t.desc with
  | some e => c.prog e
  | none => []

/-! ### Phases (R266) -/

/-- The word is the epilogue instruction with the given OP. -/
def isEpi (op : Nat) (w : W64) : Bool := wClass w == 4 && wOp w == op

/-- Splits a program at each RSGET that follows an RSTAT of the current phase (R266): `cur` is the
current phase reversed, `stat` whether it has issued an RSTAT. -/
def phasesFrom (cur : List W64) (stat : Bool) (p : List W64) : List (List W64) :=
  match p with
  | [] => [cur.reverse]
  | w :: t =>
    if isEpi 23 w && stat then cur.reverse :: phasesFrom [w] false t
    else phasesFrom (w :: cur) (stat || isEpi 22 w) t

/-- The phases of an epilogue program (R266). -/
def phases (p : List W64) : List (List W64) := phasesFrom [] false p

/-- The phases of the epilogue program of a tile: a pass without ROWSTAT has one. -/
def Core.tilePhases (c : Core) (t : Tile) : List (List W64) :=
  if dRowstat t.desc then phases (c.epilogue t) else [c.epilogue t]

/-! ### Granules and ranges (R190) -/

/-- Whether two local ranges (first byte, length) share a 4 KiB granule (R190). -/
def sameGranule (a n b m : Nat) : Bool :=
  decide (0 < n) && decide (0 < m) && decide (a / 4096 ≤ (b + m - 1) / 4096) &&
  decide (b / 4096 ≤ (a + n - 1) / 4096)

/-- The local ranges that the VSTs (or VLDs) of a program part touch for a tile. -/
def Tile.ranges (t : Tile) (op : Nat) (p : List W64) : List (Nat × Nat) :=
  (p.filter (isEpi op)).map (fun w => t.vAddr (wImm w))

/-- The parts of programs that are still to run: prologue, phase-0 and finish runs (R258). -/
def Core.dueRuns (c : Core) : List (Tile × List W64) :=
  (match c.opening with
   | some t => [(t, c.prologue t), (t, c.epilogue t)]
   | none => []) ++
  c.tiles.map (fun t => (t, c.epilogue t)) ++
  (c.sweeps.map (fun s => (s.tiles.filter (fun x => decide (0 < x.done))).map (fun x =>
    (x.tile, ((c.tilePhases x.tile).drop x.done).flatten)))).flatten

/-- Local bytes that runs of the tiles whose passes come before `upTo` in the order of issue have still to write
(R261). -/
def Core.dueWrites (c : Core) (upTo : Nat) : List (Nat × Nat) :=
  ((c.dueRuns.filter (fun r => decide (r.1.order < upTo))).map (fun r => r.1.ranges 2 r.2)).flatten

/-- The output bytes that the ESTOREs of a program part read for a tile (R155, R222). -/
def Tile.stored (t : Tile) (p : List W64) : List (Nat × Nat) :=
  (p.filter (isEpi 25)).map (fun w => (t.out, 64 * bits (wImm w).toNat 15 0))

/-- Local bytes that runs of the tiles whose passes come before `upTo` in the order of issue have still to read, by
VLD or through an ESTORE. -/
def Core.dueReads (c : Core) (upTo : Nat) : List (Nat × Nat) :=
  ((c.dueRuns.filter (fun r => decide (r.1.order < upTo))).map
    (fun r => r.1.ranges 1 r.2 ++ r.1.stored r.2)).flatten

/-- The tiles of the core that have not ended (R258), oldest first. -/
def Core.openTiles (c : Core) : List Tile :=
  c.tiles ++ (match c.opening with
    | some t => [t]
    | none => [])

/-- Bytes of the operand stream of a pass, from Sd on. -/
def operandSpan (mode : PassMode) (d : List Byte) : Nat :=
  match mode with
  | .bin =>
    let each := if dCodeBits d < 1024 then dCodeBits d / 8 else 128 * ceilDiv (dCodeBits d) 1024
    (dOpCount d - 1) * dOpStride d + each
  | _ => (dAccCount d - 1) * dRowStride d + (dOpCount d - 1) * dOpStride d + 32

/-- Operand-store bytes that open tiles whose passes come before `upTo` in the order of issue read as their inputs:
the operand stream and the accept mask (R195). -/
def Core.tileInputs (c : Core) (upTo : Nat) : List (Nat × Nat) :=
  (c.openTiles.filter (fun t => decide (t.order < upTo))).flatMap
    (fun t => (t.sd, operandSpan t.mode t.desc) ::
      (if t.mode == .bin && dMasked t.desc then [(dMaskAddr t.desc, 64)] else []))

/-- Whether a byte of the lane weight buffers, from lane 0's byte 0, lies in a half that an open tile
reads (R167, R195). -/
def Core.halfHeld (c : Core) (o : Nat) : Bool :=
  c.openTiles.any (fun t =>
    (dHalf t.desc == decide (4096 ≤ o % 8192)) && bitOf (dRows t.desc) (o / 1048576))

/-- The place of a transfer among the passes and transfers of its core, by which interlocks order it (R190, R191): an
ESTORE stands where its pass issued (DEDUCED, log 11), and R232 alone goes by its own issue. -/
def Xfer.place (x : Xfer) : Nat := if x.estore then x.tile else x.order

/-- A beat of a transfer that has not moved lies in a granule of the range (R190). -/
def Xfer.pendingIn (x : Xfer) (a n : Nat) : Bool :=
  x.state != .done && sameGranule a n x.laddr x.lSpan &&
  (List.range (x.beats - x.progress)).any (fun i =>
    (x.lAddrs (x.progress + i)).any (fun l => sameGranule a n l 64))

/-- Whether a reader of the local range is held (R190, R261): a LOAD into it has beats to write, or a
run has a VST into its granules still to do. -/
def Core.readHeld (c : Core) (a n : Nat) : Bool :=
  c.xfers.any (fun p => !p.2.store && p.2.pendingIn a n) ||
  (c.dueWrites c.xorder).any (fun r => sameGranule a n r.1 r.2)

/-- Whether a writer of the local range is held (R155, R190, R195): an open tile reads it, a run has still to
read or to write it, or a transfer issued before still reads or writes it. -/
def Core.writeHeld (c : Core) (a n : Nat) : Bool :=
  c.xfers.any (fun p => p.2.pendingIn a n) ||
  (c.dueWrites c.xorder).any (fun r => sameGranule a n r.1 r.2) ||
  (c.tileInputs c.xorder).any (fun r => sameGranule a n r.1 r.2) ||
  (c.dueReads c.xorder).any (fun r => sameGranule a n r.1 r.2)

/-! ### The row hold buffer (R166, R270, R271) -/

/-- The row hold buffer serves: a sweep of the core has runs to come (R271). -/
def Core.serving (c : Core) : Bool := !c.sweeps.isEmpty

/-- Whether a local range touches the row hold buffer. -/
def touchesHold (a n : Nat) : Bool := decide (a < 0x800000) && decide (0x600000 < a + n) && decide (0 < n)

/-- Whether an access to a local range is refused because the row hold buffer serves (R271). -/
def Core.holdRefused (c : Core) (a n : Nat) : Bool := c.serving && touchesHold a n

/-- Whether an open tile names an epilogue program slot (R224, R226, R272). -/
def Core.slotOpen (c : Core) (e : Nat) : Bool :=
  c.dueRuns.any (fun r => dEpilogue r.1.desc == some e || dPrologue r.1.desc == some e)

/-- Ends the open sweep of a core (R265). A sweep whose runs have all ended leaves. -/
def Core.endSweep (c : Core) : Core :=
  let ended := c.sweeps.map (fun s => { s with ended := true })
  { c with sweeps := ended.filter (fun s =>
      s.tiles.any (fun x => decide (x.done < (c.tilePhases x.tile).length))) }

/-- Whether the core's epilogue unit has nothing left to do (R231, R234, R275). -/
def Core.drained (c : Core) : Bool := c.opening.isNone && c.tiles.isEmpty && c.sweeps.isEmpty

end Sys2Proof.Machine
end

