-- ==== Sys2Proof/Machine/Cis.lean ====
section
/-!
DEFINITION. The issue of a sequencer instruction (R154, R181, R185, R207) and the release of what a
sequencer waits for (R192, R200, R213, R234).
-/

namespace Sys2Proof.Machine

/-- Size of the program region of a job (R120). -/
def Job.programRegion (j : Job) : Nat := roundUp j.slate.programLen pageBytes

/-- Bits [63:48] of the program word at a byte offset (R430). -/
def Job.wordAt (j : Job) (pc : Nat) : BitVec 16 := BitVec.ofNat 16 (Mem.field j.program (pc + 6) 2)

/-! ### Samples (R430 to R432) -/

/-- One dropped sample: LOST_SAMPLES advances, saturating. -/
def State.lostSample (s : State) : State :=
  { s with dailies := { s.dailies with
      lostSamples := if s.dailies.lostSamples = 0xFFFFFFFF#32 then s.dailies.lostSamples
        else s.dailies.lostSamples + 1 } }

/-- The sampling mode of a core: 1 TAG, 2 EXACT; an interval out of range turns it off. -/
def sampleMode (v : BitVec 32) : Nat :=
  let n := bits v.toNat 19 0
  match bits v.toNat 31 30 with
  | 1 => if 16 ≤ n then 1 else 0
  | 2 => if 1 ≤ n ∧ n ≤ 65536 then 2 else 0
  | _ => 0

/-- Counts one issued instruction for sampling (R430, R431). The latency of an exact sample and the
random distance to the next tag are free values (log 2). -/
def State.sample (s : State) (n : Nat) (j : Job) (pc : Nat) : State :=
  let v := Sparse.get s.dailies.sample n
  let c := s.core n
  let interval := bits v.toNat 19 0
  match sampleMode v with
  | 2 =>
    if c.sampled + 1 < interval then s.modCore n (fun c => { c with sampled := c.sampled + 1 })
    else
      let e : ExactEntry :=
        { pc := pc, word := j.wordAt pc, replayed := j.window
          latency := BitVec.ofNat 32 (Config.freeValue s.free) }
      let s := { s with free := s.free + 1 }
      if 256 ≤ c.exact.length then
        (s.modCore n (fun c => { c with sampled := 0 })).lostSample
      else s.modCore n (fun c => { c with sampled := 0, exact := c.exact ++ [e] })
  | 1 =>
    let due := if c.tagAt = 0 then interval / 2 + Config.freeValue s.free % interval else c.tagAt
    let s := if c.tagAt = 0 then { s with free := s.free + 1 } else s
    if due ≤ c.sampled + 1 ∧ c.tag.isNone then
      s.modCore n (fun c => { c with
        sampled := 0, tagAt := 0, tag := some { job := j.handle, pc := pc, word := j.wordAt pc } })
    else s.modCore n (fun c => { c with sampled := c.sampled + 1, tagAt := due })
  | _ => s

/-! ### Issue -/

/-- The job on a core while the core issues: the module is awake, the job RUNNING or WINDING, the sequencer waits
for nothing (R93, R154), and no pass is held at issue by its prologue (R220). -/
def State.issuing (s : State) (n : Nat) : Option Job :=
  match (s.core n).job.bind s.job? with
  | some j =>
    if s.awake && j.onCores && (s.core n).hold.isNone && (s.core n).opening.isNone then some j else none
  | none => none

/-- The sequencer's own part of an issued instruction of `len` bytes: the next position, the slots and
stalls that count (R105, R154), ISSUED (R424), sampling. -/
def State.retire (s : State) (n : Nat) (j : Job) (len : Nat) : State :=
  let pc := (s.core n).pc
  let s := s.tick n (len / 8)
  let s := s.count n 1 (len / 8)
  let s := s.sample n j pc
  s.modCore n (fun c => { c with pc := pc + len, seek := none, searchFaults := 0 })

/-- Issues an instruction of `len` bytes on core `n`. `legal` says that its fields are assigned (R181,
R182; else the job fails); `held` that an interlock keeps it from issuing (R155: nothing happens yet,
log 1); `act` is its effect, given the job and the instruction's place in the program. An instruction whose second
word lies past the program region is an access to an unmapped page at that word (R122). -/
def State.issue (s : State) (n : Fin 32) (len : Nat) (legal : Bool) (held : Core → Bool)
    (act : State → Job → Nat → State) : Result :=
  match s.issuing n.val with
  | none => .next s
  | some j =>
    let c := s.core n.val
    if j.programRegion ≤ c.pc then
      .next (s.accessFault j.ctx (0x000000C000000000 + c.pc) c.pc).settle
    else if j.programRegion ≤ c.pc + (len - 8) then
      .next (s.accessFault j.ctx (0x000000C000000000 + c.pc + 8) c.pc).settle
    else if legal = false then .next (s.failJob j.ctx .engineFault 3 c.pc).settle
    else if held c then .next s
    else .next (act (s.retire n.val j len) j c.pc)

/-- As `issue`, for an instruction that ends an open sweep (R265): the sweep ends when the instruction
reaches the head of the sequencer, also where an interlock still holds it there, as R264 requires of a
chain whose second pass reads what the sweep's finish runs write. `ends` says whether it ends one. -/
def State.issueEnding (s : State) (n : Fin 32) (len : Nat) (legal : Bool) (held ends : Core → Bool)
    (act : State → Job → Nat → State) : Result :=
  match s.issuing n.val with
  | none => .next s
  | some j =>
    let c := s.core n.val
    if legal && decide (c.pc + (len - 8) < j.programRegion) && held c && ends c then .next (s.setCore n.val c.endSweep)
    else s.issue n len legal held act

/-- ISSUE_REFUSED: the job fails (R189, R194). -/
def State.issueRefused (s : State) (j : Job) (pc : Nat) : State :=
  (s.failJob j.ctx .engineFault 4 pc).settle

/-- No interlock. -/
def noHold (_ : Core) : Bool := false

/-- An instruction of one word whose whole effect is on its own core. -/
def State.simple (s : State) (n : Fin 32) (legal : Bool) (f : Core → Core) : Result :=
  s.issue n 8 legal noHold (fun s _ _ => s.modCore n.val f)

/-! ### What a sequencer waits for -/

/-- Whether the core has arrived at the collective it is held at (R200, R231, R234). -/
def Core.arrived (c : Core) : Bool :=
  match c.hold with
  | some .bar => true
  | some .cut => c.drained && c.xfers.all (fun p => p.2.state == .done || p.2.store || decide (p.2.laddr < 0x01000000))
  | some (.take _ _) => c.drained && c.xfers.all (fun p => p.2.state == .done || p.2.store || decide (p.2.laddr < 0x01000000))
  | some .finished => c.drained && c.xfers.all (fun p => p.2.state == .done)
  | _ => false

/-- Releases MV.WAIT and FENCE.U once what they wait for is DONE (R192, R213, R232). -/
def Core.unhold (c : Core) : Core :=
  match c.hold with
  | some (.wait x) => if c.xDone x then { c with hold := none } else c
  | some (.fence upTo) =>
    if c.xfers.any (fun p => p.2.store && p.2.state != .done && decide (p.2.order < upTo)) then c
    else { c with hold := none }
  | _ => c

end Sys2Proof.Machine
end

