-- ==== Sys2Proof/Machine/Scalar.lean ====
section
/-!
DEFINITION. The control and scalar instructions (chapter 07, R205, R210, R211, R188).
-/

namespace Sys2Proof.Machine

/-! ### Control (R183, R210) -/

/-- Control passes to a byte offset of the program; outside the region the job fails (R183). -/
def State.branchTo (s : State) (n : Nat) (j : Job) (pc : Nat) (target : Int) : State :=
  if 0 ≤ target ∧ target < j.programRegion then s.modCore n (fun c => { c with pc := target.toNat })
  else (s.accessFault j.ctx ((0x000000C000000000 + target) % 2 ^ 64).toNat pc).settle

/-- The target of a branch at `pc` (R180). -/
def branchTarget (pc : Nat) (off : BitVec 39) : Int := (pc : Int) + 8 * off.toInt

/-- NOP (R210). -/
def execNop (n : Fin 32) (s : State) : Result := s.simple n true id

/-- B (R205, R210). -/
def execB (n : Fin 32) (cond : BitVec 4) (off : BitVec 39) (s : State) : Result :=
  s.issue n 8 (condLegal cond.toNat) noHold fun s j pc =>
    if (s.core n.val).holds cond.toNat then s.branchTo n.val j pc (branchTarget pc off) else s

/-- CALL (R189, R210): a full return stack refuses it. -/
def execCall (n : Fin 32) (cond : BitVec 4) (off : BitVec 39) (s : State) : Result :=
  s.issue n 8 (condLegal cond.toNat) noHold fun s j pc =>
    let c := s.core n.val
    if c.holds cond.toNat then
      if 16 ≤ c.stack.length then s.issueRefused j pc
      else
        (s.setCore n.val { c with stack := c.stack ++ [BitVec.ofNat 64 (pc + 8)] }).branchTo n.val j pc
          (branchTarget pc off)
    else s

/-- RET (R183, R189): an empty return stack refuses it. -/
def execRet (n : Fin 32) (s : State) : Result :=
  s.issue n 8 true noHold fun s j pc =>
    let c := s.core n.val
    match c.stack.getLast? with
    | none => s.issueRefused j pc
    | some a => (s.setCore n.val { c with stack := c.stack.dropLast }).branchTo n.val j pc a.toNat

/-! ### Register instructions (R211) -/

/-- MOV. -/
def execMov (n : Fin 32) (d a : BitVec 5) (s : State) : Result :=
  s.simple n true fun c => c.setS d (c.sreg a)
/-- MOVI. -/
def execMovi (n : Fin 32) (d : BitVec 5) (imm : BitVec 40) (s : State) : Result :=
  s.simple n true fun c => c.setS d (imm40 imm)
/-- MOVL: a LONG instruction of two words. -/
def execMovl (n : Fin 32) (d : BitVec 5) (imm ext : BitVec 32) (s : State) : Result :=
  s.issue n 16 true noHold fun s _ _ => s.modCore n.val fun c => c.setS d (ext ++ imm)

/-- A register form Sd ← f Sa Sb. -/
def State.alu (s : State) (n : Fin 32) (d a b : BitVec 5) (f : W64 → W64 → W64) : Result :=
  s.simple n true fun c => c.setS d (f (c.sreg a) (c.sreg b))

/-- An immediate form Sd ← f Sa IMM. -/
def State.alui (s : State) (n : Fin 32) (d a : BitVec 5) (imm : BitVec 40) (legal : Bool)
    (f : W64 → W64 → W64) : Result :=
  s.simple n legal fun c => c.setS d (f (c.sreg a) (imm40 imm))

/-- The shift amount: bits [5:0]. -/
def shamt (b : W64) : Nat := b.toNat % 64
/-- Left shift. -/
def shl64 (a b : W64) : W64 := a <<< shamt b
/-- Logical right shift. -/
def shr64 (a b : W64) : W64 := a >>> shamt b
/-- Arithmetic right shift. -/
def sar64 (a b : W64) : W64 := a.sshiftRight (shamt b)
/-- Signed minimum. -/
def min64 (a b : W64) : W64 := if a.slt b then a else b
/-- Signed maximum. -/
def max64 (a b : W64) : W64 := if a.slt b then b else a
/-- Unsigned minimum. -/
def minu64 (a b : W64) : W64 := if a.ult b then a else b
/-- Unsigned maximum. -/
def maxu64 (a b : W64) : W64 := if a.ult b then b else a
/-- An immediate shift amount is 0 to 63 (R211). -/
def shiftLegal (imm : BitVec 40) : Bool := decide (imm.toNat ≤ 63)

/-- ADD. -/
def execAdd (n : Fin 32) (d a b : BitVec 5) (s : State) : Result := s.alu n d a b (· + ·)
/-- SUB. -/
def execSub (n : Fin 32) (d a b : BitVec 5) (s : State) : Result := s.alu n d a b (· - ·)
/-- MUL. -/
def execMul (n : Fin 32) (d a b : BitVec 5) (s : State) : Result := s.alu n d a b (· * ·)
/-- AND. -/
def execAnd (n : Fin 32) (d a b : BitVec 5) (s : State) : Result := s.alu n d a b (· &&& ·)
/-- OR. -/
def execOr (n : Fin 32) (d a b : BitVec 5) (s : State) : Result := s.alu n d a b (· ||| ·)
/-- XOR. -/
def execXor (n : Fin 32) (d a b : BitVec 5) (s : State) : Result := s.alu n d a b (· ^^^ ·)
/-- SHL. -/
def execShl (n : Fin 32) (d a b : BitVec 5) (s : State) : Result := s.alu n d a b shl64
/-- SHR. -/
def execShr (n : Fin 32) (d a b : BitVec 5) (s : State) : Result := s.alu n d a b shr64
/-- SAR. -/
def execSar (n : Fin 32) (d a b : BitVec 5) (s : State) : Result := s.alu n d a b sar64
/-- MIN. -/
def execMin (n : Fin 32) (d a b : BitVec 5) (s : State) : Result := s.alu n d a b min64
/-- MAX. -/
def execMax (n : Fin 32) (d a b : BitVec 5) (s : State) : Result := s.alu n d a b max64
/-- MINU. -/
def execMinu (n : Fin 32) (d a b : BitVec 5) (s : State) : Result := s.alu n d a b minu64
/-- MAXU. -/
def execMaxu (n : Fin 32) (d a b : BitVec 5) (s : State) : Result := s.alu n d a b maxu64
/-- CMP (R205). -/
def execCmp (n : Fin 32) (a b : BitVec 5) (s : State) : Result :=
  s.simple n true fun c => c.compare (c.sreg a) (c.sreg b)
/-- ADDI. -/
def execAddi (n : Fin 32) (d a : BitVec 5) (imm : BitVec 40) (s : State) : Result :=
  s.alui n d a imm true (· + ·)
/-- SUBI. -/
def execSubi (n : Fin 32) (d a : BitVec 5) (imm : BitVec 40) (s : State) : Result :=
  s.alui n d a imm true (· - ·)
/-- ANDI. -/
def execAndi (n : Fin 32) (d a : BitVec 5) (imm : BitVec 40) (s : State) : Result :=
  s.alui n d a imm true (· &&& ·)
/-- ORI. -/
def execOri (n : Fin 32) (d a : BitVec 5) (imm : BitVec 40) (s : State) : Result :=
  s.alui n d a imm true (· ||| ·)
/-- XORI. -/
def execXori (n : Fin 32) (d a : BitVec 5) (imm : BitVec 40) (s : State) : Result :=
  s.alui n d a imm true (· ^^^ ·)
/-- SHLI: an amount outside 0 to 63 is illegal (R211). -/
def execShli (n : Fin 32) (d a : BitVec 5) (imm : BitVec 40) (s : State) : Result :=
  s.alui n d a imm (shiftLegal imm) shl64
/-- SHRI. -/
def execShri (n : Fin 32) (d a : BitVec 5) (imm : BitVec 40) (s : State) : Result :=
  s.alui n d a imm (shiftLegal imm) shr64
/-- SARI. -/
def execSari (n : Fin 32) (d a : BitVec 5) (imm : BitVec 40) (s : State) : Result :=
  s.alui n d a imm (shiftLegal imm) sar64
/-- CMPI (R205). -/
def execCmpi (n : Fin 32) (a : BitVec 5) (imm : BitVec 40) (s : State) : Result :=
  s.simple n true fun c => c.compare (c.sreg a) (imm40 imm)
/-- MULI. -/
def execMuli (n : Fin 32) (d a : BitVec 5) (imm : BitVec 40) (s : State) : Result :=
  s.alui n d a imm true (· * ·)
/-- MOVA: D names an A register. -/
def execMova (n : Fin 32) (d a : BitVec 5) (s : State) : Result :=
  s.simple n (isA d) fun c => c.setA d (c.sreg a)
/-- MOVS: A names an A register. -/
def execMovs (n : Fin 32) (d a : BitVec 5) (s : State) : Result :=
  s.simple n (isA a) fun c => c.setS d (c.areg a)
/-- ADDA: D and A name A registers. -/
def execAdda (n : Fin 32) (d a b : BitVec 5) (s : State) : Result :=
  s.simple n (isA d && isA a) fun c => c.setA d (c.areg a + c.sreg b)
/-- ADDAI. -/
def execAddai (n : Fin 32) (d a : BitVec 5) (imm : BitVec 40) (s : State) : Result :=
  s.simple n (isA d && isA a) fun c => c.setA d (c.areg a + imm40 imm)

/-! ### Scalar loads and stores (R188, R190, R211) -/

/-- The local address Sa + IMM (R211), checked after the addition. -/
def Core.scalarAddr (c : Core) (a : BitVec 5) (imm : BitVec 40) : Nat := (c.sreg a + imm40 imm).toNat

/-- An LD or ST address that R188 or R271 refuses. -/
def Core.scalarRefused (c : Core) (addr : Nat) : Bool :=
  decide (addr % 8 ≠ 0) || decide (osBytes < addr + 8) || c.holdRefused addr 8

/-- LD (R188, R190, R369): an uncorrectable word is a job fault. -/
def execLd (n : Fin 32) (d a : BitVec 5) (imm : BitVec 40) (s : State) : Result :=
  s.issue n 8 true (fun c => !c.scalarRefused (c.scalarAddr a imm) && c.readHeld (c.scalarAddr a imm) 8)
    fun s j pc =>
      let c := s.core n.val
      let addr := c.scalarAddr a imm
      if c.scalarRefused addr then s.issueRefused j pc
      else
        let s := s.noteLocal n.val addr 8
        if c.localLost addr 8 then (s.jobFault j.ctx j.cores).settle
        else s.setCore n.val (c.setS d (BitVec.ofNat 64 (c.osField addr 8)))

/-- ST (R188, R190). -/
def execSt (n : Fin 32) (d a : BitVec 5) (imm : BitVec 40) (s : State) : Result :=
  s.issue n 8 true (fun c => !c.scalarRefused (c.scalarAddr a imm) && c.writeHeld (c.scalarAddr a imm) 8)
    fun s j pc =>
      let c := s.core n.val
      let addr := c.scalarAddr a imm
      if c.scalarRefused addr then s.issueRefused j pc
      else s.osWrite n.val addr (leBytes 8 (c.sreg d).toNat)

end Sys2Proof.Machine
end

