-- ==== Sys2Proof/Machine/Sync.lean ====
section
/-!
DEFINITION. Collectives, Cuts and Takes (R98, R102, R103, R108, R192, R193, R200 to R204, R231 to R234),
SYSRD, and the ends of non-pre-emptible regions (R107).
-/

namespace Sys2Proof.Machine

/-! ### The Take table (R201 to R203) -/

/-- An answer entry. -/
structure Answer where
  request : Nat
  final   : Bool
  status  : Nat
  result0 : Nat
  /-- Offset of the payload in the Take table. -/
  offset  : Nat
  payload : List Byte
  /-- Reserved fields are zero, the status and the payload keep their rules (R201, R203). -/
  good    : Bool
  deriving DecidableEq, Repr

/-- Whether a region of the Take table lies in the writable area (R203). -/
def Job.inWritable (j : Job) (a n : Nat) : Bool := decide (a + n ≤ j.slate.writableBytes)

/-- The answer entry at an address of the writable area. -/
def Job.answerAt (j : Job) (table a : Nat) : Answer :=
  let f := fun (o n : Nat) => Mem.field j.writable (a + o) n
  let final := bitOf (f 4 1) 0
  let len := f 0x14 4
  { request := f 0 4, final := final, status := f 6 2, result0 := f 8 8, offset := f 0x10 4
    payload := Mem.bytes j.writable (table + f 0x10 4) (if len ≤ 1048576 then len else 0)
    good := decide (f 4 1 < 2) && decide (f 5 1 = 0) && decide (f 0x18 8 = 0) &&
      decide (f 6 2 ≤ b2n final) && decide (len ≤ 1048576) &&
      j.inWritable (table + f 0x10 4) len }

/-- The answer entries of a Take table, those of detached requests dropped (R203). -/
def Job.answers (j : Job) (table : Nat) : List Answer :=
  let f := fun (o n : Nat) => Mem.field j.writable (table + o) n
  ((List.range (f 0 4)).map (fun i => j.answerAt table (table + f 8 4 + 32 * i))).filter
    (fun a => !j.detached.contains a.request)

/-- Whether a Take table keeps the rules of R203 for `places` free places. -/
def Job.tableGood (j : Job) (table places : Nat) : Bool :=
  let f := fun (o n : Nat) => Mem.field j.writable (table + o) n
  j.inWritable table 64 && allZero (Mem.bytes j.writable (table + 0x18) 40) &&
  decide (f 0 4 ≤ 4096) && decide (f 8 4 % 64 = 0) && decide (f 0xC 4 % 64 = 0) &&
  decide (f 0x10 4 % 64 = 0) && decide (f 0x14 4 % 64 = 0) &&
  j.inWritable (table + f 8 4) (32 * f 0 4) && j.inWritable (table + f 0xC 4) (32 * places) &&
  j.inWritable (table + f 0x10 4) (f 0x14 4) &&
  (let as := j.answers table
   as.all (fun a => a.good && j.batch.any (fun b => b.number == a.request)) &&
   decide ((as.map (fun a => a.request)).Nodup))

/-- Whether the module's reads of a Take table meet an uncorrectable beat of the writable area (R369). -/
def State.tableLost (s : State) (j : Job) (table : Nat) : Bool :=
  let owner := j.handle + 100
  s.t1Lost owner table 64 ||
  s.t1Lost owner (table + Mem.field j.writable (table + 8) 4) (32 * Mem.field j.writable table 4) ||
  (j.answers table).any (fun a => a.payload != [] && a.good &&
    s.t1Lost owner (table + a.offset) a.payload.length)

/-- The errors that those reads meet (R363). -/
def State.noteTable (s : State) (j : Job) (table : Nat) : State :=
  let owner := j.handle + 100
  let s := s.noteT1 owner table 64
  let s := s.noteT1 owner (table + Mem.field j.writable (table + 8) 4) (32 * Mem.field j.writable table 4)
  (j.answers table).foldl (fun s a =>
    if a.payload != [] && a.good then s.noteT1 owner (table + a.offset) a.payload.length else s) s

/-! ### Answers (R102, R198, R202) -/

/-- Bytes of the packets of an answer on a queue, headers included (R115). -/
def State.answerBytes (s : State) (uid len : Nat) : Nat :=
  match (s.cmd? uid).bind (fun c => s.queue? c.queue) with
  | some q => len + 64 * max 1 (ceilDiv len (packetLimit q.cqDepth))
  | none => 0

/-- Posts one marked answer (R202): a final one completes its request, which leaves the batch. -/
def State.postAnswer (s : State) (ctx : Nat) (a : Answer) : State :=
  match (s.job? ctx).bind (fun j => j.batch.find? (fun b => b.number == a.request)) with
  | none => s
  | some b =>
    let bytes := s.answerBytes b.uid a.payload.length
    let s := s.modJob ctx (fun j => { j with
      rail := { j.rail with host := j.rail.host + bytes, t1 := j.rail.t1 + a.payload.length }
      acct := { j.acct with
        hostLinkBytes := j.acct.hostLinkBytes + bytes, t1Bytes := j.acct.t1Bytes + a.payload.length } })
    if a.final then
      let st := if a.status = 1 then Status.okUnderfilled
        else if b.replayed then .okReplayed else .ok
      let s := s.complete b.uid { status := st, result0 := a.result0, payload := a.payload }
      s.modJob ctx (fun j => { j with
        batch := j.batch.filter (fun x => x.number != b.number)
        leaving := j.leaving.filter (fun u => u != b.uid)
        acct := { j.acct with answered := j.acct.answered + 1 } })
    else s.emit b.uid false { status := .ok, result0 := a.result0, payload := a.payload }

/-- Requests of reset queues leave the batch at a Take boundary (R74): they complete with
RESET_AFTER_BEGIN and are detached. -/
def State.detachLeaving (s : State) (ctx : Nat) : State :=
  match s.job? ctx with
  | none => s
  | some j =>
    let out := j.batch.filter (fun b => j.leaving.contains b.uid)
    let s := s.modJob ctx (fun j => { j with
      batch := j.batch.filter (fun b => !j.leaving.contains b.uid)
      detached := j.detached ++ out.map (fun b => b.number), leaving := [] })
    s.completeAll (out.map (fun b => b.uid)) { status := .resetAfterBegin }

/-! ### Admission (R103, R202) -/

/-- Admits requests from the head of the pending list while `n` more may be admitted: `k` are admitted
so far, `at_` is the next free byte of the admission area. A request that its area can never hold is refused as it
comes to the head (R202). -/
def State.admitFrom (n : Nat) (s : State) (ctx table k at_ : Nat) (reqs : List Nat) : State × Nat :=
  match reqs with
  | [] => (s, k)
  | u :: rest =>
    match s.job? ctx, s.cmd? u with
    | some j, some c =>
      let f := fun (o w : Nat) => Mem.field j.writable (table + o) w
      let len := c.payload.length
      if f 0x14 4 < len then
        let s := s.modJob ctx (fun j => { j with pendingReqs := j.pendingReqs.filter (fun x => x != u) })
        State.admitFrom n (s.complete u { status := .badPacket, result1 := 0x0F }) ctx table k at_ rest
      else if n = 0 ∨ f 0x14 4 < at_ + len then (s, k)
      else
        let owner := j.handle + 100
        let place := f 0x10 4 + at_
        let entry := leBytes 4 j.nextReq ++ leBytes 1 c.opcode ++ List.replicate 3 0 ++
          leBytes 8 c.p0 ++ leBytes 4 place ++ leBytes 4 len ++ leBytes 8 c.p1
        let entryAt := table + f 0xC 4 + 32 * k
        let s := (s.modJob ctx (fun j => { j with writable := s.t1Merge j.writable owner entryAt entry })).t1Encode 36
          owner entryAt 32
        let s := (s.modJob ctx (fun j => { j with
          writable := s.t1Merge j.writable owner (table + place) c.payload })).t1Encode 36 owner (table + place) len
        let s := s.modJob ctx (fun j => { j with
          nextReq := (j.nextReq + 1) % 2 ^ 32
          pendingReqs := j.pendingReqs.filter (fun x => x != u)
          detached := j.detached.filter (fun d => d != j.nextReq)
          batch := j.batch ++ [{ number := j.nextReq, uid := u }]
          rail := { j.rail with t1 := j.rail.t1 + 32 + len }
          acct := { j.acct with t1Bytes := j.acct.t1Bytes + 32 + len } })
        let s := s.modCmd u (fun c => { c with begun := true })
        State.admitFrom (n - 1) s ctx table (k + 1) (roundUp (at_ + len) 64) rest
    | _, _ => (s, k)

/-- Lets every core of a job go on after its CUT or TAKE, with CUT_KIND CONTINUED (R231), or as it was restored when
the job replayed meanwhile. -/
def State.resumeCores (s : State) (ctx : Nat) : State :=
  match s.job? ctx with
  | none => s
  | some j =>
    (j.cores.foldl (fun s n => s.modCore n (fun c =>
      { c with hold := none, cutKind := if j.replayDue then c.cutKind else 0 })) s).modJob ctx
      (fun j => { j with replayDue := false })

/-- Admission at a Take that continues (R103), then the program resumes. -/
def State.admitAll (s : State) (ctx places table : Nat) : State :=
  match s.job? ctx with
  | none => s
  | some j =>
    let slots := if j.slate.kind = 1 then j.slate.seqSlots - j.batch.length else 128
    let n := if j.closing then 0 else min (min places slots) 128
    let r := s.admitFrom n ctx table 0 0 j.pendingReqs
    ((r.1.setAdmitted ctx table r.2).resumeCores ctx).releaseIdents

/-! ### The decision at a Cut (R108, R204) -/

/-- What a job does next. -/
inductive Decision where
  | ends (cause : Nat)
  | yields (idle : Bool)
  | continues
  deriving DecidableEq, Repr

/-- The decision at a Cut; `boundary` says that the Cut is a Take boundary (R204). -/
def Job.decide (j : Job) (boundary : Bool) : Decision :=
  if !j.reclaims.isEmpty || j.reclaiming then .ends 2
  else if j.closing && (j.slate.kind == 0 || j.batch.isEmpty) then .ends 1
  else if j.state == .winding then .yields false
  else if boundary && j.slate.idleYield && j.slate.kind != 0 && j.batch.isEmpty && j.pendingReqs.isEmpty
    then .yields true
  else .continues

/-- Whether what a Cut of a job saves of its cores' storage has an uncorrectable word: a job fault (R97, R369). -/
def State.saveLost (s : State) (j : Job) : Bool := j.cores.any (fun n => (s.core n).savedLost j.slate)

/-- The errors that the reads of a Cut meet (R363). -/
def State.noteSave (s : State) (j : Job) : State :=
  j.cores.foldl (fun s n => s.noteLocal n 0 j.slate.carryBytes) s

/-- The Cut of a CUT instruction, once every core has arrived (R98, R108). -/
def State.doCut (s : State) (ctx : Nat) : State :=
  match s.job? ctx with
  | none => s
  | some j =>
    let s := s.noteSave j
    if s.saveLost j then s.jobFault ctx j.cores
    else
      let s := s.takeCut ctx
      match s.job? ctx with
      | none => s
      | some j => match j.decide false with
        | .ends cause => s.endJob ctx { cause := cause } noPc
        | .yields idle => s.yieldJob ctx idle
        | .continues => s.resumeCores ctx

/-- The program offset of the instruction at which a job's lowest-ranked core is held (R199). -/
def State.heldPc (s : State) (j : Job) : Nat :=
  match j.cores with
  | n :: _ => (s.core n).pc - 8
  | [] => noPc

/-- A Take boundary, once every core has arrived (R102): the table is checked, the Cut taken, answers
posted, the decision made, ready lists committed as a region (R308), and requests admitted. -/
def State.doTake (s : State) (ctx places table : Nat) : State :=
  match s.job? ctx with
  | none => s
  | some j =>
    let lost := s.tableLost j table || s.saveLost j
    let s := (if s.integ.t1Ecc = [] then s else s.noteTable j table).noteSave j
    if lost then s.jobFault ctx j.cores
    else if j.tableGood table places = false then s.failJob ctx .engineFault 6 (s.heldPc j)
    else
      let answers := j.answers table
      let read := 64 + 32 * Mem.field j.writable table 4
      let s := s.modJob ctx (fun j => { j with
        takes := j.takes + 1
        rail := { j.rail with t1 := j.rail.t1 + read }
        acct := { j.acct with t1Bytes := j.acct.t1Bytes + read } })
      let s := s.takeCut ctx
      let s := answers.foldl (fun s a => s.postAnswer ctx a) s
      let s := (s.detachLeaving ctx).releaseIdents
      match s.job? ctx with
      | none => s
      | some j => match j.decide true with
        | .ends cause => (s.setAdmitted ctx table 0).endJob ctx { cause := cause } noPc
        | .yields idle => (s.setAdmitted ctx table 0).yieldJob ctx idle
        | .continues =>
          let copy := if j.slate.kind = 2 then (s.obj? j.slate.index).map (fun o => o.copy) else none
          match copy with
          | none => s.admitAll ctx places table
          | some c =>
            let r := s.commitReady c
            if r.2 = 0 then s.admitAll ctx places table
            else r.1.modJob ctx (fun j => { j with region := true })

/-! ### Collectives (R193) -/

/-- The kind of collective a core is held at. -/
def Hold.kind (h : Hold) : Option Nat :=
  match h with
  | .wait _ => none
  | .fence _ => none
  | .bar => some 0
  | .cut => some 1
  | .take _ _ => some 2
  | .finished => some 3

/-- Acts when every core of a job is held at a collective (R193): a mismatch fails the job, and once all
have arrived the collective takes place. -/
def State.collective (s : State) (ctx : Nat) : State :=
  match s.job? ctx with
  | none => s
  | some j =>
    let holds := j.cores.filterMap (fun n => (s.core n).hold.bind (fun h => h.kind.map (fun _ => h)))
    if j.onCores = false ∨ j.region ∨ j.cores = [] ∨ holds.length ≠ j.cores.length then s
    else
      match holds with
      | [] => s
      | h :: rest =>
        if rest.any (fun g => g != h) then s.failJob ctx .engineFault 5 (s.heldPc j)
        else if j.cores.all (fun n => (s.core n).arrived) = false then s
        else match h with
          | .bar => j.cores.foldl (fun s n => s.modCore n (fun c => { c with hold := none })) s
          | .cut => s.doCut ctx
          | .take places table => s.doTake ctx places table
          | .finished => s.endJob ctx {} noPc
          | .wait _ => s
          | .fence _ => s

/-- What follows from work of a core that has just ended: its own waits, then its job's collective. -/
def State.settleCore (s : State) (n : Nat) : State :=
  let s := s.modCore n Core.unhold
  match (s.core n).job with
  | some ctx => (s.collective ctx).settle
  | none => s.settle

/-! ### The instructions -/

/-- Holds the sequencer of an issuing core, ends its open sweep (R265), and looks at what follows. -/
def State.holdAt (s : State) (n : Nat) (h : Hold) : State :=
  (s.modCore n (fun c => { c.endSweep with hold := some h })).settleCore n

/-- FENCE.U (R192, R232). -/
def execFenceU (n : Fin 32) (s : State) : Result :=
  s.issue n 8 true noHold fun s _ _ => s.holdAt n.val (.fence (s.core n.val).xorder)

/-- BAR (R192, R193). -/
def execBar (n : Fin 32) (s : State) : Result :=
  s.issue n 8 true noHold fun s _ _ => s.holdAt n.val .bar

/-- CUT (R200, R231). -/
def execCut (n : Fin 32) (s : State) : Result :=
  s.issue n 8 true noHold fun s _ _ => s.holdAt n.val .cut

/-- TAKE (R201, R231): more than 128 places, or a table not at a multiple of 64, fails the job. -/
def execTake (n : Fin 32) (a b : BitVec 5) (s : State) : Result :=
  s.issue n 8 (isA b) noHold fun s j pc =>
    let places := ((s.core n.val).sreg a).toNat
    let table := ((s.core n.val).areg b).toNat
    if 128 < places ∨ table % 64 ≠ 0 then (s.failJob j.ctx .engineFault 6 pc).settle
    else s.holdAt n.val (.take places table)

/-- END (R234). -/
def execEndI (n : Fin 32) (s : State) : Result :=
  s.issue n 8 true noHold fun s _ _ => s.holdAt n.val .finished

/-- The system values (R178). -/
def sysValue (n : Nat) (c : Core) (j : Job) (code : Nat) : Option Nat :=
  match code with
  | 0 => some n
  | 1 => some c.rank
  | 2 => some j.cores.length
  | 3 => some j.cutCores
  | 4 => some c.cutKind
  | 5 => some j.takes
  | 6 => some j.cuts
  | 7 => some c.runCycles
  | 8 => some (if j.slate.budget = 0 then 2 ^ 64 - 1 else j.slate.budget - c.runCycles)
  | 9 => some j.handle
  | 10 => some 0x000000E000000000
  | 11 => some ((j.lastCut.map (fun k => k.n)).getD 0)
  | _ => none

/-- SYSRD (R178, R189, R233). -/
def execSysrd (n : Fin 32) (d : BitVec 5) (imm : BitVec 40) (s : State) : Result :=
  s.issue n 8 true noHold fun s j pc =>
    match sysValue n.val (s.core n.val) j imm.toNat with
    | some v => s.modCore n.val (fun c => c.setS d (BitVec.ofNat 64 v))
    | none => s.issueRefused j pc

/-! ### Regions and the ends of budgets (R106, R107, R109) -/

/-- REGION_END (R107, R308): the region's overrun is accounted, and a job over its limit fails after the
commit has taken effect; otherwise admission follows. -/
def execRegionEnd (ctx overrun : Nat) (s : State) : Result :=
  match s.job? ctx with
  | none => .next s
  | some j =>
    if j.region = false then .next s
    else
      let excess := if j.budgetOut then overrun else 0
      let s := s.modJob ctx (fun j => { j with
        region := false
        budgetOut := j.budgetOut && j.state == .winding
        acct := { j.acct with
          overrunCycles := j.acct.overrunCycles + excess * j.cores.length
          overrunEvents := j.acct.overrunEvents + (if excess = 0 then 0 else 1) } })
      if j.slate.overrunLimit ≠ 0 ∧ j.slate.overrunLimit < excess then
        .next (s.failJob ctx .budgetOverrun 11 noPc).settle
      else match s.takeAt j with
        | some (places, table) => .next (s.admitAll ctx places table).settle
        | none => .next s

/-- BUDGET_EXPIRY (R105, R106): the count of a core reaches the budget, stalled cycles included. The job
winds down when another job of its Pod is READY, else the counts restart; one that winds down for a RECLAIM goes on
doing so. An expiry inside a region begins its overrun in each of these cases (R107). -/
def execBudgetExpiry (n : Fin 32) (s : State) : Result :=
  match (s.core n.val).job.bind s.job? with
  | none => .next s
  | some j =>
    if j.onCores = false ∨ j.budgetOut ∨ j.slate.budget = 0 then .next s
    else
      let s := s.spend n.val (j.slate.budget - (s.core n.val).runCycles)
      if j.state = .winding then .next (s.modJob j.ctx (fun j => { j with budgetOut := true }))
      else if s.jobs.any (fun x => x.pod == j.pod && x.ctx != j.ctx && x.state == .ready) then
        let s := j.cores.foldl (fun s m => s.modCore m (fun c => { c with windCycles := 0 })) s
        .next ((s.modJob j.ctx (fun j => { j with state := .winding, budgetOut := true })).showJob j.ctx)
      else
        let s := j.cores.foldl (fun s m => s.modCore m (fun c => { c with runCycles := 0 })) s
        .next (s.modJob j.ctx (fun j => { j with budgetOut := j.region }))

/-- CUT_GRACE_EXPIRY (R109): a core of a WINDING job passes cut_grace, stalled cycles included, and the job
is stopped; a region runs to its end first. -/
def execCutGraceExpiry (n : Fin 32) (s : State) : Result :=
  match (s.core n.val).job.bind s.job? with
  | none => .next s
  | some j =>
    if j.state ≠ .winding ∨ j.region then .next s
    else
      let s := s.spend n.val (j.slate.grace + 1 - (s.core n.val).windCycles)
      if !j.reclaims.isEmpty || j.reclaiming then .next (s.endJob j.ctx { cause := 3 } noPc).settle
      else .next (s.failJob j.ctx .engineFault 1 noPc).settle

end Sys2Proof.Machine
end

