-- ==== Sys2Proof/Machine/JobCommands.lean ====
section
/-!
DEFINITION. SUBMIT_JOB, INVOKE, SEARCH, RECLAIM, END_JOB and JOB_START (R89 to R95, R103, R110 to R112,
R131, R132, R204, R299).
-/

namespace Sys2Proof.Machine

/-! ### The Slate (R89) and the Storyboard (R131) -/

/-- The fields of a Slate. -/
def parseSlate (b : List Byte) : Slate :=
  let f := fieldAt b
  { kind := f 0x06 1, idleYield := bitOf (f 0x07 1) 2, carryTopk := bitOf (f 0x07 1) 1,
    carryAcc := bitOf (f 0x07 1) 0, cores := f 0x08 1, minCores := f 0x09 1, seqSlots := f 0x0A 1,
    cls := f 0x0B 1, carryBytes := f 0x0C 4, budget := f 0x10 8, overrunLimit := f 0x18 8,
    cutGrace := f 0x20 8, programLen := f 0x28 4, entry := f 0x2C 4, clientId := f 0x30 8,
    model := f 0x38 8, index := f 0x40 8, storyboard := f 0x48 4, storyboardLen := f 0x4C 4,
    writableBytes := f 0x50 8 }

/-- Whether a handle names an object of a kind bound to a Pod. -/
def State.boundTo (s : State) (h pod : Nat) (k : ObjKind) : Bool :=
  match s.obj? h with
  | some o => o.kind == k && o.pod == pod
  | none => false

/-- Whether the Slate's bytes keep R89, for a payload of `total` bytes on a queue of a Pod. -/
def State.slateGood (s : State) (pod : Nat) (b : List Byte) (total : Nat) : Bool :=
  let f := fieldAt b
  let sl := parseSlate b
  decide (256 ≤ total) && decide (f 0 4 = 0x534C0002) && decide (f 4 2 = 256) &&
  decide (f 0xFC 4 = crc32c (bytesAt b 0 0xFC)) && decide (sl.kind ≤ 2) && decide (f 7 1 < 8) &&
  decide (sl.cores ≤ 32) && decide (1 ≤ sl.minCores) &&
  decide (sl.minCores ≤ (if sl.cores = 0 then 32 else sl.cores)) &&
  (if sl.kind = 1 then decide (1 ≤ sl.seqSlots ∧ sl.seqSlots ≤ 128) else sl.seqSlots == 0) &&
  decide (sl.cls ≤ 3) && decide (sl.carryBytes % 65536 = 0) && decide (sl.carryBytes ≤ 8388608) &&
  decide (sl.programLen % 8 = 0) && decide (8 ≤ sl.programLen) && decide (sl.programLen ≤ 16777216) &&
  decide (total = 256 + sl.programLen) && decide (sl.entry % 8 = 0) && decide (sl.entry < sl.programLen) &&
  (sl.model == 0 || s.boundTo sl.model pod .model) && (sl.index == 0 || s.boundTo sl.index pod .index) &&
  decide (sl.writableBytes % pageBytes = 0) && decide (sl.writableBytes ≤ 0x000000C000000000) &&
  allZero (bytesAt b 0x58 164) && (sl.storyboard != 0 || sl.storyboardLen == 0)

/-- Whether the Storyboard of a job keeps R131 and lies in its program (R132). -/
def State.boardGood (s : State) (j : Job) : Bool :=
  let at_ := j.slate.storyboard
  let f := fun (o n : Nat) => Mem.field j.program (at_ + o) n
  at_ == 0 ||
  (decide (at_ + j.slate.storyboardLen ≤ j.slate.programLen) && decide (32 ≤ j.slate.storyboardLen) &&
   decide (f 0 4 = 0x53420001) && decide (1 ≤ f 4 4) && decide (f 4 4 ≤ 65536) &&
   decide (j.slate.storyboardLen = 32 + 16 * f 4 4) && decide (f 8 8 ≠ 0) &&
   decide (f 8 8 % pageBytes = 0) && decide (f 0x10 1 < 2) && decide (f 0x11 15 = 0) &&
   (List.range (f 4 4)).all (fun e =>
     let a := f (32 + 16 * e) 8
     let n := f (40 + 16 * e) 4
     decide (a % pageBytes = 0) && decide (1 ≤ n) && decide (f (44 + 16 * e) 4 = 0) &&
     (match s.place j a, s.place j (a + (n - 1) * pageBytes) with
      | (.object c, _), (.object d, _) => c == d
      | _, _ => false)))

/-- The next handle of a kind and number (R91, R121): the generation counts the reuses. -/
def State.newHandle (s : State) (kind num : Nat) : Nat × State :=
  let g := match s.gens.find? (fun e => e.1 == (kind, num)) with
    | some e => (e.2 + 1) % 2 ^ 44
    | none => 0
  (kind * 2 ^ 56 + g * 2 ^ 12 + num,
   { s with gens := s.gens.filter (fun e => e.1 != (kind, num)) ++ [((kind, num), g)] })

/-- Evicts claims of a Pod until its share holds what it has allocated (R124, R135). -/
def State.fitShare (fuel : Nat) (s : State) (p : Nat) : State :=
  match fuel with
  | 0 => s
  | fuel + 1 =>
    if s.fixedPages p + s.claimedFrames p ≤ s.shareFrames p then s
    else match s.victim p with
      | some x => State.fitShare fuel (s.unclaim p (x.copy, x.page)) p
      | none => s

/-- Why a SUBMIT_JOB is refused (R90), the first case of the list. -/
def State.submitReason (s : State) (pod : Nat) (payload : List Byte) (j : Job) : Option Nat :=
  let mine := s.jobs.filter (fun x => x.pod == pod && x.state != .ended)
  let slots := (s.pod? pod).map (fun x => x.slots)
  if s.slateGood pod (bytesAt payload 0 256) payload.length = false ∨ s.boardGood j = false then some 0x0B
  else if 4096 ≤ s.jobs.length then some 0x0C
  else if (s.podCores pod).length < max j.slate.cores j.slate.minCores then some 0x0D
  else if slots.getD 0 < (mine.map (fun x => x.slate.seqSlots)).sum + j.slate.seqSlots then some 0x0A
  else if s.shareFrames pod < s.fixedPages pod + (mine.map Job.windowPages).sum + j.fixedPages + j.windowPages
    then some 0x0E
  else none

/-- The job that a SUBMIT_JOB payload describes, in a context. -/
def State.jobOf (s : State) (pod ctx uid : Nat) (payload : List Byte) : Job :=
  let sl := parseSlate payload
  { ctx := ctx, handle := 0, pod := pod, slate := sl
    program := Sparse.ofList 0 (payload.drop 256)
    declared := if sl.cores = 0 then (s.podCores pod).length else sl.cores
    submit := some uid }

/-- Loads a job into a free context (R60, R90 to R94), or refuses it. -/
def State.loadJob (s : State) (c : Cmd) (ctx : Nat) : State :=
  match s.queue? c.queue with
  | none => s
  | some q =>
    let j := s.jobOf q.pod ctx c.uid c.payload
    match s.submitReason q.pod c.payload j with
    | some r => s.refuse c r
    | none =>
      let h := s.newHandle 4 ctx
      let s := h.2.later
      let s := { s with jobs := s.jobs ++ [{ j with
        handle := h.1, readyAt := s.clock }] }
      let s := s.modCmd c.uid (fun c => { c with begun := true })
      s.fitShare s.pages.length q.pod

/-- SUBMIT_JOB (R90 to R92): the operand `ctx` is the context that the module gives the job. -/
def execSubmitJob (cmd ctx : Nat) (s : State) : Result :=
  s.onCmd cmd 0x30 fun c =>
    if s.jobs.any (fun j => j.submit == some c.uid) then s
    else if s.jobs.length < 4096 ∧ (4096 ≤ ctx ∨ (s.job? ctx).isSome) then s
    else s.loadJob c ctx

/-! ### Requests (R103, R111, R112) -/

/-- Puts a request on its job's pending list in fetch order. -/
def insertRequest (u : Nat) (l : List Nat) : List Nat :=
  match l with
  | [] => [u]
  | x :: t => if u < x then u :: x :: t else x :: insertRequest u t

/-- A request for a job: it waits, or completes at once when admission has stopped or the job has
ended (R111, R112). -/
def State.request (s : State) (c : Cmd) (j : Job) : State :=
  if j.state = .ended then s.complete c.uid (requestVerdict j.ended j.faultPc)
  else if j.closing then s.fail c .notBound 0 0
  else if j.pendingReqs.contains c.uid ∨ j.batch.any (fun b => b.uid == c.uid) then s
  else
    let bytes := c.payload.length + 64 * c.nextIndex
    s.modJob j.ctx (fun j => { j with
      pendingReqs := insertRequest c.uid j.pendingReqs
      rail := { j.rail with host := j.rail.host + bytes }
      acct := { j.acct with hostLinkBytes := j.acct.hostLinkBytes + bytes } })

/-- INVOKE (R103, R111, R112). -/
def execInvoke (cmd : Nat) (s : State) : Result :=
  s.onCmd cmd 0x31 fun c =>
    match s.jobByHandle? c.object with
    | some j => s.request c j
    | none => s.fail c .notBound 0 0

/-- SEARCH (R103); its query and filter were checked at its fetch (R299). -/
def execSearch (cmd : Nat) (s : State) : Result :=
  s.onCmd cmd 0x32 fun c =>
    match s.jobByHandle? c.object with
    | some j => s.request c j
    | none => s.fail c .notBound 0 0

/-! ### The ends of jobs (R110, R111) -/

/-- The effect of a RECLAIM (R109, R110). -/
def State.reclaim (s : State) (c : Cmd) : State :=
  match s.jobByHandle? c.object with
  | none => s.fail c .notBound 0 0
  | some j =>
    if j.state = .ended then s.fail c .notBound 0 0
    else if j.reclaims.any (fun r => r.1 == c.uid) then s
    else
      let since := lookupD j.watches c.uid []
      let s := s.modCmd c.uid (fun c => { c with begun := true })
      let s := s.modJob j.ctx (fun j => { j with
        reclaims := j.reclaims ++ [(c.uid, since)], watches := j.watches.filter (fun w => w.1 != c.uid) })
      if j.state = .ready then s.endJob j.ctx { cause := 2 } noPc
      else
        let s := if j.state = .winding then s
          else j.cores.foldl (fun s m => s.modCore m (fun c => { c with windCycles := 0 })) s
        (s.modJob j.ctx (fun j => { j with state := .winding })).showJob j.ctx

/-- RECLAIM (R109, R110). -/
def execReclaim (cmd : Nat) (s : State) : Result := s.onCmd cmd 0x33 s.reclaim

/-- The effect of an END_JOB (R91, R111): admission stops at once, and the record follows at the job's
end. -/
def State.stopJob (s : State) (c : Cmd) : State :=
  match s.jobByHandle? c.object with
  | none => s.fail c .notBound 0 0
  | some j =>
    if j.endJobs.contains c.uid then s
    else
      let s := s.modCmd c.uid (fun c => { c with begun := true })
      let s := s.modJob j.ctx (fun j => { j with
        closing := true, endJobs := j.endJobs ++ [c.uid], pendingReqs := [] })
      let s := s.completeAll j.pendingReqs { status := .notBound }
      if j.state = .ended then s.collect j.ctx else s.releaseIdents

/-- END_JOB (R91, R111). -/
def execEndJob (cmd : Nat) (s : State) : Result := s.onCmd cmd 0x34 s.stopJob

/-! ### Starts (R88, R95, R204) -/

/-- The READY job of a Pod that starts next (R95): the first in the order of readiness whose min_cores
the free cores meet. -/
def State.nextJob (s : State) (pod : Nat) : Option Job :=
  let free := (s.freeCoresOf pod).length
  let ready := s.jobs.filter (fun j => j.pod == pod && j.wantsCores && decide (j.slate.minCores ≤ free))
  match ready with
  | [] => none
  | a :: t => some (t.foldl (fun best j => if j.readyAt < best.readyAt then j else best) a)

/-- JOB_START (R92, R95, R99): the job of context `ctx` starts or resumes on the given free cores, in
rank order, if it is the one that R95 takes. -/
def execJobStart (ctx : Nat) (cores : List (Fin 32)) (s : State) : Result :=
  match s.job? ctx with
  | none => .next s
  | some j =>
    let ns := cores.map (fun n => n.val)
    let free := s.freeCoresOf j.pod
    let resolved := j.resolved.getD
      (if j.slate.cores = 0 then (s.podCores j.pod).length else j.slate.cores)
    if s.awake = true ∧ (s.nextJob j.pod).map (fun x => x.ctx) = some ctx ∧ ns.Nodup ∧
        ns.all free.contains = true ∧ ns.length = min resolved free.length then
      .next (s.startJob ctx ns).settle
    else .next s

end Sys2Proof.Machine
end

