-- ==== Sys2Proof/Machine/SpoolBase.lean ====
section
/-!
DEFINITION. Spool frames: routing, sending, serving reads and inbox writes (R343 to R354).
-/

namespace Sys2Proof

/-! ### Frames (R343, R352) -/

/-- VC of a frame. -/
def Frame.vc (f : Frame) : Nat := b2n (f.flags.getLsbD 6)
/-- Class of a frame. -/
def Frame.cls (f : Frame) : Nat := bits f.flags.toNat 5 4

/-- Bytes of a frame on a link: header, payload and tag (R341). -/
def Frame.bytes (f : Frame) : Nat := 48 + f.payload.length

/-- Whether a frame's reserved fields are zero and its lengths keep R343. -/
def Frame.clean (f : Frame) : Bool :=
  decide (f.flags.toNat % 16 = 0) && decide (f.hops.toNat ≤ 63) && f.resv == 0 &&
  decide (f.dst.toNat < 4096) && decide (f.src.toNat < 4096) &&
  decide (f.payloadLen.toNat ≤ 4096) && decide (f.payloadLen.toNat % 64 = 0) &&
  decide (f.payload.length = f.payloadLen.toNat) && decide (f.offset.toNat < 2 ^ 48) &&
  (match f.ftype.toNat with
   | 1 => f.payload.isEmpty && decide (64 ≤ f.arg.toNat) && decide (f.arg.toNat ≤ 4096) &&
      decide (f.arg.toNat % 64 = 0)
   | 2 => f.arg == 0
   | 3 => f.arg == 0
   | 4 => f.payload.isEmpty && f.arg == 0
   | 5 => f.payload.isEmpty && decide (f.arg.toNat < 2 ^ 16)
   | 6 => f.arg == 0 && decide (f.payload.length = 64)
   | 7 => f.arg == 0
   | 8 => f.arg == 0
   | _ => false)

/-- The 32-byte header of a frame (R343), little-endian (R8). -/
def Frame.header (f : Frame) : List Byte :=
  leBytes 1 f.ftype.toNat ++ leBytes 1 f.flags.toNat ++ leBytes 1 f.hops.toNat ++ leBytes 1 f.resv.toNat ++
  leBytes 2 f.dst.toNat ++ leBytes 2 f.src.toNat ++ leBytes 2 f.tenant.toNat ++ leBytes 2 f.payloadLen.toNat ++
  leBytes 4 f.reqId.toNat ++ leBytes 8 f.offset.toNat ++ leBytes 4 f.arg.toNat ++ leBytes 4 f.lseq.toNat

/-- The clear frame that a header and a payload spell (R343, R8). -/
def Frame.ofBytes (h payload : List Byte) : Frame :=
  let f := fun (o n : Nat) => BitVec.ofNat (8 * n) (fieldAt h o n)
  { ftype := f 0 1, flags := f 1 1, hops := f 2 1, resv := f 3 1, dst := f 4 2, src := f 6 2, tenant := f 8 2
    payloadLen := f 0x0A 2, reqId := f 0x0C 4, offset := f 0x10 8, arg := f 0x18 4, lseq := f 0x1C 4
    payload := payload, guarded := false, good := true }

/-- The bytes of a clear frame on a link: header, payload, and a tag that holds their CRC-32C and zeros (R344). -/
def Frame.wire (f : Frame) : List Byte :=
  f.header ++ f.payload ++ leBytes 4 (crc32c (f.header ++ f.payload)) ++ List.replicate 12 0

/-- The channel of a frame (R346): requests 0 and 1, responses 2 and 3, by VC. -/
def Frame.channel (f : Frame) : Nat := (if f.ftype = 1 ∨ f.ftype = 3 then 0 else 2) + f.vc

/-- Credit units of a frame. -/
def Frame.units (f : Frame) : Nat := ceilDiv f.bytes 64

end Sys2Proof

namespace Sys2Proof.Machine

/-- A port that carries frames. -/
def State.portUp (s : State) (p : Nat) : Bool := (s.port p).state == .active

/-- SPOOL_ROUTE of a module. -/
def State.route (s : State) (d : Nat) : Nat := (Sparse.get s.spool.routes d).toNat

/-- Whether a route entry is VALID. -/
def State.routeValid (s : State) (d : Nat) : Bool := bitOf (s.route d) 31

/-- The ACTIVE ports of a route's mask. -/
def State.routePorts (s : State) (d : Nat) : List Nat :=
  if s.routeValid d then (List.range 8).filter (fun p => bitOf (s.route d) p && s.portUp p) else []

/-- The port that a frame leaves by: chosen by the hash among the ACTIVE ports (R352). -/
def State.routePort (s : State) (f : Frame) : Option Nat :=
  match s.routePorts f.dst.toNat with
  | [] => none
  | [p] => some p
  | ps => ps[Config.routeHash f.src.toNat f.dst.toNat f.reqId.toNat % ps.length]?

/-- Initial hops (R352). -/
def State.initialHops (s : State) : Nat := if s.spool.hopLimit = 0 then 32 else s.spool.hopLimit.toNat

/-- Whether a frame is of a type that crosses one link only: LINK, KEY, HELLO (R343). -/
def oneLink (f : Frame) : Bool := decide (6 ≤ f.ftype.toNat)

/-- Bytes of the retry buffer of a port (R345). -/
def Port.retryBytes (p : Port) : Nat := (p.retry.map Frame.bytes).sum

/-- Whether a port can send a frame now: its 512 KiB retry buffer has room, and it holds credits for all of a frame
of a virtual channel (R345, R346). -/
def Port.canSend (p : Port) (f : Frame) : Bool :=
  decide (p.retryBytes + f.bytes ≤ 524288) && (oneLink f || decide (f.units ≤ p.credits.getD f.channel 0))

/-- The first waiting frame of a requester and class that the port can send (R348). -/
def Port.nextOut (p : Port) (req cls : Nat) : Option Frame :=
  (p.out.find? (fun o => o.1 == req && o.2.cls == cls && p.canSend o.2)).map (fun o => o.2)

/-- A port with a frame sent on its link: it takes the next lseq and stays in the retry buffer until
it is acknowledged (R345, R346). The 2^31st frame under a key begins a rekey (R344). -/
def Port.send (p : Port) (f : Frame) : Port :=
  let n := p.txCount + 1
  { p with
    txSeq := (p.txSeq + 1) % 2 ^ 32
    retry := p.retry ++ [f]
    rekey := p.rekey || decide (2 ^ 31 ≤ n)
    txCount := if 2 ^ 31 ≤ n then 0 else n
    credits := if oneLink f then p.credits else p.credits.set f.channel (p.credits.getD f.channel 0 - f.units) }

/-- The clear frames of a message that crosses one link: its bytes in pieces of at most 4096, filled up with zeros to
whole 64-byte units (R343). -/
def State.linkFrames (s : State) (ftype : Nat) (message : List Byte) : List Frame :=
  (pieces 4096 message).map (fun p =>
    let body := p ++ List.replicate (roundUp p.length 64 - p.length) 0
    { ftype := BitVec.ofNat 8 ftype, flags := 16, hops := 0, resv := 0, dst := 0
      src := s.spool.moduleId.zeroExtend 16, tenant := 0, payloadLen := BitVec.ofNat 16 body.length, reqId := 0
      offset := 0, arg := 0, lseq := 0, payload := body, guarded := false, good := true })

/-- Keeps the frames of the module's next KEY message for requester 38 at the egress of a port (R348, R402). -/
def State.sendKey (s : State) (port : Nat) : State :=
  let n := s.fresh
  n.2.modPort port (fun p => { p with
    out := p.out ++ (s.linkFrames 7 (Config.keyMessage n.1)).map (fun f => (38, f)) })

/-- The side with the lower module ID begins an exchange of keys (R402). -/
def State.startKey (s : State) (port : Nat) : State :=
  if s.spool.moduleId < (s.port port).peer then s.sendKey port else s

/-- Sends a frame by a port with the lseq that follows the LINK frames sent meanwhile, whose number is free (R343;
log 24). The bytes of a clear frame are recorded. -/
def State.putFrame (s : State) (port : Nat) (f : Frame) : State :=
  let n := s.fresh
  let s := n.2.modPort port (fun p => { p with txSeq := (p.txSeq + n.1) % 2 ^ 32 })
  let f := { f with lseq := BitVec.ofNat 32 (s.port port).txSeq }
  let due := (s.port port).rekey
  let s := s.modPort port (fun p => p.send f)
  let s := if !due && (s.port port).rekey then s.startKey port else s
  let s := { s with spool := { s.spool with
    sent := (port, f) :: s.spool.sent
    clear := if f.guarded then s.spool.clear else (port, f.wire) :: s.spool.clear } }
  s.count (90 + port) 1 1

/-- A frame as it leaves by a port: one hop less, VC 1 past a dateline, protected under the port's key (R343, R344,
R352); a frame of one link is as it is. -/
def State.leaving (s : State) (port : Nat) (f : Frame) : Frame :=
  if oneLink f then f
  else
    let dateline := bitOf (s.route f.dst.toNat) 16
    { f with
      hops := BitVec.ofNat 8 (f.hops.toNat - 1)
      flags := BitVec.ofNat 8
        (128 * b2n (s.port port).keyId + 64 * (if dateline then 1 else f.vc) + 16 * f.cls)
      guarded := true, good := true }

/-- Keeps a frame for the egress of a port until its requester is granted there (R348). -/
def State.sendFrame (s : State) (port req : Nat) (f : Frame) : State :=
  s.modPort port (fun p => { p with out := p.out ++ [(req, s.leaving port f)] })

/-- A grant to a requester at the egress of a port: the next frame that it has waiting there goes out (R348). -/
def State.sendNext (s : State) (port req cls : Nat) : State :=
  match (s.port port).nextOut req cls with
  | none => s
  | some f =>
    let s := (s.modPort port (fun p => { p with out := p.out.erase (req, f) })).putFrame port f
    s.modArb (57 + port) (fun b => { b with grant := b.grant.map (fun g => { g with frame := some f }) })

/-- The frames of a port's egress after a cut-off (R348): the frame in progress, which its receiver discards, is the
first to be sent again. -/
def State.abortFrame (s : State) (port req : Nat) (f : Frame) : State :=
  let same := fun (g : Frame) => { g with lseq := f.lseq } == f
  let s := s.modPort port (fun p => { p with
    out := (req, f) :: p.out
    txSeq := (p.txSeq + 2 ^ 32 - 1) % 2 ^ 32
    retry := if p.retry.getLast?.any same then p.retry.dropLast else p.retry
    credits := if oneLink f then p.credits else p.credits.set f.channel (p.credits.getD f.channel 0 + f.units) })
  { s with spool := { s.spool with sent := s.spool.sent.drop 1 } }

/-- A NAK for a request frame (R351, R352, R356). -/
def State.nakFor (s : State) (f : Frame) (st : Status) : Frame :=
  { f with
    ftype := 5, dst := f.src, src := s.spool.moduleId.zeroExtend 16, payloadLen := 0, payload := []
    arg := BitVec.ofNat 32 st.code, hops := BitVec.ofNat 8 s.initialHops
    flags := BitVec.ofNat 8 (16 * f.cls) }

/-- Sends a response or a forwarded frame toward its destination when a route is up: requester 34 presents it. -/
def State.routeOut (s : State) (f : Frame) : Option State :=
  (s.routePort f).map (fun p => s.sendFrame p 34 f)

/-- Sends a response, or drops it where it finds no route (R352). -/
def State.respond (s : State) (f : Frame) : State := (s.routeOut f).getD (s.spoolEvent 2)

/-- Adds to the bytes of fabric service (R357). -/
def State.service (s : State) (n : Nat) : State :=
  { s with spool := { s.spool with serviceBytes := s.spool.serviceBytes + n } }

/-! ### Serving accesses (R349 to R351) -/

/-- First offset of the inbox window. -/
def inboxWindow : Nat := 0xFFFF00000000

/-- The inbox of a Pod. -/
def State.inbox (s : State) (p : Nat) : Inbox := if p = 0 then {} else s.spool.inboxes.getD (p - 1) {}

/-- The state with a Pod's inbox changed. -/
def State.modInbox (s : State) (p : Nat) (f : Inbox → Inbox) : State :=
  { s with spool := { s.spool with inboxes := s.spool.inboxes.set (p - 1) (f (s.inbox p)) } }

/-- Whether a tenant field admits a tenant. -/
def admits (field tenant : Nat) : Bool := field == 0xFFFF || field == tenant

/-- The export entry that holds a range. -/
def State.exportOf (s : State) (tenant off n : Nat) : Option Export :=
  s.spool.exports.find? (fun e =>
    e.valid && admits e.tenant tenant && decide (e.base ≤ off) && decide (off + n ≤ e.base + e.length))

/-- The copy and the offset in it that an export access reaches, inside the object's current size. -/
def State.exportPlace (s : State) (tenant off n : Nat) : Option (Copy × Nat) :=
  match s.exportOf tenant off n with
  | none => none
  | some e =>
    match (s.obj? e.handle).bind (fun o => s.copy? o.copy) with
    | none => none
    | some c => if off - e.base + n ≤ c.size then some (c, off - e.base) else none

/-- The inbox and the offset in it that an inbox access lies in (R350, R351). -/
def State.inboxPlace (s : State) (tenant off n : Nat) (exact : Bool) : Option (Nat × Nat) :=
  if off < inboxWindow then none
  else
    let p := (off - inboxWindow) / 0x4000000 + 1
    let o := (off - inboxWindow) % 0x4000000
    let b := s.inbox p
    if o + n ≤ b.pages * pageBytes ∧ (if exact then b.tenant == tenant else admits b.tenant tenant) then
      some (p, o)
    else none

/-- How an access is answered. -/
inductive Served where
  | bytes (bs : List Byte)
  | done
  | refused (st : Status)
  /-- The inbox bytes read are uncorrectable (R369). -/
  | lost
  deriving DecidableEq, Repr

/-- A read of bytes of a stored copy, from its frame where the page is RESIDENT (R369): an uncorrectable beat there is
read again from flash while the reader waits, unless the flash page cannot be rebuilt. -/
def State.objectRead (s : State) (copy off : Nat) (bs : List Byte) : Served :=
  if s.t1Lost (frameOwner copy) off bs.length then
    (if s.pageLost copy (pageOf off) || s.pageLost copy (pageOf (off + bs.length - 1)) then .refused .weightsLost
     else .bytes bs)
  else .bytes (s.t1Deliver (frameOwner copy) off bs)

/-- What such a read leaves: the errors that it met (R363), and uncorrectable beats rewritten (R361, R369). -/
def State.repairFrame (s : State) (copy off n : Nat) : State :=
  let lost := s.t1Lost (frameOwner copy) off n && !s.pageLost copy (pageOf off)
  let s := s.noteT1 (frameOwner copy) off n
  if lost then s.t1Renew (frameOwner copy) off n else s

/-- A read of `n` bytes at an offset of this module by a source and tenant (R351, R370). -/
def State.serveRead (s : State) (src tenant off n : Nat) : Served :=
  if src = s.spool.moduleId.toNat ∧ (s.inboxPlace tenant off n true).isSome then
    match s.inboxPlace tenant off n true with
    | some (p, o) =>
      if s.t1Lost (1 + p) o n then .lost
      else .bytes (s.t1Deliver (1 + p) o (Mem.bytes (s.inbox p).mem o n))
    | none => .refused .pageFaultFatal
  else match s.exportPlace tenant off n with
    | none => .refused .pageFaultFatal
    | some (c, o) =>
      if s.pageLost c.id (pageOf o) || s.pageLost c.id (pageOf (o + n - 1)) then
        .refused .weightsLost
      else s.objectRead c.id o (Mem.bytes c.mem o n)

/-- A write to an inbox of this module (R351, R354). -/
def State.serveWrite (s : State) (tenant off : Nat) (bs : List Byte) : Served × State :=
  match s.inboxPlace tenant off bs.length false with
  | none => (.refused .pageFaultFatal, s)
  | some (p, o) =>
    (.done, (s.modInbox p (fun b => { b with mem := s.t1Merge b.mem (1 + p) o bs })).t1Encode 34 (1 + p) o bs.length)

end Sys2Proof.Machine
end

