-- ==== Sys2Proof/Machine/Mover.lean ====
section
/-!
DEFINITION. The mover (R138 to R141, R168 to R171, R187 to R191, R212 to R215): issue, start, the beats
of a transfer, remote requests (R353, R354), and the arbiters' grants (R142 to R148).
-/

namespace Sys2Proof.Machine

/-! ### Issue (R169, R170, R189, R212 to R215, R271) -/

/-- Whether a pass whose programs hold an ESTORE is open (R215). -/
def Core.estoreOpen (c : Core) : Bool := c.dueRuns.any (fun r => r.2.any (isEpi 25))

/-- Whether a sequencer instruction that only looks at slot `x` is held (R215): X7 until no pass with an ESTORE is open
and an ESTORE through it is DONE. -/
def Core.lookHeld (c : Core) (x : BitVec 5) : Bool :=
  x.toNat == 7 && (c.estoreOpen || ((c.xfer 7).estore && !c.xDone 7))

/-- Whether a mover instruction that names slot `x` is held (R214, R215). -/
def Core.slotHeld (c : Core) (x : BitVec 5) : Bool :=
  !c.xDone x.toNat || (x.toNat == 7 && c.estoreOpen)

/-- The address of a 32-byte shape descriptor that R189 refuses. -/
def shapeAtBad (a : Nat) : Bool := decide (a % 32 ≠ 0) || decide (osBytes < a + 32)

/-- The transfer that a shape descriptor describes (R169, R212). -/
def shapeXfer (mode : XMode) (store direct : Bool) (uaddr laddr : Nat) (d : List Byte) : Xfer :=
  let f := fieldAt d
  { state := .queued, store := store, mode := mode, uaddr := uaddr, laddr := laddr,
    rows := f 0 4, rowBytes := f 4 4, srcStride := f 8 4, dstStride := f 12 4,
    elem := if mode = .transpose then f 0x12 1 else 1, chunk := f 0x10 2, direct := direct }

/-- Whether a shape keeps R169 to R171 and R212, with the fields that its mode does not use zero. -/
def shapeGood (x : Xfer) (d : List Byte) : Bool :=
  let f := fieldAt d
  decide (1 ≤ x.rows) && decide (x.rows ≤ 65536) && decide (64 ≤ x.rowBytes) &&
  decide (x.rowBytes ≤ 1048576) && decide (x.rowBytes % 64 = 0) && decide (x.srcStride % 64 = 0) &&
  decide (x.dstStride % 64 = 0) && decide (x.uaddr % 64 = 0) && decide (x.laddr % 64 = 0) &&
  allZero (bytesAt d 0x13 13) &&
  (match x.mode with
   | .copy => f 0x10 2 == 0 && f 0x12 1 == 0
   | .spread =>
     let o := (x.laddr - 0x01000000) % 8192
     let lane := (x.laddr - 0x01000000) / 8192
     f 0x12 1 == 0 && x.dstStride == 0 && decide (64 ≤ x.chunk) && decide (x.chunk ≤ 8192) &&
     decide (x.chunk % 64 = 0) && decide (o + x.chunk ≤ 8192) &&
     decide (lane + ceilDiv (x.rows * x.rowBytes) x.chunk ≤ 512)
   | .transpose =>
     f 0x10 2 == 0 && (x.elem == 1 || x.elem == 2 || x.elem == 4) &&
     decide (x.rows % (64 / x.elem) = 0))

/-- The local address that a mover instruction takes from its S register (R213). -/
def moverLocal (mode : XMode) (v : W64) : Nat :=
  match mode with
  | .spread => v.toNat + 0x01000000
  | .copy => v.toNat
  | .transpose => v.toNat

/-- Issues a transfer (R187, R189, R212 to R215, R271). -/
def State.mvIssue (s : State) (n : Fin 32) (d a b c : BitVec 5) (imm : BitVec 32) (direct : Bool)
    (mode : XMode) (store : Bool) : Result :=
  s.issue n 16 (isX d && isA a && !(store && direct))
    (fun k => k.slotHeld d ||
      (!shapeAtBad (k.sreg c).toNat && k.readHeld (k.sreg c).toNat 32))
    fun s j pc =>
      let k := s.core n.val
      let da := (k.sreg c).toNat
      if shapeAtBad da || k.holdRefused da 32 then s.issueRefused j pc
      else
        let s := s.noteLocal n.val da 32
        if k.localLost da 32 then (s.jobFault j.ctx j.cores).settle
        else
          let desc := k.localRead da 32
          let x := shapeXfer mode store direct (k.areg a + imm32 imm).toNat (moverLocal mode (k.sreg b)) desc
          if shapeGood x desc = false ∨ localMapped x.laddr x.lSpan = false ∨
              k.holdRefused x.laddr x.lSpan = true then s.issueRefused j pc
          else s.setCore n.val { k.setXfer d.toNat { x with order := k.xorder, pc := pc } with xorder := k.xorder + 1 }

/-- MV.LOAD. -/
def execMvLoad (n : Fin 32) (d a b c : BitVec 5) (imm : BitVec 32) (direct : Bool) (s : State) : Result :=
  s.mvIssue n d a b c imm direct .copy false
/-- MV.STORE. -/
def execMvStore (n : Fin 32) (d a b c : BitVec 5) (imm : BitVec 32) (direct : Bool) (s : State) : Result :=
  s.mvIssue n d a b c imm direct .copy true
/-- MV.SPREAD (R170). -/
def execMvSpread (n : Fin 32) (d a b c : BitVec 5) (imm : BitVec 32) (direct : Bool) (s : State) : Result :=
  s.mvIssue n d a b c imm direct .spread false
/-- MV.TLOAD (R171). -/
def execMvTload (n : Fin 32) (d a b c : BitVec 5) (imm : BitVec 32) (direct : Bool) (s : State) : Result :=
  s.mvIssue n d a b c imm direct .transpose false
/-- MV.TSTORE (R171). -/
def execMvTstore (n : Fin 32) (d a b c : BitVec 5) (imm : BitVec 32) (direct : Bool) (s : State) : Result :=
  s.mvIssue n d a b c imm direct .transpose true

/-- MV.WAIT (R213, R215). -/
def execMvWait (n : Fin 32) (d : BitVec 5) (s : State) : Result :=
  s.issue n 8 (isX d) (fun k => k.lookHeld d)
    fun s _ _ => (s.modCore n.val (fun k => { k with hold := some (.wait d.toNat) })).settleCore n.val

/-- The state code of a transfer that MV.STAT returns (R213). -/
def XState.code (x : XState) : Nat :=
  match x with
  | .queued => 0
  | .active => 1
  | .parked => 2
  | .cutOff => 3
  | .stopped => 4
  | .done => 5
  | .failed => 6

/-- MV.STAT (R213 to R215). -/
def execMvStat (n : Fin 32) (d a : BitVec 5) (s : State) : Result :=
  s.issue n 8 (isX a) (fun k => k.lookHeld a)
    fun s _ _ => s.modCore n.val fun k =>
      let x := k.xfer a.toNat
      k.setS d (BitVec.ofNat 64 (x.progress % 2 ^ 32 * 2 ^ 32 + x.state.code))

/-! ### Reaching a beat (R122, R128, R133, R355, R370) -/

/-- Whether a page of a copy was placed in T2 (R118). -/
def State.inT2 (s : State) (pg : Nat × Nat) : Bool :=
  match s.copy? pg.1 with
  | some c => hasPage c.t2 pg.2
  | none => true

/-- The remote module and offset that a unified address names. -/
def State.remoteAt (s : State) (j : Job) (a : Nat) : Option (Nat × Nat) :=
  match s.place j a with
  | (.remote m, o) => some (m, o)
  | _ => none

/-- Whether a transfer may touch unified address `a` (R120, R122). -/
def State.mayTouch (s : State) (j : Job) (store : Bool) (a : Nat) : Bool :=
  match s.place j a with
  | (.writable, _) => true
  | (.remote _, o) => !store || decide (inboxWindow ≤ o)
  | (.unmapped, _) => false
  | (.program, _) => !store
  | (.cutArea, _) => !store
  | (.object _, _) => !store

/-- Whether a remote address cannot be reached at all (R352, R355). -/
def State.unreachable (s : State) (j : Job) (a : Nat) : Bool :=
  match s.remoteAt j a with
  | some (m, _) => !s.spool.valid || (m != s.spool.moduleId.toNat && !s.routeValid m)
  | none => false

/-- The state of a slot changed. -/
def State.modXfer (s : State) (n slot : Nat) (f : Xfer → Xfer) : State :=
  s.modCore n (fun c => c.setXfer slot (f (c.xfer slot)))

/-- The pages of the current beat of a core's transfer. -/
def State.pagesAt (s : State) (n slot : Nat) : List (Nat × Nat) :=
  match (s.core n).job.bind s.job? with
  | some j => s.xferPages j ((s.core n).xfer slot)
  | none => []

/-- A transfer that meets an access fault or a POISONED page enters FAILED (R139). -/
def State.failXfer (s : State) (n slot : Nat) : State := s.modXfer n slot (fun x => { x with state := .failed })

/-- The failure of a transfer that may not touch an address of its current beat (R122), or whose remote address
cannot be reached (R352, R355); none where the beat may go on. What a transfer could touch when it came to the beat
may have been unloaded or moved since (R187). -/
def State.barred (s : State) (n slot : Nat) (j : Job) (x : Xfer) : Option State :=
  let addrs := x.uAddrs x.progress
  match addrs.find? (fun a => !s.mayTouch j x.store a) with
  | some a => some ((s.failXfer n slot).accessFault j.ctx a x.pc)
  | none =>
    match addrs.find? (s.unreachable j) with
    | none => none
    | some a =>
      let s := if s.spool.valid then s.spoolEvent 2 else s
      some ((s.modJob j.ctx (fun j => { j with faultAddr := a })).failJob j.ctx .fabricUnreachable 0 x.pc)

/-- What the current beat of a transfer meets: an access fault, a lost page or an unreachable module
fails the job; a page that its Pod does not hold in T1 parks it and is asked for, which for a DIRECT load is so
only where its flash cannot be rebuilt. On a page that is not among those it has `begun` on, it begins: the cursor
may move and the page is used (R133, R135). -/
def State.reach (s : State) (n slot : Nat) (begun : List (Nat × Nat)) : State :=
  match (s.core n).job.bind s.job? with
  | none => s
  | some j =>
    let x := (s.core n).xfer slot
    if x.state ≠ .active ∨ x.beats ≤ x.progress then s
    else
      match s.barred n slot j x with
      | some t => t
      | none =>
        let pages := s.xferPages j x
        if pages.any (fun pg => s.pageState pg.1 pg.2 == .poisoned) then
          (s.failXfer n slot).failJob j.ctx .weightsLost 8 x.pc
        else
          let s := (pages.filter (fun pg => !begun.contains pg)).foldl
            (fun s pg => (s.moveCursor j.ctx pg).usePage j.pod pg) s
          let need := if x.direct then pages.filter (fun pg => s.pageLost pg.1 pg.2) else pages
          let s := need.foldl (fun s pg => s.claimPage j.pod j.ctx pg) s
          if need.all (s.holdsPage j.pod) then s
          else s.modXfer n slot (fun x => { x with state := .parked })

/-- Unified extents that overlap (R191). -/
def Xfer.extentMeets (x y : Xfer) : Bool :=
  decide (x.uaddr < y.uaddr + y.uSpan) && decide (y.uaddr < x.uaddr + x.uSpan)

/-- Whether an earlier transfer keeps this one from starting (R191). -/
def Core.startHeld (c : Core) (x : Xfer) : Bool :=
  c.xfers.any (fun p => p.2.state != .done && decide (p.2.place < x.place) &&
    (p.2.store || x.store) && p.2.extentMeets x)

/-- TRANSFER_START (R139, R191): the mover starts a QUEUED transfer. -/
def execTransferStart (n : Fin 32) (x : Fin 8) (s : State) : Result :=
  let c := s.core n.val
  match c.job.bind s.job? with
  | none => .next s
  | some j =>
    let t := c.xfer x.val
    if s.awake = false ∨ j.onCores = false ∨ t.state ≠ .queued ∨ c.startHeld t = true then .next s
    else
      let s := s.modXfer n.val x.val (fun t => { t with state := .active, asked := t.progress })
      .next ((s.reach n.val x.val []).settlePages.settleCore n.val)

/-! ### Beats (R138, R155, R167, R170, R171, R190, R195) -/

/-- Whether a beat that touches local bytes `l` to `l + 63` waits for a transfer issued before it. -/
def Core.olderTouches (c : Core) (x : Xfer) (l : Nat) : Bool :=
  c.xfers.any (fun p => decide (p.2.place < x.place) && (!p.2.store || !x.store) && p.2.pendingIn l 64)

/-- Whether beat `m` of a transfer is held (R155, R190, R195, R261): a run of a tile before it still writes what the
beat touches; or it writes what an open tile, a run to come or a transfer before it still reads, or a top-k list
(R167). -/
def Core.beatHeld (c : Core) (x : Xfer) (m : Nat) : Bool :=
  (x.lAddrs m).any (fun l =>
    c.olderTouches x l || (c.dueWrites x.place).any (fun r => sameGranule l 64 r.1 r.2) ||
    (if x.store then false
     else if l < 0x01000000 then
       (c.tileInputs x.place).any (fun r => sameGranule l 64 r.1 r.2) ||
       (c.dueReads x.place).any (fun r => sameGranule l 64 r.1 r.2)
     else
       c.halfHeld (l - 0x01000000) || (c.topk.on && decide (6144 ≤ (l - 0x01000000) % 8192))))

/-- The 64 bytes of beat `m` from the source pieces it gathers (R171). -/
def Xfer.assemble (x : Xfer) (m : Nat) (parts : List (List Byte)) : List Byte :=
  match x.mode with
  | .transpose => (parts.map (fun p => (p.drop (m % x.side * x.elem)).take x.elem)).flatten
  | .copy => parts.flatten
  | .spread => parts.flatten

/-- 64 bytes that a LOAD reads at a unified address, or how the read fails. -/
def State.loadPiece (s : State) (j : Job) (a : Nat) : Served :=
  match s.place j a with
  | (.writable, o) =>
    if s.t1Lost (j.handle + 100) o 64 then .lost
    else .bytes (s.t1Deliver (j.handle + 100) o (s.placeBytes j .writable o 64))
  | (.remote _, o) => s.serveRead s.spool.moduleId.toNat (s.inbox j.pod).tenant o 64
  | (.cutArea, o) =>
    if s.t1Lost (recordOwner j.handle) o 64 then .lost else .bytes (s.placeBytes j .cutArea o 64)
  | (.object c, o) => s.objectRead c o (s.placeBytes j (.object c) o 64)
  | (p, o) => .bytes (s.placeBytes j p o 64)

/-- The errors that such a read meets (R363). -/
def State.notePiece (s : State) (j : Job) (a : Nat) : State :=
  match s.place j a with
  | (.writable, o) => s.noteT1 (j.handle + 100) o 64
  | (.cutArea, o) => s.noteT1 (recordOwner j.handle) o 64
  | (.object c, o) => s.repairFrame c o 64
  | (.remote _, o) =>
    match s.inboxPlace (s.inbox j.pod).tenant o 64 true with
    | some (p, o) => s.noteT1 (1 + p) o 64
    | none => s
  | _ => s

/-- The failure of a transfer whose read or write a destination refused (R356). -/
def State.nakFail (s : State) (n slot ctx addr : Nat) (st : Status) : State :=
  let pc := ((s.core n).xfer slot).pc
  match st with
  | .pageFaultFatal => (s.failXfer n slot).accessFault ctx addr pc
  | .weightsLost => (s.failXfer n slot).failJob ctx st 8 pc
  | _ => s.failJob ctx st 0 pc

/-- A transfer after a beat: DONE after its last one. -/
def Xfer.advance (x : Xfer) : Xfer :=
  let p := x.progress + 1
  { x with progress := p, asked := p, state := if x.beats ≤ p then .done else x.state }

/-- Charges one beat moved on this module's memories (R115). A beat that comes straight from flash counts in no
tier: t2_bytes and t3_bytes are those of promotions. -/
def State.chargeBeat (s : State) (n : Nat) (j : Job) (x : Xfer) : State :=
  let flash := x.direct && (s.xferPages j x).any (fun pg => s.pageState pg.1 pg.2 != .resident)
  let s := s.count n 5 1
  s.modJob j.ctx (fun j => { j with
    acct := { j.acct with
      t0Bytes := j.acct.t0Bytes + 64
      t1Bytes := if flash then j.acct.t1Bytes else j.acct.t1Bytes + 64 }
    rail := { j.rail with
      t1 := if flash then j.rail.t1 else j.rail.t1 + 64
      flash := if flash then j.rail.flash + 64 else j.rail.flash } })

/-- Moves the current beat of a LOAD that may go on. -/
def State.loadBeat (s : State) (n slot : Nat) (j : Job) (x : Xfer) : State :=
  let m := x.progress
  let addrs := x.uAddrs m
  let got := addrs.map (fun a => (a, s.loadPiece j a))
  let s := addrs.foldl (fun s a => s.notePiece j a) s
  match got.find? (fun g => match g.2 with
    | .bytes _ => false
    | .done => false
    | .refused _ => true
    | .lost => true) with
  | some (a, .refused st) =>
    let s := if st = .pageFaultFatal then s.spoolEvent 4 else s
    s.nakFail n slot j.ctx a st
  | some (_, _) => s.jobFault j.ctx j.cores
  | none =>
    let parts := got.map (fun g => match g.2 with
      | .bytes bs => bs
      | .done => []
      | .refused _ => []
      | .lost => [])
    let s := s.chargeBeat n j x
    let s := s.localWrite n ((x.lAddrs m).headD 0) (x.assemble m parts)
    (s.modXfer n slot Xfer.advance).reach n slot (s.xferPages j x)

/-- The bytes of beat `m` of a STORE. -/
def Core.storeBytes (c : Core) (x : Xfer) (m : Nat) : List Byte :=
  x.assemble m ((x.lAddrs m).map (fun l => c.localRead l 64))

/-- Whether the local words of a beat are uncorrectable. -/
def Core.beatLost (c : Core) (x : Xfer) (m : Nat) : Bool := (x.lAddrs m).any (fun l => c.localLost l 64)

/-- The errors that a beat's reads of local words meet (R363). -/
def State.noteBeat (s : State) (n : Nat) (x : Xfer) (m : Nat) : State :=
  (x.lAddrs m).foldl (fun s l => s.noteLocal n l 64) s

/-- Moves the current beat of a STORE that may go on into the writable area or an inbox of this module, through a T1
port. -/
def State.storeBeat (s : State) (n slot port : Nat) (j : Job) (x : Xfer) : State :=
  let m := x.progress
  let c := s.core n
  let s := s.noteBeat n x m
  if c.beatLost x m then s.jobFault j.ctx j.cores
  else
    let a := (x.uAddrs m).headD 0
    let bs := c.storeBytes x m
    match s.remoteAt j a with
    | some (_, o) =>
      match s.serveWrite (s.inbox j.pod).tenant o bs with
      | (.refused st, s) => (s.spoolEvent 4).nakFail n slot j.ctx a st
      | (.done, s) => ((s.chargeBeat n j x).modXfer n slot Xfer.advance).reach n slot []
      | (.bytes _, s) => s
      | (.lost, s) => s
    | none =>
      let s := s.chargeBeat n j x
      let s := s.modJob j.ctx (fun j => { j with writable := Mem.write j.writable a bs })
      let s := s.t1Write port n (t1Base (j.handle + 100) + a / 8)
      (s.modXfer n slot Xfer.advance).reach n slot []

/-! ### Remote requests (R353 to R355) -/

/-- The number of beats from `m` on, at most `fuel`, that are consecutive in the unified range. -/
def Xfer.runLen (x : Xfer) (m : Nat) (fuel : Nat) : Nat :=
  match fuel with
  | 0 => 0
  | fuel + 1 =>
    if x.beats ≤ m then 0
    else if x.uAddrs (m + 1) = (x.uAddrs m).map (fun a => a + 64) then 1 + x.runLen (m + 1) fuel
    else 1

/-- The requests of a transfer that are outstanding. -/
def State.remoteOf (s : State) (n slot : Nat) : List RemoteReq :=
  s.spool.requests.filter (fun r => r.core == n && r.slot == slot)

/-- The progress of a remote transfer: up to its first beat whose request is unanswered. -/
def State.remoteProgress (s : State) (n slot : Nat) : State :=
  let first := ((s.remoteOf n slot).map (fun r => r.beat)).foldl Nat.min ((s.core n).xfer slot).asked
  s.modXfer n slot (fun x => { x with
    progress := max x.progress first, state := if x.beats ≤ first then .done else x.state })

/-- Charges a frame of a job's transfer at this module (R357). -/
def State.chargeFrame (s : State) (ctx n : Nat) : State :=
  s.modJob ctx (fun j => { j with
    acct := { j.acct with spoolBytes := j.acct.spoolBytes + n }, rail := { j.rail with spool := j.rail.spool + n } })

/-- The request frame for `n` bytes at a remote address. -/
def State.requestFrame (s : State) (j : Job) (ftype a n : Nat) (payload : List Byte) : Frame :=
  { ftype := BitVec.ofNat 8 ftype, flags := BitVec.ofNat 8 (16 * j.slate.cls)
    hops := BitVec.ofNat 8 s.initialHops, resv := 0
    dst := BitVec.ofNat 16 ((a - 0x8000000000000000) / 2 ^ 48)
    src := s.spool.moduleId.zeroExtend 16, tenant := BitVec.ofNat 16 (s.inbox j.pod).tenant
    payloadLen := BitVec.ofNat 16 payload.length, reqId := BitVec.ofNat 32 s.spool.nextReq
    offset := BitVec.ofNat 64 (a % 2 ^ 48), arg := if ftype = 1 then BitVec.ofNat 32 n else 0
    lseq := 0, payload := payload, guarded := true, good := true }

/-- Sends the frame of a request by the port that its route gives and keeps the request, of which `asked` beats have
then been asked for; it fails the job where there is no such port (R352, R355), and waits where the port has neither
credits nor retry room for the frame (R345, R346). -/
def State.ask (s : State) (j : Job) (x : Xfer) (r : RemoteReq) (asked : Nat) : State :=
  match s.routePort r.frame with
  | none => (s.spoolEvent 2).failJob j.ctx .fabricUnreachable 0 x.pc
  | some p =>
    let f := s.leaving p r.frame
    if !(s.port p).canSend f then s
    else
      let s := s.putFrame p f
      let s := { s with spool := { s.spool with
        nextReq := (s.spool.nextReq + 1) % 2 ^ 32
        requests := s.spool.requests ++ [{ r with port := p }] } }
      let s := s.modArb (57 + p) (fun b => { b with grant := b.grant.map (fun g => { g with frame := some f }) })
      (s.chargeFrame j.ctx r.frame.bytes).modXfer r.core r.slot (fun x => { x with asked := asked })

/-- Sends the next request frame of a remote transfer (R353, R354). -/
def State.sendRemote (s : State) (n slot : Nat) (j : Job) (x : Xfer) : State :=
  let m := x.asked
  let c := s.core n
  if x.beats ≤ m ∨ 64 ≤ (s.spool.requests.filter (fun r => r.core == n && r.got.isNone)).length then s
  else if x.mode = .transpose ∧ x.store = false then
    let p := ((s.remoteOf n slot).filter (fun r => r.beat == m)).length
    let a := (x.uAddrs m).getD p 0
    if (List.range x.side).any (fun i => c.beatHeld x (m + i)) then s
    else
      s.ask j x
        { id := s.spool.nextReq, core := n, slot := slot, beat := m, beats := x.side, piece := p
          attempts := 1, port := 0, frame := s.requestFrame j 1 a 64 [] } (if p + 1 = x.side then m + x.side else m)
  else
    let k := x.runLen m 64
    let k := ((List.range k).takeWhile (fun i => !c.beatHeld x (m + i))).length
    if k = 0 then s
    else
      let s := if x.store then (List.range k).foldl (fun s i => s.noteBeat n x (m + i)) s else s
      if x.store && (List.range k).any (fun i => c.beatLost x (m + i)) then s.jobFault j.ctx j.cores
      else
        let payload := if x.store then ((List.range k).map (fun i => c.storeBytes x (m + i))).flatten else []
        let a := (x.uAddrs m).headD 0
        s.ask j x
          { id := s.spool.nextReq, core := n, slot := slot, beat := m, beats := k
            attempts := 1, port := 0, frame := s.requestFrame j (if x.store then 3 else 1) a (64 * k) payload } (m + k)

/-! ### Arbiters (R142 to R148) -/

/-- What serves the next beat of a transfer. -/
inductive Resource where
  | t1
  | flash
  /-- A Spool egress port; none when no route is up, where any port finds the failure (R355). -/
  | spool (port : Option Nat)
  deriving DecidableEq, Repr

/-- The resource that the next beat of a transfer uses. -/
def State.resourceOf (s : State) (j : Job) (x : Xfer) : Resource :=
  let a := (x.uAddrs (max x.progress x.asked)).headD 0
  match s.remoteAt j a with
  | some (m, _) =>
    if m = s.spool.moduleId.toNat then .t1
    else .spool (s.routePort (s.requestFrame j (if x.store then 3 else 1) a 64 []))
  | none =>
    if x.direct && (s.xferPages j x).any (fun pg => s.pageState pg.1 pg.2 != .resident) then .flash
    else .t1

/-- Whether arbiter `a` belongs to a resource (R142, R407): 0 to 47 T1 ports, 48 to 56 flash channel
groups, 57 to 64 Spool egress, 65 the steward bus. -/
def Resource.served (r : Resource) (a : Nat) : Bool :=
  match r with
  | .t1 => decide (a < 48)
  | .flash => decide (48 ≤ a) && decide (a < 57)
  | .spool none => decide (57 ≤ a) && decide (a < 65)
  | .spool (some p) => a == 57 + p

/-- The most beats of one burst at an arbiter (R142). -/
def burstBeats (a : Nat) : Nat := if a < 48 then 32 else if a < 57 then 256 else if a < 65 then 1 else 16

/-- Whether the next beat of a transfer asks for a grant of an arbiter. -/
def State.asks (s : State) (c : Core) (j : Job) (x : Xfer) (a : Nat) : Bool :=
  (x.state == .active || x.state == .cutOff) && decide (max x.progress x.asked < x.beats) &&
  (s.resourceOf j x).served a && !c.beatHeld x (max x.progress x.asked)

/-- The transfer slot whose beats a mover asks for at an arbiter: the next in rotation (R168). -/
def State.turnAt (s : State) (c : Core) (j : Job) (a : Nat) : Option Nat :=
  ((List.range 8).map (fun i => (c.turn + 1 + i) % 8)).find? (fun x => s.asks c j (c.xfer x) a)

/-- Whether a page's promotion asks for flash reads at a class: the lowest class number among the jobs that wait on
it (R143). A promotion on which no job waits any more may have any class: the manual states none (log 68). -/
def State.promotes (s : State) (pg : Nat × Nat) (cls : Nat) : Bool :=
  (s.pageState pg.1 pg.2 == .queued || s.pageState pg.1 pg.2 == .promoting) &&
  (match s.waiters pg with
   | [] => true
   | l => (l.map (fun j => j.slate.cls)).foldl Nat.min 4 == cls)

/-- Whether the back-end asks for grants at a class (R335): 2 for folding and collection, which becomes 1 while fewer
than 256 log blocks are free or staging is full, and 3 for the erases of superblocks that await one. -/
def State.backEndAsks (s : State) (cls : Nat) : Bool :=
  let urgent := decide (4096 < s.logsUsed + 256) || decide (8192 ≤ s.stagedSectors)
  if cls = 1 then urgent
  else if cls = 2 then !urgent
  else cls == 3 && s.media.sblocks.any (fun b => b.role == .released)

/-- The frame of a requester and class that waits at an arbiter, where that is a Spool egress (R348). -/
def State.outAt (s : State) (a req cls : Nat) : Option Frame :=
  if 57 ≤ a ∧ a < 65 then (s.port (a - 57)).nextOut req cls else none

/-- Whether requester 34 asks at a class (R348): at a Spool egress for a frame that waits there, at the class of its
header; elsewhere for inbound work, at the larger of the frame's class and the floor of an export or inbox. -/
def State.spoolAsks (s : State) (a cls : Nat) : Bool :=
  if 57 ≤ a ∧ a < 65 then (s.outAt a 34 cls).isSome
  else decide (a < 57) &&
    (s.spool.exports.any (fun e => e.valid && decide (e.cls ≤ cls)) ||
     s.spool.inboxes.any (fun b => decide (0 < b.pages) && decide (b.cls ≤ cls)))

/-- Whether the epilogue unit of a core asks, through the core's mover requester, for the beats of a spilled hold slot
(R270): before the mover's transfers, an order that the manual leaves open (DESIGN CHOICE, log 20). -/
def Core.spills (c : Core) (a : Nat) : Bool := decide (0 < c.spilling) && decide (a < 48)

/-- Moves up to `k` beats of a spilled hold slot through T1 port `a` (R115, R270). -/
def State.spillBeats (s : State) (n k a : Nat) : State :=
  let c := s.core n
  let m := min k c.spilling
  let s := (s.modCore n (fun c => { c with spilling := c.spilling - m })).count (32 + a)
    (if c.run.isSome then 1 else 2) m
  let s := s.modArb a (fun b => { b with grant := b.grant.map (fun g => { g with spill := true }) })
  match c.job with
  | none => s
  | some ctx => s.modJob ctx (fun j => { j with
      acct := { j.acct with t1Bytes := j.acct.t1Bytes + 64 * m }, rail := { j.rail with t1 := j.rail.t1 + 64 * m } })

/-- Whether a request is present at an arbiter (R143): a mover asks for the next beats in its rotation, at its job's
class; the other requesters at the classes that the manual gives them. -/
def State.requests (s : State) (a : Nat) (r : GrantReq) : Bool :=
  let q := r.requester.val
  let k := r.cls.val
  if q < 32 then
    let c := s.core q
    match c.job.bind s.job? with
    | none => false
    | some j =>
      s.awake && j.onCores && j.slate.cls == k &&
      (c.spills a || s.turnAt c j a == some r.slot.val || (s.outAt a q k).isSome)
  else if q = 32 then decide (a < 57) && s.pages.any (fun x => s.promotes (x.copy, x.page) k)
  else if q = 33 then s.link.queues.any (fun x => (if x.id = 0 then 0 else x.cls) == k)
  else if q = 34 then s.spoolAsks a k
  else if q = 35 then s.backEndAsks k
  else if q = 36 ∨ q = 37 then k == 1
  else if 57 ≤ a ∧ a < 65 then (s.outAt a 38 k).isSome
  else k == 1 || (k == 3 && decide (a < 48))

/-- The waiting requests of an arbiter in order of arrival: those no longer present leave, new ones join. -/
def Arb.queue (b : Arb) (present : List GrantReq) : List (Nat × Nat) :=
  let old := b.waits.filter (fun w => present.any (fun r => r.requester.val == w.1))
  old ++ (present.filter (fun r => !old.any (fun w => w.1 == r.requester.val))).map
    (fun r => (r.requester.val, 0))

/-- The requester, in a class, that round robin takes after `last` (R144 rule 3). -/
def roundRobin (last : Option Nat) (rs : List GrantReq) : Option GrantReq :=
  let least := fun (rs : List GrantReq) => match rs with
    | [] => none
    | r :: t => some (t.foldl (fun b x => if x.requester.val < b.requester.val then x else b) r)
  match last with
  | none => least rs
  | some l => (least (rs.filter (fun r => decide (l < r.requester.val)))).orElse (fun _ => least rs)

/-- The choice of R144, and whether rule 1 made it. -/
def Arb.choose (b : Arb) (present : List GrantReq) : Option (GrantReq × Bool) :=
  let aged := if b.ageLimit = 0 then none
    else (b.queue present).find? (fun w => decide (b.ageLimit.toNat < w.2))
  match aged.bind (fun w => present.find? (fun r => r.requester.val == w.1)) with
  | some r => some (r, true)
  | none =>
    let k := (present.map (fun r => r.cls.val)).foldl Nat.min 4
    (roundRobin ((b.last.find? (fun l => l.1 == k)).map (fun l => l.2))
      (present.filter (fun r => r.cls.val == k))).map (fun r => (r, false))

/-- An arbiter after a grant. -/
def Arb.granted (b : Arb) (present : List GrantReq) (r : GrantReq) : Arb :=
  { b with
    last := assocSet b.last r.cls.val r.requester.val
    waits := ((b.queue present).filter (fun w => w.1 != r.requester.val)).map (fun w => (w.1, w.2 + 1))
    grant := some { req := r } }

/-- Moves up to `k` beats of a transfer at an arbiter, as far as they are not held. -/
def State.moveBeats (k : Nat) (s : State) (n slot a : Nat) : State :=
  match k with
  | 0 => s
  | k + 1 =>
    match (s.core n).job.bind s.job? with
    | none => s
    | some j =>
      let x := (s.core n).xfer slot
      if x.state ≠ .active ∨ x.beats ≤ max x.progress x.asked ∨ (s.resourceOf j x).served a = false ∨
          (s.core n).beatHeld x (max x.progress x.asked) = true then s
      else
        match s.resourceOf j x, s.barred n slot j x with
        | .spool _, _ => s.sendRemote n slot j x
        | _, some t => t
        | .t1, none =>
          let s := s.count (32 + a) (if x.store then 2 else 1) 1
          State.moveBeats k (if x.store then s.storeBeat n slot a j x else s.loadBeat n slot j x) n slot a
        | .flash, none => State.moveBeats k (s.loadBeat n slot j x) n slot a

/-- ARBITER_GRANT (R142 to R145, R348): arbiter `arb` decides among the requests present and transfers
`beats` beats of one burst. -/
def execArbiterGrant (arb : Fin 66) (reqs : List GrantReq) (beats : Nat) (s : State) : Result :=
  let present := reqs.filter (s.requests arb.val)
  match (s.arb arb.val).choose present with
  | none => .next s
  | some (r, aged) =>
    let s := s.modArb arb.val (fun b => b.granted present r)
    let s := s.count (99 + arb.val) 1 1
    let s := if aged then s.count (99 + arb.val) 3 1 else s
    let n := r.requester.val
    if (s.outAt arb.val n r.cls.val).isSome then
      let s := s.sendNext (arb.val - 57) n r.cls.val
      .next (if n < 32 then
        s.modXfer n r.slot.val (fun x => if x.state = .cutOff then { x with state := .active } else x) else s)
    else if n < 32 && (s.core n).spills arb.val then .next (s.spillBeats n (min beats (burstBeats arb.val)) arb.val)
    else if n < 32 then
      let s := s.modXfer n r.slot.val (fun x => { x with state := .active })
      let s := s.modCore n (fun c => { c with turn := r.slot.val })
      let s := State.moveBeats (min beats (burstBeats arb.val)) s n r.slot.val arb.val
      .next (s.settlePages.settleCore n)
    else .next s

/-- The hold limit of a class (R142). -/
def Arb.limit (b : Arb) (c : Nat) : Nat := bits b.hold.toNat (16 * c + 15) (16 * c)

/-- A transfer after a cut-off (R147): 16 of them in a row at one progress fail its job. -/
def Xfer.cut (x : Xfer) : Xfer :=
  { x with
    state := if x.state = .active then .cutOff else x.state
    cutOffs := if x.progress = x.cutFrom then x.cutOffs + 1 else 1
    cutFrom := x.progress }

/-- HOLD_CUT_OFF (R146, R147): the grant in progress passes the hold limit of its class. -/
def execHoldCutOff (arb : Fin 66) (s : State) : Result :=
  let b := s.arb arb.val
  match b.grant with
  | none => .next s
  | some g =>
    if b.cutEn = false ∨ b.limit g.req.cls.val = 0 then .next s
    else
      let n := g.req.requester.val
      let s := s.modArb arb.val (fun b => { b with overrun := setBits b.overrun n, grant := none })
      let s := s.count (99 + arb.val) 2 1
      let s := match g.frame with
        | some f => s.abortFrame (arb.val - 57) n f
        | none => s
      if n < 32 && !g.spill then
        match (s.core n).job.bind s.job? with
        | none => .next s
        | some j =>
          let x := (s.core n).xfer g.req.slot.val
          if x.state ≠ .active then .next s
          else
            let s := (s.modXfer n g.req.slot.val Xfer.cut).count n 7 1
            if 16 ≤ x.cut.cutOffs then .next (s.failJob j.ctx .engineFault 2 x.pc).settle else .next s
      else .next s

end Sys2Proof.Machine
end

