-- ==== Sys2Proof/Machine/Fp.lean ====
section
/-!
DEFINITION. Floating-point values exactly, and their one rounding (R158, R222, R253, R263, R268): FP32,
BF16, FP8 E4M3 and E5M2. A result that the manual does not state (a reciprocal of zero, a root of a
negative value) is `none`: its user takes a free value (log 14). ∞ × 0 is a NaN, as R238 has it.
-/

namespace Sys2Proof.Machine

/-- An exact value: a number `m × 2^e`, an infinity, or a NaN. `neg` is the sign of a zero. -/
inductive Fv where
  | nan
  | inf (neg : Bool)
  | num (m e : Int) (neg : Bool)
  deriving DecidableEq, Repr

/-- A binary format: significand bits with the leading one, exponent of the least subnormal, magnitude
bits of the infinity (or, for E4M3, of the NaN that follows the largest finite value). -/
structure Format where
  prec : Nat
  low  : Int
  top  : Nat
  deriving DecidableEq, Repr

/-- FP32. -/
def fp32 : Format := ⟨24, -149, 0x7F800000⟩
/-- BF16. -/
def bf16 : Format := ⟨8, -133, 0x7F80⟩
/-- FP8 E4M3, which has no infinity. -/
def e4m3 : Format := ⟨4, -9, 0x7F⟩
/-- FP8 E5M2. -/
def e5m2 : Format := ⟨3, -16, 0x7C⟩

/-- The value of magnitude bits `v` below `top`. -/
def Format.value (f : Format) (neg : Bool) (v : Nat) : Fv :=
  let p := 2 ^ (f.prec - 1)
  let ex := v / p
  let m := if ex = 0 then v % p else v % p + p
  let e := f.low + (if ex = 0 then 0 else (ex : Int) - 1)
  .num (if neg then -(m : Int) else m) e neg

/-- Decodes an FP32 element. -/
def ofF32 (x : W32) : Fv :=
  let v := x.toNat % 2 ^ 31
  let neg := bitOf x.toNat 31
  if v < fp32.top then fp32.value neg v else if v = fp32.top then .inf neg else .nan

/-- Decodes a BF16 value. -/
def ofBf16 (x : Nat) : Fv :=
  let v := x % 2 ^ 15
  let neg := bitOf x 15
  if v < bf16.top then bf16.value neg v else if v = bf16.top then .inf neg else .nan

/-- Decodes an E4M3 value. -/
def ofE4m3 (x : Nat) : Fv :=
  let v := x % 128
  if v < e4m3.top then e4m3.value (bitOf x 7) v else .nan

/-- Decodes an E5M2 value. -/
def ofE5m2 (x : Nat) : Fv :=
  let v := x % 128
  let neg := bitOf x 7
  if v < e5m2.top then e5m2.value neg v else if v = e5m2.top then .inf neg else .nan

/-! ### Rounding -/

/-- `m ÷ 2^k` rounded to nearest, ties to even. -/
def rneShift (m k : Nat) : Nat :=
  let q := m / 2 ^ k
  let r := 2 * (m % 2 ^ k)
  if 2 ^ k < r ∨ r = 2 ^ k ∧ q % 2 = 1 then q + 1 else q

/-- `m ÷ 2^k` rounded up. -/
def upShift (m k : Nat) : Nat := ceilDiv m (2 ^ k)

/-- The magnitude bits of `m × 2^e` in a format, rounded by `shift`; they may reach or pass `top`. -/
def Format.magnitude (f : Format) (shift : Nat → Nat → Nat) (m : Nat) (e : Int) : Nat :=
  if m = 0 then 0
  else
    let len : Int := (Nat.log2 m : Int) + 1
    let q := max (len + e - f.prec) f.low
    let k := q - e
    let r := if k ≤ 0 then m * 2 ^ (-k).toNat else shift m k.toNat
    (q - f.low).toNat * 2 ^ (f.prec - 1) + r

/-- FP32 bits with a sign. -/
def signed32 (neg : Bool) (v : Nat) : W32 := BitVec.ofNat 32 (b2n neg * 2 ^ 31 + v)

/-- The NaN of R158. -/
def nan32 : W32 := 0x7FC00000#32

/-- The sign of an exact value. -/
def Fv.sign (v : Fv) : Bool :=
  match v with
  | .nan => false
  | .inf s => s
  | .num m _ s => if m = 0 then s else decide (m < 0)

/-- Rounds to FP32 (R158): beyond the range, an infinity of the value's sign. -/
def toF32 (v : Fv) : W32 :=
  match v with
  | .nan => nan32
  | .inf s => signed32 s fp32.top
  | .num m e _ => signed32 v.sign (min fp32.top (fp32.magnitude rneShift m.natAbs e))

/-- Rounds to BF16 bits as VCVT and VPACK do (R222). -/
def toBf16 (v : Fv) : Nat :=
  match v with
  | .nan => 0x7FC0
  | .inf s => b2n s * 2 ^ 15 + bf16.top
  | .num m e _ => b2n v.sign * 2 ^ 15 + min bf16.top (bf16.magnitude rneShift m.natAbs e)

/-- Rounds to BF16 bits as scale states do (R252, R253): beyond the range, the largest finite value. -/
def toBf16Sat (v : Fv) : Nat :=
  match v with
  | .nan => 0x7FC0
  | .inf s => b2n s * 2 ^ 15 + 0x7F7F
  | .num m e _ => b2n v.sign * 2 ^ 15 + min 0x7F7F (bf16.magnitude rneShift m.natAbs e)

/-- Rounds a non-negative value to BF16 bits toward plus infinity (R253), up to the largest finite value. -/
def toBf16Up (v : Fv) : Nat :=
  match v with
  | .nan => 0x7FC0
  | .inf _ => 0x7F7F
  | .num m e _ => min 0x7F7F (bf16.magnitude upShift m.natAbs e)

/-- Rounds to E4M3 bits: beyond the range, and for an infinity, ±448; a NaN stays one (R222). -/
def toE4m3 (v : Fv) : Nat :=
  match v with
  | .nan => 0x7F
  | .inf s => b2n s * 128 + 0x7E
  | .num m e _ => b2n v.sign * 128 + min 0x7E (e4m3.magnitude rneShift m.natAbs e)

/-- Rounds to E5M2 bits (R222). -/
def toE5m2 (v : Fv) : Nat :=
  match v with
  | .nan => 0x7E
  | .inf s => b2n s * 128 + e5m2.top
  | .num m e _ => b2n v.sign * 128 + min e5m2.top (e5m2.magnitude rneShift m.natAbs e)

/-- Rounds to format 0 BF16, 1 E4M3, 2 E5M2. -/
def toFormat (fmt : Nat) (v : Fv) : Nat :=
  match fmt with
  | 0 => toBf16 v
  | 1 => toE4m3 v
  | _ => toE5m2 v

/-- Decodes format 0 BF16, 1 E4M3, 2 E5M2. -/
def ofFormat (fmt x : Nat) : Fv :=
  match fmt with
  | 0 => ofBf16 x
  | 1 => ofE4m3 x
  | _ => ofE5m2 x

/-! ### Exact arithmetic -/

/-- The negative of a value. -/
def Fv.neg (v : Fv) : Fv :=
  match v with
  | .nan => .nan
  | .inf s => .inf (!s)
  | .num m e s => .num (-m) e (!s)

/-- An exact product; ∞ × 0 is a NaN: R238 says that an infinite scale gives infinities or the NaN of
R158, and 0 × ∞ gives no infinity (log 14). -/
def Fv.mul (a b : Fv) : Fv :=
  match a, b with
  | .nan, _ => .nan
  | .inf _, .nan => .nan
  | .num _ _ _, .nan => .nan
  | .inf s, .inf t => .inf (s != t)
  | .inf s, .num m e t => if m = 0 then .nan else .inf (s != (Fv.num m e t).sign)
  | .num m e t, .inf s => if m = 0 then .nan else .inf (s != (Fv.num m e t).sign)
  | .num m e s, .num m' e' t =>
    .num (m * m') (e + e') ((Fv.num m e s).sign != (Fv.num m' e' t).sign)

/-- The exact sum of two numbers `m × 2^e`. -/
def dyAdd (m e m' e' : Int) : Int × Int :=
  let q := min e e'
  (m * 2 ^ (e - q).toNat + m' * 2 ^ (e' - q).toNat, q)

/-- An exact sum (R158): opposite infinities give a NaN; a zero sum is −0 only when both terms are −0. -/
def Fv.add (a b : Fv) : Fv :=
  match a, b with
  | .nan, _ => .nan
  | .inf _, .nan => .nan
  | .num _ _ _, .nan => .nan
  | .inf s, .inf t => if s = t then .inf s else .nan
  | .inf s, .num _ _ _ => .inf s
  | .num _ _ _, .inf s => .inf s
  | .num m e s, .num m' e' t =>
    let r := dyAdd m e m' e'
    .num r.1 r.2 (decide (m = 0) && decide (m' = 0) && s && t)

/-- The exact sum of values; of none, +0. The order does not matter (R158). -/
def Fv.sum (vs : List Fv) : Fv :=
  match vs with
  | [] => .num 0 0 false
  | v :: t => t.foldl Fv.add v

/-- Whether a value is smaller than another, both not NaN. -/
def Fv.lt (a b : Fv) : Bool :=
  match a, b with
  | .nan, _ => false
  | .inf _, .nan => false
  | .num _ _ _, .nan => false
  | .inf s, .inf t => s && !t
  | .inf s, .num _ _ _ => s
  | .num _ _ _, .inf t => !t
  | .num m e _, .num m' e' _ => decide ((dyAdd m e (-m') e').1 < 0)

/-- Whether two values are equal numbers or equal infinities. -/
def Fv.same (a b : Fv) : Bool :=
  match a, b with
  | .nan, _ => false
  | _, .nan => false
  | a, b => !a.lt b && !b.lt a

/-- Half of a value. -/
def Fv.half (v : Fv) : Fv :=
  match v with
  | .num m e s => .num m (e - 1) s
  | .inf s => .inf s
  | .nan => .nan

/-- The magnitude of a value. -/
def Fv.abs (v : Fv) : Fv := if v.sign then v.neg else v

/-- The order of FP32 elements with −0 below +0 (R222, R268), as an integer. -/
def orderKey (x : W32) : Int :=
  let v : Int := (x.toNat % 2 ^ 31 : Nat)
  if bitOf x.toNat 31 then -v - 1 else v

/-- Whether an FP32 element is a NaN. -/
def isNan32 (x : W32) : Bool := decide (fp32.top < x.toNat % 2 ^ 31)

/-- The larger of two elements (R222). -/
def max32 (a b : W32) : W32 :=
  if isNan32 a || isNan32 b then nan32 else if orderKey a < orderKey b then b else a

/-- The smaller of two elements (R222). -/
def min32 (a b : W32) : W32 :=
  if isNan32 a || isNan32 b then nan32 else if orderKey b < orderKey a then b else a

/-- Sum of two elements. -/
def add32 (a b : W32) : W32 := toF32 ((ofF32 a).add (ofF32 b))
/-- Difference of two elements. -/
def sub32 (a b : W32) : W32 := toF32 ((ofF32 a).add (ofF32 b).neg)
/-- Product of two elements. -/
def mul32 (a b : W32) : W32 := toF32 ((ofF32 a).mul (ofF32 b))
/-- d + a × b, rounded once. -/
def fma32 (d a b : W32) : W32 := toF32 ((ofF32 d).add ((ofF32 a).mul (ofF32 b)))

/-! ### Correctly rounded functions (R222) -/

/-- The integer square root of `n` below 2^(2 × bits), from the top bit down. -/
def isqrtFrom (bits n acc : Nat) : Nat :=
  match bits with
  | 0 => acc
  | bits + 1 =>
    let t := acc + 2 ^ bits
    isqrtFrom bits n (if t * t ≤ n then t else acc)

/-- FP32 of `(2q + sticky) × 2^e`, with a sign: `q` has many more bits than a significand. -/
def stickyF32 (neg : Bool) (q : Nat) (exact : Bool) (e : Int) : W32 :=
  signed32 neg (min fp32.top (fp32.magnitude rneShift (2 * q + b2n (!exact)) (e - 1)))

/-- 1 ÷ x, correctly rounded; a zero has no stated result. -/
def rcp32 (x : W32) : Option W32 :=
  match ofF32 x with
  | .nan => some nan32
  | .inf s => some (signed32 s 0)
  | .num m e s =>
    if m = 0 then none
    else
      let d := m.natAbs
      some (stickyF32 (Fv.num m e s).sign (2 ^ 96 / d) (2 ^ 96 % d == 0) (-96 - e))

/-- 1 ÷ √x, correctly rounded; a zero or a negative value has no stated result. -/
def rsqrt32 (x : W32) : Option W32 :=
  match ofF32 x with
  | .nan => some nan32
  | .inf s => if s then none else some (signed32 false 0)
  | .num m e _ =>
    if m ≤ 0 then none
    else
      let odd := e % 2 ≠ 0
      let d := if odd then 2 * m.natAbs else m.natAbs
      let h := (if odd then e - 1 else e) / 2
      let n := 2 ^ 192 / d
      let q := isqrtFrom 97 n 0
      some (stickyF32 false q (q * q * d == 2 ^ 192) (-96 - h))

/-- a ÷ b of positive values rounded to BF16, at most the largest finite value (R253). -/
def divBf16 (a b : Fv) : Nat :=
  match a, b with
  | .num m e _, .num m' e' _ =>
    if m' = 0 then 0x7F7F
    else
      let q := m.natAbs * 2 ^ 64 / m'.natAbs
      let sticky := b2n (m.natAbs * 2 ^ 64 % m'.natAbs != 0)
      min 0x7F7F (bf16.magnitude rneShift (2 * q + sticky) (e - e' - 65))
  | .inf _, _ => 0x7F7F
  | .num _ _ _, .inf _ => 0
  | _, _ => 0x7FC0

/-- Fraction bits of the fixed-point exponential. -/
def expBits : Nat := 400

/-- Σ y^i ÷ i! from term `i` on, in fixed point. -/
def expSeries (fuel : Nat) (y term : Int) (i : Nat) (acc : Int) : Int :=
  match fuel with
  | 0 => acc
  | fuel + 1 =>
    let t := term * y / 2 ^ expBits / (i : Int)
    expSeries fuel y t (i + 1) (acc + t)

/-- Repeated squaring in fixed point. -/
def expSquare (n : Nat) (v : Int) : Int :=
  match n with
  | 0 => v
  | n + 1 => expSquare n (v * v / 2 ^ expBits)

/-- e^x, correctly rounded (R222): the fixed-point error, below 2^-200 of the result, is far from any
FP32 rounding boundary, since e^x is transcendental for x ≠ 0 (log 13). -/
def exp32 (x : W32) : W32 :=
  match ofF32 x with
  | .nan => nan32
  | .inf s => if s then 0#32 else signed32 false fp32.top
  | .num m e s =>
    if m = 0 then 0x3F800000#32
    else if (Fv.num m e s).lt (.num (-110) 0 false) then 0#32
    else if (Fv.num 90 0 false).lt (.num m e s) then signed32 false fp32.top
    else
      let y := m * 2 ^ ((expBits : Int) + e - 20).toNat
      let v := expSquare 20 (expSeries 40 y (2 ^ expBits) 1 (2 ^ expBits))
      stickyF32 false v.toNat false (-(expBits : Int))

end Sys2Proof.Machine
end

