-- ==== Sys2Proof/Machine/TopK.lean ====
section
/-!
DEFINITION. The top-k unit (R173 to R176, R196, R227).
-/

namespace Sys2Proof.Machine

/-! ### Entries and their rank (R173, R174) -/

/-- An entry of a key and a tag; tags are 48 bits. -/
def tkEntry (key tag : Nat) : W64 := BitVec.ofNat 64 (key % 65536 * 2 ^ 48 + tag % 2 ^ 48)

/-- The key of an entry. -/
def tkKey (e : W64) : Nat := bits e.toNat 63 48

/-- The tag of an entry. -/
def tkTag (e : W64) : Nat := bits e.toNat 47 0

/-- A key as a number that is smaller for a better entry: a distance itself, a BF16 score negated. -/
def tkRank (score : Bool) (key : Nat) : Int :=
  if score then (if bitOf key 15 then (key % 32768 : Nat) else -((key % 32768 : Nat) : Int)) else (key : Int)

/-- Whether entry `a` ranks better than entry `b`: the better key, then the smaller tag. -/
def tkBetter (score : Bool) (a b : W64) : Bool :=
  let ra := tkRank score (tkKey a)
  let rb := tkRank score (tkKey b)
  decide (ra < rb) || (decide (ra = rb) && decide (tkTag a < tkTag b))

/-- An entry put at its rank, best first. -/
def tkInsert (score : Bool) (e : W64) (l : List W64) : List W64 :=
  match l with
  | [] => [e]
  | x :: t => if tkBetter score e x then e :: x :: t else x :: tkInsert score e t

/-- A list after an entry is offered (R174, R196), and whether it was inserted. -/
def tkOffer (score : Bool) (k : Nat) (e : W64) (l : List W64) : List W64 × Bool :=
  if l.contains e then (l, false)
  else if l.length < k then (tkInsert score e l, true)
  else match l.getLast? with
    | some worst => if tkBetter score e worst then (tkInsert score e l.dropLast, true) else (l, false)
    | none => (l, false)

/-- Offers an entry to a lane of a core; an insertion counts (R424). -/
def State.offer (s : State) (n lane : Nat) (e : W64) : State :=
  let c := s.core n
  let r := tkOffer c.topk.score c.topk.kLane e (c.tkList lane)
  if r.2 then (s.setList n lane r.1).count n 9 1 else s

/-- A BF16 score as a key: −0 counts as +0, a NaN is no candidate (R174). -/
def scoreKey (v : Nat) : Option Nat :=
  if 0x7F80 < v % 32768 then none else some (if v = 0x8000 then 0 else v)

/-- Whether a lane offers the distance of code `i` under its stripe (R175). -/
def TopK.striped (t : TopK) (lane i : Nat) : Bool :=
  let b := (Sparse.get t.stripes lane).toNat
  i % 2 ^ bits b 6 4 == bits b 3 0

/-! ### Instructions (R176, R189, R227) -/

/-- A run or a pass still to come feeds the lists. -/
def Core.feeds (c : Core) : Bool :=
  c.dueRuns.any (fun r => r.2.any (isEpi 21)) || (c.opening.map (fun t => t.mode == .bin)).getD false

/-- TK.ON. -/
def execTkOn (n : Fin 32) (mod : BitVec 3) (imm : BitVec 40) (s : State) : Result :=
  s.issue n 8 (decide (mod.toNat ≤ 1)) Core.feeds fun s j pc =>
    if imm.toNat < 1 ∨ 256 < imm.toNat then s.issueRefused j pc
    else s.modCore n.val (fun c => { c with
      topk := { on := true, score := mod.toNat == 1, kLane := imm.toNat, counts := [], stripes := [] } })

/-- TK.OFF. -/
def execTkOff (n : Fin 32) (s : State) : Result :=
  s.issue n 8 true Core.feeds fun s j pc =>
    if (s.core n.val).topk.on then s.modCore n.val (fun c => { c with topk := {} })
    else s.issueRefused j pc

/-- Whether a stripe byte keeps R227. -/
def stripeGood (b : Byte) : Bool :=
  decide (b.toNat < 128) && decide (bits b.toNat 6 4 ≤ 4) &&
  decide (bits b.toNat 3 0 < 2 ^ bits b.toNat 6 4)

/-- TK.STRIPE. -/
def execTkStripe (n : Fin 32) (a : BitVec 5) (s : State) : Result :=
  s.issue n 8 true
    (fun c => c.feeds || (decide ((c.sreg a).toNat + 512 ≤ osBytes) && c.readHeld (c.sreg a).toNat 512))
    fun s j pc =>
      let c := s.core n.val
      let at_ := (c.sreg a).toNat
      if at_ % 64 ≠ 0 ∨ osBytes < at_ + 512 ∨ c.topk.on = false then s.issueRefused j pc
      else
        let s := s.noteLocal n.val at_ 512
        if c.localLost at_ 512 then (s.jobFault j.ctx j.cores).settle
        else
          let bs := c.osRead at_ 512
          if bs.all stripeGood then
            s.setCore n.val { c with topk := { c.topk with stripes := Sparse.ofList 0 bs } }
          else s.issueRefused j pc

/-- Whether lanes `a` to `a + k - 1` exist and are some. -/
def laneRange (a k : Nat) : Bool := decide (1 ≤ k) && decide (a + k ≤ 512)

/-- TK.CLR. -/
def execTkClr (n : Fin 32) (a b : BitVec 5) (s : State) : Result :=
  s.issue n 8 true Core.feeds fun s j pc =>
    let c := s.core n.val
    let first := (c.sreg a).toNat
    let k := (c.sreg b).toNat
    if c.topk.on = false ∨ laneRange first k = false then s.issueRefused j pc
    else s.setCore n.val { c with topk := { c.topk with
      counts := c.topk.counts.filter (fun l => !(decide (first ≤ l.1) && decide (l.1 < first + k))) } }

/-- The lanes from `first` to `first + k - 1` whose lists hold entries. -/
def TopK.lanesIn (t : TopK) (first k : Nat) : List Nat :=
  (t.counts.map (fun l => l.1)).filter (fun l => decide (first ≤ l) && decide (l < first + k))

/-- The entries of lanes `first` to `first + k - 1`, best first (R176). -/
def Core.merged (c : Core) (first k : Nat) : List W64 :=
  ((c.topk.lanesIn first k).flatMap c.tkList).foldl (fun l e => tkInsert c.topk.score e l) []

/-- TK.MERGE (R176). -/
def execTkMerge (n : Fin 32) (d a b sc : BitVec 5) (imm : BitVec 32) (s : State) : Result :=
  s.issue n 16 true
    (fun c => c.feeds || (decide (0 ≤ imm.toInt) && decide ((c.sreg d).toNat + 8 * imm.toNat ≤ osBytes) &&
      c.writeHeld (c.sreg d).toNat (8 * imm.toNat)))
    fun s j pc =>
      let c := s.core n.val
      let to_ := (c.sreg d).toNat
      let first := (c.sreg a).toNat
      let k := (c.sreg b).toNat
      if c.topk.on = false ∨ laneRange first k = false ∨ imm.toInt < 1 ∨ 4096 < imm.toInt ∨
          to_ % 64 ≠ 0 ∨ osBytes < to_ + 8 * imm.toNat then s.issueRefused j pc
      else
        let lanes := c.topk.lanesIn first k
        let s := lanes.foldl (fun s l => s.noteLocal n.val (0x01000000 + listAt l) (8 * c.topk.count l)) s
        if lanes.any c.listLost then (s.jobFault j.ctx j.cores).settle
        else
          let best := (c.merged first k).take imm.toNat
          let s := s.osWrite n.val to_ ((best.map (fun e => leBytes 8 e.toNat)).flatten)
          s.modCore n.val (fun c => c.setS sc (BitVec.ofNat 64 best.length))

end Sys2Proof.Machine
end

