-- ==== Sys2Proof/Machine/Epilogue.lean ====
section
/-!
DEFINITION. The instructions of epilogue programs (R221 to R223, R246 to R249, R252, R267 to R269) and
runs (R258 to R260, R266, R270, R274).
-/

namespace Sys2Proof.Machine

/-! ### V and P registers (R153, R222) -/

/-- The elements of a V register. -/
def Core.vreg (c : Core) (v : BitVec 5) : List W32 := Sparse.window c.vregs (128 * v.toNat) 128

/-- A P register. -/
def Core.preg (c : Core) (p : Nat) : BitVec 128 := Sparse.get c.pregs p

/-- Whether a guard leaves element `l` active (R222). -/
def Core.active (c : Core) (g : Guard) (l : Nat) : Bool :=
  !g.ge || ((c.preg g.g.toNat).getLsbD l != g.gn)

/-- The core with the active elements of a V register written. -/
def Core.setV (c : Core) (g : Guard) (v : BitVec 5) (vals : List W32) : Core :=
  let new := ((c.vreg v).zip vals).zipIdx.map (fun p => if c.active g p.2 then p.1.2 else p.1.1)
  { c with vregs := Sparse.splice c.vregs (128 * v.toNat) new }

/-- The 512 bytes of a V register. -/
def vBytes (vals : List W32) : List Byte := (vals.map (fun x => leBytes 4 x.toNat)).flatten

/-- The elements that 512 bytes hold. -/
def vWords (bs : List Byte) : List W32 := (pieces 4 bs).map (fun p => BitVec.ofNat 32 (le p))

/-- The guard that leaves every element active. -/
def noGuard : Guard := { g := 0, gn := false, ge := false }

/-- A list with its unstated elements filled by free values (log 14). -/
def State.fill (s : State) (vs : List (Option W32)) : State × List W32 :=
  vs.foldl (fun r v =>
    match v with
    | some x => (r.1, r.2 ++ [x])
    | none => (r.1.fresh.2, r.2 ++ [BitVec.ofNat 32 r.1.fresh.1])) (s, [])

/-! ### Codebook tables (R225, R235 to R237) -/

/-- Entry `i` of table `t` of lane row `r`, BF16 bits. -/
def Core.cbEntry (c : Core) (r t i : Nat) : Nat := (Sparse.get c.cb (512 * r + 256 * t + i)).toNat

/-- Control part of a table. -/
def Core.cbControl (c : Core) (r t : Nat) : Nat := (Sparse.get c.cbCtl (2 * r + t)).toNat

/-- entries_log2 of a table: 0 when nothing was loaded. -/
def Core.cbLog2 (c : Core) (r t : Nat) : Nat := bits (c.cbControl r t) 7 0

/-- ESCAPE of a table. -/
def Core.cbEscape (c : Core) (r t : Nat) : Bool := bitOf (c.cbControl r t) 8

/-- The escape code of a table that has one (R236). -/
def Core.escapeCode (c : Core) (r t : Nat) : Option Nat :=
  if c.cbEscape r t then some (if c.cbLog2 r t = 8 then 255 else 15) else none

/-- Number of value entries (R236). -/
def Core.valueEntries (c : Core) (r t : Nat) : Nat :=
  (if c.cbLog2 r t = 8 then 256 else 16) - b2n (c.cbEscape r t)

/-- A value entry. -/
def Core.cbValue (c : Core) (r t i : Nat) : Fv := ofBf16 (c.cbEntry r t i)

/-- The escape thresholds, lower and upper, exact (R237). -/
def Core.thresholds (c : Core) (r t : Nat) : Fv × Fv :=
  let e := c.cbValue r t
  let nv := c.valueEntries r t
  if bitOf (c.cbControl r t) 9 then
    ((e 0).add ((e 1).add (e 0).neg).half.neg,
     (e (nv - 1)).add ((e (nv - 1)).add (e (nv - 2)).neg).half)
  else (ofBf16 (bits (c.cbControl r t) 31 16), ofBf16 (bits (c.cbControl r t) 47 32))

/-- Whether a value is finite. -/
def Fv.finite (v : Fv) : Bool :=
  match v with
  | .num _ _ _ => true
  | .inf _ => false
  | .nan => false

/-- Whether VENC may encode with a table (R236). -/
def Core.tableGood (c : Core) (r t : Nat) : Bool :=
  let e := c.cbValue r t
  let nv := c.valueEntries r t
  let th := c.thresholds r t
  (c.cbLog2 r t == 4 || c.cbLog2 r t == 8) && (List.range nv).all (fun i => (e i).finite) &&
  (List.range (nv - 1)).all (fun i => (e i).lt (e (i + 1))) &&
  !th.2.lt (e (nv - 1)) && !(e 0).lt th.1 && th.1 != .nan && th.2 != .nan

/-! ### Scale states (R226, R250 to R252) -/

/-- A field of the scale state of a slot. -/
def Core.scField (c : Core) (e off n : Nat) : Nat := Mem.field c.scale (64 * e + off) n

/-- The core with a field of a scale state written. -/
def Core.setSc (c : Core) (e off n v : Nat) : Core :=
  { c with scale := Mem.write c.scale (64 * e + off) (leBytes n v) }

/-- BLOCK128 of a scale state. -/
def Core.scBlock128 (c : Core) (e : Nat) : Bool := bitOf (c.scField e 1 1) 1

/-- The scale of the next scale block, BF16 bits (R252). -/
def Core.blockScale (c : Core) (e : Nat) : Nat :=
  if c.scField e 0 1 = 2 then
    let i := c.scField e 0x10 2 % c.scField e 0x12 2
    toBf16Sat ((ofBf16 (c.osField (c.scField e 0x14 4 + 2 * i) 2)).mul (ofBf16 (c.scField e 8 2)))
  else c.scField e 4 2

/-! ### VENC (R246 to R249) -/

/-- The index of the nearest scaled value entry; a tie goes to the even index (R249). -/
def nearestEntry (e : Nat → Fv) (nv : Nat) (sc x : Fv) : Nat :=
  let dist := fun (i : Nat) => (x.add ((e i).mul sc).neg).abs
  (List.range nv).foldl (fun best i =>
    if i = 0 then 0
    else if (dist i).lt (dist best) || ((dist i).same (dist best) && i % 2 == 0) then i else best) 0

/-- The escape header and side list of a block while VENC fills it, and the counters of the state. -/
structure EncState where
  used     : Nat
  ovf      : Nat
  side     : List (Nat × W32)
  overflow : Nat
  observed : W32
  halfSeen : Bool
  deriving DecidableEq, Repr

/-- The code of one element, by R249, with the counters it changes. -/
def encodeElement (c : Core) (r t : Nat) (sc : Nat) (x : W32) (st : EncState) : Nat × EncState :=
  let nv := c.valueEntries r t
  let e := c.cbValue r t
  let s := ofBf16 sc
  let v := ofF32 x
  let top := (e (nv - 1)).mul s
  let bottom := (e 0).mul s
  let th := c.thresholds r t
  let nan := isNan32 x
  let beyond := top.lt v || v.lt bottom
  let a := if (e (nv - 1)).lt (e 0).neg then (e 0).neg else e (nv - 1)
  let halfA := (a.mul s).half
  let st := if nan || beyond then { st with overflow := min (st.overflow + 1) (2 ^ 32 - 1) } else st
  let st := if v.finite && (ofF32 st.observed).lt v.abs then
      { st with observed := x &&& 0x7FFFFFFF#32 } else st
  let st := if !nan && (halfA.lt v || v.lt halfA.neg) then { st with halfSeen := true } else st
  let zeroCode := nearestEntry e nv s (.num 0 0 false)
  let plain := if nan then zeroCode else if top.lt v then nv - 1 else if v.lt bottom then 0
    else nearestEntry e nv s v
  if c.cbEscape r t && (nan || (th.2.mul s).lt v || v.lt (th.1.mul s)) then
    if st.used < 8 then
      (nv, { st with side := st.side ++ [(st.used, x)], used := st.used + 1 })
    else
      (if nan then zeroCode else if (Fv.num 0 0 false).lt v then nv - 1 else 0,
       { st with ovf := min 15 (st.ovf + 1) })
  else (plain, st)

/-- A VENC in progress: the core (its scale state advances), the block image, the counters, and the scale
of the current block. -/
structure VencStep where
  core  : Core
  image : Mem
  st    : EncState
  scale : Nat
  deriving DecidableEq, Repr

/-- Writes the code of block element `i` into a block image (R247). -/
def putCode (image : Mem) (wide : Bool) (i code : Nat) : Mem :=
  if wide then Mem.write image i [BitVec.ofNat 8 code]
  else
    let old := (Sparse.get image (i / 2)).toNat
    let new := if i % 2 = 0 then old / 16 * 16 + code % 16 else old % 16 + code % 16 * 16
    Mem.write image (i / 2) [BitVec.ofNat 8 new]

/-- Source element `l` of a VENC with active or inactive element `x` (R246 to R249, R252): at the first
element of a scale block its scale, record and tags are written. -/
def vencElement (slot r t : Nat) (second act : Bool) (l : Nat) (x : W32) (v : VencStep) : VencStep :=
  let c := v.core
  let size := if c.scBlock128 slot then 128 else 32
  let i := l + 128 * b2n second
  let v := if l % size = 0 then
      let sc := c.blockScale slot
      let tag := c.scField slot 3 1
      let b := i / size
      let image := Mem.write v.image (289 + b) [BitVec.ofNat 8 tag]
      let image := Mem.write image (304 + 4 * b) (leBytes 4 (tag * 65536 + sc))
      let c := (c.setSc slot 3 1 ((tag + 1) % 256)).setSc slot 0x10 2 ((c.scField slot 0x10 2 + 1) % 65536)
      { v with core := c, image := image, scale := sc }
    else v
  if act then
    let r' := encodeElement c r t v.scale x v.st
    let code := if c.tableGood r t then r'.1
      else Config.vencUndefined x (BitVec.ofNat 16 v.scale)
    { v with image := putCode v.image (c.cbLog2 r t == 8) i code, st := r'.2 }
  else v

/-- VENC of a slot, on the block image in a register. -/
def Core.venc (c : Core) (slot : Nat) (g : Guard) (d a : BitVec 5) (mod : Nat) : Core :=
  let second := bitOf mod 3
  let r := bits mod 1 0
  let t := bits mod 2 2
  let image : Mem := if second then Sparse.ofList 0 (vBytes (c.vreg d)) else []
  let hdr := (Sparse.get image 288).toNat
  let st : EncState :=
    { used := bits hdr 3 0, ovf := bits hdr 7 4, side := [], overflow := c.scField slot 0x1C 4
      observed := BitVec.ofNat 32 (c.scField slot 0x18 4), halfSeen := bitOf (c.scField slot 1 1) 2 }
  let v := (c.vreg a).zipIdx.foldl (fun v p => vencElement slot r t second (c.active g p.2) p.2 p.1 v)
    { core := c, image := image, st := st, scale := 0 }
  let image := v.st.side.foldl (fun m e => Mem.write m (256 + 4 * e.1) (leBytes 4 e.2.toNat)) v.image
  let image := Mem.write image 288 [BitVec.ofNat 8 (v.st.used + 16 * v.st.ovf)]
  let c := (v.core.setSc slot 0x1C 4 v.st.overflow).setSc slot 0x18 4 v.st.observed.toNat
  let flags := c.scField slot 1 1
  let c := c.setSc slot 1 1 (flags - 4 * bits flags 2 2 + 4 * b2n v.st.halfSeen)
  c.setV noGuard d (vWords (Mem.bytes image 0 512))

/-! ### Row statistics (R267 to R269) -/

/-- An FP32 number scaled by 2^298. -/
def scaled298 (m e : Int) : Int := m * 2 ^ (e + 298).toNat

/-- A statistic with one element added (R268). -/
def Stat.addElement (st : Stat) (x : W32) : Stat :=
  match ofF32 x with
  | .nan => { st with nan := true }
  | .inf s =>
    let st := if st.kind = 2 then { st with pinf := true }
      else if s then { st with ninf := true } else { st with pinf := true }
    { st with max := some (match st.max with
      | some m => if orderKey m < orderKey x then x else m
      | none => x) }
  | .num m e _ =>
    let v := if st.kind = 2 then scaled298 (m * m) (2 * e) else scaled298 m e
    { st with
      sum := st.sum + v
      max := some (match st.max with
        | some y => if orderKey y < orderKey x then x else y
        | none => x) }

/-- Two contributions to one statistic together. -/
def Stat.merge (a b : Stat) : Stat :=
  { a with
    nan := a.nan || b.nan, pinf := a.pinf || b.pinf, ninf := a.ninf || b.ninf, sum := a.sum + b.sum
    max := match a.max, b.max with
      | some x, some y => some (if orderKey x < orderKey y then y else x)
      | some x, none => some x
      | none, y => y }

/-- The completed value of a statistic (R268). -/
def Stat.value (st : Stat) : W32 :=
  if st.nan then nan32
  else if st.kind = 0 then st.max.getD (signed32 true fp32.top)
  else if st.pinf && st.ninf then nan32
  else if st.pinf then signed32 false fp32.top
  else if st.ninf then signed32 true fp32.top
  else toF32 (.num st.sum (-298) false)

/-- The statistic of a phase, kind and row in a list. -/
def statOf (l : List Stat) (phase kind row : Nat) : Stat :=
  (l.find? (fun x => x.phase == phase && x.kind == kind && x.row == row)).getD
    { phase := phase, kind := kind, row := row }

/-- A list with one statistic replaced. -/
def setStat (l : List Stat) (x : Stat) : List Stat :=
  l.filter (fun y => !(y.phase == x.phase && y.kind == x.kind && y.row == x.row)) ++ [x]

/-- The kinds that a phase of a program uses, ascending (R269). -/
def phaseKinds (p : List W64) : List Nat :=
  (List.range 3).filter (fun k => p.any (fun w => isEpi 22 w && bits (wMod w).toNat 1 0 == k))

/-! ### One instruction of a run -/

/-- What an instruction of a run does: it runs; it waits; or it ends the job's work on the core. -/
inductive RunStep where
  | ran (s : State) (r : Run)
  | waits
  | ended (s : State)

/-- The tile, program slot and sweep of the run that an instruction belongs to. -/
structure RunPlace where
  tile  : Tile
  /-- Epilogue program slot of the run. -/
  slot  : Nat
  phase : Nat
  /-- Kinds and statistics of the phase before (R269). -/
  kinds : List Nat
  stats : List Stat

/-- Local bytes of a VLD, VST or ESTORE that fail the job (R223, R271). -/
def Core.epiBad (c : Core) (a n : Nat) : Bool :=
  decide (a % 64 ≠ 0) || decide (osBytes < a + n) || c.holdRefused a n

/-- A failure of R223, at the pass instruction. -/
def State.epiRefused (s : State) (j : Job) (t : Tile) : RunStep := .ended (s.issueRefused j t.pc)

/-- Writes the active elements of a V register from its operands, element by element. -/
def State.vmap (s : State) (n : Nat) (r : Run) (g : Guard) (d : BitVec 5) (vals : List W32) : RunStep :=
  .ran (s.modCore n (fun c => c.setV g d vals)) r

/-- As `vmap`, with unstated elements free (log 14). -/
def State.vmapFree (s : State) (n : Nat) (r : Run) (g : Guard) (d : BitVec 5) (vals : List (Option W32)) :
    RunStep :=
  let f := s.fill vals
  f.1.vmap n r g d f.2

/-- Writes active bits of a P register. -/
def State.pset (s : State) (n : Nat) (r : Run) (g : Guard) (d : BitVec 5) (f : Nat → Bool) : RunStep :=
  let c := s.core n
  let old := c.preg d.toNat
  let v := (List.range 128).foldl (fun (v : Nat) l =>
    v + (if (if c.active g l then f l else old.getLsbD l) then 2 ^ l else 0)) 0
  .ran (s.setCore n { c with pregs := Sparse.set c.pregs d.toNat (BitVec.ofNat 128 v) }) r

/-- The active elements of a V register. -/
def Core.activeOf (c : Core) (g : Guard) (a : BitVec 5) : List W32 :=
  ((c.vreg a).zipIdx.filter (fun p => c.active g p.2)).map (fun p => p.1)

/-- VMOV's element: magnitude, then negation (R222; log 14). -/
def vmovElement (mod : Nat) (x : W32) : W32 :=
  let x := if bitOf mod 1 then x &&& 0x7FFFFFFF#32 else x
  if bitOf mod 0 then x ^^^ 0x80000000#32 else x

/-- VCVT's element (R222). -/
def vcvtElement (fmt : Nat) (x : W32) : W32 :=
  if isNan32 x then nan32 else toF32 (ofFormat fmt (toFormat fmt (ofF32 x)))

/-- VPACK of a register into part `part` of another (R222). -/
def Core.vpack (c : Core) (g : Guard) (d a : BitVec 5) (mod : Nat) : Core :=
  let fmt := bits mod 1 0
  let part := bits mod 4 2
  let w := if fmt = 0 then 2 else 1
  let old := vBytes (c.vreg d)
  let packed := (c.vreg a).zipIdx.map (fun p =>
    let at_ := (if fmt = 0 then 256 else 128) * part + w * p.2
    if c.active g p.2 then leBytes w (toFormat fmt (ofF32 p.1)) else bytesAt old at_ w)
  let image := Mem.write (Sparse.ofList 0 old) ((if fmt = 0 then 256 else 128) * part) packed.flatten
  c.setV noGuard d (vWords (Mem.bytes image 0 512))

/-- VUNPK's elements (R222). -/
def Core.vunpk (c : Core) (a : BitVec 5) (mod : Nat) : List W32 :=
  let fmt := bits mod 1 0
  let w := if fmt = 0 then 2 else 1
  let bs := vBytes (c.vreg a)
  (List.range 128).map (fun l =>
    let x := fieldAt bs ((if fmt = 0 then 256 else 128) * bits mod 4 2 + w * l) w
    toF32 (ofFormat fmt x))

/-- Two elements compared (R222): as integers with MOD [0], else as FP32 numbers. -/
def vless (mod : Nat) (a b : W32) : Bool := if bitOf mod 0 then a.slt b else (ofF32 a).lt (ofF32 b)
/-- See `vless`. -/
def vequal (mod : Nat) (a b : W32) : Bool := if bitOf mod 0 then a == b else (ofF32 a).same (ofF32 b)

/-- VRACC (R222, R163): an accumulator number past 15 names none; its elements are free (log 14). -/
def State.runVracc (s : State) (n : Nat) (t : Tile) (r : Run) (g : Guard) (d : BitVec 5) (mod : Nat) :
    RunStep :=
  let c := s.core n
  let acc := t.sa + bits mod 3 0
  if 16 ≤ acc then s.vmapFree n r g d (List.replicate 128 none)
  else s.vmap n r g d ((List.range 128).map (fun l =>
    Sparse.get c.acc (16 * (128 * bits mod 5 4 + l) + acc)))

/-- VLD (R221, R223): it waits for LOADs of its bytes issued before the pass (R190). -/
def State.runVld (s : State) (n : Nat) (j : Job) (t : Tile) (r : Run) (d : BitVec 5) (imm : BitVec 40) :
    RunStep :=
  let c := s.core n
  let p := t.vAddr imm
  if c.epiBad p.1 p.2 then s.epiRefused j t
  else if c.xfers.any (fun x => !x.2.store && decide (x.2.order < t.order) && x.2.pendingIn p.1 p.2) then
    .waits
  else
    let s := s.noteLocal n p.1 p.2
    if c.localLost p.1 p.2 then .ended (s.jobFault j.ctx j.cores).settle
    else
      let new := c.osRead p.1 p.2 ++ (vBytes (c.vreg d)).drop p.2
      s.vmap n r noGuard d (vWords new)

/-- VST (R221, R223): it waits for transfers that still read its bytes. -/
def State.runVst (s : State) (n : Nat) (j : Job) (t : Tile) (r : Run) (d : BitVec 5) (imm : BitVec 40) :
    RunStep :=
  let c := s.core n
  let p := t.vAddr imm
  if c.epiBad p.1 p.2 then s.epiRefused j t
  else if c.xfers.any (fun x => decide (x.2.place ≤ t.order) && x.2.pendingIn p.1 p.2) then
    .waits
  else .ran (s.osWrite n p.1 ((vBytes (c.vreg d)).take p.2)) r

/-- VTK (R222, R223). -/
def State.runVtk (s : State) (n : Nat) (j : Job) (t : Tile) (r : Run) (g : Guard) (a b : BitVec 5)
    (mod : Nat) : RunStep :=
  let c := s.core n
  if !(c.topk.on && c.topk.score) then s.epiRefused j t
  else if (List.range 128).any (fun l => c.listLost (128 * bits mod 1 0 + l)) then
    .ended (s.jobFault j.ctx j.cores).settle
  else
    let cands := ((c.vreg a).zip (c.vreg b)).zipIdx
    .ran (cands.foldl (fun s p =>
      if c.active g p.2 then
        match scoreKey (toBf16 (ofF32 p.1.1)) with
        | some k => s.offer n (128 * bits mod 1 0 + p.2) (tkEntry k p.1.2.toNat)
        | none => s
      else s) s) r

/-- RSTAT (R267). -/
def State.runRstat (s : State) (n : Nat) (j : Job) (p : RunPlace) (r : Run) (g : Guard) (a : BitVec 5)
    (mod : Nat) : RunStep :=
  let c := s.core n
  if !dRowstat p.tile.desc then s.epiRefused j p.tile
  else
    let kind := bits mod 1 0
    let i := r.rstat.getD kind 0
    let st := (c.activeOf g a).foldl Stat.addElement
      (statOf r.stats p.phase kind (i % dAccCount p.tile.desc))
    .ran s { r with rstat := r.rstat.set kind (i + 1), stats := setStat r.stats st }

/-- RSGET (R269). -/
def State.runRsget (s : State) (n : Nat) (j : Job) (p : RunPlace) (r : Run) (d : BitVec 5) : RunStep :=
  if !dRowstat p.tile.desc then s.epiRefused j p.tile
  else
    let rows := dAccCount p.tile.desc
    let len := p.kinds.length * rows
    let i := r.rsget % len
    let v := (statOf p.stats (p.phase - 1) (p.kinds.getD (i / rows) 0) (i % rows)).value
    s.vmap n { r with rsget := r.rsget + 1 } noGuard d (List.replicate 128 v)

/-- ESTORE (R215, R222, R223): a STORE through X7, which waits until X7 is DONE. -/
def State.runEstore (s : State) (n : Nat) (j : Job) (t : Tile) (r : Run) (imm : BitVec 40) : RunStep :=
  let c := s.core n
  let beats := bits imm.toNat 15 0
  let uaddr := (dUBase t.desc + t.row * dUStride t.desc) % 2 ^ 64
  if c.epiBad t.out (64 * beats) || decide (uaddr % 64 ≠ 0) then s.epiRefused j t
  else if !c.xDone 7 then .waits
  else
    let x : Xfer :=
      { state := .queued, store := true, uaddr := uaddr, laddr := t.out, rows := 1, rowBytes := 64 * beats
        estore := true, tile := t.order, order := c.xorder, pc := t.pc }
    .ran (s.setCore n { c.setXfer 7 x with xorder := c.xorder + 1 }) r

/-- One instruction of a run (R222). -/
def State.runWord (s : State) (n : Nat) (j : Job) (p : RunPlace) (r : Run) (w : W64) : RunStep :=
  let c := s.core n
  let g := wGuard w
  let d := wD w
  let a := c.vreg (wA w)
  let b := c.vreg (wB w)
  let mod := (wMod w).toNat
  let two := fun (f : W32 → W32 → W32) => s.vmap n r g d ((a.zip b).map (fun q => f q.1 q.2))
  match wOp w with
  | 0 => s.runVracc n p.tile r g d mod
  | 1 => s.runVld n j p.tile r d (wImm w)
  | 2 => s.runVst n j p.tile r d (wImm w)
  | 3 => s.vmap n r g d (a.map (vmovElement mod))
  | 4 => two add32
  | 5 => two sub32
  | 6 => two mul32
  | 7 => s.vmap n r g d (((c.vreg d).zip (a.zip b)).map (fun q => fma32 q.1 q.2.1 q.2.2))
  | 8 => two max32
  | 9 => two min32
  | 10 => s.vmap n r g d (a.map exp32)
  | 11 => s.vmapFree n r g d (a.map rcp32)
  | 12 => s.vmapFree n r g d (a.map rsqrt32)
  | 13 =>
    match c.activeOf g (wA w) with
    | [] => s.vmapFree n r g d (List.replicate 128 none)
    | x :: t => s.vmap n r g d (List.replicate 128 (t.foldl max32 (max32 x x)))
  | 14 => s.vmap n r g d (List.replicate 128 (toF32 (Fv.sum ((c.activeOf g (wA w)).map ofF32))))
  | 15 => s.vmap n r g d (a.map (vcvtElement (bits mod 1 0)))
  | 16 => .ran (s.modCore n (fun c => c.vpack g d (wA w) mod)) r
  | 17 => s.vmap n r g d (c.vunpk (wA w) mod)
  | 18 => s.pset n r g d (fun l => vless mod (a.getD l 0) (b.getD l 0))
  | 19 => s.pset n r g d (fun l => vequal mod (a.getD l 0) (b.getD l 0))
  | 20 => s.vmap n r g d ((List.range 128).map (fun l => BitVec.ofNat 32 (l + 128 * bits mod 1 0)))
  | 21 => s.runVtk n j p.tile r g (wA w) (wB w) mod
  | 22 => s.runRstat n j p r g (wA w) mod
  | 23 => s.runRsget n j p r d
  | 24 => .ran (s.modCore n (fun c => c.venc p.slot g d (wA w) mod)) r
  | 25 => s.runEstore n j p.tile r (wImm w)
  | _ => .ran s r

/-- Executes words of a run from its position on, up to one that waits (R223). -/
def State.runWords (s : State) (n : Nat) (j : Job) (p : RunPlace) (r : Run) (ws : List W64) :
    RunStep :=
  match ws with
  | [] => .ran s r
  | w :: t =>
    match s.runWord n j p r w with
    | .ran s r => State.runWords s n j p { r with pos := r.pos + 1 } t
    | .waits => .ran s r
    | .ended s => .ended s

end Sys2Proof.Machine
end

