-- ==== Sys2Proof/Machine/Passes.lean ====
section
/-!
DEFINITION. Array passes (R157 to R163, R216 to R220, R238 to R245, R260, R265, R271 to R273) and the runs
of the epilogue unit (R258 to R260, R266, R270, R272, R274). A pass and a run each take effect as one.
-/

namespace Sys2Proof.Machine

/-! ### Lane data (R217, R238 to R241) -/

/-- Elements of one operand. -/
def PassMode.elems (m : PassMode) : Nat :=
  match m with
  | .fp8 => 32
  | .bf16c => 16
  | .bf16 => 16
  | .bin => 0

/-- A pass through a codebook. -/
def PassMode.coded (m : PassMode) : Bool :=
  match m with
  | .fp8 => true
  | .bf16c => true
  | .bf16 => false
  | .bin => false

/-- Code width of a codebook pass. -/
def dCodeWidth (d : List Byte) : Nat := if dCode8 d then 8 else 4

/-- Lane bytes of one operand, or of the query (R216, R217). -/
def laneBytes (m : PassMode) (d : List Byte) : Nat :=
  match m with
  | .bf16 => 32
  | .bin => dCodeBits d / 8
  | .fp8 => 32 * dCodeWidth d / 8
  | .bf16c => 16 * dCodeWidth d / 8

/-- Lane bytes that the pass reads from w_offset on. -/
def laneRegion (m : PassMode) (d : List Byte) : Nat :=
  match m with
  | .bin => dCodeBits d / 8
  | _ => dOpCount d * laneBytes m d

/-- SCALE, BLOCK128 and the offsets of the side field (R240). -/
def dScale (d : List Byte) : Bool := bitOf (dSide d 4 1) 2
/-- BLOCK128. -/
def dBlock128 (d : List Byte) : Bool := bitOf (dSide d 4 1) 1
/-- scale_offset. -/
def dScaleOff (d : List Byte) : Nat := dSide d 0 2
/-- side_offset. -/
def dSideOff (d : List Byte) : Nat := dSide d 2 2
/-- tag_base. -/
def dTagBase (d : List Byte) : Nat := dSide d 5 1
/-- The table that a pass names. -/
def dTable (d : List Byte) : Nat := b2n (dTableB d)

/-- Elements per lane of a pass (R241). -/
def elemsPerLane (m : PassMode) (d : List Byte) : Nat := dOpCount d * m.elems

/-- Elements of a scale block. -/
def dBlockSize (d : List Byte) : Nat := if dBlock128 d then 128 else 32

/-- Scale blocks of a pass (R241). -/
def scaleBlocks (m : PassMode) (d : List Byte) : Nat :=
  if dScale d then elemsPerLane m d / dBlockSize d else 0

/-- Escape blocks of a pass (R241). -/
def escapeBlocks (m : PassMode) (d : List Byte) : Nat := ceilDiv (elemsPerLane m d) 256

/-- The lane data of one lane: 4096 bytes of its half as a read delivers them. -/
def Core.laneHalf (c : Core) (d : List Byte) (lane : Nat) : Mem :=
  Sparse.extract (delivered c.lwb (marksIn c.lwbEcc (8192 * lane + 4096 * b2n (dHalf d)) 4096))
    (8192 * lane + 4096 * b2n (dHalf d)) 4096

/-- Offset of the escape headers and of the side lists in the half (R241). -/
def escapeOffsets (m : PassMode) (d : List Byte) : Nat × Nat :=
  let h := dSideOff d + scaleBlocks m d
  (h, roundUp (h + escapeBlocks m d) 4)

/-- Code `i` of a lane. -/
def laneCode (half : Mem) (d : List Byte) (i : Nat) : Nat :=
  if dCode8 d then (Sparse.get half (dWOffset d + i)).toNat
  else
    let b := (Sparse.get half (dWOffset d + i / 2)).toNat
    if i % 2 = 0 then b % 16 else b / 16

/-- The weights of a lane in a codebook pass (R238, R239): `esc` counts the escapes of the current block. -/
def codedWeights (c : Core) (m : PassMode) (d : List Byte) (r : Nat) (half : Mem) : List Fv :=
  let t := dTable d
  let eo := escapeOffsets m d
  let one := fun (acc : List Fv × Nat) (i : Nat) =>
    let esc := if i % 256 = 0 then 0 else acc.2
    let code := laneCode half d i
    if c.escapeCode r t = some code then
      (ofF32 (BitVec.ofNat 32 (Mem.field half (eo.2 + 32 * (i / 256) + 4 * esc) 4)) :: acc.1, esc + 1)
    else
      let e := c.cbValue r t code
      let w := if dScale d then e.mul (ofBf16 (Mem.field half (dScaleOff d + 4 * (i / dBlockSize d)) 2)) else e
      (w :: acc.1, esc)
  ((List.range (elemsPerLane m d)).foldl one ([], 0)).1.reverse

/-- The weights of a lane. -/
def laneWeights (c : Core) (m : PassMode) (d : List Byte) (r : Nat) (half : Mem) : List Fv :=
  if m.coded then codedWeights c m d r half
  else (List.range (elemsPerLane m d)).map (fun i => ofBf16 (Mem.field half (dWOffset d + 2 * i) 2))

/-- The activations that 32 operand bytes carry (R157). -/
def activations (m : PassMode) (d : List Byte) (bs : List Byte) : List Fv :=
  match m with
  | .fp8 => bs.map (fun b => if dE5m2 d then ofE5m2 b.toNat else ofE4m3 b.toNat)
  | _ => (List.range 16).map (fun i => ofBf16 (fieldAt bs (2 * i) 2))

/-! ### Checks of a codebook pass (R243 to R245) -/

/-- A failed check: the operand at which it strikes, its kind (0 tag, 1 escape count), the lane, and what
JOB_SKEW records. -/
structure Skew where
  time   : Nat
  kind   : Nat
  lane   : Nat
  block  : Nat
  expect : Nat
  data   : Nat
  scale  : Nat
  deriving DecidableEq, Repr

/-- The failed checks of one lane. -/
def laneSkews (c : Core) (m : PassMode) (d : List Byte) (r lane : Nat) (half : Mem) : List Skew :=
  let tags := (List.range (scaleBlocks m d)).filterMap (fun j =>
    let want := (dTagBase d + j) % 256
    let data := (Sparse.get half (dSideOff d + j)).toNat
    let sc := (Sparse.get half (dScaleOff d + 4 * j + 2)).toNat
    if data = want ∧ sc = want then none
    else some { time := j * dBlockSize d / m.elems, kind := 0, lane := lane, block := j, expect := want
                data := data, scale := sc })
  let eo := escapeOffsets m d
  let escapes := match c.escapeCode r (dTable d) with
    | none => []
    | some code => (List.range (escapeBlocks m d)).filterMap (fun b =>
        let last := min (elemsPerLane m d) (256 * (b + 1))
        let count := ((List.range (last - 256 * b)).filter (fun i => laneCode half d (256 * b + i) == code)).length
        let used := bits (Sparse.get half (eo.1 + b)).toNat 3 0
        if count = used ∧ used ≤ 8 then none
        else some { time := (last - 1) / m.elems, kind := 1, lane := lane, block := b, expect := used
                    data := min 255 count, scale := 0 })
  tags ++ escapes

/-- Which of two failures is recorded: the earlier, a tag before a count, then the lower lane (R245). -/
def Skew.before (a b : Skew) : Bool :=
  decide (a.time < b.time) || (a.time == b.time && (decide (a.kind < b.kind) ||
    (a.kind == b.kind && decide (a.lane < b.lane))))

/-- JOB_SKEW (R421). -/
def Skew.word (k : Skew) (core : Nat) : BitVec 64 :=
  BitVec.ofNat 64 (k.lane + 512 * k.kind + 2 ^ 16 * (k.block % 256) + 2 ^ 24 * (k.expect % 256) +
    2 ^ 32 * (k.data % 256) + 2 ^ 40 * (k.scale % 256) + 2 ^ 48 * core)

/-! ### Running a pass -/

/-- The enabled lanes, as (row, lane number). -/
def enabledLanes (d : List Byte) : List (Nat × Nat) :=
  ((List.range 4).filter (fun r => bitOf (dRows d) r)).flatMap
    (fun r => (List.range 128).map (fun l => (r, 128 * r + l)))

/-- Local address of operand `j` of accumulator `a`, or of code `j` (R217, R218). -/
def Tile.operandAt (t : Tile) (a j : Nat) : Nat := t.sd + a * dRowStride t.desc + j * dOpStride t.desc

/-- The data side region and the scale region of a codebook pass on a lane row (R241). -/
def sideRegions (c : Core) (m : PassMode) (d : List Byte) (r : Nat) : (Nat × Nat) × (Nat × Nat) :=
  let eo := escapeOffsets m d
  let side := if c.cbEscape r (dTable d) then (dSideOff d, eo.2 + 32 * escapeBlocks m d - dSideOff d)
    else (dSideOff d, scaleBlocks m d)
  (side, (dScaleOff d, 4 * scaleBlocks m d))

/-- Local address of the half of a lane's buffer that a pass reads. -/
def halfAt (d : List Byte) (lane : Nat) : Nat := 0x01000000 + 8192 * lane + 4096 * b2n (dHalf d)

/-- The local ranges that a pass reads: its operands, its accept mask, and the data and side data of every
enabled lane (R194, R195, R218, R245); a binary pass reads the lists too. -/
def Core.inputRanges (c : Core) (t : Tile) : List (Nat × Nat) :=
  [(t.sd, operandSpan t.mode t.desc)] ++ (if dMasked t.desc then [(dMaskAddr t.desc, 64)] else []) ++
  (enabledLanes t.desc).flatMap (fun l =>
    let base := halfAt t.desc l.2
    let regs := sideRegions c t.mode t.desc l.1
    [(base + dWOffset t.desc, laneRegion t.mode t.desc)] ++
    (if t.mode.coded then [(base + regs.1.1, regs.1.2), (base + regs.2.1, regs.2.2)] else []) ++
    (if t.mode = .bin then [(0x01000000 + listAt l.2, 8 * c.topk.count l.2)] else []))

/-- Whether an input of a pass is uncorrectable. -/
def Core.inputsLost (c : Core) (t : Tile) : Bool := (c.inputRanges t).any (fun r => c.localLost r.1 r.2)

/-- The operands, counted as they enter the bus, at which a lane meets uncorrectable data (R243, R244): codes and side
lists as they are used, tags and scales at the first operand of their block, escape headers at the end of theirs. -/
def Core.laneLostTimes (c : Core) (t : Tile) (r lane : Nat) : List Nat :=
  let d := t.desc
  let lost := fun (o n : Nat) => c.localLost (halfAt d lane + o) n
  let eo := escapeOffsets t.mode d
  let escapes := if c.cbEscape r (dTable d) then List.range (escapeBlocks t.mode d) else []
  ((List.range (dOpCount d)).filter (fun j => lost (dWOffset d + laneBytes t.mode d * j) (laneBytes t.mode d))) ++
  ((List.range (scaleBlocks t.mode d)).filter (fun b => lost (dSideOff d + b) 1 || lost (dScaleOff d + 4 * b) 4)).map
    (fun b => b * dBlockSize d / t.mode.elems) ++
  (escapes.filter (fun b => lost (eo.2 + 32 * b) 32)).map (fun b => 256 * b / t.mode.elems) ++
  (escapes.filter (fun b => lost (eo.1 + b) 1)).map
    (fun b => (min (elemsPerLane t.mode d) (256 * (b + 1)) - 1) / t.mode.elems)

/-- The operand at which a codebook pass first meets an uncorrectable input. -/
def Core.lostTime (c : Core) (t : Tile) : Nat :=
  let d := t.desc
  let operands := (List.range (dAccCount d * dOpCount d)).filter (fun i =>
    c.localLost (t.operandAt (i / dOpCount d) (i % dOpCount d)) 32)
  match operands ++ (enabledLanes d).flatMap (fun l => c.laneLostTimes t l.1 l.2) with
  | [] => 0
  | x :: rest => rest.foldl Nat.min x

/-- The accumulator of a lane after the operands of accumulator `a` (R158, R217). -/
def accumulate (t : Tile) (ws : List Fv) (ops : List (List Fv)) (start : W32) : W32 :=
  let k := t.mode.elems
  (ops.zipIdx.foldl (fun (acc : W32) p =>
    let products := (p.1.zip ((ws.drop (k * p.2)).take k)).map (fun q => q.1.mul q.2)
    let terms := if dFirst t.desc && p.2 == 0 then products else ofF32 acc :: products
    toF32 (Fv.sum terms)) start)

/-- The accumulators after an arithmetic pass (R158, R163, R217). -/
def Core.accAfter (c : Core) (t : Tile) : Sparse 32 :=
  let d := t.desc
  let streams := (List.range (dAccCount d)).map (fun a => (List.range (dOpCount d)).map (fun j =>
    activations t.mode d (c.osRead (t.operandAt a j) 32)))
  (enabledLanes d).foldl (fun m l =>
    let ws := laneWeights c t.mode d l.1 (c.laneHalf d l.2)
    streams.zipIdx.foldl (fun m s =>
      let k := 16 * l.2 + t.sa + s.2
      Sparse.set m k (accumulate t ws s.1 (Sparse.get c.acc k))) m) c.acc

/-- The bytes of a code or query padded with zeros to whole operands (R160, R218). -/
def padCode (bs : List Byte) : List Byte := bs ++ List.replicate (roundUp bs.length 128 - bs.length) 0

/-- The candidates of a binary pass (R160, R175, R218): for each code, its distance to each lane that
accepts it. -/
def State.offerCodes (s : State) (n : Nat) (t : Tile) : State :=
  let c := s.core n
  let d := t.desc
  let len := dCodeBits d / 8
  let mask := c.osRead (dMaskAddr d) 64
  let lanes := (enabledLanes d).filter (fun l =>
    !dMasked d || bitOf (mask.getD (l.2 / 8) 0).toNat (l.2 % 8))
  let queries := lanes.map (fun l => (l.2, Mem.bytes (c.laneHalf d l.2) (dWOffset d) len))
  (List.range (dOpCount d)).foldl (fun s i =>
    let code := c.osRead (t.operandAt 0 i) len
    queries.foldl (fun s q =>
      if (s.core n).topk.striped q.1 i then
        let dist := ((code.zip q.2).map (fun p => popcount (p.1 ^^^ p.2))).sum
        s.offer n q.1 (tkEntry dist (t.sa + i))
      else s) s) s

/-- A pass feeds its operands: its result stands, and its tile waits for its phase-0 run; or the first of its failed
checks fails the job (R245); or a job fault strikes, where an uncorrectable input comes no later (R194). -/
def State.feed (s : State) (n : Nat) (j : Job) (t : Tile) : State :=
  let c := s.core n
  let s := if c.osEcc = [] ∧ c.lwbEcc = [] then s
    else (c.inputRanges t).foldl (fun s r => s.noteLocal n r.1 r.2) s
  let skews := if t.mode.coded then (enabledLanes t.desc).flatMap (fun l =>
    laneSkews c t.mode t.desc l.1 l.2 (c.laneHalf t.desc l.2)) else []
  let skew := skews.foldl (fun (a : Option Skew) b => match a with
    | none => some b
    | some a => some (if b.before a then b else a)) none
  if c.inputsLost t && skew.all (fun k => decide (c.lostTime t ≤ k.time)) then s.jobFault j.ctx j.cores
  else
    match skew with
    | some k => (s.modJob j.ctx (fun j => { j with skew := k.word n })).failJob j.ctx .scaleSkew 9 t.pc
    | none =>
      let s := if t.mode = .bin then s.offerCodes n t
        else s.setCore n { c with acc := c.accAfter t }
      if (dEpilogue t.desc).isSome then s.modCore n (fun c => { c with tiles := c.tiles ++ [t] }) else s

/-! ### Refusals at issue (R219, R242, R260, R273) -/

/-- Whether two regions (offset, length) overlap. -/
def regionsMeet (a b : Nat × Nat) : Bool :=
  decide (0 < a.2) && decide (0 < b.2) && decide (a.1 < b.1 + b.2) && decide (b.1 < a.1 + a.2)

/-- R242 for one lane row. -/
def codedRowGood (c : Core) (m : PassMode) (d : List Byte) (r : Nat) : Bool :=
  let regs := sideRegions c m d r
  let codes := (dWOffset d, laneRegion m d)
  (regs.1.2 == 0 || decide (regs.1.1 + regs.1.2 ≤ 4096)) && (regs.2.2 == 0 || decide (regs.2.1 + regs.2.2 ≤ 4096)) &&
  !regionsMeet codes regs.1 && !regionsMeet codes regs.2 && !regionsMeet regs.1 regs.2 &&
  (dScale d || c.cbEscape r (dTable d) || allZero (bytesAt d 0x16 10))

/-- R242. -/
def codedGood (c : Core) (m : PassMode) (d : List Byte) : Bool :=
  decide (dSide d 4 1 < 8) && dSide d 4 1 % 2 == 0 && dSide d 6 4 == 0 && dScaleOff d % 4 == 0 &&
  (!dScale d || (elemsPerLane m d % dBlockSize d == 0 && decide (scaleBlocks m d ≤ 255))) &&
  (List.range 4).all (fun r => !bitOf (dRows d) r || codedRowGood c m d r)

/-- Whether a pass's lane data reaches the bytes of the top-k lists (R167, R219). -/
def reachesLists (c : Core) (m : PassMode) (d : List Byte) : Bool :=
  let past := fun (r : Nat × Nat) => decide (0 < r.2) && decide (2048 < r.1 + r.2)
  dHalf d && (past (dWOffset d, laneRegion m d) ||
    (m.coded && (List.range 4).any (fun r => bitOf (dRows d) r &&
      (past (sideRegions c m d r).1 || past (sideRegions c m d r).2))))

/-- The fields of a descriptor lie in their ranges (R216, R219). -/
def descGood (m : PassMode) (d : List Byte) : Bool :=
  let slot := fun (v : Nat) => decide (v ≤ 4)
  decide (1 ≤ dOpCount d) && decide (1 ≤ dRows d) && decide (dRows d < 16) && decide (dFlags d < 64) &&
  decide (dPrograms d < 128) && !bitOf (dPrograms d) 3 && slot (bits (dPrograms d) 6 4) &&
  slot (bits (dPrograms d) 2 0) && dWOffset d % 8 == 0 && decide (dWOffset d + laneRegion m d ≤ 4096) &&
  allZero (bytesAt d 0x3B 5) && decide (fieldAt d 0x3A 1 < 2) &&
  (match m with
   | .bin =>
     decide (dOpCount d ≤ 16777216) && dAccCount d == 0 && dRowStride d == 0 &&
     allZero (bytesAt d 0x16 10) && decide (64 ≤ dCodeBits d) && decide (dCodeBits d ≤ 4096) &&
     dCodeBits d % 64 == 0 && !dRowstat d &&
     (if dMasked d then dMaskAddr d % 64 == 0 else dMaskAddr d == 0)
   | _ =>
     decide (1 ≤ dAccCount d) && decide (dAccCount d ≤ 16) && dMaskAddr d == 0 && dCodeBits d == 0 &&
     fieldAt d 0x3A 1 == 0 && (m.coded || allZero (bytesAt d 0x16 10)))

/-- The rest of R219 that depends on registers and local storage. -/
def passPlaced (c : Core) (m : PassMode) (sd sa : Nat) (d : List Byte) : Bool :=
  (match m with
   | .bin =>
     sd % 8 == 0 && dOpStride d % 8 == 0 &&
     decide ((if dCodeBits d < 1024 then dCodeBits d / 8 else 128 * ceilDiv (dCodeBits d) 1024) ≤ dOpStride d) &&
     c.topk.on && !c.topk.score && decide (dMaskAddr d + 64 ≤ osBytes)
   | _ =>
     sd % 32 == 0 && dOpStride d % 32 == 0 && dRowStride d % 32 == 0 && decide (sa + dAccCount d ≤ 16)) &&
  decide (sd + operandSpan m d ≤ osBytes) && !(c.topk.on && reachesLists c m d) &&
  (match dPrologue d with
   | some e => c.prog e != []
   | none => true) &&
  (match dEpilogue d with
   | some e => c.prog e != []
   | none => true)

/-- A prologue program that R260 allows. -/
def prologueGood (p : List W64) : Bool := p.all (fun w => !([0, 21, 22, 23, 25].contains (wOp w)))

/-- A ROWSTAT pass that R273 allows, by its epilogue program. -/
def rowstatGood (p : List W64) : Bool :=
  let ph := phases p
  p != [] && decide (ph.length ≤ 3) && (ph.headD []).any (isEpi 22) &&
  !((p.takeWhile (fun w => !isEpi 22 w)).any (isEpi 23)) &&
  !((ph.drop 1).flatten.any (isEpi 0)) && !(ph.dropLast.flatten.any (isEpi 25))

/-- The open sweep that a ROWSTAT pass joins (R265). -/
def Core.joins (c : Core) (t : Tile) : Bool :=
  match c.sweeps.getLast? with
  | some w => !w.ended && (match w.tiles.head? with
      | some x => x.tile.row == t.row && dEpilogue x.tile.desc == dEpilogue t.desc &&
          dAccCount x.tile.desc == dAccCount t.desc
      | none => false)
  | none => false

/-- The local side of a pass touches the row hold buffer while it serves (R271). -/
def passTouchesHold (c : Core) (t : Tile) : Bool :=
  (c.serving || dRowstat t.desc) &&
  (touchesHold t.sd (operandSpan t.mode t.desc) || (dMasked t.desc && touchesHold (dMaskAddr t.desc) 64))

/-- Whether a pass is refused at issue. -/
def passRefused (c : Core) (t : Tile) : Bool :=
  !(descGood t.mode t.desc && passPlaced c t.mode t.sd t.sa t.desc &&
    (!t.mode.coded || codedGood c t.mode t.desc) && prologueGood (c.prologue t) &&
    (!dRowstat t.desc || (rowstatGood (c.epilogue t) &&
      !(c.joins t && decide (576 ≤ ((c.sweeps.getLast?.map (fun w => w.tiles.length)).getD 0)))))) ||
  passTouchesHold c t

/-! ### Holds at issue (R163, R190, R220, R271, R272) -/

/-- Whether a VRACC of an open tile still has to read accumulators of the new pass (R163). -/
def raccHeld (c : Core) (t : Tile) : Bool :=
  c.tiles.any (fun o => ((c.epilogue o).filter (isEpi 0)).any (fun w =>
    let acc := o.sa + bits (wMod w).toNat 3 0
    decide (t.sa ≤ acc) && decide (acc < t.sa + dAccCount t.desc) &&
    bitOf (dRows t.desc) (bits (wMod w).toNat 5 4)))

/-- A pending LOAD beat into a half of a lane buffer that the pass reads (R190). -/
def laneLoadHeld (c : Core) (t : Tile) : Bool :=
  c.xfers.any (fun p => !p.2.store && p.2.state != .done && decide (0x01000000 ≤ p.2.laddr) &&
    (List.range (p.2.beats - p.2.progress)).any (fun i => (p.2.lAddrs (p.2.progress + i)).any (fun l =>
      let o := l - 0x01000000
      decide (o % 8192 / 4096 = b2n (dHalf t.desc)) && bitOf (dRows t.desc) (o / 1048576))))

/-- Whether the first pass of a sweep waits for what still touches the row hold buffer (R271). -/
def holdBusy (c : Core) : Bool :=
  !c.serving && (c.xfers.any (fun p => p.2.state != .done && touchesHold p.2.laddr p.2.lSpan) ||
    (c.tileInputs c.xorder).any (fun r => touchesHold r.1 r.2) ||
    (c.dueWrites c.xorder).any (fun r => touchesHold r.1 r.2) ||
    (c.dueReads c.xorder).any (fun r => touchesHold r.1 r.2))

/-- A finish run with a VENC still to come names a slot of the pass (R272). -/
def vencHeld (c : Core) (t : Tile) : Bool :=
  c.sweeps.any (fun w => (w.ended || !c.joins t) && w.tiles.any (fun x =>
    (((c.tilePhases x.tile).drop (max 1 x.done)).flatten.any (isEpi 24)) &&
    (dEpilogue x.tile.desc == dEpilogue t.desc || dEpilogue x.tile.desc == dPrologue t.desc)))

/-- Tiles that wait for the epilogue unit (R220). -/
def Core.waiting (c : Core) : Nat :=
  c.tiles.length - (match c.run with
    | some r => if r.kind = 1 then 1 else 0
    | none => 0)

/-- Whether a pass is held at issue. -/
def passHeld (c : Core) (t : Tile) : Bool :=
  c.opening.isSome || decide (2 ≤ c.waiting) || c.readHeld t.sd (operandSpan t.mode t.desc) ||
  (dMasked t.desc && c.readHeld (dMaskAddr t.desc) 64) || laneLoadHeld c t ||
  (t.mode != .bin && raccHeld c t) || vencHeld c t ||
  (dRowstat t.desc && !c.joins t && (decide (2 ≤ c.endSweep.sweeps.length) || holdBusy c.endSweep))

/-! ### The pass instructions -/

/-- Whether a pass descriptor's address is refused (R189). -/
def descAtBad (a : Nat) : Bool := decide (a % 64 ≠ 0) || decide (osBytes < a + 64)

/-- The tile of a pass with its operands and descriptor captured (R187, R216). -/
def passTile (c : Core) (m : PassMode) (pc : Nat) (d a b : BitVec 5) : Tile :=
  { mode := m, pc := pc, sd := (c.sreg d).toNat, desc := c.localRead (c.sreg b).toNat 64, order := c.xorder
    sa := if m = .bin then (c.sreg a).toNat % 2 ^ 48 else (c.sreg a).toNat }

/-- The core with a pass given its place in the order of issue, and a ROWSTAT pass added to its sweeps, or its open
sweep ended (R265, R270). -/
def Core.sweepPass (c : Core) (t : Tile) : Core :=
  let c := { c with xorder := c.xorder + 1 }
  if !dRowstat t.desc then c.endSweep
  else if c.joins t then
    { c with sweeps := c.sweeps.dropLast ++ (c.sweeps.getLast?.map (fun w =>
        { w with tiles := w.tiles ++ [{ tile := t }] })).toList }
  else
    let c := c.endSweep
    { c with
      sweeps := c.sweeps ++ [{ tiles := [{ tile := t }], half := c.sweepHalf }]
      sweepHalf := !c.sweepHalf }

/-- Issues a pass. -/
def State.passIssue (s : State) (n : Fin 32) (m : PassMode) (d a b : BitVec 5) : Result :=
  s.issueEnding n 8 true
    (fun c =>
      let at_ := (c.sreg b).toNat
      !descAtBad at_ && (c.readHeld at_ 64 ||
        (let t := passTile c m c.pc d a b
         !passRefused c t && passHeld c t)))
    (fun c =>
      let t := passTile c m c.pc d a b
      !(c.readHeld (c.sreg b).toNat 64) && !(dRowstat t.desc && c.joins t))
    fun s j pc =>
      let c := s.core n.val
      let at_ := (c.sreg b).toNat
      if descAtBad at_ || c.holdRefused at_ 64 then s.issueRefused j pc
      else
        let s := s.noteLocal n.val at_ 64
        if c.localLost at_ 64 then (s.jobFault j.ctx j.cores).settle
        else
          let t := passTile c m pc d a b
          if passRefused c t then s.issueRefused j pc
          else
            let s := s.setCore n.val (c.sweepPass t)
            if (dPrologue t.desc).isSome then
              s.modCore n.val (fun c => { c with opening := some t })
            else (s.feed n.val j t).settleCore n.val

/-- PASS.FP8. -/
def execPassFp8 (n : Fin 32) (d a b : BitVec 5) (s : State) : Result := s.passIssue n .fp8 d a b
/-- PASS.BF16C. -/
def execPassBf16c (n : Fin 32) (d a b : BitVec 5) (s : State) : Result := s.passIssue n .bf16c d a b
/-- PASS.BF16. -/
def execPassBf16 (n : Fin 32) (d a b : BitVec 5) (s : State) : Result := s.passIssue n .bf16 d a b
/-- PASS.BIN (R218). -/
def execPassBin (n : Fin 32) (d a b : BitVec 5) (s : State) : Result := s.passIssue n .bin d a b

/-! ### Runs (R258 to R260, R266, R270, R272) -/

/-- The job whose work the epilogue unit of a core does. -/
def State.unitJob (s : State) (n : Nat) : Option Job :=
  match (s.core n).job.bind s.job? with
  | some j => if s.awake && j.onCores then some j else none
  | none => none

/-- A run that is under way or may begin. -/
structure DueRun where
  /-- 0 prologue, 1 phase 0, 2 a finish run. -/
  kind  : Nat
  place : RunPlace
  words : List W64
  /-- The sweep, and the tile's number in it, of a run of a ROWSTAT tile. -/
  sweep : Option (Nat × Nat) := none

/-- Whether the unit is free for a run of a kind, or goes on with one that waits. -/
def Core.freeFor (c : Core) (kind : Nat) : Bool :=
  match c.run with
  | some r => r.kind == kind
  | none => true

/-- The prologue run of the opening pass, once every run of every earlier tile has ended (R260). -/
def Core.prologueDue (c : Core) : Option DueRun :=
  match c.opening with
  | none => none
  | some t =>
    let before := c.sweeps.any (fun w => w.tiles.any (fun x =>
      x.tile.order != t.order && decide (x.done < (c.tilePhases x.tile).length)))
    if c.tiles != [] || before || !c.freeFor 0 then none
    else some { kind := 0, words := c.prologue t, place := {
      tile := t, slot := (dPrologue t.desc).getD 0, phase := 0, kinds := [], stats := [] } }

/-- The sweep and place of the oldest tile whose phase-0 run has not ended. -/
def Core.phase0Place (c : Core) : Option (Nat × Nat) :=
  (c.sweeps.zipIdx.filterMap (fun w =>
    (w.1.tiles.findIdx? (fun x => x.done == 0)).map (fun i => (w.2, i)))).head?

/-- The phase-0 run of the oldest tile that waits (R220, R272). -/
def Core.epilogueDue (c : Core) : Option DueRun :=
  match c.tiles with
  | [] => none
  | t :: _ =>
    if !c.freeFor 1 then none
    else some { kind := 1, words := (c.tilePhases t).headD []
                sweep := if dRowstat t.desc then c.phase0Place else none, place := {
      tile := t, slot := (dEpilogue t.desc).getD 0, phase := 0, kinds := [], stats := [] } }

/-- The sweep, tile and phase of the next finish run (R266, R272). -/
def Core.finishPlace (c : Core) : Option (Nat × Nat × Nat) :=
  (c.sweeps.zipIdx.filterMap (fun w =>
    let k := (w.1.tiles.map (fun x => x.done)).foldl Nat.min 3
    if w.1.ended && decide (1 ≤ k) then
      (w.1.tiles.findIdx? (fun x => x.done == k && decide (k < (c.tilePhases x.tile).length))).map
        (fun i => (w.2, i, k))
    else none)).head?

/-- A tile of a sweep and the sweep. -/
def Core.sweepTile (c : Core) (k i : Nat) : Option (Sweep × SweepTile) :=
  (c.sweeps[k]?).bind (fun w => (w.tiles[i]?).map (fun x => (w, x)))

/-- The next finish run (R269, R272): it begins only when no prologue or phase-0 run is ready. -/
def Core.finishDue (c : Core) : Option DueRun :=
  match c.finishPlace with
  | none => none
  | some (k, i, ph) =>
    if !c.freeFor 2 || (c.run.isNone && (c.tiles != [] || c.prologueDue.isSome)) then none
    else (c.sweepTile k i).map fun p =>
      let words := c.tilePhases p.2.tile
      { kind := 2, words := words.getD ph [], sweep := some (k, i), place := {
          tile := p.2.tile, slot := (dEpilogue p.2.tile.desc).getD 0, phase := ph
          kinds := phaseKinds (words.getD (ph - 1) []), stats := p.1.stats } }

/-- The run that the unit carries out or takes next (R272). -/
def Core.nextRun (c : Core) : Option DueRun :=
  (c.prologueDue.orElse fun _ => c.epilogueDue).orElse fun _ => c.finishDue

/-! ### Hold slots (R270) -/

/-- The bytes of V0 to V31. -/
def Core.vImage (c : Core) : List Byte := vBytes (Sparse.window c.vregs 0 4096)

/-- Bytes of a hold slot. -/
def slotBytes : Nat := 0x4000

/-- Local address of the hold slot of tile `i` of a sweep, when it lies in the row hold buffer (R270). -/
def holdSlot (half : Bool) (i : Nat) : Option Nat :=
  if i < 64 then some (0x600000 + b2n half * 0x100000 + slotBytes * i) else none

/-- Offset in the core's spill area of the hold slot of tile `i` of a sweep, from 64 on. -/
def spillSlot (half : Bool) (i : Nat) : Nat := b2n half * 0x800000 + slotBytes * (i - 64)

/-- The half of a sweep. -/
def Core.halfOf (c : Core) (k : Nat) : Bool := (c.sweeps[k]?.map (fun w => w.half)).getD false

/-- Saves V0 to V31 into the hold slot of tile `i` of sweep `k` (R270). The beats of a spilled slot then move through
the mover's requester, and keep the unit until they have. -/
def State.saveSlot (s : State) (n k i : Nat) : State :=
  let c := s.core n
  match holdSlot (c.halfOf k) i with
  | some a => s.osWrite n a c.vImage
  | none =>
    let o := spillSlot (c.halfOf k) i
    (s.setCore n { c with spill := Mem.write c.spill o c.vImage, spilling := 256 }).t1Encode n (spillOwner n) o slotBytes

/-- V0 to V31 as the hold slot of tile `i` of sweep `k` gives them (R270); an uncorrectable word in it is a job fault
(R274). -/
def State.restoreSlot (s : State) (n : Nat) (j : Job) (k i : Nat) (r : Run) : RunStep :=
  let c := s.core n
  match holdSlot (c.halfOf k) i with
  | some a =>
    let s := s.noteLocal n a slotBytes
    if c.localLost a slotBytes then .ended (s.jobFault j.ctx j.cores).settle
    else .ran (s.modCore n (fun c => { c with vregs := Sparse.ofList 0 (vWords (c.osRead a slotBytes)) })) r
  | none =>
    let o := spillSlot (c.halfOf k) i
    let bs := s.t1Deliver (spillOwner n) o (Mem.bytes c.spill o slotBytes)
    let s := s.noteT1 (spillOwner n) o slotBytes
    if s.t1Lost (spillOwner n) o slotBytes then .ended (s.jobFault j.ctx j.cores).settle
    else .ran (s.modCore n (fun c => { c with vregs := Sparse.ofList 0 (vWords bs), spilling := 256 })) r

/-! ### Carrying runs out (R220, R223, R258, R266, R267, R270) -/

/-- Drops the sweeps whose runs have all ended. -/
def Core.dropSweeps (c : Core) : Core :=
  { c with sweeps := c.sweeps.filter (fun w =>
      !w.ended || w.tiles.any (fun x => decide (x.done < (c.tilePhases x.tile).length))) }

/-- The end of a run of tile `i` of sweep `k`: its contributions merge, its slot is saved unless the
phase was the last, and it counts (R267, R270). -/
def State.endRun (s : State) (n k i : Nat) (r : Run) : State :=
  match (s.core n).sweepTile k i with
  | none => s
  | some p =>
    let s := s.modCore n (fun c => { c with sweeps := c.sweeps.modify k (fun w =>
      { w with
        stats := r.stats.foldl (fun l st => setStat l ((statOf l st.phase st.kind st.row).merge st)) w.stats
        tiles := w.tiles.modify i (fun x => { x with done := x.done + 1, faults := 0 }) }) })
    let s := if p.2.done + 1 < ((s.core n).tilePhases p.2.tile).length then s.saveSlot n k i else s
    s.modCore n Core.dropSweeps

/-- A run as it begins (R259). -/
def Core.newRun (c : Core) (d : DueRun) : Run :=
  { kind := d.kind, vregs := c.vregs, pregs := c.pregs, scale := Mem.bytes c.scale (64 * d.place.slot) 64 }

/-- The run under way, or the run begun: a finish run begins with V0 to V31 from its tile's hold slot (R259, R270). -/
def State.beginRun (s : State) (n : Nat) (j : Job) (d : DueRun) : RunStep :=
  let c := s.core n
  match c.run, d.sweep with
  | some r, _ => .ran s r
  | none, none => .ran s (c.newRun d)
  | none, some p => if d.kind = 2 then s.restoreSlot n j p.1 p.2 (c.newRun d) else .ran s (c.newRun d)

/-- What the end of a run brings: after a prologue the operands of its pass enter the bus; a tile whose phase-0 run has
ended waits no more. -/
def State.finishedRun (s : State) (n : Nat) (j : Job) (d : DueRun) (r : Run) : State :=
  let s := s.modCore n (fun c => { c with run := none })
  if d.kind = 0 then (s.modCore n (fun c => { c with opening := none })).feed n j d.place.tile
  else
    let s := if d.kind = 1 then s.modCore n (fun c => { c with tiles := c.tiles.drop 1 }) else s
    match d.sweep with
    | some p => s.endRun n p.1 p.2 r
    | none => s

/-- Carries out at most `k` words of a run from where it stands; the run is kept where it does not end. It waits while
the unit moves a spilled hold slot. -/
def State.carryRun (s : State) (n : Nat) (j : Job) (d : DueRun) (k : Nat) : Result :=
  if 0 < (s.core n).spilling then .next s
  else match s.beginRun n j d with
    | .ended s => .next s
    | .waits => .next s
    | .ran s r =>
      match (if 0 < (s.core n).spilling then .ran s r
        else s.runWords n j d.place r ((d.words.drop r.pos).take k)) with
      | .ended s => .next s
      | .waits => .next s
      | .ran s r =>
        if r.pos < d.words.length then .next ((s.modCore n (fun c => { c with run := some r })).settleCore n)
        else .next ((s.finishedRun n j d r).settleCore n)

/-- Carries out a run that is due to its end or to a word that waits. -/
def State.runRow (s : State) (n : Nat) (due : Core → Option DueRun) : Result :=
  match s.unitJob n, due (s.core n) with
  | some j, some d => s.carryRun n j d d.words.length
  | _, _ => .next s

/-- PROLOGUE_RUN (R220, R258, R260): the prologue of the opening pass runs, and its operands enter the bus. -/
def execPrologueRun (n : Fin 32) (s : State) : Result := s.runRow n.val Core.prologueDue

/-- EPILOGUE_RUN (R220, R258, R272): the phase-0 run of the oldest tile that waits. -/
def execEpilogueRun (n : Fin 32) (s : State) : Result := s.runRow n.val Core.epilogueDue

/-- FINISH_RUN (R258, R266, R269, R270, R272, R274): the next finish run, when no other run is ready. -/
def execFinishRun (n : Fin 32) (s : State) : Result := s.runRow n.val Core.finishDue

end Sys2Proof.Machine
end

