-- ==== Sys2Proof/Machine/CisDecode.lean ====
section
/-!
DEFINITION. Which words are instructions, and which command each word of the sequencer is (R179 to R182, R206 to R209,
R224), and ILLEGAL_INSTRUCTION.
-/

namespace Sys2Proof.Machine

/-! ### Epilogue words (R224) -/

/-- Bits of word 0 below B of format REG that hold nothing. -/
def lowZero (w : W64) : Bool := bits w.toNat 26 0 == 0

/-- MOD of format IMM. -/
def wMod3 (w : W64) : Nat := bits w.toNat 42 40

/-- A word of format REG whose unused fields are zero: `d`, `a`, `b` say which are used. -/
def regUsed (w : W64) (d a b : Bool) : Bool :=
  lowZero w && (d || wD w == 0) && (a || wA w == 0) && (b || wB w == 0)

/-- A word of format IMM whose unused fields are zero. -/
def immUsed (w : W64) (d a : Bool) : Bool := (d || wD w == 0) && (a || wA w == 0)

/-- The MOD of VPACK and VUNPK names a format and a part that it has (R222, R224). -/
def partGood (mod : Nat) : Bool :=
  decide (mod < 32) && (match bits mod 1 0 with
    | 0 => decide (bits mod 4 2 ≤ 1)
    | 1 => decide (bits mod 4 2 ≤ 3)
    | 2 => decide (bits mod 4 2 ≤ 3)
    | _ => false)

/-- The IMM of VLD and VST: reserved bits zero, base not 3 (R221, R222). -/
def baseGood (imm : Nat) : Bool := bits imm 39 37 == 0 && bits imm 36 35 != 3

/-- Whether a word is a valid epilogue instruction (R224). -/
def epiLegal (w : W64) : Bool :=
  let m := (wMod w).toNat
  !bitOf w.toNat 63 && wClass w == 4 &&
  (match wOp w with
   | 0 => regUsed w true false false
   | 1 => immUsed w true false && wMod3 w == 0 && baseGood (wImm w).toNat
   | 2 => immUsed w true false && wMod3 w == 0 && baseGood (wImm w).toNat
   | 3 => regUsed w true true false && decide (m ≤ 3)
   | 4 => regUsed w true true true && m == 0
   | 5 => regUsed w true true true && m == 0
   | 6 => regUsed w true true true && m == 0
   | 7 => regUsed w true true true && m == 0
   | 8 => regUsed w true true true && m == 0
   | 9 => regUsed w true true true && m == 0
   | 10 => regUsed w true true false && m == 0
   | 11 => regUsed w true true false && m == 0
   | 12 => regUsed w true true false && m == 0
   | 13 => regUsed w true true false && m == 0
   | 14 => regUsed w true true false && m == 0
   | 15 => regUsed w true true false && decide (m ≤ 2)
   | 16 => regUsed w true true false && partGood m
   | 17 => regUsed w true true false && partGood m
   | 18 => regUsed w true true true && decide (m ≤ 1) && isX (wD w)
   | 19 => regUsed w true true true && decide (m ≤ 1) && isX (wD w)
   | 20 => regUsed w true false false && decide (m ≤ 3)
   | 21 => regUsed w false true true && decide (m ≤ 3)
   | 22 => regUsed w false true false && decide (m ≤ 2)
   | 23 => regUsed w true false false && m == 0
   | 24 => regUsed w true true false && decide (m ≤ 15)
   | 25 => immUsed w false false && wMod3 w == 0 && decide (1 ≤ (wImm w).toNat) &&
      decide ((wImm w).toNat ≤ 16384)
   | _ => false)

/-! ### Sequencer words (R181, R182, R206, R208) -/

/-- A word of format REG outside CLASS 4: guard and MOD are zero. -/
def seqReg (w : W64) (d a b : Bool) : Bool :=
  regUsed w d a b && bits w.toNat 37 33 == 0 && wMod w == 0

/-- Control words. -/
def controlLegal (w : W64) : Bool :=
  match wOp w with
  | 1 => wD w == 0 && wA w == 0 && condLegal (bits w.toNat 42 39)
  | 2 => wD w == 0 && wA w == 0 && condLegal (bits w.toNat 42 39)
  | 3 => seqReg w false false false
  | 4 => seqReg w false false false
  | _ => false

/-- Scalar words but MOVL. -/
def scalarLegal (w : W64) : Bool :=
  let op := wOp w
  let imm := immUsed w true true && wMod3 w == 0
  if op = 0 then seqReg w true true false
  else if op = 1 then immUsed w true false && wMod3 w == 0
  else if 3 ≤ op ∧ op ≤ 15 then seqReg w true true true
  else if op = 16 then seqReg w false true true
  else if 17 ≤ op ∧ op ≤ 21 then imm
  else if 22 ≤ op ∧ op ≤ 24 then imm && decide ((wImm w).toNat ≤ 63)
  else if op = 25 then immUsed w false true && wMod3 w == 0
  else if op = 26 then imm
  else if op = 27 then seqReg w true true false && isA (wD w)
  else if op = 28 then seqReg w true true false && isA (wA w)
  else if op = 29 then seqReg w true true true && isA (wD w) && isA (wA w)
  else if op = 30 then imm && isA (wD w) && isA (wA w)
  else if op = 31 ∨ op = 32 then imm
  else false

/-- Words of one word, by class. -/
def shortLegal (w : W64) : Bool :=
  let op := wOp w
  match wClass w with
  | 0 => controlLegal w
  | 1 => scalarLegal w
  | 2 =>
    if op = 5 then seqReg w true false false && isX (wD w)
    else if op = 6 then seqReg w true true false && isX (wA w)
    else false
  | 3 => decide (op ≤ 3) && seqReg w true true true
  | 5 =>
    if op = 0 then immUsed w false true && decide (wMod3 w ≤ 3) && decide ((wImm w).toNat ≤ 15)
    else if op = 1 ∨ op = 2 then seqReg w true true false && isE (wD w)
    else if op = 3 then seqReg w true false false && isE (wD w)
    else false
  | 6 =>
    if op = 0 then immUsed w false false && decide (wMod3 w ≤ 1)
    else if op = 1 then seqReg w false false false
    else if op = 2 ∨ op = 5 ∨ op = 6 then seqReg w false true false
    else if op = 3 then seqReg w false true true
    else false
  | 7 =>
    if op ≤ 2 then seqReg w false false false
    else if op = 3 then seqReg w false true true && isA (wB w)
    else false
  | 8 =>
    if op = 0 then immUsed w true false && wMod3 w == 0
    else if op = 1 then seqReg w false false false
    else if op = 2 then immUsed w true true && wMod3 w == 0 && isE (wD w)
    else false
  | _ => false

/-- Instructions of two words (R180, R211, R213, R176). -/
def longLegal (w x : W64) : Bool :=
  let op := wOp w
  let mod := bits w.toNat 37 32
  let ext := bits x.toNat 52 0
  bits x.toNat 63 53 == 0x7FF &&
  (match wClass w with
   | 1 => op == 2 && wA w == 0 && wB w == 0 && mod == 0 && decide (ext < 2 ^ 32)
   | 2 =>
     decide (op ≤ 4) && isX (wD w) && isA (wA w) && decide (ext < 32) &&
     decide (mod ≤ (if op = 1 ∨ op = 4 then 0 else 1))
   | 6 => op == 4 && mod == 0 && decide (ext < 32)
   | _ => false)

/-- Whether the words at the sequencer's position are an instruction (R181, R182, R209). -/
def seqLegal (w x : W64) : Bool :=
  bits w.toNat 63 53 != 0x7FF && (if bitOf w.toNat 63 then longLegal w x else shortLegal w)

/-! ### The command of a sequencer word (R179, R180, R208) -/

/-- The control instruction of a word. -/
def decodeControl (n : Fin 32) (w : W64) : Option Instr :=
  let cond := BitVec.ofNat 4 (bits w.toNat 42 39)
  let off := BitVec.ofNat 39 (bits w.toNat 38 0)
  match wOp w with
  | 1 => some (.b n cond off)
  | 2 => some (.call n cond off)
  | 3 => some (.ret n)
  | 4 => some (.nop n)
  | _ => none

/-- The scalar instruction of a word of format REG or LONG. -/
def decodeScalarReg (n : Fin 32) (w x : W64) : Option Instr :=
  let d := wD w
  let a := wA w
  let b := wB w
  match wOp w with
  | 0 => some (.mov n d a)
  | 2 => some (.movl n d (BitVec.ofNat 32 w.toNat) (BitVec.ofNat 32 x.toNat))
  | 3 => some (.add n d a b)
  | 4 => some (.sub n d a b)
  | 5 => some (.mul n d a b)
  | 6 => some (.and n d a b)
  | 7 => some (.or n d a b)
  | 8 => some (.xor n d a b)
  | 9 => some (.shl n d a b)
  | 10 => some (.shr n d a b)
  | 11 => some (.sar n d a b)
  | 12 => some (.min n d a b)
  | 13 => some (.max n d a b)
  | 14 => some (.minu n d a b)
  | 15 => some (.maxu n d a b)
  | 16 => some (.cmp n a b)
  | 27 => some (.mova n d a)
  | 28 => some (.movs n d a)
  | 29 => some (.adda n d a b)
  | _ => none

/-- The scalar instruction of a word of format IMM. -/
def decodeScalarImm (n : Fin 32) (w : W64) : Option Instr :=
  let d := wD w
  let a := wA w
  let imm := wImm w
  match wOp w with
  | 1 => some (.movi n d imm)
  | 17 => some (.addi n d a imm)
  | 18 => some (.subi n d a imm)
  | 19 => some (.andi n d a imm)
  | 20 => some (.ori n d a imm)
  | 21 => some (.xori n d a imm)
  | 22 => some (.shli n d a imm)
  | 23 => some (.shri n d a imm)
  | 24 => some (.sari n d a imm)
  | 25 => some (.cmpi n a imm)
  | 26 => some (.muli n d a imm)
  | 30 => some (.addai n d a imm)
  | 31 => some (.ld n d a imm)
  | 32 => some (.st n d a imm)
  | _ => none

/-- The mover instruction of a word: IMM in its low half, C in the low bits of EXT, DIRECT in MOD (R213). -/
def decodeMover (n : Fin 32) (w x : W64) : Option Instr :=
  let d := wD w
  let a := wA w
  let b := wB w
  let c := BitVec.ofNat 5 x.toNat
  let imm := BitVec.ofNat 32 w.toNat
  let direct := bitOf w.toNat 32
  match wOp w with
  | 0 => some (.mvLoad n d a b c imm direct)
  | 1 => some (.mvStore n d a b c imm direct)
  | 2 => some (.mvSpread n d a b c imm direct)
  | 3 => some (.mvTload n d a b c imm direct)
  | 4 => some (.mvTstore n d a b c imm direct)
  | 5 => some (.mvWait n d)
  | 6 => some (.mvStat n d a)
  | _ => none

/-- The instruction of a word of the classes 3 and 5 to 8. -/
def decodeUnit (n : Fin 32) (w x : W64) : Option Instr :=
  let d := wD w
  let a := wA w
  let b := wB w
  let imm := wImm w
  let mod := BitVec.ofNat 3 (wMod3 w)
  match wClass w, wOp w with
  | 3, 0 => some (.passFp8 n d a b)
  | 3, 1 => some (.passBf16c n d a b)
  | 3, 2 => some (.passBf16 n d a b)
  | 3, 3 => some (.passBin n d a b)
  | 5, 0 => some (.cbload n a mod imm)
  | 5, 1 => some (.scset n d a)
  | 5, 2 => some (.scget n d a)
  | 5, 3 => some (.scadv n d)
  | 6, 0 => some (.tkOn n mod imm)
  | 6, 1 => some (.tkOff n)
  | 6, 2 => some (.tkStripe n a)
  | 6, 3 => some (.tkClr n a b)
  | 6, 4 => some (.tkMerge n d a b (BitVec.ofNat 5 x.toNat) (BitVec.ofNat 32 w.toNat))
  | 6, 5 => some (.srWalk n a)
  | 6, 6 => some (.srFilt n a)
  | 7, 0 => some (.fenceU n)
  | 7, 1 => some (.bar n)
  | 7, 2 => some (.cut n)
  | 7, 3 => some (.take n a b)
  | 8, 0 => some (.sysrd n d imm)
  | 8, 1 => some (.endI n)
  | 8, 2 => some (.eload n d a imm)
  | _, _ => none

/-- The command that the sequencer of core `n` issues for the words at its position; words that are no instruction are
ILLEGAL_INSTRUCTION's (R181). -/
def decodeSeq (n : Fin 32) (w x : W64) : Instr :=
  let i := if seqLegal w x = false then none
    else match wClass w with
      | 0 => decodeControl n w
      | 1 => (decodeScalarReg n w x).orElse (fun _ => decodeScalarImm n w)
      | 2 => decodeMover n w x
      | _ => decodeUnit n w x
  i.getD (.illegalInstruction n w x)

/-- The command that core `n` issues next by the bytes of its job's program (R154, R179). -/
def State.nextIssue (s : State) (n : Fin 32) (j : Job) : Instr :=
  let at_ := fun (o : Nat) => BitVec.ofNat 64 (Mem.field j.program ((s.core n.val).pc + o) 8)
  decodeSeq n (at_ 0) (at_ 8)

/-- ILLEGAL_INSTRUCTION (R181, R182, R209): the job fails when the core issues words that are no
instruction; words that are one are the business of their own row (log 1). -/
def execIllegalInstruction (n : Fin 32) (w0 w1 : BitVec 64) (s : State) : Result :=
  match s.issuing n.val with
  | none => .next s
  | some j =>
    let c := s.core n.val
    if j.programRegion ≤ c.pc then
      .next (s.accessFault j.ctx (0x000000C000000000 + c.pc) c.pc).settle
    else if bitOf w0.toNat 63 && decide (j.programRegion ≤ c.pc + 8) then
      .next (s.accessFault j.ctx (0x000000C000000000 + c.pc + 8) c.pc).settle
    else if seqLegal w0 w1 then .next s
    else .next (s.failJob j.ctx .engineFault 3 c.pc).settle

end Sys2Proof.Machine
end

