-- ==== Sys2Proof/Machine/Codebook.lean ====
section
/-!
DEFINITION. CBLOAD, the scale-state instructions and ELOAD (R189, R224 to R226, R235, R250 to R253, R265).
-/

namespace Sys2Proof.Machine

/-! ### CBLOAD (R225, R235) -/

/-- Bytes of a codebook record (R235). -/
def recordLen (wide : Bool) : Nat := if wide then 544 else 64

/-- Whether an open tile names table `t` of lane row `r`, by its pass or by a VENC (R225, R246). -/
def Core.tableOpen (c : Core) (r t : Nat) : Bool :=
  c.openTiles.any (fun x =>
    (x.mode.coded && dTable x.desc == t && bitOf (dRows x.desc) r) ||
    ((c.epilogue x ++ c.prologue x).filter (isEpi 24)).any (fun w =>
      bits (wMod w).toNat 1 0 == r && bits (wMod w).toNat 2 2 == t))

/-- Whether a codebook record keeps R235 for a CBLOAD of 256 (`wide`) or 16 entries. -/
def recordGood (wide : Bool) (cbr : List Byte) : Bool :=
  decide (fieldAt cbr 0 1 = if wide then 8 else 4) && decide (fieldAt cbr 1 1 < 4) && allZero (bytesAt cbr 6 26)

/-- The entries of a record; entries past its own are zero (R225). -/
def recordEntries (wide : Bool) (cbr : List Byte) : List (BitVec 16) :=
  (List.range 256).map (fun i =>
    if wide || decide (i < 16) then BitVec.ofNat 16 (fieldAt cbr (32 + 2 * i) 2) else 0)

/-- The core with table `t` of lane row `r` loaded from a record. -/
def Core.loadTable (c : Core) (r t : Nat) (wide : Bool) (cbr : List Byte) : Core :=
  { c with
    cb := Sparse.splice c.cb (512 * r + 256 * t) (recordEntries wide cbr)
    cbCtl := Sparse.set c.cbCtl (2 * r + t) (BitVec.ofNat 48 (fieldAt cbr 0 6)) }

/-- The lane rows that a CBLOAD mask names. -/
def maskRows (m : Nat) : List Nat := (List.range 4).filter (fun r => bitOf m r)

/-- CBLOAD (R189, R225, R235). -/
def execCbload (n : Fin 32) (a : BitVec 5) (mod : BitVec 3) (imm : BitVec 40) (s : State) : Result :=
  let t := b2n (mod.getLsbD 0)
  let wide := mod.getLsbD 1
  s.issue n 8 (decide (mod.toNat ≤ 3) && decide (imm.toNat ≤ 15))
    (fun c =>
      let at_ := (c.sreg a).toNat
      at_ % 64 == 0 && decide (at_ + recordLen wide ≤ osBytes) &&
      (c.readHeld at_ (recordLen wide) || (maskRows imm.toNat).any (fun r => c.tableOpen r t)))
    fun s j pc =>
      let c := s.core n.val
      let at_ := (c.sreg a).toNat
      if at_ % 64 ≠ 0 ∨ osBytes < at_ + recordLen wide then s.issueRefused j pc
      else
        let s := s.noteLocal n.val at_ (recordLen wide)
        if c.localLost at_ (recordLen wide) then (s.jobFault j.ctx j.cores).settle
        else
          let cbr := c.osRead at_ (recordLen wide)
          if recordGood wide cbr then
            s.setCore n.val ((maskRows imm.toNat).foldl (fun c r => c.loadTable r t wide cbr) c)
          else s.issueRefused j pc

/-! ### Scale states (R226, R250 to R253) -/

/-- Whether the BF16 bits are a positive finite value. -/
def positive16 (x : Nat) : Bool := decide (0 < x) && decide (x < 0x7F80)

/-- Whether the BF16 bits are a finite value of at least 1.0. -/
def least1 (x : Nat) : Bool := decide (0x3F80 ≤ x) && decide (x < 0x7F80)

/-- Whether a scale state keeps R250. -/
def scaleGood (b : List Byte) : Bool :=
  let f := fieldAt b
  let mode := f 0 1
  let v := fun (o : Nat) => ofBf16 (f o 2)
  decide (mode ≤ 2) && bits (f 1 1) 7 3 == 0 && bits (f 1 1) 0 0 == 0 &&
  decide (1 ≤ f 2 1) && decide (f 2 1 ≤ 16) && (mode == 2 || positive16 (f 4 2)) &&
  (mode != 1 || least1 (f 6 2)) &&
  (mode != 2 ||
    (decide (1 ≤ f 0x12 2) && decide (f 0x12 2 ≤ 4096) && f 0x14 4 % 64 == 0 &&
     decide (f 0x14 4 + 2 * f 0x12 2 ≤ osBytes) && least1 (f 0x0E 2) && f 0x0E 2 != 0x3F80 &&
     !(v 8).lt (v 0x0A) && !(v 0x0C).lt (v 8) && (Fv.num 0 0 false).lt (v 0x0A)))

/-- The alignment and range rule of SCSET and SCGET (R189). -/
def scaleAtBad (a : Nat) : Bool := a % 64 != 0 || decide (osBytes < a + 64)

/-- SCSET (R226, R250, R251). -/
def execScset (n : Fin 32) (d a : BitVec 5) (s : State) : Result :=
  s.issueEnding n 8 (isE d)
    (fun c =>
      let at_ := (c.sreg a).toNat
      !scaleAtBad at_ && (c.slotOpen d.toNat || c.readHeld at_ 64))
    (fun _ => true)
    fun s j pc =>
      let c := (s.core n.val).endSweep
      let s := s.setCore n.val c
      let at_ := (c.sreg a).toNat
      if scaleAtBad at_ then s.issueRefused j pc
      else
        let s := s.noteLocal n.val at_ 64
        if c.localLost at_ 64 then (s.jobFault j.ctx j.cores).settle
        else
          let b := c.osRead at_ 64
          if scaleGood b then s.setCore n.val { c with scale := Mem.write c.scale (64 * d.toNat) b }
          else s.issueRefused j pc

/-- SCGET (R226). -/
def execScget (n : Fin 32) (d a : BitVec 5) (s : State) : Result :=
  s.issueEnding n 8 (isE d)
    (fun c =>
      let at_ := (c.sreg a).toNat
      !scaleAtBad at_ && (c.slotOpen d.toNat || c.writeHeld at_ 64))
    (fun _ => true)
    fun s j pc =>
      let c := (s.core n.val).endSweep
      let s := s.setCore n.val c
      let at_ := (c.sreg a).toNat
      if scaleAtBad at_ then s.issueRefused j pc
      else s.osWrite n.val at_ (Mem.bytes c.scale (64 * d.toNat) 64)

/-- An FP32 magnitude rounded to BF16 toward plus infinity (R253): it keeps an infinity, and a value above
the largest finite one becomes an infinity. -/
def upBf16 (x : W32) : Nat :=
  match ofF32 x with
  | .nan => 0x7FC0
  | .inf s => b2n s * 2 ^ 15 + bf16.top
  | .num m e s =>
    if (Fv.num m e s).sign then 2 ^ 15 + bf16.magnitude (fun m k => m / 2 ^ k) m.natAbs e
    else min bf16.top (bf16.magnitude upShift m.natAbs e)

/-- The larger of two BF16 values, `a` where neither is. -/
def maxBf16 (a b : Nat) : Nat := if (ofBf16 a).lt (ofBf16 b) then b else a

/-- The smaller of two BF16 values, `a` where neither is. -/
def minBf16 (a b : Nat) : Nat := if (ofBf16 b).lt (ofBf16 a) then b else a

/-- The core with the four counters of a slot's scale state cleared (R253). -/
def Core.scClear (c : Core) (e : Nat) : Core :=
  let flags := c.scField e 1 1
  (((c.setSc e 0x18 4 0).setSc e 0x1C 4 0).setSc e 1 1 (flags - 4 * bits flags 2 2)).setSc e 0x10 2 0

/-- RUNNING: the history moves on and the scale follows its window (R253). -/
def Core.advRunning (c : Core) (e : Nat) : Core :=
  let past := (List.range 15).map (fun i => c.scField e (0x20 + 2 * i) 2)
  let history := upBf16 (BitVec.ofNat 32 (c.scField e 0x18 4)) :: past
  let h := (history.take (c.scField e 2 1)).foldl maxBf16 0
  let c := { c with scale := Mem.write c.scale (64 * e + 0x20) ((history.map (leBytes 2)).flatten) }
  if (Fv.num 0 0 false).lt (ofBf16 h) then
    c.setSc e 4 2 (toBf16Sat ((ofBf16 h).mul (ofBf16 (c.scField e 6 2))))
  else c

/-- LEARNED: the correction moves within its clamps (R253). -/
def Core.advLearned (c : Core) (e : Nat) : Core :=
  let corr := ofBf16 (c.scField e 8 2)
  let step := ofBf16 (c.scField e 0x0E 2)
  if 0 < c.scField e 0x1C 4 then
    c.setSc e 8 2 (minBf16 (c.scField e 0x0C 2) (toBf16Sat (corr.mul step)))
  else if bitOf (c.scField e 1 1) 2 then c
  else c.setSc e 8 2 (maxBf16 (c.scField e 0x0A 2) (divBf16 corr step))

/-- The scale state of a slot advanced to the next Take (R253). -/
def Core.scAdvance (c : Core) (e : Nat) : Core :=
  (match c.scField e 0 1 with
   | 1 => c.advRunning e
   | 2 => c.advLearned e
   | _ => c).scClear e

/-- SCADV (R226, R253). -/
def execScadv (n : Fin 32) (d : BitVec 5) (s : State) : Result :=
  s.issueEnding n 8 (isE d) (fun c => c.slotOpen d.toNat) (fun _ => true)
    fun s _ _ => s.modCore n.val (fun c => c.endSweep.scAdvance d.toNat)

/-! ### ELOAD (R189, R224) -/

/-- The alignment, range and count rules of ELOAD. -/
def eloadBad (a count : Nat) : Bool :=
  a % 8 != 0 || decide (count < 1) || decide (256 < count) || decide (osBytes < a + 8 * count)

/-- ELOAD (R224, R265). -/
def execEload (n : Fin 32) (d a : BitVec 5) (imm : BitVec 40) (s : State) : Result :=
  s.issueEnding n 8 (isE d)
    (fun c =>
      let at_ := (c.sreg a).toNat
      !eloadBad at_ imm.toNat && (c.slotOpen d.toNat || c.readHeld at_ (8 * imm.toNat)))
    (fun _ => true)
    fun s j pc =>
      let c := (s.core n.val).endSweep
      let s := s.setCore n.val c
      let at_ := (c.sreg a).toNat
      if eloadBad at_ imm.toNat then s.issueRefused j pc
      else
        let s := s.noteLocal n.val at_ (8 * imm.toNat)
        if c.localLost at_ (8 * imm.toNat) then (s.jobFault j.ctx j.cores).settle
        else
          let words := (pieces 8 (c.osRead at_ (8 * imm.toNat))).map (fun p => BitVec.ofNat 64 (le p))
          if words.all epiLegal then s.setCore n.val { c with progs := assocSet c.progs d.toNat words }
          else s.issueRefused j pc

end Sys2Proof.Machine
end

