-- ==== Sys2Proof/Machine/Promotion.lean ====
section
/-!
DEFINITION. Promotions of read-only pages (R126 to R128, R135 to R137) and lost pages (R370, R371).
-/

namespace Sys2Proof.Machine

/-- The flash channel group whose grant in progress is the promotion engine's, at the class of a page's promotion
(R129, R143). -/
def State.promotionGrant? (s : State) (pg : Nat × Nat) : Option Nat :=
  ((List.range 9).map (fun i => 48 + i)).find? (fun a =>
    ((s.arb a).grant).any (fun g => g.req.requester.val == 32 && s.promotes pg g.req.cls.val))

/-- Parked transfers of a core, those whose current beat lies in the page. -/
def State.parkedOn (s : State) (n : Nat) (pg : Nat × Nat) : List Nat :=
  match (s.core n).job.bind s.job? with
  | none => []
  | some j =>
    ((s.core n).xfers.filter (fun p => p.2.state == .parked && (s.xferPages j p.2).contains pg)).map
      (fun p => p.1)

/-- The transfers parked on a page go on, or fail with a page that is lost (R128, R370). -/
def State.unpark (s : State) (pg : Nat × Nat) : State :=
  (List.range 32).foldl (fun s n =>
    let slots := s.parkedOn n pg
    if slots = [] then s
    else
      (slots.foldl (fun s x =>
        let s := s.modXfer n x (fun t => if t.state = .parked then { t with state := .active } else t)
        s.reach n x (s.pagesAt n x)) s).settleCore n) s

/-- The parked transfers whose current beat no longer names anything, because its object was unloaded, deleted or moved
to another Pod, meet their access fault (R122, R126). -/
def State.failGone (s : State) : State :=
  (List.range 32).foldl (fun s n =>
    match (s.core n).job.bind s.job? with
    | none => s
    | some j =>
      match (s.core n).xfers.find? (fun p => p.2.state == .parked &&
          (p.2.uAddrs p.2.progress).any (fun a => !s.mayTouch j p.2.store a)) with
      | none => s
      | some p => ((s.barred n p.1 j p.2).getD s).settleCore n) s

/-- PROMOTION_GRANT (R126, R129, R136, R137): with a grant of its class at a flash channel group, a QUEUED page gets
its frame and its first flash read; Pods whose share has no room for it go on waiting. On a page that has its
frame already, the claims that wait are taken as far as there is room now. -/
def execPromotionGrant (copy page : Nat) (s : State) : Result :=
  match s.page? copy page with
  | none => .next s
  | some x =>
    if s.awake = false then .next s
    else if x.state = .promoting then .next (s.giveClaims (copy, page))
    else if x.state = .resident then .next ((s.giveClaims (copy, page)).unpark (copy, page)).settlePages.settle
    else if x.state ≠ .queued then .next s
    else
      match s.promotionGrant? (copy, page) with
      | none => .next s
      | some a =>
        let t := (s.modPage copy page (fun x => { x with state := .promoting, claims := [], wants := x.claims })).giveClaims
          (copy, page)
        if (t.page? copy page).all (fun x => x.claims.isEmpty) then .next s
        else .next (t.modArb a (fun b => { b with grant := none }))

/-- Charges a promotion to the job whose access started it (R115). -/
def State.chargePromotion (s : State) (ctx : Nat) (pg : Nat × Nat) : State :=
  let t2 := s.inT2 pg
  s.modJob ctx (fun j => { j with
    rail := { j.rail with flash := j.rail.flash + pageBytes }
    acct := { j.acct with
      t2Bytes := if t2 then j.acct.t2Bytes + pageBytes else j.acct.t2Bytes
      t3Bytes := if t2 then j.acct.t3Bytes else j.acct.t3Bytes + pageBytes } })

/-- The handle of a copy in the Pod whose job asked for a page, else any handle of the copy (R371). -/
def State.poisonHandleOf (s : State) (copy ctx : Nat) : Nat :=
  let mine := s.objs.filter (fun o => o.copy == copy && o.kind != .volume)
  let pod := (s.job? ctx).map (fun j => j.pod)
  match mine.find? (fun o => some o.pod == pod) with
  | some o => o.handle
  | none => (mine.head?.map (fun o => o.handle)).getD 0

/-- The marks of a page that has become POISONED (R371). -/
def State.poison (s : State) (copy page ctx : Nat) : State :=
  let first := !s.integ.reported.contains copy
  let h := s.poisonHandleOf copy ctx
  let range := s.integ.poisonRange.toNat
  let s : State := { s with objs := s.objs.map (fun (o : Obj) =>
    if o.copy = copy ∧ o.kind ≠ .volume then { o with degraded := true } else o) }
  if first then
    let s : State := { s with integ := { s.integ with
      reported := s.integ.reported ++ [copy], poisonHandle := BitVec.ofNat 64 h
      poisonRange := BitVec.ofNat 64 (page * 2 ^ 32 + page) } }
    (s.integEvent 0).raise 0
  else
    match s.obj? s.integ.poisonHandle.toNat with
    | some o =>
      if o.copy = copy then
        { s with integ := { s.integ with
            poisonRange := BitVec.ofNat 64 (max (bits range 63 32) page * 2 ^ 32 + min (bits range 31 0) page) } }
      else s
    | none => s

/-- At the end of a promotion, the claims of Pods whose frame requests waited for it and that do not
reference the page are removed (R136). -/
def State.yieldClaims (s : State) (pg : Nat × Nat) (waited : List Nat) : State :=
  waited.foldl (fun s p => if s.refs p pg = 0 then s.unclaim p pg else s) s

/-- Whether the key-table slot of a copy's object secret can be read (R385, R386, R400). -/
def State.keyed (s : State) (copy : Nat) : Bool :=
  s.objs.all (fun (o : Obj) => o.kind == .volume || o.copy != copy || s.sec.keyTable.any (fun k => k.serves o))

/-- The beats of a promoted page are written into its frame by requester 32, and each T1 port with an armed flip-mask for
it takes the first of its own (R361, R367): which beat that is, the interleave decides (log 22). -/
def State.writeFrame (s : State) (copy page : Nat) : State :=
  let off := page * pageBytes
  let s := s.t1Renew (frameOwner copy) off pageBytes
  (s.integ.flips.filter (fun f => decide (f.1 < 48) && f.2.armed && f.2.req == 32)).foldl (fun s f =>
    s.t1Write f.1 32 (t1Base (frameOwner copy) + (off / 64 + Config.portBeat f.1 copy page % 32768) * 8)) s

/-- PROMOTION_END (R126, R127): the flash reads of a PROMOTING page end; `good` says that every one was
verified, which it is not for a page whose flash cannot be rebuilt. -/
def execPromotionEnd (copy page : Nat) (good : Bool) (s : State) : Result :=
  match s.page? copy page with
  | none => .next s
  | some x =>
    if x.state ≠ .promoting then .next s
    else
      let s := (s.chargePromotion x.charged (copy, page)).notePage copy page
      let s := s.writeFrame copy page
      let s := s.giveClaims (copy, page)
      if (s.page? copy page).all (fun y => y.claims.isEmpty) then .next (s.leaveFrame (copy, page))
      else if good && s.keyed copy && !(s.copy? copy).any (fun c => c.unreadable.contains page) then
        let claims := ((s.page? copy page).map (fun y => y.claims)).getD []
        let waited := claims.filter (fun p =>
          s.pages.any (fun y => y.state == .queued && y.claims.contains p || y.wants.contains p) &&
          !s.freeQuota p && (s.victim p).isNone)
        let s := s.modPage copy page (fun x => { x with state := .resident })
        let s := claims.foldl (fun s p => s.usePage p (copy, page)) s
        let s := s.unpark (copy, page)
        .next ((s.yieldClaims (copy, page) waited).settlePages.settle)
      else
        let s := s.modPage copy page (fun x => { x with state := .poisoned })
        .next ((s.poison copy page x.charged).unpark (copy, page)).settle

end Sys2Proof.Machine
end

