-- ==== Sys2Proof/Machine/Search.lean ====
section
/-!
DEFINITION. SR.WALK and SR.FILT (R228 to R230, R292 to R296, R301 to R303). A walk and a filter each take
effect as one.
-/

namespace Sys2Proof.Machine

/-- The index whose window's first byte a unified address is, for a job (R292, R295). -/
def State.indexAt (s : State) (j : Job) (a : Nat) : Option Copy :=
  match s.place j a with
  | (.object c, 0) =>
    match s.copy? c with
    | some x => if x.kind = .index then some x else none
    | none => none
  | _ => none

/-- A list of numbers with one put at its place, once. -/
def insertNat (n : Nat) (l : List Nat) : List Nat :=
  match l with
  | [] => [n]
  | x :: t => if n < x then n :: x :: t else if n = x then x :: t else x :: insertNat n t

/-- The page of an offset of a copy is lost (R370). -/
def State.offsetLost (s : State) (c : Copy) (off : Nat) : Bool :=
  s.pageLost c.id (pageOf off)

/-- Charges `beats` direct beats and, on the flash rail, the `flash` bytes read there where the bytes do not lie in T1
(R115, R116, R130). -/
def State.chargeDirect (s : State) (ctx : Nat) (c : Copy) (off beats flash : Nat) : State :=
  let pg := (c.id, pageOf off)
  let near := s.metaPage pg || s.pageState c.id pg.2 == .resident
  s.modJob ctx (fun j => { j with
    acct := { j.acct with
      t0Bytes := j.acct.t0Bytes + 64 * beats
      t1Bytes := if near then j.acct.t1Bytes + 64 * beats else j.acct.t1Bytes }
    rail := { j.rail with
      t1 := if near then j.rail.t1 + 64 * beats else j.rail.t1
      flash := if near then j.rail.flash else j.rail.flash + flash } })

/-- Beats that `n` bytes at an offset touch. -/
def beatsOf (off n : Nat) : Nat := ceilDiv (off % 64 + n) 64

/-! ### The walk (R293) -/

/-- A walk in progress: the state whose lists it fills, the lists visited in ascending order, the entries
expanded in each lane, the nodes read, and whether a chain was longer than 4. -/
structure Walk where
  st       : State
  visited  : List Nat := []
  expanded : List (Nat × List Nat) := []
  nodes    : List Nat := []
  chain    : Bool := false
  rounds   : Nat := 0
  deriving DecidableEq, Repr

/-- What a walk works on: the core, the index, its lanes with their queries. -/
structure WalkCtx where
  core  : Nat
  ctx   : Nat
  copy  : Copy
  lanes : List (Nat × List Byte)
  deriving DecidableEq, Repr

/-- The live target of a list (R293). -/
def Walk.resolve (w : Walk) (k : WalkCtx) (j : Nat) : Nat × Walk :=
  let r := k.copy.resolve j
  (r.1, if 4 < r.2 then { w with chain := true } else w)

/-- Broadcasts the centroid of list `j`: every lane of the walk offers its distance. -/
def Walk.broadcast (w : Walk) (k : WalkCtx) (j : Nat) : Walk :=
  let x := k.copy.centroid j
  let off := k.copy.region 5 + k.copy.codeBytes * j
  let beats := beatsOf off k.copy.codeBytes
  let s := w.st.chargeDirect k.ctx k.copy off beats (64 * beats)
  { w with
    visited := insertNat j w.visited
    st := k.lanes.foldl (fun s l => s.offer k.core l.1 (tkEntry (codeDistance x l.2) j)) s }

/-- The best unexpanded entry of a lane. -/
def Walk.next (w : Walk) (k : WalkCtx) (lane : Nat) : Option Nat :=
  (((w.st.core k.core).tkList lane).map tkTag).find? (fun j => !(lookupD w.expanded lane []).contains j)

/-- Expands the best unexpanded entry of a lane into the frontier. -/
def Walk.expand (w : Walk) (k : WalkCtx) (front : List Nat) (lane : Nat) : Walk × List Nat :=
  match w.next k lane with
  | none => (w, front)
  | some y =>
    let w := { w with
      expanded := assocSet w.expanded lane (y :: lookupD w.expanded lane [])
      nodes := insertNat y w.nodes }
    (k.copy.neighbours y).foldl (fun r n =>
      let t := r.1.resolve k n
      (t.2, insertNat t.1 r.2)) (w, front)

/-- One round (R293). -/
def Walk.round (w : Walk) (k : WalkCtx) : Walk :=
  let r := k.lanes.foldl (fun r l => r.1.expand k r.2 l.1) (w, [])
  let w := r.2.foldl (fun w j => if w.visited.contains j then w else w.broadcast k j) r.1
  { w with rounds := w.rounds + 1 }

/-- The rounds of a walk, at most `n`. -/
def Walk.run (n : Nat) (w : Walk) (k : WalkCtx) : Walk :=
  match n with
  | 0 => w
  | n + 1 => if k.lanes.any (fun l => (w.next k l.1).isSome) then Walk.run n (w.round k) k else w

/-- The whole walk from a starting list. -/
def walkFrom (s : State) (k : WalkCtx) (entry rounds : Nat) : Walk :=
  let s := s.modCore k.core (fun c => { c with topk := { c.topk with
    counts := c.topk.counts.filter (fun l => !(k.lanes.any (fun q => q.1 == l.1))) } })
  let r := Walk.resolve { st := s } k entry
  Walk.run rounds (r.2.broadcast k r.1) k

/-- The result word of a lane (R295). -/
def Walk.word (w : Walk) (k : WalkCtx) (lane : Nat) : Nat :=
  w.visited.length * 2 ^ 32 + w.rounds * 256 + 2 * b2n (w.next k lane).isSome + b2n w.chain

/-- A bitmap of `n` bytes with the bits of a list of numbers set. -/
def bitmapOf (n : Nat) (l : List Nat) : List Byte :=
  (List.range n).map (fun i =>
    l.foldl (fun (b : Byte) j => if j / 8 = i then b ||| BitVec.ofNat 8 (2 ^ (j % 8)) else b) 0)

/-! ### SR.WALK -/

/-- The local regions of a walk: result words, staging, visit bitmap (R292). -/
def walkRegions (c : Copy) (d : List Byte) : List (Nat × Nat) :=
  [(fieldAt d 0x10 4, 8 * fieldAt d 0x0A 2), (fieldAt d 0x14 4, 65536),
   (fieldAt d 0x18 4, roundUp (ceilDiv c.lists 8) 64)]

/-- Whether some of several regions overlap. -/
def anyMeet (l : List (Nat × Nat)) : Bool :=
  match l with
  | [] => false
  | r :: t => t.any (regionsMeet r) || anyMeet t

/-- The fields of a walk descriptor keep R292, R295 for an index of a core. -/
def walkGood (c : Core) (x : Copy) (d : List Byte) : Bool :=
  let f := fieldAt d
  let regs := walkRegions x d
  c.topk.on && !c.topk.score && decide (f 8 2 ≤ 511) && decide (1 ≤ f 0x0A 2) &&
  decide (f 8 2 + f 0x0A 2 ≤ 512) && decide (f 0x0C 1 ≤ 1) && decide (1 ≤ f 0x0D 1) &&
  decide (f 0x0D 1 ≤ 64) && f 0x0E 2 % 8 == 0 && f 0x10 4 % 64 == 0 && f 0x14 4 % 65536 == 0 &&
  f 0x18 4 % 64 == 0 && (f 0x1C 4 == 0xFFFFFFFF || decide (f 0x1C 4 < x.lists)) &&
  allZero (bytesAt d 0x20 32) && decide (f 0x0E 2 + x.codeBytes ≤ 4096) &&
  !(f 0x0C 1 == 1 && decide (2048 < f 0x0E 2 + x.codeBytes)) &&
  regs.all (fun r => decide (r.1 + r.2 ≤ osBytes) && !c.holdRefused r.1 r.2) && !anyMeet regs

/-- Whether a LOAD has beats to write into the queries of a walk (R190). -/
def queryHeld (c : Core) (d : List Byte) : Bool :=
  let first := fieldAt d 8 2
  let half := fieldAt d 0x0C 1
  c.xfers.any (fun p => !p.2.store && p.2.state != .done && decide (0x01000000 ≤ p.2.laddr) &&
    (List.range (p.2.beats - p.2.progress)).any (fun i => (p.2.lAddrs (p.2.progress + i)).any (fun l =>
      let o := l - 0x01000000
      decide (o % 8192 / 4096 = half) && decide (first ≤ o / 8192) && decide (o / 8192 < first + fieldAt d 0x0A 2))))

/-- The lanes of a walk with their queries as a read delivers them. -/
def Core.walkLanes (c : Core) (x : Copy) (d : List Byte) : List (Nat × List Byte) :=
  (List.range (fieldAt d 0x0A 2)).map (fun i =>
    let lane := fieldAt d 8 2 + i
    (lane, c.lwbRead (8192 * lane + 4096 * fieldAt d 0x0C 1 + fieldAt d 0x0E 2) x.codeBytes))

/-- The local ranges of the queries of a walk. -/
def queryRanges (x : Copy) (d : List Byte) : List (Nat × Nat) :=
  (List.range (fieldAt d 0x0A 2)).map (fun i =>
    (0x01000000 + 8192 * (fieldAt d 8 2 + i) + 4096 * fieldAt d 0x0C 1 + fieldAt d 0x0E 2, x.codeBytes))

/-- The end of a walk: its reads of nodes are charged, and its words, its visit bitmap and its staging
bytes (free, log 26) are in the operand store (R293, R295, R296). -/
def Walk.finish (w : Walk) (k : WalkCtx) (d : List Byte) : State :=
  let words := (k.lanes.map (fun l => leBytes 8 (w.word k l.1))).flatten
  let map := bitmapOf (roundUp (ceilDiv k.copy.lists 8) 64) w.visited
  let s := w.st.chargeDirect k.ctx k.copy (k.copy.region 2) (3 * w.nodes.length) 0
  let s := s.osWrite k.core (fieldAt d 0x10 4) words
  let s := s.osWrite k.core (fieldAt d 0x18 4) map
  s.fresh.2.osWrite k.core (fieldAt d 0x14 4) (leBytes 65536 s.fresh.1)

/-- The first lost page of a centroid that a walk broadcast (R370). -/
def Walk.lost (w : Walk) (k : WalkCtx) : Option Nat :=
  ((w.visited.map (fun j =>
    let off := k.copy.region 5 + k.copy.codeBytes * j
    [pageOf off, pageOf (off + k.copy.codeBytes - 1)])).flatten).find? (w.st.pageLost k.copy.id)

/-- A walk or filter meets a page that cannot be read (R370): it requests the page's promotion and waits for it at
the head of the sequencer, or fails its job where the page is POISONED. -/
def State.seekPage (s : State) (n : Nat) (j : Job) (pg : Nat × Nat) (pc : Nat) : State :=
  if s.pageState pg.1 pg.2 = .poisoned then (s.failJob j.ctx .weightsLost 8 pc).settle
  else (s.claimPage j.pod j.ctx pg).modCore n (fun c => { c with seek := some pg })

/-- SR.WALK (R228, R292 to R296). -/
def execSrWalk (n : Fin 32) (a : BitVec 5) (s : State) : Result :=
  s.issue n 8 true
    (fun c =>
      let at_ := (c.sreg a).toNat
      !descAtBad at_ && (c.opening.isSome || c.feeds || c.readHeld at_ 64 ||
        (let d := c.localRead at_ 64
         queryHeld c d || ((c.job.bind s.job?).bind (fun j => s.indexAt j (fieldAt d 0 8))).any (fun x =>
           (walkRegions x d).any (fun r => c.writeHeld r.1 r.2)))))
    fun s' j pc =>
      let before := s
      let s := s'
      let c := s.core n.val
      let at_ := (c.sreg a).toNat
      if descAtBad at_ then s.issueRefused j pc
      else
        let s := s.noteLocal n.val at_ 64
        if c.localLost at_ 64 then (s.jobFault j.ctx j.cores).settle
        else
          let d := c.localRead at_ 64
          match s.indexAt j (fieldAt d 0 8) with
          | none => s.issueRefused j pc
          | some x =>
            if !walkGood c x d then s.issueRefused j pc
            else
              let s := (queryRanges x d).foldl (fun s r => s.noteLocal n.val r.1 r.2) s
              if (queryRanges x d).any (fun r => c.localLost r.1 r.2) then (s.jobFault j.ctx j.cores).settle
              else
                let k : WalkCtx := { core := n.val, ctx := j.ctx, copy := x, lanes := c.walkLanes x d }
                let entry := if fieldAt d 0x1C 4 = 0xFFFFFFFF then x.field 0x0C 4 else fieldAt d 0x1C 4
                let w := walkFrom s k entry (fieldAt d 0x0D 1)
                match w.lost k with
                | some p => before.seekPage n.val j (x.id, p) pc
                | none => w.finish k d

/-! ### SR.FILT (R301 to R303) -/

/-- A filter run in progress: the survivors (identifier, key) latest first, the entries examined and
dropped, and whether it met a lost page or a side slot outside the index. -/
structure FiltStep where
  st       : State
  out      : List (Nat × Nat) := []
  examined : Nat := 0
  dropped  : Nat := 0
  lost     : Option Nat := none
  outside  : Option Nat := none
  deriving DecidableEq, Repr

/-- The identifier of an entry's tag: a tag from 2^47 on is a side slot (R297, R302). -/
def FiltStep.ident (f : FiltStep) (ctx : Nat) (x : Copy) (tag : Nat) : FiltStep × Option Nat :=
  if tag < 2 ^ 47 then (f, some tag)
  else
    let b := (tag - 2 ^ 47) / 128
    let off := x.sideAt b + 0x40 + 8 * ((tag - 2 ^ 47) % 128)
    if x.field 0x20 4 ≤ b then ({ f with outside := some off }, none)
    else if f.st.offsetLost x off then ({ f with lost := some (pageOf off) }, none)
    else ({ f with st := f.st.chargeDirect ctx x off 1 16384 }, some (x.sideIdent b ((tag - 2 ^ 47) % 128)))

/-- One entry examined (R302). An identifier at or above ident_cap names no record: it is not LIVE. -/
def FiltStep.entry (f : FiltStep) (ctx : Nat) (x : Copy) (filter : Option (List Byte)) (k : Nat) (e : W64) :
    FiltStep :=
  if k ≤ f.out.length ∨ f.lost.isSome = true ∨ f.outside.isSome = true then f
  else
    let f := { f with examined := f.examined + 1 }
    match f.ident ctx x (tkTag e) with
    | (f, none) => f
    | (f, some n) =>
      let f := { f with st := f.st.chargeDirect ctx x (x.region 3 + n / 8) 1 0 }
      if x.identCap ≤ n ∨ x.ident n ≠ .live then { f with dropped := f.dropped + 1 }
      else
        match filter with
        | none => { f with out := (n, tkKey e) :: f.out }
        | some bs =>
          let off := x.region 6 + 8 * n
          if f.st.offsetLost x off then { f with lost := some (pageOf off) }
          else
            let f := { f with st := f.st.chargeDirect ctx x off 1 16384 }
            if filterPasses bs (x.field off 8) then { f with out := (n, tkKey e) :: f.out }
            else { f with dropped := f.dropped + 1 }

/-- The result list (R303). -/
def FiltStep.result (f : FiltStep) (d : List Byte) : List Byte :=
  let flags := fieldAt d 0x1C 1
  let count := f.out.length
  let under := decide (count < fieldAt d 0x18 2)
  leBytes 2 count ++
  leBytes 2 (b2n under + 2 * b2n (bitOf flags 1) + 4 * b2n (bitOf flags 2) + 8 * b2n (bitOf flags 3) +
    16 * b2n (under && bitOf flags 0 && !bitOf flags 1)) ++
  leBytes 2 (fieldAt d 0x1A 2) ++ leBytes 2 0 ++ leBytes 4 f.examined ++ leBytes 4 f.dropped ++
  (f.out.reverse.map (fun p => leBytes 8 p.1 ++ leBytes 2 p.2 ++ List.replicate 6 0)).flatten

/-- Whether the descriptor names a filter. -/
def filtNamed (d : List Byte) : Bool := fieldAt d 0x10 4 != 0xFFFFFFFF

/-- The regions of a filter descriptor (R301): input entries, filter, result list. -/
def filtRegions (d : List Byte) : List (Nat × Nat) :=
  [(fieldAt d 8 4, 8 * fieldAt d 0x0C 4), (fieldAt d 0x14 4, 16 + 16 * fieldAt d 0x18 2)] ++
  (if filtNamed d then [(fieldAt d 0x10 4, 256)] else [])

/-- The fields of a filter descriptor keep R301. -/
def filtGood (c : Core) (d : List Byte) : Bool :=
  let f := fieldAt d
  let regs := filtRegions d
  f 8 4 % 64 == 0 && decide (f 0x0C 4 ≤ 4096) && f 0x14 4 % 64 == 0 && decide (1 ≤ f 0x18 2) &&
  decide (f 0x18 2 ≤ 4096) && decide (f 0x1C 1 < 16) && f 0x1D 3 == 0 &&
  regs.all (fun r => decide (r.1 + r.2 ≤ osBytes) && !c.holdRefused r.1 r.2) && !anyMeet regs &&
  (!filtNamed d || filterGood (c.osRead (f 0x10 4) 256))

/-- Whether the filter's address is refused. -/
def filtAtBad (a : Nat) : Bool := a % 32 != 0 || decide (osBytes < a + 32)

/-- The ranges that a filter step reads. -/
def filtReads (d : List Byte) : List (Nat × Nat) :=
  [(fieldAt d 8 4, 8 * fieldAt d 0x0C 4)] ++ (if filtNamed d then [(fieldAt d 0x10 4, 256)] else [])

/-- SR.FILT (R229, R301 to R303). -/
def execSrFilt (n : Fin 32) (a : BitVec 5) (s : State) : Result :=
  s.issue n 8 true
    (fun c =>
      let at_ := (c.sreg a).toNat
      !filtAtBad at_ && (c.readHeld at_ 32 ||
        (let d := c.osRead at_ 32
         c.writeHeld (fieldAt d 0x14 4) (16 + 16 * fieldAt d 0x18 2) ||
         (filtRegions d).any (fun r => c.readHeld r.1 r.2))))
    fun s' j pc =>
      let before := s
      let s := s'
      let c := s.core n.val
      let at_ := (c.sreg a).toNat
      if filtAtBad at_ then s.issueRefused j pc
      else
        let s := s.noteLocal n.val at_ 32
        if c.localLost at_ 32 then (s.jobFault j.ctx j.cores).settle
        else
          let d := c.osRead at_ 32
          let input := (fieldAt d 8 4, 8 * fieldAt d 0x0C 4)
          match s.indexAt j (fieldAt d 0 8) with
          | none => s.issueRefused j pc
          | some x =>
            if !filtGood c d then s.issueRefused j pc
            else
              let s := (filtReads d).foldl (fun s r => s.noteLocal n.val r.1 r.2) s
              if (filtReads d).any (fun r => c.localLost r.1 r.2) then (s.jobFault j.ctx j.cores).settle
              else
                let filter := if filtNamed d then some (c.osRead (fieldAt d 0x10 4) 256) else none
                let es := (pieces 8 (c.osRead input.1 input.2)).map (fun p => BitVec.ofNat 64 (le p))
                let f : FiltStep :=
                  es.foldl (fun (f : FiltStep) e => f.entry j.ctx x filter (fieldAt d 0x18 2) e) { st := s }
                if let some p := f.lost then
                  before.seekPage n.val j (x.id, p) pc
                else match f.outside with
                  | some off => (s.accessFault j.ctx ((fieldAt d 0 8 + off) % 2 ^ 64) pc).settle
                  | none => f.st.osWrite n.val (fieldAt d 0x14 4) (f.result d)

end Sys2Proof.Machine
end

