-- ==== Sys2Proof/Machine/Faults.lean ====
section
/-!
DEFINITION. Tile faults, job faults, fences and scrubbing (R194 to R197, R274, R363, R364, R373 to R377).
-/

namespace Sys2Proof.Machine

/-! ### Tile faults (R196, R274) -/

/-- The fault bit of a core: it is fenced. -/
def State.coreFenced (s : State) (n : Nat) : Bool := s.integ.fenced.getLsbD n

/-- Attributes a job fault to a core (R373). How many of the earlier ones lie within 10 s is a free value (log 27). -/
def State.attribute (s : State) (n : Nat) : State :=
  let old := (s.core n).faultCount
  let t := if old = 0 then s else s.fresh.2
  t.modCore n (fun c => { c with faultCount := min old s.fresh.1 + 1 })

/-- The core with a run under way discarded: the V and P registers and the scale state of its slot are as the run
before left them (R196, R259, R274). -/
def Core.dropRun (c : Core) (slot : Nat) : Core :=
  match c.run with
  | none => c
  | some r => { c with
      run := none, vregs := r.vregs, pregs := r.pregs, scale := Mem.write c.scale (64 * slot) r.scale, spilling := 0 }

/-- An ESTORE of a tile that is not DONE is dropped: the run that is repeated issues it again, from beat 0 (R140, R196). -/
def State.dropEstore (s : State) (n : Nat) (t : Tile) : State :=
  let x := (s.core n).xfer 7
  if x.estore && x.state != .done && x.tile == t.order then
    (s.modCore n (fun c => { c with xfers := assocDrop c.xfers 7 })).dropSlot n 7
  else s

/-- The core after a fault of its oldest open tile (R196). -/
def Core.tileFault (c : Core) (t : Tile) : Core :=
  { c.dropRun ((dEpilogue t.desc).getD 0) with
    tiles := c.tiles.modify 0 (fun t => { t with faults := t.faults + 1 }) }

/-- The core after a fault of the finish run of tile `i` of sweep `k` (R274). -/
def Core.finishFault (c : Core) (k i : Nat) (t : Tile) : Core :=
  { c.dropRun ((dEpilogue t.desc).getD 0) with
    sweeps := c.sweeps.modify k (fun w =>
      { w with tiles := w.tiles.modify i (fun x => { x with faults := x.faults + 1 }) }) }

/-- The end of a tile fault: the fourth fault of one tile or run is a job fault (R196, R274). -/
def State.afterTileFault (s : State) (n ctx faults : Nat) : State :=
  let s := s.count n 8 1
  if faults < 4 then s
  else match s.job? ctx with
    | some j => ((s.attribute n).jobFault ctx j.cores).settle
    | none => s

/-- Whether the word that a core issues next is an SR.WALK or SR.FILT. -/
def State.searching (s : State) (n : Nat) : Bool :=
  match s.issuing n with
  | none => false
  | some j =>
    let w := BitVec.ofNat 64 (Mem.field j.program (s.core n).pc 8)
    decide ((s.core n).pc < j.programRegion) && wClass w == 6 && (wOp w == 5 || wOp w == 6) && seqLegal w 0

/-- TILE_FAULT (R194, R196, R230, R274). The row names the core alone, and the fault strikes what the core works on:
the finish run under way; else the oldest open tile; else the finish run that is due; else the walk or filter at the head
of its sequencer (DESIGN CHOICE, log 20). What is struck is computed again from inputs that have not changed (R195). -/
def execTileFault (n : Fin 32) (s : State) : Result :=
  let c := s.core n.val
  match s.unitJob n.val with
  | none => .next s
  | some j =>
    match c.tiles, c.finishDue.bind (fun d => d.sweep) with
    | _, some (k, i) =>
      match c.sweepTile k i with
      | none => .next s
      | some p =>
        .next (((s.setCore n.val (c.finishFault k i p.2.tile)).dropEstore n.val p.2.tile).afterTileFault n.val j.ctx
          (p.2.faults + 1))
    | t :: _, none =>
      .next (((s.setCore n.val (c.tileFault t)).dropEstore n.val t).afterTileFault n.val j.ctx (t.faults + 1))
    | [], none =>
      if s.searching n.val then
        .next ((s.setCore n.val { c with searchFaults := c.searchFaults + 1 }).afterTileFault n.val j.ctx
          (c.searchFaults + 1))
      else .next s

/-! ### Job faults and fences (R197, R373 to R377) -/

/-- JOB_FAULT (R194, R197, R376, R377): a job fault of the job of a context, attributed to one of its cores
when the module finds one. -/
def execJobFault (ctx : Nat) (core : Option (Fin 32)) (s : State) : Result :=
  match s.job? ctx with
  | none => .next s
  | some j =>
    let mine := core.all (fun n => j.cores.contains n.val)
    if s.awake && j.onCores && mine then
      let s := match core with
        | some n => s.attribute n.val
        | none => s
      .next (s.jobFault ctx j.cores).settle
    else .next s

/-- Whether a core may be fenced now: the module runs and has not fenced it. -/
def State.fenceable (s : State) (n : Nat) : Bool :=
  decide (s.hw.phase = .running) && s.hw.started && !s.coreFenced n

/-- CORE_FENCE (R373): a failed check fences the core; with `repeated`, the third job fault attributed to it
within 10 s does, as part of that fault. -/
def execCoreFence (n : Fin 32) (repeated : Bool) (s : State) : Result :=
  if s.fenceable n.val = false then .next s
  else if repeated then
    if 3 ≤ (s.core n.val).faultCount then .next (s.fenceCore n.val 3 true).settle else .next s
  else .next (s.fenceCore n.val 1 false).settle

/-- HEARTBEAT_TIMEOUT (R373). -/
def execHeartbeatTimeout (n : Fin 32) (s : State) : Result :=
  if s.fenceable n.val then .next (s.fenceCore n.val 2 false).settle else .next s

/-! ### Scrubbing (R363, R364) -/

/-- The bytes of T1 word `w` of an owner changed by a mask (see `t1Base`). Frames and Cut records keep what was written
into them: their flash copy and the saved state stand for it (log 22). -/
def State.t1Xor (s : State) (w : Nat) (mask : BitVec 64) : State :=
  let owner := w / 2 ^ 64
  let at_ := w % 2 ^ 64
  if owner = 0 then { s with link := { s.link with aperture := Mem.xorWord s.link.aperture at_ mask } }
  else if owner < 100 then s.modInbox (owner - 1) (fun b => { b with mem := Mem.xorWord b.mem at_ mask })
  else if spillOwner 0 ≤ owner ∧ owner < spillOwner 32 then
    s.modCore (owner - spillOwner 0) (fun c => { c with spill := Mem.xorWord c.spill at_ mask })
  else { s with jobs := s.jobs.map (fun j =>
    if j.handle + 100 = owner then { j with writable := Mem.xorWord j.writable at_ mask } else j) }

/-- A scrub of a beat of T1, by requester 38: a correctable error is made good and written back. -/
def State.scrubT1 (s : State) (beat : Nat) : State :=
  let port := Config.t1Port beat % 48
  let s := s.count (32 + port) 5 1
  match s.integ.t1Ecc.find? (fun k => k.unit / 8 == beat) with
  | none => s
  | some k =>
    match k.t1 with
    | .lost => s.recordRow (.t1 beat)
    | .good => ((s.count (32 + port) 4 1).rowError (.t1 beat)).t1Write port 38 (8 * beat)
    | .changed x =>
      if Config.eccBeyond k.unit k.data k.check = 1 then
        (((s.count (32 + port) 4 1).rowError (.t1 beat)).t1Xor k.unit x).t1Write port 38 (8 * beat)
      else s

/-- A scrub of a word of a core's SRAM, given its mark and how to write the word. -/
def State.scrubSram (s : State) (n : Nat) (u : ScrubUnit) (mark : Option EccMark) (word : Nat)
    (write : State → Nat → List Byte → State) : State :=
  match mark with
  | none => s
  | some k =>
    match k.sram with
    | .lost => s.recordRow u
    | .good => write ((s.count n 10 1).rowError u) (8 * k.unit) (leBytes 8 word)
    | .changed x =>
      if Config.eccBeyond k.unit k.data k.check = 1 then
        write ((s.count n 10 1).rowError u) (8 * k.unit) (leBytes 8 ((BitVec.ofNat 64 word ^^^ x).toNat))
      else s

/-- SCRUB (R363, R364): one unit is read; a corrected unit is written back, an uncorrectable one stays. -/
def execScrub (u : ScrubUnit) (s : State) : Result :=
  if s.hw.phase ≠ .running ∨ s.hw.started = false then .next s
  else match u with
    | .t1 beat => .next (s.scrubT1 beat)
    | .operandStore n w =>
      let c := s.core n.val
      .next (s.scrubSram n.val u (c.osEcc.find? (fun k => k.unit == w)) (Mem.field c.os (8 * w) 8)
        (fun s a bs => s.osWrite n.val a bs))
    | .staging _ => .next s
    | .mapStore _ => .next s
    | .laneBuffer n w =>
      let c := s.core n.val
      .next (s.scrubSram n.val u (c.lwbEcc.find? (fun k => k.unit == w)) (Mem.field c.lwb (8 * w) 8)
        (fun s a bs => s.lwbWrite n.val a bs))

end Sys2Proof.Machine
end

