-- ==== Sys2Proof/Machine/Media.lean ====
section
/-!
DEFINITION. Flash media management (chapter 11): staging, merges, erases, relocations, checkpoints, rebuilt pages,
and the flush and rebuild around a loss of power. The array, the journal and the log chains are in
`Machine/Flash.lean` and `Machine/Journal.lean`, the objects of the array in `Machine/Objects.lean`.
-/

namespace Sys2Proof.Machine

/-! ### Staging (R319, R320) -/

/-- Sectors of logical block `part` of an object that a range of `n` sectors from `first` names: the first
of them in the block, and their number. -/
def rangeIn (first n part : Nat) : Nat × Nat :=
  let lo := max first (part * lbSectors)
  let hi := min (first + n) ((part + 1) * lbSectors)
  (lo - part * lbSectors, hi - lo)

/-- The logical blocks of an object that a range touches. -/
def partsOf (first n : Nat) : List Nat :=
  if n = 0 then [] else
    (List.range ((first + n - 1) / lbSectors + 1 - first / lbSectors)).map (fun i => first / lbSectors + i)

/-- The sectors of a range that lie in logical blocks covered in part: block and sector in it. Only the first
and the last block of a range can be covered in part. -/
def partSectors (first n : Nat) : List (Nat × Nat) :=
  let ps := partsOf first n
  let ends := if ps.length ≤ 1 then ps else [ps.headD 0, ps.getLastD 0]
  ((ends.filter (fun p => (rangeIn first n p).2 != lbSectors)).map (fun p =>
    let r := rangeIn first n p
    (List.range r.2).map (fun i => (p, r.1 + i)))).flatten

/-- The volume that a command's handle names. -/
def State.volume? (s : State) (h : Nat) : Option Obj :=
  match s.obj? h with
  | some o => if o.kind = .volume then some o else none
  | none => none

/-- Whether an UNMAP record of a logical block that a command touches waits to be programmed (R331). -/
def State.unmapQueued (s : State) (c : Cmd) : Bool :=
  match s.volume? c.object with
  | none => false
  | some o =>
    (partsOf c.p0 c.p1).any (fun p =>
      s.media.waiting.any (fun r => r.type == 3 && r.lblock == s.lbPlace (lbNum o.num p)))

/-- Completes a command that waited for its staged entries and records, once none is left (R331, R441). -/
def State.stagedDone (s : State) (u : Nat) : State :=
  match s.cmd? u with
  | none => s
  | some c =>
    if s.media.staging.any (fun e => e.uid == some u) then s
    else if c.opcode = 0x12 ∧ c.begun ∧ c.progress = (partSectors c.p0 c.p1).length ∧ s.unmapQueued c = false then
      s.complete u { status := .ok }
    else if c.opcode = 0x11 ∧ c.whole ∧ c.progress = c.payload.length / 4096 then
      s.complete u (c.verdict.getD { status := .ok, result0 := c.progress })
    else s

/-- Whether the media work now: not held, not off, not in HARD_ERROR (R404) nor in recovery or a firmware
commit (R393, R396) nor in a life-cycle change (R390), the flash back-end on (R444). -/
def State.mediaRuns (s : State) : Bool :=
  decide (s.hw.phase = .running) && s.hw.started && decide (s.hw.pstate ≠ .sleep) &&
  decide (s.sec.err ≠ .hard) && decide (s.sec.boot = 0) && !s.sec.lcBusy

/-- STAGING_PROGRAM (R319, R320, R332): staged sectors of a logical block are programmed into its log block. Where a
program fails (`good` false), a superblock just opened retires, and one that holds entries is relocated and then
retires; the sectors stay staged. -/
def execStagingProgram (lb : Nat) (p : LogProgram) (s : State) : Result :=
  let mine := s.media.staging.filter (fun e => e.lb == lb)
  let l := s.lblock lb
  if s.mediaRuns = false ∨ mine = [] then .next s
  else if l.logFull ∧ (4 ≤ l.chain.length ∨ 4096 ≤ s.logsUsed ∨ s.locFree p.loc true .log = false) then .next s
  else if p.good = false then
    .next (if l.logFull then (s.retireSb p.loc).sync
      else match l.chain.getLast? with
        | some b => s.setSb { s.sblock b.loc with failing := true }
        | none => s)
  else
    let us := (mine.filterMap (fun e => e.uid)).dedup
    .next (us.foldl State.stagedDone (s.programLog lb p.loc).sync).settle

/-! ### Merges (R321 to R324, R326) -/

/-- The distinct sectors of log entries, ascending. -/
def entrySectors (es : List LogEntry) : List Nat := es.foldl (fun l e => insertNat e.sector l) []

/-- The kind of a merge of these entries: 0 switch, 1 partial, 2 full (R322). -/
def mergeKind (es : List LogEntry) : Nat :=
  let ss := entrySectors es
  if ss.length = lbSectors then 0
  else if ss.zipIdx.all (fun p => p.1 == p.2 || p.1 + ss.length == lbSectors + p.2) then 1 else 2

/-- A SECURE_DISCARD under way names sectors of a logical block (R321 case 5). -/
def State.secured (s : State) (l : LBlock) : Bool :=
  s.link.cmds.any (fun c => c.opcode == 0x13 && c.begun && !c.finished &&
    (match s.volume? c.object with
     | some o => o.num == l.owner && decide (0 < (rangeIn c.p0 c.p1 l.part).2)
     | none => false))

/-- Whether the chain of a logical block is full: it can take no further entry (R320, R321 case 1). -/
def LBlock.chainFull (l : LBlock) : Bool :=
  decide (4 * logEntries ≤ (chainEntries l.chain).length) || (decide (4 ≤ l.chain.length) && l.logFull)

/-- Whether the fold engine merges a logical block now, idle time apart (R321). -/
def State.mergeDue (s : State) (l : LBlock) : Bool :=
  l.chainFull || decide ((entrySectors (chainEntries l.chain)).length = lbSectors) ||
  (decide (4096 < s.logsUsed + 512) &&
    s.media.lblocks.all (fun x => x.chain.isEmpty || decide (l.lastAt ≤ x.lastAt))) ||
  (s.secured l && !(s.media.staging.any (fun e => e.lb == l.num)))

/-- The modes of the superblocks that a merge of a logical block writes: one four-bit superblock, or those of its
tier (R322). -/
def State.mergeModes (s : State) (l : LBlock) : List Bool :=
  if l.mapped = [] then [false] else l.mapped.map (fun p => (s.sblock p).oneBit)

/-- Begins a merge into the superblocks at `locs` (R322, R323, R326): the jseq of its COMMIT record is reserved
before they are opened, and stands in their headers with folded_through. -/
def State.startMerge (s : State) (l : LBlock) (locs : List SbLoc) : State :=
  let j := s.newJseq
  let s := locs.foldl (fun s p =>
    let o := s.openSb p .t2 .copying l.num (some j.1)
    o.2.setSb { o.2.sblock p with folded := l.folds l.chain }) j.2
  s.setLb { l with
    chain := []
    merge := some { locs := locs, seq := s.media.nextSeq - 1, jseq := j.1, frozen := l.chain
                    kind := mergeKind (chainEntries l.chain) } }

/-- Whether a merge of a logical block may begin into the named superblocks. -/
def State.mergeable (s : State) (l : LBlock) (locs : List SbLoc) : Bool :=
  let modes := s.mergeModes l
  s.mediaRuns && l.merge.isNone && !l.chain.isEmpty && decide (locs.length = modes.length) && decide locs.Nodup &&
  (locs.zip modes).all (fun x => s.locFree x.1 x.2 .t2)

/-- MERGE_START (R321 cases 1, 2, 3, 5). -/
def execMergeStart (lb : Nat) (locs : List SbLoc) (s : State) : Result :=
  let l := s.lblock lb
  if s.mergeable l locs && s.mergeDue l then .next (s.startMerge l locs) else .next s

/-- LOG_IDLE_TIMEOUT (R321 case 4): 10 s without an entry and 100 ms of idle flash. -/
def execLogIdleTimeout (lb : Nat) (locs : List SbLoc) (s : State) : Result :=
  let l := s.lblock lb
  if s.mergeable l locs && !(s.media.staging.any (fun e => e.lb == lb)) then .next (s.startMerge l locs)
  else .next s

/-- The copy of a merge is closed, and its COMMIT record queued for the journal (R326). -/
def State.commitMerge (s : State) (lb : Nat) : State :=
  let l := s.lblock lb
  match l.merge with
  | none => s
  | some m =>
    if m.closed then s
    else
      let s := m.locs.foldl (fun s p => s.setSb { s.sblock p with closed := true }) s
      let s := s.setLb { l with merge := some { m with closed := true } }
      (s.queueRec
        { jseq := m.jseq, type := 1, lblock := s.lbPlace lb, newSeq := m.seq, oldSeq := l.seq, newLocs := m.locs
          oldLoc := l.mapped.head? }).sync

/-- MERGE_COMMIT (R323, R324, R326, R332): where a program of the copy has failed (`good` false), its first
superblock retires and the merge has to begin again. -/
def execMergeCommit (e : MergeEnd) (s : State) : Result :=
  if s.mediaRuns = false then .next s
  else if e.good then .next (s.commitMerge e.lb)
  else match (s.lblock e.lb).merge with
    | none => .next s
    | some m =>
      if m.closed then .next s
      else
        let s := s.abandonMerge (s.lblock e.lb)
        .next ((match m.locs.head? with
          | some p => s.retireSb p
          | none => s).sync)

/-! ### Erases and relocations (R326, R329, R330, R332, R334) -/

/-- SUPERBLOCK_ERASE (R326 step 3, R331, R332): a released superblock is erased once the record that releases it is
programmed; when the erase fails, it retires. What a retired one still holds may be erased, too. -/
def execSuperblockErase (loc : SbLoc) (good : Bool) (s : State) : Result :=
  let b := s.sblock loc
  if s.mediaRuns = false then .next s
  else if b.role = .released ∧ b.freed ≤ s.media.nextProg then
    .next (if good then s.eraseSb loc else s.retireSb loc).sync
  else if b.role = .retired ∧ good = true then
    .next ((s.setSb { b with owners := [] }).count (groupBlock loc) 3 1)
  else .next s

/-- Whether a superblock is due for relocation (R330, R332, R334). -/
def State.relocDue (s : State) (b : SBlock) : Bool :=
  b.rebuilt || b.failing || decide (100000 ≤ b.reads) || decide (b.wear + 3000 < s.setWear b.loc) ||
  s.setFailed b.loc.dieSet.val

/-- A logical block with a superblock replaced by its copy. -/
def LBlock.moved (l : LBlock) (src dst : SbLoc) (seq : Nat) : LBlock :=
  let log := fun (b : LogBlock) => if b.loc = src then { b with loc := dst, seq := seq } else b
  { l with
    mapped := l.mapped.map (fun p => if p = src then dst else p)
    seq := if l.mapped.contains src then seq else l.seq
    chain := l.chain.map log }

/-- Whether a superblock may be relocated now: it is mapped and its logical block is not being merged, or it is the
last log block of a chain, whose new number then stays the highest of the chain (R315, R328; log 65). -/
def State.movable (s : State) (loc : SbLoc) : Bool :=
  match (s.sblock loc).role with
  | .mapped => s.media.lblocks.all (fun l => !l.mapped.contains loc || l.merge.isNone)
  | .log => s.media.lblocks.any (fun l => ((l.chain.getLast?).map (fun b => b.loc)) == some loc)
  | .free => false
  | .copying => false
  | .released => false
  | .retired => false

/-- RELOCATION (R118, R326, R330, R334): a mapped superblock or log block is copied within its tier, its record
committed, and the source released; of a die set with a failed die, or after a failed program, it retires. It
begins when no reserved jseq is outstanding, so that its own record follows at once (log 65). -/
def execRelocation (src dst : SbLoc) (s : State) : Result :=
  let b := s.sblock src
  let duty := (s.sblock dst).duty
  if s.mediaRuns = false ∨ s.movable src = false ∨ s.relocDue b = false ∨ s.erased dst b.oneBit = false ∨
      (b.oneBit = true ∧ duty ≠ b.duty ∧ duty ≠ .spare) ∨ s.media.nextProg ≠ s.media.nextJseq then .next s
  else
    let j := s.newJseq
    let q := j.2.newSeq
    let s := q.2.setSb { q.2.sblock dst with
      role := b.role, duty := b.duty, seq := q.1, jseq := some j.1, lblock := b.lblock, folded := b.folded
      closed := b.closed, owners := b.owners }
    let s : State := { s with media := { s.media with
      lblocks := s.media.lblocks.map (fun l => l.moved src dst q.1) } }
    let s := s.setSb { b with role := .released, duty := duty, freed := j.1 + 1 }
    let s := s.queueRec
      { jseq := j.1, type := 5, lblock := s.lbPlace b.lblock, newSeq := q.1, oldSeq := b.seq, newLocs := [dst]
        oldLoc := some src }
    .next (if s.setFailed src.dieSet.val || b.failing then s.retireSb src else s).sync

/-- The superblocks of the journal role, in the order of their ring (log 63). -/
def State.journalRing (s : State) : List SbLoc :=
  let shipped := (List.range SbDuty.journal.size).map (fun i => sbAt (SbDuty.journal.base + i))
  let others := (s.media.sblocks.map (fun b => b.loc)).filter (fun l => !shipped.contains l)
  (shipped ++ others).filter (fun l =>
    let b := s.sblock l
    b.oneBit && b.duty == .journal && b.role != .retired)

/-- JOURNAL_CHECKPOINT (R325): the map store is written, and the records before it are no longer needed; the journal
goes on in the next superblock of its ring, and the one it leaves is erased. It waits while a record does. -/
def execJournalCheckpoint (s : State) : Result :=
  if s.mediaRuns = false ∨ s.media.journal = [] ∨ s.media.nextProg ≠ s.media.nextJseq then .next s
  else
    let s := (s.jrec 6 noLblock 0 0 [] none).sync
    let ring := s.journalRing
    let old := ring[s.media.ring % max 1 ring.length]?
    let s := ({ s with media := { s.media with
      journal := [], checkpointJseq := s.media.nextJseq - 1, ring := s.media.ring + 1
      checkpoint := (s.media.lblocks.filter (fun (l : LBlock) => l.mapped != [])).map (fun (l : LBlock) => (s.lbPlace l.num, l.mapped))
      checkpoints := s.media.checkpoints + 1 } }).count 98 3 1
    .next (match old with
      | some l => (s.eraseSb l).sync
      | none => s)

/-- A sector marked bad where a superblock holds it (R329). -/
def LBlock.spoil (l : LBlock) (loc : SbLoc) (sec : Nat) : LBlock :=
  let bad := fun (x : Sector) => { x with bad := true }
  let log := fun (b : LogBlock) =>
    if b.loc = loc then { b with entries := b.entries.map (fun e =>
      if e.sector = sec then { e with data := e.data.map bad } else e) }
    else b
  { l with
    content := if l.mapped.contains loc then assocSet l.content sec (bad (lookupD l.content sec zeroSector))
      else l.content
    chain := l.chain.map log
    merge := l.merge.map (fun m => { m with frozen := m.frozen.map log }) }

/-- STRIPE_REBUILD (R329): a page of a superblock failed its decode. Rebuilt from its stripe row it counts, and the
superblock is due for relocation; else its sectors are lost. Where two dies of the set have failed, no row of theirs
can be rebuilt. -/
def execStripeRebuild (at_ : RebuildAt) (rebuilt : Bool) (s : State) : Result :=
  let two := fun (loc : SbLoc) => decide (2 ≤ s.diesFailed loc.dieSet.val)
  match at_ with
  | .sectors loc sectors =>
    let b := s.sblock loc
    if s.mediaRuns = false ∨ (b.role ≠ .mapped ∧ b.role ≠ .log) ∨ 4 < sectors.length ∨
        (rebuilt = true ∧ two loc = true) then .next s
    else
      let s := s.count (groupBlock loc) 4 1
      if rebuilt then
        .next ((s.setSb { b with rebuilt := true }).count (groupBlock loc) 5 1)
      else
        .next (({ s with media := { s.media with
          lblocks := s.media.lblocks.map (fun l => sectors.foldl (fun l x => l.spoil loc x) l) } }).mediaEvent 3)
  | .object copy page =>
    match (s.copy? copy).bind (fun c => s.pageLoc c page) with
    | none => .next s
    | some loc =>
      if s.mediaRuns = false ∨ (rebuilt = true ∧ two loc = true) then .next s
      else
        let s := s.count (groupBlock loc) 4 1
        if rebuilt then
          .next ((s.setSb { s.sblock loc with rebuilt := true }).count (groupBlock loc) 5 1)
        else
          .next (s.modCopy copy (fun c =>
            if c.unreadable.contains page then c else { c with unreadable := c.unreadable ++ [page] }))

/-- DIE_FAIL (R330). -/
def execDieFail (dieSet : Fin 144) (die : Fin 16) (s : State) : Result :=
  if s.media.failedDies.contains (dieSet.val, die.val) then .next s
  else .next { s with media := { s.media with failedDies := s.media.failedDies ++ [(dieSet.val, die.val)] } }

/-- MAP_ENTRY_REBUILD (R369): a map-store entry is rebuilt from checkpoint and journal, to the same value. -/
def execMapEntryRebuild (lb : Nat) (s : State) : Result :=
  if s.mediaRuns = false ∨ (s.lblock? lb).isNone then .next s
  else .next ((s.recordRow (.mapStore lb)).integEvent 4)

/-! ### Loss of power (R327, R328) -/

/-- Programs every staged sector into its log block (R327 step 2). -/
def State.drain (fuel : Nat) (s : State) : State :=
  match fuel with
  | 0 => s
  | fuel + 1 =>
    match s.media.staging with
    | [] => s
    | e :: _ => State.drain fuel (s.programLog e.lb (s.pickLoc true .log))

/-- Copies in progress are abandoned unclosed (R327 step 2). -/
def State.abandonOpen (s : State) : State :=
  (s.media.lblocks.filter (fun l => l.merge.any (fun m => !m.closed))).foldl State.abandonMerge s

/-- Step 3 of R327 when the hold-up bank gives out: some of the pending records are programmed, the next one may be
torn, and the others are missing, which of them the spec leaves open. -/
def State.tear (s : State) : State :=
  let n := s.fresh
  let k := n.1 % (s.media.waiting.length + 1)
  let s := State.programNext k n.2
  let torn := s.media.waiting ≠ [] ∧ n.1 / (s.media.waiting.length + k + 1) % 2 = 1
  { s with media := { s.media with
      torn := if torn then some s.media.nextProg else none, waiting := [], nextJseq := s.media.nextProg } }

/-- Steps 1 to 3 of R327: copies in progress are abandoned, every staged sector reaches its log block, and
the pending records and a SHUTDOWN record follow if the hold-up bank carries the sequence to its end. -/
def State.flush (s : State) (holds : Bool) : State :=
  let s := s.abandonOpen
  let s := State.drain s.media.staging.length s
  let s := if holds then (s.jrec 7 noLblock 0 0 [] none).sync else s.tear
  { s with hw := { s.hw with clean := holds } }

/-- A record applied to the map (R328): COMMIT and RELOCATE name new copies. -/
def applyRec (m : List (Nat × List SbLoc)) (r : JRec) : List (Nat × List SbLoc) :=
  match r.type with
  | 1 => assocSet m r.lblock r.newLocs
  | 3 => assocDrop m r.lblock
  | 5 => m.map (fun x =>
      if x.1 = r.lblock then (x.1, x.2.map (fun p => if some p = r.oldLoc then r.newLocs.headD p else p)) else x)
  | _ => m

/-- The map that checkpoint, journal and superblock headers give (R328): the closed copy that the torn record was to
name wins over an older one. -/
def State.journalMap (s : State) : List (Nat × List SbLoc) :=
  let m := s.media.journal.foldl applyRec s.media.checkpoint
  let closed := s.media.sblocks.filter (fun b =>
    s.media.torn.isSome && b.jseq == s.media.torn && b.closed && b.role == .copying)
  match closed with
  | [] => m
  | b :: _ =>
    let lb := s.lbPlace b.lblock
    let old := ((lookupD m lb []).map (fun p => (s.sblock p).seq)).foldl Nat.max 0
    if old < b.seq then assocSet m lb (closed.map (fun x => x.loc)) else m

/-- A logical block as the rebuild finds it: a copy that the map names is committed, and any other is discarded and
its superblocks are free (R328). -/
def State.rebuildLb (s : State) (map : List (Nat × List SbLoc)) (l : LBlock) : State :=
  match l.merge with
  | none => s
  | some m =>
    if lookupD map (s.lbPlace l.num) [] = m.locs then s.finishMerge l m
    else (s.release_ m.locs 0).setLb { l with chain := m.frozen ++ l.chain, merge := none }

/-- The log blocks of a logical block that a rebuild finds: those above folded_through, by sequence number. -/
def LBlock.chains (l : LBlock) : LBlock := { l with chain := l.chain.filter (fun b => decide (l.foldedThrough < b.seq)) }

/-- The rebuild of the map store (R328), which also writes MEDIA_WEAR and MEDIA_SPARE, and releases the blocks of a
copy whose removal the loss of power has cut short. -/
def State.rebuild (s : State) : State :=
  let s := if s.hw.clean then s else s.mediaEvent 0
  let map := s.journalMap
  let s := s.media.lblocks.foldl (fun s l => s.rebuildLb map l) s
  let s : State := { s with
    media := { s.media with
      lblocks := s.media.lblocks.map LBlock.chains, torn := none, shown := true
      waiting := [], nextJseq := s.media.nextProg }
    hw := { s.hw with clean := false } }
  let owners := ((s.media.runs.map (fun r => r.1 / 2097152)).dedup).filter
    (fun o => decide (4096 ≤ o) && (s.copy? (o - 4096)).isNone)
  owners.foldl State.unmapOwner s

end Sys2Proof.Machine
end

