-- ==== Sys2Proof/Machine/Spool.lean ====
section
/-!
DEFINITION. The Spool rows: bring-up of ports, frames received, requests and their ends (chapter 12, R402).
-/

namespace Sys2Proof.Machine

/-- The code of a life-cycle state (R387). -/
def LcState.code (l : LcState) : Nat :=
  match l with
  | .blank => 0
  | .seeded => 1
  | .service => 2
  | .retired => 3

/-! ### Ports up and down (R342, R344 to R347, R445) -/

/-- Reasons of SPOOL_PORT.FAIL. -/
def failTraining : Nat := 1
/-- FEC_LOCK. -/
def failFecLock : Nat := 2
/-- ID_CLASH. -/
def failIdClash : Nat := 3
/-- PEER_STATE. -/
def failPeerState : Nat := 4
/-- AUTH. -/
def failAuth : Nat := 5
/-- ERROR_RATE. -/
def failErrorRate : Nat := 6
/-- DISABLED. -/
def failDisabled : Nat := 7
/-- SLEEP. -/
def failSleep : Nat := 8

/-- A port that has fallen back to DOWN with a reason: its keys, retry buffer and credits are gone. -/
def Port.fallen (p : Port) (reason : Nat) : Port :=
  { fail := reason, slow := p.slow, enable := p.enable }

/-- Takes a port to DOWN (R342, R347): leaving ACTIVE sets PORT_DOWN and raises the admin queue's vector. -/
def State.portDown (s : State) (p reason : Nat) : State :=
  let old := (s.port p).state
  if old = .down then s
  else
    let s := s.modPort p (fun x => x.fallen reason)
    if old = .active then (s.spoolEvent 1).raise 0 else s

/-- Takes a port to DOWN for a reason that the manual does not name: FAIL holds a free value. -/
def State.portDownFree (s : State) (p : Nat) : State :=
  if (s.port p).state = .down then s
  else
    let n := s.fresh
    n.2.portDown p (n.1 % 256)

/-- Takes every port to DOWN. -/
def State.portsDown (s : State) (reason : Nat) : State :=
  (List.range 8).foldl (fun s p => s.portDown p reason) s

/-- Takes every port to DOWN for a reason that the manual does not name. -/
def State.portsDownFree (s : State) : State := (List.range 8).foldl State.portDownFree s

/-- Whether Spool ports work: the module runs outside Sleep, recovery and HARD_ERROR (R393, R404, R445). -/
def State.spoolRuns (s : State) : Bool :=
  decide (s.hw.phase = .running) && decide (s.hw.pstate ≠ .sleep) && decide (s.sec.boot ≠ 1) &&
  decide (s.sec.lc ≠ .blank) && decide (s.sec.err ≠ .hard)

/-! ### The fabric cages (R435) -/

/-- The port, and the lane of it, that lane `i` of a cage is. -/
def cageLane (cage : Fin 4) (i : Fin 8) : Nat × Nat := (2 * cage.val + i.val / 4, i.val % 4)

/-- The cage of a port. -/
def cageOf (port : Fin 8) : Nat := port.val / 2

/-- Whether the module holds MODRST# of a cage active: both of its ports are DOWN with ENABLE 0. -/
def State.modReset (s : State) (cage : Fin 4) : Bool :=
  [2 * cage.val, 2 * cage.val + 1].all (fun p => decide ((s.port p).state = .down) && !(s.port p).enable)

/-- Whether the module holds LPMODE of its cages active: in Sleep. -/
def State.lowPower (s : State) : Bool := decide (s.hw.pstate = .sleep)

/-- PORT_TRAIN_START (R342): a signal is detected, so a cable or module stands in the port's cage, whose MODPRS# is active
(R435; log 62). -/
def execPortTrainStart (port : Fin 8) (s : State) : Result :=
  let p := s.port port.val
  if s.spoolRuns = true ∧ p.state = .down ∧ p.enable = true ∧ s.spool.valid = true then
    let s : State := { s with hw := { s.hw with cages := s.hw.cages ||| BitVec.ofNat 4 (2 ^ cageOf port) } }
    .next (s.modPort port.val (fun p => { p with state := .train }))
  else .next s

/-- PORT_TRAINING_DONE (R340, R342): the four lanes are trained at one rate. -/
def execPortTrainingDone (port : Fin 8) (slow : Bool) (s : State) : Result :=
  if s.spoolRuns = true ∧ (s.port port.val).state = .train then
    .next (s.modPort port.val (fun p => { p with state := .align, slow := slow }))
  else .next s

/-- FEC_LOCK (R342, R343): the port enters HELLO and sends the module's HELLO message. -/
def execFecLock (port : Fin 8) (s : State) : Result :=
  if s.spoolRuns = true ∧ (s.port port.val).state = .align then
    let message := Config.helloMessage s.spool.moduleId s.sec.lc.code Config.ownChain
    .next ((s.linkFrames 8 message).foldl (fun s f => s.putFrame port.val f)
      (s.modPort port.val (fun p => { p with state := .hello })))
  else .next s

/-- PORT_STATE_TIMEOUT (R342): the bound of the port's state has passed. The manual names no reason for
a HELLO message that does not arrive. -/
def execPortStateTimeout (port : Fin 8) (s : State) : Result :=
  match (s.port port.val).state with
  | .down => .next s
  | .train => .next (s.portDown port.val failTraining)
  | .align => .next (s.portDown port.val failFecLock)
  | .hello => .next (s.portDownFree port.val)
  | .secure => .next (s.portDown port.val failAuth)
  | .active => .next s

/-- LINK_FRAME_TIMEOUT (R347): the manual names no reason for it. -/
def execLinkFrameTimeout (port : Fin 8) (s : State) : Result :=
  if s.portUp port.val then .next (s.portDownFree port.val) else .next s

/-- FEC_LOCK_LOSS (R347). -/
def execFecLockLoss (port : Fin 8) (s : State) : Result :=
  if s.portUp port.val then .next (s.portDown port.val failFecLock) else .next s

/-- ERROR_RATE_LIMIT (R347): too many resend requests or tag failures. -/
def execErrorRateLimit (port : Fin 8) (s : State) : Result :=
  if s.portUp port.val then .next (s.portDown port.val failErrorRate) else .next s

/-- REKEY_TIMER (R344): 2^31 frames or an hour have passed; the exchange into the unused slot begins. -/
def execRekeyTimer (port : Fin 8) (s : State) : Result :=
  if s.portUp port.val then
    let due := (s.port port.val).rekey
    let s := s.modPort port.val (fun p => { p with rekey := true, txCount := 0 })
    .next (if due then s else s.startKey port.val)
  else .next s

/-! ### Frames received (R343 to R346) -/

/-- Whether a port can read a frame in its state (R344): an ACTIVE port any, a port in HELLO or SECURE clear ones. -/
def Port.reads (p : Port) (f : Frame) : Bool :=
  p.state == .active || ((p.state == .hello || p.state == .secure) && !f.guarded)

/-- Receives a frame: a tag or CRC that fails discards it, so does a frame out of lseq order; an ACTIVE port
discards clear frames but KEY, and a frame that breaks R343 is discarded with no response. Before ACTIVE no frame moves
but HELLO, KEY and LINK. A good frame is passed on. -/
def State.receive (s : State) (port : Nat) (f : Frame) (pass : State → State) : Result :=
  let p := s.port port
  if s.spoolRuns = false ∨ p.reads f = false then .next s
  else if f.good = false then .next (s.count (90 + port) 5 1)
  else if p.state = .active ∧ f.guarded = false ∧ f.ftype ≠ 7 then .next (s.spoolEvent 5)
  else if f.ftype ≠ 8 ∧ f.lseq.toNat ≠ p.rxSeq then .next s
  else
    let s := (s.modPort port (fun p => { p with rxSeq := (f.lseq.toNat + 1) % 2 ^ 32 })).count (90 + port) 2 1
    if f.clean = false then .next (s.spoolEvent 5)
    else if p.state = .active ∨ oneLink f = true then .next (pass s)
    else .next s

/-- MALFORMED_FRAME (R343): a frame of no listed type, or with a reserved field that is not zero. -/
def execMalformedFrame (port : Fin 8) (f : Frame) (s : State) : Result :=
  if f.clean then .next s else s.receive port.val f (fun s => s)

/-- Answers a request by a frame, both counted as fabric service (R357). -/
def State.serve (s : State) (f answer : Frame) : State := (s.respond answer).service (f.bytes + answer.bytes)

/-- A frame for another module goes on toward it; with no hops left or no route it is discarded, and a
request is answered by a NAK (R352), both counted as fabric service (R357). -/
def State.forward (s : State) (port : Nat) (f : Frame) : State :=
  let nak := fun (s : State) =>
    if f.ftype = 1 ∨ f.ftype = 3 then s.serve f (s.nakFor f .fabricUnreachable) else s
  if f.hops = 0 then nak (s.spoolEvent 3)
  else match s.routeOut f with
    | some s => (s.count (90 + port) 6 1).service f.bytes
    | none => nak (s.spoolEvent 2)

/-- Consumes a frame whose destination is this module, and forwards any other. -/
def State.take (s : State) (port : Nat) (f : Frame) (here : State → State) : State :=
  if f.dst.toNat = s.spool.moduleId.toNat then here s else s.forward port f

/-- A response to a request frame. -/
def State.reply (s : State) (f : Frame) (ftype : Nat) (payload : List Byte) : Frame :=
  { f with
    ftype := BitVec.ofNat 8 ftype, dst := f.src, src := s.spool.moduleId.zeroExtend 16
    payloadLen := BitVec.ofNat 16 payload.length, payload := payload, arg := 0
    hops := BitVec.ofNat 8 s.initialHops, flags := BitVec.ofNat 8 (16 * f.cls) }

/-- Refuses a request by a NAK; an access that R351 refuses sets DENIED. -/
def State.deny (s : State) (f : Frame) (st : Status) : State :=
  let s := if st = .pageFaultFatal then s.spoolEvent 4 else s
  s.serve f (s.nakFor f st)

/-- RD_REQ (R351, R353): served from the export range, denied or forwarded. -/
def execRdReq (port : Fin 8) (f : Frame) (s : State) : Result :=
  if f.ftype ≠ 1 then .next s
  else s.receive port.val f (fun s => s.take port.val f (fun s =>
    match s.serveRead f.src.toNat f.tenant.toNat f.offset.toNat f.arg.toNat with
    | .bytes bs =>
      let s := match s.exportPlace f.tenant.toNat f.offset.toNat f.arg.toNat with
        | some (c, o) => s.repairFrame c.id o f.arg.toNat
        | none => s
      s.serve f (s.reply f 2 bs)
    | .refused st => s.deny f st
    | .lost => s
    | .done => s))

/-- WR_REQ (R351, R354): bytes written into an inbox and acknowledged, denied or forwarded. -/
def execWrReq (port : Fin 8) (f : Frame) (s : State) : Result :=
  if f.ftype ≠ 3 then .next s
  else s.receive port.val f (fun s => s.take port.val f (fun s =>
    match s.serveWrite f.tenant.toNat f.offset.toNat f.payload with
    | (.done, s) => s.serve f (s.reply f 4 [])
    | (.refused st, s) => s.deny f st
    | (.bytes _, s) => s
    | (.lost, s) => s))

/-! ### Responses (R353 to R357) -/

/-- The outstanding request that a response answers (R355): it comes from the request's destination, but for a NAK
FABRIC_UNREACHABLE, which any module on the way may send (R352, R356). -/
def State.requestOf (s : State) (f : Frame) : Option RemoteReq :=
  s.spool.requests.find? (fun r => r.id == f.reqId.toNat && r.got.isNone &&
    (r.frame.dst == f.src || (f.ftype == 5 && f.arg.toNat == Status.fabricUnreachable.code)))

/-- A request changed. -/
def State.modRequest (s : State) (id : Nat) (f : RemoteReq → RemoteReq) : State :=
  { s with spool := { s.spool with requests := s.spool.requests.map (fun q => if q.id = id then f q else q) } }

/-- A response that answers no outstanding request is discarded (R355); a further one for a request that went out more
than once, or one that its transfer has given up, still counts in its job's spool_bytes (R357). -/
def State.lateResponse (s : State) (f : Frame) : State :=
  match s.spool.requests.find? (fun r => r.id == f.reqId.toNat && r.got.isSome && decide (1 < r.attempts)) with
  | some r =>
    let s := s.modRequest r.id (fun r => { r with attempts := r.attempts - 1 })
    match (s.core r.core).job with
    | some ctx => s.chargeFrame ctx f.bytes
    | none => s
  | none =>
    match s.spool.answered.find? (fun a => a.1 == f.reqId.toNat) with
    | none => s
    | some a =>
      let s : State := { s with spool := { s.spool with answered := s.spool.answered.erase a } }
      match s.jobs.find? (fun j => j.handle == a.2) with
      | some j => s.chargeFrame j.ctx f.bytes
      | none => s

/-- The state without a request that has been answered. -/
def State.dropRequest (s : State) (r : RemoteReq) : State :=
  (s.modRequest r.id (fun r => { r with got := some [] })).forget r.core (fun q => q.id == r.id)

/-- Counts beats that a remote transfer moved (R115). -/
def State.chargeRemote (s : State) (n ctx k : Nat) : State :=
  (s.count n 5 k).charge ctx (fun a => { a with t0Bytes := a.t0Bytes + 64 * k })

/-- What follows once requests of a transfer have been answered. -/
def State.afterRemote (s : State) (n slot : Nat) : State :=
  ((s.remoteProgress n slot).reach n slot []).settlePages.settleCore n

/-- Writes the beats of a read response of a COPY or SPREAD (R138). -/
def State.writeBeats (s : State) (r : RemoteReq) (x : Xfer) (bs : List Byte) : State :=
  (List.range r.beats).foldl (fun s i =>
    s.localWrite r.core ((x.lAddrs (r.beat + i)).headD 0) ((bs.drop (64 * i)).take 64)) s

/-- A row of a block of a TRANSPOSE that has arrived: the block's beats are written once it has all its
rows (R171). -/
def State.blockPiece (s : State) (r : RemoteReq) (x : Xfer) (j : Job) (bs : List Byte) : State :=
  let s := s.modRequest r.id (fun q => { q with got := some bs })
  let mine := (s.remoteOf r.core r.slot).filter (fun q => q.beat == r.beat)
  let parts := (List.range x.side).filterMap (fun i => (mine.find? (fun q => q.piece == i)).bind (fun q => q.got))
  if parts.length < x.side then s
  else
    let s := (List.range x.side).foldl (fun s i =>
      s.localWrite r.core ((x.lAddrs (r.beat + i)).headD 0) (x.assemble (r.beat + i) parts)) s
    let s := mine.foldl (fun s q => s.dropRequest q) s
    (s.chargeRemote r.core j.ctx x.side).afterRemote r.core r.slot

/-- RD_RSP (R353): the beats of a read that is still asked for are written. -/
def execRdRsp (port : Fin 8) (f : Frame) (s : State) : Result :=
  if f.ftype ≠ 2 then .next s
  else s.receive port.val f (fun s => s.take port.val f (fun s =>
    match s.requestOf f with
    | none => s.lateResponse f
    | some r =>
      match (s.core r.core).job.bind s.job? with
      | none => s
      | some j =>
        let x := (s.core r.core).xfer r.slot
        if r.frame.ftype ≠ 1 ∨ f.payload.length ≠ r.frame.arg.toNat then s
        else
          let s := s.chargeFrame j.ctx f.bytes
          if x.mode = .transpose then s.blockPiece r x j f.payload
          else
            let s := (s.writeBeats r x f.payload).dropRequest r
            (s.chargeRemote r.core j.ctx r.beats).afterRemote r.core r.slot))

/-- WR_ACK (R354). -/
def execWrAck (port : Fin 8) (f : Frame) (s : State) : Result :=
  if f.ftype ≠ 4 then .next s
  else s.receive port.val f (fun s => s.take port.val f (fun s =>
    match s.requestOf f with
    | none => s.lateResponse f
    | some r =>
      match (s.core r.core).job.bind s.job? with
      | none => s
      | some j =>
        if r.frame.ftype ≠ 3 then s
        else (((s.chargeFrame j.ctx f.bytes).dropRequest r).chargeRemote r.core j.ctx r.beats).afterRemote
          r.core r.slot))

/-- The unified address that a request names. -/
def frameTarget (f : Frame) : Nat := 0x8000000000000000 + f.dst.toNat * 2 ^ 48 + f.offset.toNat

/-- The status that a NAK carries (R356). -/
def frameStatus (f : Frame) : Option Status :=
  if f.arg.toNat = Status.pageFaultFatal.code then some .pageFaultFatal
  else if f.arg.toNat = Status.weightsLost.code then some .weightsLost
  else if f.arg.toNat = Status.fabricUnreachable.code then some .fabricUnreachable
  else none

/-- Fails the job of a remote request (R199, R355, R356). -/
def State.failRemote (s : State) (r : RemoteReq) (st : Status) : State :=
  match (s.core r.core).job with
  | none => s
  | some ctx => (s.nakFail r.core r.slot ctx (frameTarget r.frame) st).settle

/-- NAK (R356): the requesting job fails with the status that the frame carries. -/
def execNak (port : Fin 8) (f : Frame) (s : State) : Result :=
  if f.ftype ≠ 5 then .next s
  else s.receive port.val f (fun s => s.take port.val f (fun s =>
    match s.requestOf f, frameStatus f with
    | some r, some st =>
      let s := match (s.core r.core).job with
        | some ctx => s.chargeFrame ctx f.bytes
        | none => s
      s.failRemote r st
    | some _, none => s
    | none, _ => s.lateResponse f))

/-- The port of a route's mask that follows a port (R355). -/
def State.nextPort (s : State) (f : Frame) (p : Nat) : Option Nat :=
  let ps := s.routePorts f.dst.toNat
  (ps.find? (fun q => decide (p < q))).orElse (fun _ => ps.head?)

/-- SPOOL_REQUEST_TIMEOUT (R355): a request without a response goes out again by the next port, at most
twice; then its job fails. -/
def execSpoolRequestTimeout (reqId : Nat) (s : State) : Result :=
  match s.spool.requests.find? (fun r => r.id == reqId) with
  | none => .next s
  | some r =>
    if s.spoolRuns = false ∨ r.got.isSome then .next s
    else if 3 ≤ r.attempts ∨ s.spool.valid = false ∨ s.routeValid r.frame.dst.toNat = false then
      .next (s.failRemote r .fabricUnreachable)
    else match s.nextPort r.frame r.port with
      | none => .next ((s.spoolEvent 2).failRemote r .fabricUnreachable)
      | some p =>
        let s := s.modRequest r.id (fun q => { q with attempts := q.attempts + 1, port := p })
        let s := s.sendFrame p r.core r.frame
        match (s.core r.core).job with
        | some ctx => .next (s.chargeFrame ctx r.frame.bytes)
        | none => .next s

/-! ### Link frames: acknowledgements, credits, keys, identities (R342 to R346, R402) -/

/-- Whether `lseq` comes before `ack` on a link whose numbers wrap at 2^32. -/
def seqBefore (lseq ack : Nat) : Bool :=
  let d := (ack + 2 ^ 32 - lseq) % 2 ^ 32
  decide (0 < d) && decide (d ≤ 2 ^ 31)

/-- A port after a LINK frame: acknowledged frames leave the retry buffer, credits return, and an old key
slot is zeroised once every frame sent under it has been acknowledged. -/
def Port.acked (p : Port) (payload : List Byte) : Port :=
  let retry := p.retry.filter (fun f => !seqBefore f.lseq.toNat (Config.linkAck payload))
  let old := !p.keyId
  let pending := retry.any (fun f => f.flags.getLsbD 7 == old)
  let gone := decide (p.keyStep = 1) && !pending
  { p with
    retry := retry
    credits := p.credits.zipIdx.map (fun c => c.1 + Config.linkCredit payload c.2)
    keyStep := if gone then 0 else p.keyStep
    keys := if gone then (if old then (p.keys.1, false) else (false, p.keys.2)) else p.keys }

/-- LINK (R345, R346): acknowledgements and credits; frames not accepted are sent again when asked for. -/
def execLink (port : Fin 8) (f : Frame) (s : State) : Result :=
  if f.ftype ≠ 6 then .next s
  else s.receive port.val f (fun s =>
    if (s.port port.val).state ≠ .active then s
    else
      let s := s.modPort port.val (fun p => p.acked f.payload)
      let again := (s.port port.val).retry
      if Config.linkResend f.payload = false ∨ again = [] then s
      else
        let s : State := { s with spool := { s.spool with
          sent := again.reverse.map (fun f => (port.val, f)) ++ s.spool.sent } }
        s.count (90 + port.val) 3 again.length)

/-- A port that enters ACTIVE: full credits for the 128 KiB buffers of its four channels. -/
def Port.activate (p : Port) (txSeq : Nat) : Port :=
  { p with
    state := .active, keys := (true, true), keyId := false, keyStep := 0, rekey := false, txCount := 0
    retry := [], txSeq := txSeq % 2 ^ 32, credits := [2048, 2048, 2048, 2048] }

/-- The key slot agreed by the end of an exchange: in SECURE slot 0, then slot 1, which makes the port
ACTIVE; in ACTIVE the unused slot, to which frames switch (R342, R344, R402). -/
def State.keyAgreed (s : State) (port : Nat) : State :=
  let p := s.port port
  if p.state = .secure then
    if p.keys.1 then
      let n := s.fresh
      n.2.modPort port (fun p => p.activate n.1)
    else s.modPort port (fun p => { p with keys := (true, false) })
  else if p.state = .active then
    s.modPort port (fun p => { p with
      keys := (true, true), keyId := !p.keyId, keyStep := 1, rekey := false, txCount := 0 })
  else s

/-- KEY (R344, R402): a message of the exchange, in one or more frames of which `last` is the end. A
failed check takes the port to DOWN with reason AUTH. The side with the higher module ID answers the message; for the
other the answer ends the exchange, and in SECURE it begins the next, until both slots are loaded (log 24). -/
def execKey (port : Fin 8) (f : Frame) (last : Bool) (s : State) : Result :=
  if f.ftype ≠ 7 ∨ f.guarded = true then .next s
  else s.receive port.val f (fun s =>
    let p := s.port port.val
    if p.state ≠ .secure ∧ p.state ≠ .active then s
    else if last = false then s
    else if Config.keyMessageGood f.payload = false then s.portDown port.val failAuth
    else if s.spool.moduleId < p.peer then
      if p.state = .active ∧ p.rekey = false then s
      else
        let s := s.keyAgreed port.val
        if (s.port port.val).state = .secure then s.startKey port.val else s
    else (s.sendKey port.val).keyAgreed port.val)

/-- HELLO (R342, R387, R402 step 1): the end of the peer's HELLO message. Outside SERVICE the port stops at
HELLO. -/
def execHello (port : Fin 8) (f : Frame) (peer : PeerHello) (s : State) : Result :=
  if f.ftype ≠ 8 then .next s
  else s.receive port.val f (fun s =>
    if (s.port port.val).state ≠ .hello then s
    else if peer.id = s.spool.moduleId then s.portDown port.val failIdClash
    else if peer.lcState ≠ 2 then s.portDown port.val failPeerState
    else
      let s := s.modPort port.val (fun p => { p with peer := peer.id })
      if s.sec.lc ≠ .service then s
      else
        let s := s.modPort port.val (fun p => { p with state := .secure, peerChain := peer.chain })
        if Config.chainVerifies peer.chain && Config.peerOwnerMatches peer.chain s.sec.ownerKey then
          s.startKey port.val
        else s.portDown port.val failAuth)

end Sys2Proof.Machine
end

