-- ==== Sys2Proof/Machine/Admin.lean ====
section
/-!
DEFINITION. The queue and power commands of the admin queue (R47, R48, R71 to R77, R444, R445).
-/

namespace Sys2Proof.Machine

/-! ### Claimed regions of the aperture (R36) -/

/-- The Dailies ring, when there is one: offset and bytes (R427). -/
def State.dailiesRing (s : State) : Option (Nat × Nat) :=
  if s.dailies.ringSize = 0 then none else some (s.dailies.ringOffset * 4096, s.dailies.ringSize * 4096)

/-- The submission rings, as (offset, bytes). -/
def State.rings (s : State) : List (Nat × Nat) := s.link.queues.map (fun q => (q.sqOffset, 64 * q.depth))

/-- Whether two regions share a byte. -/
def regionsOverlap (a b : Nat × Nat) : Bool := decide (a.1 < b.1 + b.2) && decide (b.1 < a.1 + a.2)

/-- Whether a region of the aperture overlaps a claimed one (R36). -/
def State.claimed (s : State) (r : Nat × Nat) : Bool :=
  s.rings.any (regionsOverlap r) || s.dailiesRing.any (regionsOverlap r)

/-! ### Creating a queue (R47, R48) -/

/-- The queue that a descriptor describes. -/
def queueOf (d : List Byte) : Queue :=
  { id := fieldAt d 0 2, pod := fieldAt d 2 2, cls := fieldAt d 4 1, sqLog2 := fieldAt d 5 1
    cqLog2 := fieldAt d 6 1, sqOffset := fieldAt d 8 8, cqAddr := fieldAt d 0x10 8, vector := fieldAt d 0x18 2 }

/-- Whether a queue descriptor keeps R47 and its table, and R79: no queue is bound to the pool. -/
def State.descriptorGood (s : State) (d : List Byte) : Bool :=
  let q := queueOf d
  let inLog := fun (n : Nat) => decide (6 ≤ n) && decide (n ≤ 16)
  decide (1 ≤ q.id) && decide (q.id ≤ 4095) && (s.queue? q.id).isNone && q.pod != 0 && (s.pod? q.pod).isSome &&
  decide (q.cls ≤ 3) && inLog q.sqLog2 && inLog q.cqLog2 && q.sqOffset % 4096 == 0 && q.cqAddr % 4096 == 0 &&
  decide (q.sqOffset + 64 * q.depth ≤ 2 ^ 30) && !s.claimed (q.sqOffset, 64 * q.depth) &&
  decide (1 ≤ q.vector) && decide (q.vector ≤ 2047) && fieldAt d 7 1 == 0 && allZero (bytesAt d 0x1A 38)

/-- CREATE_QUEUE (R47, R48). -/
def execCreateQueue (cmd : Nat) (s : State) : Result :=
  s.onCmd cmd 0x01 fun c =>
    if s.descriptorGood c.payload then
      ({ s with link := { s.link with queues := s.link.queues ++ [queueOf c.payload] } }).ok c
    else s.fail c .badPacket 0 0

/-! ### ABORT (R71 to R73) -/

/-- Whether a fetched command has begun (R72): jobs' commands begin when they are fetched unless a FENCE
holds them, any other command when its commit point has passed. -/
def State.isBegun (s : State) (c : Cmd) : Bool :=
  c.finished || c.begun ||
  ((c.opcode == 0x30 || c.opcode == 0x33 || c.opcode == 0x34) && s.unfenced c)

/-- The first media operation of a command whose chain has not arrived whole begins it (R72): its row, met while the
chain is open, is that operation (log 66). -/
def State.beginChain (s : State) (u opcode : Nat) : State :=
  match s.cmd? u with
  | none => s
  | some c =>
    if c.opcode = opcode ∧ c.whole = false ∧ c.finished = false ∧ c.verdict.isNone ∧ s.unfenced c = true ∧ s.awake = true
    then s.modCmd u (fun c => { c with begun := true })
    else s

/-- A request leaves the pending list of its job. -/
def State.unrequest (s : State) (u : Nat) : State :=
  { s with jobs := s.jobs.map (fun j => { j with pendingReqs := j.pendingReqs.filter (fun x => x != u) }) }

/-- The rest of a command's open chain will be consumed without completion (R73, R369). -/
def State.skipRest (s : State) (c : Cmd) : State :=
  s.modQueue c.queue (fun q =>
    if q.chain = some c.uid then
      { q with
        chain := none
        discard := some { tag := c.tag, opcode := c.opcode, nextIndex := c.nextIndex } }
    else q)

/-- Ends a command that has not begun, without effect: the rest of an open chain is discarded (R73). -/
def State.drop (s : State) (c : Cmd) (st : Status) : State :=
  (((s.skipRest c).unrequest c.uid).complete c.uid { status := st }).releaseIdents

/-- ABORT (R71 to R73). -/
def execAbort (cmd : Nat) (s : State) : Result :=
  s.onCmd cmd 0x04 fun c =>
    if c.progress ≠ 0 then s
    else match s.queue? (bits c.p0 15 0) with
      | none => s.fail c .badPacket 0 0
      | some q =>
        if 1024 < q.depth then s.fail c .badPacket 0 0
        else match (s.cmdsOf q.id).find? (fun x => x.tag == bits c.p0 31 16 && !s.isBegun x) with
          | none => s.fail c .ok 0 0
          | some x =>
            let s := s.modCmd c.uid (fun c => { c with progress := x.uid + 1 })
            s.drop x .aborted

/-! ### RESET_QUEUE and DELETE_QUEUE (R74, R75) -/

/-- A begun SUBMIT_JOB under a reset: its job is loaded first when it is not yet, into the free context of lowest number
(DESIGN CHOICE, log 66), and stays READY. -/
def State.resetSubmit (s : State) (c : Cmd) : State :=
  let free := ((List.range 4096).find? (fun n => (s.job? n).isNone)).getD 4096
  let s := if s.jobs.any (fun j => j.submit == some c.uid) then s else s.loadJob c free
  match s.jobs.find? (fun j => j.submit == some c.uid) with
  | none => s
  | some j =>
    (s.modJob j.ctx (fun j => { j with submit := none })).fail c .resetAfterBegin j.handle 0

/-- A begun RECLAIM or END_JOB under a reset: its effect goes on without it. One that has not acted yet, and whose job is
READY or ENDED, completes at once with its own status (R110, R111; DESIGN CHOICE, log 66). -/
def State.resetJobCmd (s : State) (c : Cmd) : State :=
  let s := if c.opcode = 0x33 then s.reclaim c else s.stopJob c
  let s : State := { s with jobs := s.jobs.map (fun j =>
    { j with
      reclaiming := j.reclaiming || j.reclaims.any (fun r => r.1 == c.uid)
      reclaims := j.reclaims.filter (fun r => r.1 != c.uid)
      endJobs := j.endJobs.filter (fun u => u != c.uid) }) }
  s.fail c .resetAfterBegin 0 0

/-- A begun COMPACT_INDEX under a reset: the compaction runs to its end. -/
def State.resetCompact (s : State) (c : Cmd) : State :=
  let s : State := { s with copies := s.copies.map (fun x =>
    { x with index := { x.index with waiting := x.index.waiting.filter (fun u => u != c.uid) } }) }
  s.fail c .resetAfterBegin 0 0

/-- What a queue reset does to one fetched command (R74, table). -/
def State.resetCmd (s : State) (u : Nat) : State :=
  match s.cmd? u with
  | none => s
  | some c =>
    if c.finished then s
    else if s.isBegun c = false then
      (s.unrequest c.uid).complete c.uid { status := .queueReset }
    else if c.whole = false then s.breakChain c.queue u .chainBroken
    else if c.opcode = 0x31 ∨ c.opcode = 0x32 then
      { s with jobs := s.jobs.map (fun j =>
          if j.batch.any (fun b => b.uid == u) then { j with leaving := j.leaving ++ [u] } else j) }
    else if c.opcode = 0x30 then s.resetSubmit c
    else if c.opcode = 0x33 ∨ c.opcode = 0x34 then s.resetJobCmd c
    else if c.opcode = 0x25 then s.resetCompact c
    else s

/-- Whether a command names an I/O queue that exists (R75). -/
def State.namedQueue (s : State) (c : Cmd) : Option Queue :=
  if bits c.p0 15 0 = 0 then none else s.queue? (bits c.p0 15 0)

/-- A packet at the head of a queue that R52 refuses and whose slots have not all been published: it waits
for them (R52), unless it continues an open chain or one that is being skipped. -/
def State.waitingRefusal (s : State) (q : Queue) : Option Header :=
  let h := s.headerOf q
  let published := (q.sqTail + q.depth - q.sqHead) % q.depth
  let joins := (q.chain.bind s.cmd?).any (fun c => continues c h) ||
    q.discard.any (fun d => d.tag == h.tag && d.opcode == h.opcode && d.nextIndex == h.index)
  if s.fetches q && s.accepts q h && decide (h.len ≤ packetLimit q.depth) &&
      decide (published < packetSlots h.len) && !joins && s.gate.isNone && s.badPacket q h then some h
  else none

/-- Under a reset such a packet completes with its own status; the chain that it breaks ends first (R74). -/
def State.refuseWaiting (s : State) (q : Queue) : State :=
  match s.waitingRefusal q with
  | none => s
  | some h =>
    let s := match q.chain with
      | some u => s.breakChain q.id u .chainBroken
      | none => s
    s.refuseFetched q h .badPacket

/-- The steps of R74 on a queue: those begun are judged before any of them ends. -/
def State.resetQueue (s : State) (c : Cmd) (delete : Bool) : State :=
  match s.namedQueue c with
  | none => s.fail c .badPacket 0 0
  | some q =>
    if q.resetting.isSome then s
    else
      let s := s.refuseWaiting q
      let us := (s.cmdsOf q.id).map (fun x => x.uid)
      let held := us.filter (fun u => (s.cmd? u).any (fun x => !s.isBegun x))
      let s := s.modQueue q.id (fun q => { q with
        resetting := some { uid := c.uid, count := 0, delete := delete }, discard := none })
      let s := (held.foldl (fun s u => (s.unrequest u).complete u { status := .queueReset }) s).releaseIdents
      (us.filter (fun u => !held.contains u)).foldl State.resetCmd (s.modQueue q.id (fun q =>
        { q with chain := q.chain.bind (fun u => if held.contains u then none else some u) }))

/-- RESET_QUEUE (R74). -/
def execResetQueue (cmd : Nat) (s : State) : Result := s.onCmd cmd 0x03 fun c => s.resetQueue c false

/-- DELETE_QUEUE (R75). -/
def execDeleteQueue (cmd : Nat) (s : State) : Result := s.onCmd cmd 0x02 fun c => s.resetQueue c true

/-! ### Power states (R76, R77, R444, R445) -/

/-- Whether the module is idle (R76), but for the command `u`. A packet that is published and not yet fetched is no
outstanding command (DESIGN CHOICE, log 67). -/
def State.idle (s : State) (u : Nat) : Bool :=
  s.jobs.all (fun j => !j.onCores) && s.link.cmds.all (fun c => c.uid == u)

/-- Whether some export entry or inbox keeps the module out of Sleep (R445). -/
def State.exporting (s : State) : Bool :=
  s.spool.exports.any (fun e => e.valid) || s.spool.inboxes.any (fun b => decide (0 < b.pages))

/-- Entry to Sleep (R445): staging is programmed, merges in progress end, every port goes DOWN. The entry is one step, so
that a doorbell finds it complete (R77; DESIGN CHOICE, log 67). -/
def State.enterSleep (s : State) : State :=
  let s := (State.drain s.media.staging.length s).sync
  let s := (s.media.lblocks.map (fun l => l.num)).foldl State.commitMerge s
  let s := (s.portsDown failSleep).spoolEvent 1
  { s with hw := { s.hw with pstate := .sleep } }

/-- SET_POWER_STATE (R76, R444, R445): entry follows the completion, so it waits for room in the ring. -/
def execSetPowerState (cmd : Nat) (s : State) : Result :=
  s.onCmd cmd 0x05 fun c =>
    if c.p0 = 0 then s.ok c
    else if s.idle c.uid = false ∨ (c.p0 = 2 ∧ s.exporting = true) then s.fail c .stateBusy 0 0
    else match s.queue? 0 with
      | none => s
      | some q =>
        if q.cqRoom = 0 then s
        else if c.p0 = 2 then (s.ok c).enterSleep
        else
          let s := s.ok c
          { s with hw := { s.hw with pstate := .standby } }

/-- POWER_STATE_EXIT (R77, R445): the exit that a doorbell started reaches Active. After Sleep the memories
that were off hold zeros. -/
def execPowerStateExit (s : State) : Result :=
  if s.hw.phase ≠ .running ∨ s.hw.exiting = false then .next s
  else
    let s := if s.hw.pstate = .sleep then (List.range 32).foldl State.wipeCore s else s
    .next { s with hw := { s.hw with pstate := .active, exiting := false } }

end Sys2Proof.Machine
end

