-- ==== Sys2Proof/Machine/Pods.lean ====
section
/-!
DEFINITION. BIND: Pods and what moves between them (R79 to R88).
-/

namespace Sys2Proof.Machine

/-! ### The descriptor (R82) -/

/-- A bind descriptor. -/
structure Bind where
  op     : Nat
  src    : Nat
  dst    : Nat
  mask   : Nat
  amount : Nat
  handle : Nat
  /-- The reserved bytes are zero. -/
  clean  : Bool
  deriving DecidableEq, Repr

/-- The fields of a descriptor. -/
def parseBind (d : List Byte) : Bind :=
  let f := fieldAt d
  { op := f 0 1, src := f 2 2, dst := f 4 2, mask := f 8 4, amount := f 0x10 8, handle := f 0x18 8
    clean := f 1 1 == 0 && f 6 2 == 0 && f 0x0C 4 == 0 && allZero (bytesAt d 0x20 32) }

/-- A granule of T1. -/
def granuleBytes : Nat := 0x10000000

/-- Whether a descriptor keeps R82 and the ranges of R87, reason DESCRIPTOR_INVALID. -/
def Bind.valid (b : Bind) : Bool :=
  b.clean && decide (1 ≤ b.op) && decide (b.op ≤ 7) && decide (b.src ≤ 64) && decide (b.dst ≤ 64) &&
  (decide (3 ≤ b.op) || b.src == 0) && (b.op == 3 || b.mask == 0) &&
  (b.op == 4 || b.op == 7 || b.amount == 0) && (b.op == 5 || b.op == 6 || b.handle == 0) &&
  (match b.op with
   | 4 => b.amount != 0 && b.amount % granuleBytes == 0
   | 6 => decide (1 ≤ b.handle) && decide (b.handle ≤ 4095)
   | 7 => decide (b.amount ≤ 512)
   | _ => true)

/-- The engine cores that a mask names. -/
def Bind.cores (b : Bind) : List Nat := (List.range 32).filter (bitOf b.mask)

/-- The first reason of a list, in the order of the codes, that holds. -/
def firstReason (l : List (Nat × Bool)) : Option Nat := (l.find? (fun p => p.2)).map (fun p => p.1)

/-- A BIND of one operation: a payload of another length, an invalid descriptor or the lowest reason refuses it with no change (R87);
otherwise it takes effect and reports the time it took, free up to its bound (R83). -/
def State.bind (s : State) (cmd op : Nat) (reasons : Bind → List (Nat × Bool)) (bound : Bind → Nat)
    (effect : Bind → State → State) : Result :=
  s.onCmd cmd 0x06 fun c =>
    let b := parseBind c.payload
    if c.payload.length ≠ 64 ∨ b.valid = false then s.refuse c 0x50
    else if b.op ≠ op then s
    else match firstReason (reasons b) with
      | some r => s.refuse c r
      | none =>
        let n := (effect b s).fresh
        n.2.fail c .ok (n.1 % (bound b + 1)) 0

/-- POD_UNKNOWN of the moves. -/
def State.noPod (s : State) (b : Bind) : Bool :=
  (s.pod? b.src).isNone || (s.pod? b.dst).isNone || (b.dst == 0 && (b.op == 5 || b.op == 6))

/-! ### Creating and deleting Pods -/

/-- CREATE_POD (R83, R87). -/
def execCreatePod (cmd : Nat) (s : State) : Result :=
  s.bind cmd 1 (fun b => [(0x02, (s.pod? b.dst).isSome)]) (fun _ => 1000)
    (fun b s => { s with pods := s.pods ++ [{ id := b.dst, granules := 0, slots := 0 }] })

/-- Whether a Pod still holds a queue, an object, an uncollected job or inbox pages (R87). -/
def State.podInUse (s : State) (p : Nat) : Bool :=
  s.link.queues.any (fun q => q.id != 0 && q.pod == p) || s.objs.any (fun o => o.pod == p) ||
  s.jobs.any (fun j => j.pod == p) || decide (0 < (s.inbox p).pages)

/-- Moves cores into a Pod, each of them wiped (R84). -/
def State.moveCores (s : State) (cores : List Nat) (p : Nat) : State :=
  cores.foldl (fun s n => (s.wipeCore n).modCore n (fun c => { c with pod := some p })) s

/-- Removes an empty Pod: what it holds returns to the pool, and its INBOX instance reads zero. -/
def State.removePod (s : State) (x : Pod) : State :=
  let s := s.moveCores (s.podCores x.id) 0
  let s := s.modPod 0 (fun z => { z with granules := z.granules + x.granules, slots := z.slots + x.slots })
  let s := s.modInbox x.id (fun _ => {})
  { s with pods := s.pods.filter (fun y => y.id != x.id) }

/-- DELETE_POD (R83, R84, R87). -/
def execDeletePod (cmd : Nat) (s : State) : Result :=
  s.bind cmd 2 (fun b => [(0x01, b.dst == 0 || (s.pod? b.dst).isNone), (0x03, s.podInUse b.dst)])
    (fun b => 2000 + 1500 * ((s.pod? b.dst).map (fun x => x.granules)).getD 0)
    (fun b s => match s.pod? b.dst with
      | some x => s.removePod x
      | none => s)

/-! ### Moves -/

/-- MOVE_CORES (R83, R84, R87, R88). -/
def execMoveCores (cmd : Nat) (s : State) : Result :=
  s.bind cmd 3
    (fun b => [(0x01, s.noPod b),
      (0x04, b.cores.any (fun n => !s.coreFenced n && (s.core n).pod != some b.src)),
      (0x05, b.cores.any (fun n => (s.core n).job.isSome)),
      (0x06, b.cores.any s.coreFenced)])
    (fun _ => 2000) (fun b s => s.moveCores b.cores b.dst)

/-- The state after a Pod has given up granules: read-only pages are evicted until its share holds what it
has allocated (R85). -/
def State.giveT1 (s : State) (p g : Nat) : State :=
  (s.modPod p (fun x => { x with granules := x.granules - g })).fitShare s.pages.length p

/-- Whether a Pod can release `n` pages of its share under R85: its unallocated pages, and those of its read-only
frames that R135 lets it evict. -/
def State.canRelease (s : State) (p n : Nat) : Bool :=
  decide (s.fixedPages p + (s.claimedFrames p - (s.candidates p).length) + n ≤ s.shareFrames p)

/-- Whether a Pod can release granules under R85. -/
def State.canGive (s : State) (p g : Nat) : Bool :=
  match s.pod? p with
  | some x => decide (g ≤ x.granules) && s.canRelease p (128 * g)
  | none => false

/-- MOVE_T1 (R83, R85, R87). -/
def execMoveT1 (cmd : Nat) (s : State) : Result :=
  s.bind cmd 4 (fun b => [(0x01, s.noPod b), (0x07, !s.canGive b.src (b.amount / granuleBytes))])
    (fun b => 1500 * (b.amount / granuleBytes))
    (fun b s =>
      let g := b.amount / granuleBytes
      if b.src = b.dst then s
      else (s.giveT1 b.src g).modPod b.dst (fun x => { x with granules := x.granules + g }))

/-- The T1 metadata pages of an object. -/
def State.metaOf (s : State) (o : Obj) : Nat :=
  if o.kind = .volume then 0 else ((s.copy? o.copy).map (fun c => c.metaPages)).getD 0

/-- Whether a Pod's share can claim `n` more pages beside the other pages that it claims and cannot evict, and beside
what its jobs reserve (R87, R132; a window page that the Pod claims already counts in one of the two: log 68). -/
def State.canClaim (s : State) (p n : Nat) : Bool :=
  let windows := ((s.jobs.filter (fun j => j.pod == p && j.state != .ended)).map Job.windowPages).sum
  decide (s.fixedPages p + windows + n ≤ s.shareFrames p) && s.canRelease p n

/-- Whether a command addressed to an object is without its final completion. -/
def State.addressed (s : State) (h : Nat) : Bool :=
  s.link.cmds.any (fun c => usesObject c.opcode && c.object == h)

/-- Whether an uncollected job's Slate names an object. -/
def State.slated (s : State) (h : Nat) : Bool :=
  s.jobs.any (fun j => (j.slate.model != 0 && j.slate.model == h) || (j.slate.index != 0 && j.slate.index == h))

/-- The object that a MOVE_OBJECT names in its source Pod. -/
def State.objectMoved (s : State) (b : Bind) : Option Obj :=
  (s.obj? b.handle).bind (fun o => if o.pod = b.src then some o else none)

/-- Whether an object of a Pod names a stored copy. -/
def State.namesCopy (s : State) (p copy : Nat) : Bool :=
  s.objs.any (fun o => o.pod == p && o.kind != .volume && o.copy == copy)

/-- Drops a Pod's claims on the read-only pages of a copy, held or waiting, unless another object of the Pod names it. -/
def State.dropClaims (s : State) (p copy : Nat) : State :=
  if s.namesCopy p copy then s
  else (s.pages.filter (fun x => x.copy == copy && (x.claims.contains p || x.wants.contains p))).foldl
    (fun s x => s.unclaim p (x.copy, x.page)) s

/-- Withdraws a Pod's requests for pages of a copy that no object of the Pod names any more: a page that is QUEUED for
no one else is ABSENT again (R126). -/
def State.dropRequests (s : State) (p copy : Nat) : State :=
  if s.namesCopy p copy then s
  else { s with pages := s.pages.filterMap (fun x =>
    if x.copy != copy then some x
    else
      let others := fun (l : List Nat) => l.filter (fun q => q != p)
      if x.state = .queued then (if (others x.claims).isEmpty then none else some { x with claims := others x.claims })
      else some { x with wants := others x.wants }) }

/-- Gives an object to another Pod (R83, R86). -/
def State.giveObject (s : State) (o : Obj) (p : Nat) : State :=
  let s := s.modObj o.handle (fun o => { o with pod := p })
  let s := if o.kind = .volume then s else (s.dropClaims o.pod o.copy).failGone
  s.fitShare s.pages.length p

/-- MOVE_OBJECT (R83, R86, R87). -/
def execMoveObject (cmd : Nat) (s : State) : Result :=
  s.bind cmd 5
    (fun b => [(0x01, s.noPod b),
      (0x07, b.src != b.dst && (s.objectMoved b).any (fun o => !s.canClaim b.dst (s.metaOf o))),
      (0x08, s.slated b.handle || s.addressed b.handle),
      (0x51, (s.objectMoved b).isNone)])
    (fun _ => 1000)
    (fun b s => match s.objectMoved b with
      | some o => if b.src = b.dst then s else s.giveObject o b.dst
      | none => s)

/-- MOVE_QUEUE (R83, R87). -/
def execMoveQueue (cmd : Nat) (s : State) : Result :=
  s.bind cmd 6
    (fun b => [(0x01, s.noPod b), (0x09, !(s.cmdsOf b.handle).isEmpty),
      (0x51, (s.queue? b.handle).all (fun q => q.pod != b.src))])
    (fun _ => 1000) (fun b s => s.modQueue b.handle (fun q => { q with pod := b.dst }))

/-- Slots of a Pod not covered by the seq_slots of its jobs that have not ended (R87). -/
def State.unreserved (s : State) (p : Nat) : Nat :=
  ((s.pod? p).map (fun x => x.slots)).getD 0 -
    ((s.jobs.filter (fun j => j.pod == p && j.state != .ended)).map (fun j => j.slate.seqSlots)).sum

/-- MOVE_SLOTS (R80, R83, R87). -/
def execMoveSlots (cmd : Nat) (s : State) : Result :=
  s.bind cmd 7
    (fun b => [(0x01, s.noPod b),
      (0x0A, decide (s.unreserved b.src < b.amount) ||
        (b.dst != 0 && b.dst != b.src && decide (128 < ((s.pod? b.dst).map (fun x => x.slots)).getD 0 + b.amount)))])
    (fun _ => 1000)
    (fun b s =>
      if b.src = b.dst then s
      else (s.modPod b.src (fun x => { x with slots := x.slots - b.amount })).modPod b.dst
        (fun x => { x with slots := x.slots + b.amount }))

end Sys2Proof.Machine
end

