-- ==== Sys2Proof/Machine/Volumes.lean ====
section
/-!
DEFINITION. Volumes: creation, deletion, READ, WRITE, DISCARD, SECURE_DISCARD (R61 to R68, R316 to R320,
R331, R338).
-/

namespace Sys2Proof.Machine

/-! ### Creation and deletion (R316, R317, R386) -/

/-- Whether an object of a kind may be created now: SOFT_ERROR refuses it (R404). -/
def State.creates (s : State) : Bool := decide (s.sec.err = .none)

/-- The state with a slot of the key table programmed: a new object secret, which the DRBG draws (R384, R386). -/
def State.addKey (s : State) (handle : Nat) (copy : Option Nat) : State :=
  let k : KeySlot := { handle := handle, copy := copy, secret := BitVec.ofNat 256 s.fresh.1 }
  { s.fresh.2 with sec := { s.sec with keyTable := s.sec.keyTable ++ [k], cfLastOp := 1, cfResult := 0 } }

/-- The state with an object and its handle (R121). A further handle of a shared copy needs no slot (R385). -/
def State.addObject (s : State) (kind : ObjKind) (num pod sectors copy : Nat) : Nat × State :=
  let h := s.newHandle kind.code num
  let o : Obj := { handle := h.1, kind := kind, num := num, pod := pod, sectors := sectors, copy := copy }
  (h.1, { h.2 with objs := h.2.objs ++ [o] })

/-- The state without an object. With the last handle of its object secret goes the slot, by an erase of its
sector (R385, R386). -/
def State.dropObject (s : State) (o : Obj) : State :=
  let objs := s.objs.filter (fun x => x.handle != o.handle)
  let last := o.kind == .volume || objs.all (fun x => x.kind == .volume || x.copy != o.copy)
  { s with
    objs := objs
    sec := if last then { s.sec with
      keyTable := s.sec.keyTable.filter (fun k => !k.serves o), cfLastOp := 2, cfResult := 0 } else s.sec }

/-- Whether a volume number is free. -/
def State.volumeFree (s : State) (n : Nat) : Bool :=
  decide (n < 4096) && !s.objs.any (fun o => o.kind == .volume && o.num == n)

/-- The part of a volume of `n` sectors that fits the short last logical block: its last one, if at all (R23). -/
def volumeShort (n : Nat) : Option Nat :=
  if n % lbSectors ≠ 0 ∧ n % lbSectors ≤ lastSectors then some (n / lbSectors) else none

/-- CREATE_VOLUME (R316, R337, R404): the operand `n` is the number that the module gives the volume. -/
def execCreateVolume (cmd n : Nat) (s : State) : Result :=
  s.onCmd cmd 0x07 fun c =>
    if s.creates = false then s.fail c .locked 0 0
    else if s.media.wearState = 3 then s.refuse c 0x31
    else if (s.pod? (bits c.p0 15 0)).isNone then s.refuse c 0x01
    else if s.hasRoom (ceilDiv c.p1 lbSectors) (volumeShort c.p1) = false then s.refuse c 0x30
    else if s.volumeFree n = false then s
    else
      let s := s.allocate (lbNum n 0) (ceilDiv c.p1 lbSectors) (volumeShort c.p1)
      let o := s.addObject .volume n (bits c.p0 15 0) c.p1 0
      (o.2.addKey o.1 none).fail c .ok o.1 0

/-- DELETE_VOLUME (R317, R386): the key goes first, then the logical blocks. -/
def execDeleteVolume (cmd : Nat) (s : State) : Result :=
  s.onCmd cmd 0x08 fun c =>
    match s.volume? c.object with
    | none => s.fail c .notBound 0 0
    | some o =>
      let s := (s.dropObject o).unmapOwner o.num
      let s : State := { s with media := { s.media with
        staging := s.media.staging.filter (fun e => e.lb / 2097152 != o.num) } }
      s.ok c

/-! ### The order of one queue (R67) -/

/-- Whether two ranges of sectors overlap. -/
def sectorsMeet (a b : Cmd) : Bool := decide (a.p0 < b.p0 + b.p1) && decide (b.p0 < a.p0 + a.p1)

/-- Whether an earlier storage command of the same queue and volume, whose sectors overlap, has still to take
effect. -/
def State.overtakes (s : State) (c : Cmd) : Bool :=
  (s.cmdsOf c.queue).any (fun x => decide (x.uid < c.uid) && decide (0x10 ≤ x.opcode) &&
    decide (x.opcode ≤ 0x13) && x.object == c.object && !x.finished && sectorsMeet x c)

/-- Whether a command's range reaches past its volume (R61). -/
def Obj.beyond (o : Obj) (c : Cmd) : Bool := decide (o.sectors < c.p0 + c.p1)

/-! ### READ (R61, R64, R68) -/

/-- The superblock that holds the newest content of a sector on the media. -/
def LBlock.sourceOf (l : LBlock) (sec : Nat) : Option SbLoc :=
  match ((l.frozen ++ l.chain).reverse).find? (fun b => b.entries.any (fun e => e.sector == sec)) with
  | some b => some b.loc
  | none => l.mapped.head?

/-- Counts a read of a sector in the superblock that served it (R334). -/
def State.noteRead (s : State) (lb sec : Nat) : State :=
  if s.media.staging.any (fun e => e.lb == lb && e.sector == sec) then s
  else match (s.lblock lb).sourceOf sec with
    | some p => s.setSb { s.sblock p with reads := (s.sblock p).reads + 1 }
    | none => s

/-- Sector `n` of a volume: its logical block and its place there. -/
def Obj.sector (o : Obj) (n : Nat) : Nat × Nat := (lbNum o.num (n / lbSectors), n % lbSectors)

/-- READ (R61, R64, R67, R68, R400): sectors in order up to the first that cannot be corrected. -/
def execRead (cmd : Nat) (s : State) : Result :=
  s.onCmd cmd 0x10 fun c =>
    match s.volume? c.object with
    | none => s.fail c .notBound 0 0
    | some o =>
      if o.beyond c then s.fail c .outOfRange 0 0
      else if s.overtakes c then s
      else
        let at_ := fun (i : Nat) => o.sector (c.p0 + i)
        let bad := fun (i : Nat) => o.degraded || (s.sectorOf (at_ i).1 (at_ i).2).bad
        let good := (List.range c.p1).takeWhile (fun i => !bad i)
        let data := (good.map (fun i => Mem.bytes (s.sectorOf (at_ i).1 (at_ i).2).data 0 4096)).flatten
        let s := good.foldl (fun s i => s.noteRead (at_ i).1 (at_ i).2) s
        if good.length = c.p1 then s.complete c.uid { status := .ok, payload := data }
        else s.complete c.uid
          { status := .mediaUncorrectable, result0 := c.p0 + good.length, payload := data }

/-! ### WRITE (R61 to R63, R319, R320, R338, R441) -/

/-- A sector encrypted under its object's XTS key, with its sector number within the volume in the tweak (R315, R319,
R385). -/
def Obj.encrypted (o : Obj) (at_ : Nat × Nat) (x : Sector) : Sector :=
  { x with sealing := some (o.handle, at_.1 % 2097152 * lbSectors + at_.2) }

/-- The sector as it enters shared staging: an armed flip-mask of the staging may spoil it (R367, R369). The
staging holds ciphertext, so a change that the code lets pass garbles the 16 bytes of its cipher block,
which are free values (log 29). -/
def State.stageSector (s : State) (bs : List Byte) : Sector × State :=
  let f := s.flip 80
  if f.armed && f.req.toNat == 33 then
    let s := s.setFlip 80 { f with armed := false }
    let m : EccMark := { unit := f.word.toNat, data := f.mask, check := f.check }
    let s := s.noteError (.staging m.unit) m m.sram
    match m.sram with
    | .good => ({ data := Sparse.ofList 0 bs }, s)
    | .lost => ({ data := Sparse.ofList 0 bs, bad := true }, s)
    | .changed _ =>
      let n := s.fresh
      ({ data := Sparse.ofList 0 (leBytes 16 n.1 ++ bs.drop 16) }, n.2)
  else ({ data := Sparse.ofList 0 bs }, s)

/-- Why the next sector of a WRITE finds no superblock at all (R338): a log block is needed and no one-bit
superblock is free, or a merge is needed, of its full chain or because every log block is in use, and no four-bit
one is. -/
def State.wornOut (s : State) (lb : Nat) : Bool :=
  let l := s.lblock lb
  let staged := (s.media.staging.filter (fun e => e.lb == lb)).length
  let used := (chainEntries l.chain).length + staged
  (decide (l.chain.length * logEntries ≤ used) && decide (used < 4 * logEntries) && s.free1 == 0) ||
  (decide (4 * logEntries ≤ used) && l.merge.isNone && s.free4 == 0) ||
  (decide (4096 < s.logsWith lb 1) && s.media.lblocks.all (fun x => x.merge.isNone) && s.free4 == 0)

/-- Stages sectors of a WRITE from its progress on, while there is room (R319). -/
def State.stageWrite (fuel : Nat) (s : State) (o : Obj) (u : Nat) : State :=
  match fuel with
  | 0 => s
  | fuel + 1 =>
    match s.cmd? u with
    | none => s
    | some c =>
      if c.finished ∨ c.payload.length / 4096 ≤ c.progress then s
      else
        let at_ := o.sector (c.p0 + c.progress)
        if s.wornOut at_.1 then
          let s := (s.modObj o.handle (fun o => { o with readOnly := true })).mediaEvent 4
          (s.skipRest c).complete u { status := .noSpaceWorn, result0 := c.progress }
        else if s.stageRoom at_.1 = false then s
        else
          let d := s.stageSector ((c.payload.drop (4096 * c.progress)).take 4096)
          let e : Staged :=
            { lb := at_.1, sector := at_.2, data := some (o.encrypted at_ d.1), uid := some u }
          let before := s.sectorOf at_.1 at_.2
          let s := d.2.modCmd u (fun c => { c with
            progress := c.progress + 1, begun := true
            undo := if c.whole then c.undo else c.undo ++ [(at_.1, at_.2, before)] })
          State.stageWrite fuel { s with media := { s.media with staging := s.media.staging ++ [e] } } o u

/-- WRITE (R61 to R63, R67, R319, R338, R441): sectors received so far are staged, also while the chain is
open. It completes once all are staged; with a weak hold-up bank, once they are programmed. -/
def State.write (s : State) (c : Cmd) : State :=
  match s.volume? c.object with
  | none => (s.skipRest c).fail c .notBound 0 0
  | some o =>
    if o.beyond c then (s.skipRest c).fail c .outOfRange 0 0
    else if o.readOnly then (s.skipRest c).fail c .readOnly c.progress 0
    else if s.overtakes c then s
    else
      let s := State.stageWrite (c.payload.length / 4096) s o c.uid
      match s.cmd? c.uid with
      | none => s
      | some c =>
        if c.finished ∨ c.whole = false ∨ c.progress < c.payload.length / 4096 then s
        else if s.hw.holdupWeak then s.stagedDone c.uid
        else s.complete c.uid (c.verdict.getD { status := .ok, result0 := c.progress })

/-- WRITE. -/
def execWrite (cmd : Nat) (s : State) : Result :=
  match s.cmd? cmd with
  | none => .next s
  | some c =>
    if c.opcode = 0x11 ∧ c.finished = false ∧ s.unfenced c = true ∧ s.awake = true then
      .next (s.write c).settle
    else .next s

/-! ### DISCARD and SECURE_DISCARD (R331, R338) -/

/-- Stages trim entries of a discard from its progress on, while there is room. -/
def State.stageTrims (fuel : Nat) (s : State) (o : Obj) (u : Nat) (secs : List (Nat × Nat)) : State :=
  match fuel with
  | 0 => s
  | fuel + 1 =>
    match secs with
    | [] => s
    | (part, sec) :: rest =>
      let lb := lbNum o.num part
      if s.logRoom lb = false then s
      else
        let e : Staged := { lb := lb, sector := sec, data := none, uid := some u }
        let s := s.modCmd u (fun c => { c with progress := c.progress + 1 })
        State.stageTrims fuel { s with media := { s.media with staging := s.media.staging ++ [e] } } o u rest

/-- Whether a merge of a logical block that a command touches is in progress. -/
def State.merging (s : State) (o : Obj) (c : Cmd) : Bool :=
  (partsOf c.p0 c.p1).any (fun p => (s.lblock (lbNum o.num p)).merge.isSome)

/-- Drops the staged sectors that a predicate names; WRITEs that waited for them complete. -/
def State.unstage (s : State) (named : Staged → Bool) : State :=
  let us := ((s.media.staging.filter named).filterMap (fun e => e.uid)).dedup
  us.foldl State.stagedDone
    { s with media := { s.media with staging := s.media.staging.filter (fun e => !named e) } }

/-- The logical blocks that a command covers wholly are unmapped. -/
def State.unmapWhole (s : State) (o : Obj) (c : Cmd) : State :=
  ((partsOf c.p0 c.p1).filter (fun p => (rangeIn c.p0 c.p1 p).2 == lbSectors)).foldl (fun s p =>
    (s.unstage (fun e => e.lb == lbNum o.num p)).unmap (lbNum o.num p)) s

/-- The first part of a discard: whole logical blocks are unmapped once, then the other sectors are
trimmed. -/
def State.discardFrom (s : State) (o : Obj) (c : Cmd) : State :=
  let s := if c.begun then s
    else (s.modCmd c.uid (fun c => { c with begun := true })).unmapWhole o c
  let todo := (partSectors c.p0 c.p1).drop c.progress
  State.stageTrims todo.length s o c.uid todo

/-- Runs a discard of a volume unless it ends at once. -/
def State.onDiscard (s : State) (c : Cmd) (f : Obj → State) : State :=
  match s.volume? c.object with
  | none => s.fail c .notBound 0 0
  | some o =>
    if o.beyond c then s.fail c .outOfRange 0 0
    else if o.readOnly ∧ c.begun = false ∧ partSectors c.p0 c.p1 ≠ [] then s.fail c .readOnly 0 0
    else if s.overtakes c ∨ (c.begun = false ∧ s.merging o c = true) then s
    else f o

/-- DISCARD (R331): it completes when its records and entries are committed. -/
def execDiscard (cmd : Nat) (s : State) : Result :=
  s.onCmd cmd 0x12 fun c => s.onDiscard c fun o => (s.discardFrom o c).sync.stagedDone c.uid

/-- Whether bytes of a logical block that a SECURE_DISCARD names still await their merge or erase. -/
def State.residue (s : State) (lb : Nat) : Bool :=
  let l := s.lblock lb
  s.media.staging.any (fun e => e.lb == lb && e.data.isNone) ||
  (chainEntries (l.frozen ++ l.chain)).any (fun e => e.data.isNone) || l.merge.isSome ||
  s.media.sblocks.any (fun b => (b.role == .released || b.role == .retired) && b.owners.contains lb)

/-- SECURE_DISCARD (R321 case 5, R331): staged bytes are overwritten, partly covered blocks merged, and every
block that held the sectors erased. -/
def execSecureDiscard (cmd : Nat) (s : State) : Result :=
  s.onCmd cmd 0x13 fun c => s.onDiscard c fun o =>
    let names := fun (e : Staged) =>
      (partsOf c.p0 c.p1).any (fun p =>
        let r := rangeIn c.p0 c.p1 p
        e.lb == lbNum o.num p && e.data.isSome && decide (r.1 ≤ e.sector) && decide (e.sector < r.1 + r.2))
    let s := if c.begun then s else s.unstage names
    let s := (s.discardFrom o c).sync
    match s.cmd? c.uid with
    | none => s
    | some c =>
      if c.progress < (partSectors c.p0 c.p1).length ∨ s.unmapQueued c = true ∨
          (partsOf c.p0 c.p1).any (fun p => s.residue (lbNum o.num p)) = true then s
      else s.ok c

end Sys2Proof.Machine
end

