-- ==== Sys2Proof/Machine/Models.lean ====
section
/-!
DEFINITION. LOAD_MODEL with the checks of an image, and UNLOAD_MODEL (R118, R119, R149, R255 to R257).
-/

namespace Sys2Proof.Machine

/-- A failed check: the offset of the field that breaks it, and its reason. -/
abbrev Flaw := Nat × Nat

/-- A flaw at an offset unless a condition holds. -/
def flawIf (bad : Bool) (off reason : Nat) : List Flaw := if bad then [(off, reason)] else []

/-- A flaw of a field of `n` bytes that has arrived whole. -/
def flawField (img : List Byte) (bad : Bool) (off n reason : Nat) : List Flaw :=
  if bad && decide (off + n ≤ img.length) then [(off, reason)] else []

/-- A flaw at the first byte of a range that is not zero. -/
def nonZero (img : List Byte) (off n reason : Nat) : List Flaw :=
  match (List.range n).find? (fun i => bytesAt img (off + i) 1 != [0]) with
  | some i => [(off + i, reason)]
  | none => []

/-- The flaw at the lowest offset: the first failure (R257, R286). -/
def firstFlaw (l : List Flaw) : Option Flaw :=
  match l with
  | [] => none
  | a :: t => some (t.foldl (fun b x => if x.1 < b.1 then x else b) a)

/-! ### The image (R255, R256) -/

/-- A matrix record (R255). -/
structure Matrix where
  at_    : Nat
  k      : Nat
  n      : Nat
  part   : Nat
  flags  : Nat
  stream : Nat
  chunk  : Nat
  parts  : Nat
  deriving DecidableEq, Repr

/-- CODE8. -/
def Matrix.code8 (m : Matrix) : Bool := bitOf m.flags 0
/-- SCALE. -/
def Matrix.scale (m : Matrix) : Bool := bitOf m.flags 1
/-- BLOCK128. -/
def Matrix.block128 (m : Matrix) : Bool := bitOf m.flags 2
/-- ESCAPE. -/
def Matrix.escape (m : Matrix) : Bool := bitOf m.flags 3
/-- Entries of its codebook. -/
def Matrix.entries (m : Matrix) : Nat := if m.code8 then 256 else 16
/-- Bytes of its padded codebook record. -/
def Matrix.recordBytes (m : Matrix) : Nat := if m.code8 then 576 else 64
/-- Elements of a scale block (R239). -/
def Matrix.block (m : Matrix) : Nat := if m.block128 then 128 else 32
/-- Bytes of its stream. -/
def Matrix.streamBytes (m : Matrix) : Nat := m.recordBytes + m.parts * m.n * m.chunk

/-- The matrix record at an offset. -/
def matrixAt (img : List Byte) (o : Nat) : Matrix :=
  let f := fun (i n : Nat) => fieldAt img (o + i) n
  { at_ := o, k := f 0 4, n := f 4 4, part := f 8 4, flags := f 0x0C 1, stream := f 0x10 8, chunk := f 0x18 4
    parts := f 0x1C 4 }

/-- Flaws of the image header, for p0 and the chain's payload (R255). -/
def headerFlaws (img : List Byte) (p0 : Nat) : List Flaw :=
  let f := fieldAt img
  flawField img (f 0 4 != 0x4D490002) 0 4 0x10 ++ flawField img (f 4 2 != 64) 4 2 0x10 ++ nonZero img 6 2 0x10 ++
  flawField img (f 8 8 != p0 || p0 != img.length) 8 8 0x10 ++
  flawField img (f 0x10 4 == 0 || decide (65536 < f 0x10 4)) 0x10 4 0x10 ++
  flawField img (f 0x14 4 % 64 != 0) 0x14 4 0x10 ++
  nonZero img 0x18 36 0x10 ++ flawField img (f 0x3C 4 != crc32c (bytesAt img 0 0x3C)) 0x3C 4 0x10

/-- Flaws of a matrix record (R255). -/
def recordFlaws (img : List Byte) (m : Matrix) : List Flaw :=
  flawIf (m.part == 0 || m.part % 32 != 0 || (m.block128 && m.part % 128 != 0)) (m.at_ + 8) 0x10 ++
  flawIf (decide (16 ≤ m.flags)) (m.at_ + 0x0C) 0x10 ++ nonZero img (m.at_ + 0x0D) 3 0x10 ++
  flawIf (m.stream % 64 != 0) (m.at_ + 0x10) 0x10 ++
  flawIf (m.chunk % 64 != 0 || decide (4096 < m.chunk)) (m.at_ + 0x18) 0x10 ++
  flawIf (m.part != 0 && m.parts != ceilDiv m.k m.part) (m.at_ + 0x1C) 0x10 ++
  nonZero img (m.at_ + 0x30) 16 0x10

/-- The order key of BF16 bits: ascending keys are ascending values. -/
def orderKey16 (x : Nat) : Int := if x < 0x8000 then x else -((x % 0x8000 : Nat) : Int)

/-- Whether BF16 bits are a finite value. -/
def finite16 (x : Nat) : Bool := decide (x % 0x8000 < 0x7F80)

/-- Whether BF16 bits are a number: no NaN. -/
def number16 (x : Nat) : Bool := decide (x % 0x8000 ≤ 0x7F80)

/-- Flaws of the codebook record of a stream (R235, R236, R256). -/
def codebookFlaws (img : List Byte) (m : Matrix) : List Flaw :=
  let at_ := m.stream
  let f := fun (i n : Nat) => fieldAt img (at_ + i) n
  let entry := fun (i : Nat) => f (0x20 + 2 * i) 2
  let nv := if m.escape then m.entries - 1 else m.entries
  let deflt := bitOf (f 1 1) 1
  flawIf (f 0 1 != (if m.code8 then 8 else 4)) at_ 0x11 ++
  flawIf (decide (4 ≤ f 1 1) || bitOf (f 1 1) 0 != m.escape) (at_ + 1) 0x11 ++
  flawIf (if deflt then f 2 2 != 0 else !(number16 (f 2 2) && decide (orderKey16 (f 2 2) ≤ orderKey16 (entry 0))))
    (at_ + 2) 0x11 ++
  flawIf (if deflt then f 4 2 != 0
      else !(number16 (f 4 2) && decide (orderKey16 (entry (nv - 1)) ≤ orderKey16 (f 4 2))))
    (at_ + 4) 0x11 ++
  nonZero img (at_ + 6) 26 0x11 ++
  ((List.range nv).map (fun i =>
    flawIf (!finite16 (entry i) || (i != 0 && !decide (orderKey16 (entry (i - 1)) < orderKey16 (entry i))))
      (at_ + 0x20 + 2 * i) 0x11)).flatten ++
  flawIf (m.escape && entry (m.entries - 1) != 0) (at_ + 0x20 + 2 * (m.entries - 1)) 0x11 ++
  nonZero img (at_ + 0x20 + 2 * m.entries) (m.recordBytes - 0x20 - 2 * m.entries) 0x11

/-- The places of a chunk's regions (R241, R256): elements, scale blocks, escape blocks, code bytes, first
byte of the side lists, first byte of the scale region, bytes in all. -/
structure Chunk where
  elems  : Nat
  nb     : Nat
  ne     : Nat
  codes  : Nat
  lists  : Nat
  scales : Nat
  total  : Nat
  deriving DecidableEq, Repr

/-- The layout of the chunks of part `q`. A partial last scale block counts as a block. -/
def Matrix.layout (m : Matrix) (q : Nat) : Chunk :=
  let e := if q + 1 < m.parts then m.part else m.k - (m.parts - 1) * m.part
  let nb := if m.scale then ceilDiv e m.block else 0
  let ne := if m.escape then ceilDiv e 256 else 0
  let codes := if m.code8 then e else ceilDiv e 2
  let headers := codes + nb + ne
  let lists := if m.escape then roundUp headers 4 else headers
  let side := lists + 32 * ne
  let scales := if m.scale then roundUp side 4 else side
  { elems := e, nb := nb, ne := ne, codes := codes, lists := lists, scales := scales
    total := scales + 4 * nb }

/-- Code `i` of the chunk at an offset. -/
def Matrix.code (m : Matrix) (img : List Byte) (at_ i : Nat) : Nat :=
  if m.code8 then fieldAt img (at_ + i) 1 else bits (fieldAt img (at_ + i / 2) 1) (4 * (i % 2) + 3) (4 * (i % 2))

/-- Whether BF16 bits are a positive, finite, normal value (R257). -/
def normal16 (x : Nat) : Bool := decide (0x80 ≤ x) && decide (x < 0x7F80)

/-- Flaws of scale block `j` of a chunk whose first block has number `b0` in its column. -/
def blockFlaws (img : List Byte) (at_ : Nat) (l : Chunk) (b0 j : Nat) : List Flaw :=
  let tag := (b0 + j) % 256
  let r := at_ + l.scales + 4 * j
  flawIf (fieldAt img (at_ + l.codes + j) 1 != tag) (at_ + l.codes + j) 0x13 ++
  flawIf (!normal16 (fieldAt img r 2)) r 0x15 ++ flawIf (fieldAt img (r + 2) 1 != tag) (r + 2) 0x13 ++
  flawIf (fieldAt img (r + 3) 1 != 0) (r + 3) 0x15

/-- Flaws of escape block `b` of a chunk: its count, and entries of its side list that are not used. -/
def escapeFlaws (img : List Byte) (m : Matrix) (at_ : Nat) (l : Chunk) (b : Nat) : List Flaw :=
  let h := at_ + l.codes + l.nb + b
  let used := fieldAt img h 1 % 16
  let codes := (List.range (min 256 (l.elems - 256 * b))).filter
    (fun i => m.code img at_ (256 * b + i) == m.entries - 1)
  if codes.length ≠ used ∨ 8 < used then [(h, 0x14)]
  else nonZero img (at_ + l.lists + 32 * b + 4 * used) (32 - 4 * used) 0x14

/-- Flaws of one chunk (R256, R257). -/
def chunkFlaws (img : List Byte) (m : Matrix) (q c : Nat) : List Flaw :=
  let l := m.layout q
  let at_ := m.stream + m.recordBytes + (q * m.n + c) * m.chunk
  let headers := l.codes + l.nb + l.ne
  let side := l.lists + 32 * l.ne
  ((List.range l.nb).map (blockFlaws img at_ l (q * m.part / m.block))).flatten ++
  ((List.range l.ne).map (escapeFlaws img m at_ l)).flatten ++
  nonZero img (at_ + headers) (l.lists - headers) 0x10 ++ nonZero img (at_ + side) (l.scales - side) 0x10 ++
  nonZero img (at_ + l.total) (m.chunk - l.total) 0x10

/-- Flaws of the stream of a matrix whose record is good. -/
def streamFlaws (img : List Byte) (m : Matrix) : List Flaw :=
  if img.length < m.stream + m.streamBytes then [(m.at_ + 0x10, 0x10)]
  else
    codebookFlaws img m ++
    (if (List.range m.parts).any (fun q => decide (255 < (m.layout q).nb) || decide (m.chunk < (m.layout q).total))
     then [(m.at_ + 0x18, 0x12)]
     else ((List.range m.parts).map (fun q =>
       ((List.range m.n).map (chunkFlaws img m q)).flatten)).flatten)

/-- Streams that overlap one another (R257): the flaw stands at the later one. -/
def overlapFlaws (ms : List Matrix) : List Flaw :=
  let parts := ms.map (fun m => (m.stream, m.streamBytes))
  parts.zipIdx.filterMap (fun a =>
    if parts.zipIdx.any (fun b => b.2 != a.2 && regionsOverlap a.1 b.1 &&
        (decide (b.1.1 < a.1.1) || (b.1.1 == a.1.1 && decide (b.2 < a.2)))) then some (a.1.1, 0x10)
    else none)

/-- The first failure of an image (R257). -/
def imageFlaw (img : List Byte) (p0 : Nat) : Option Flaw :=
  if img.length < 64 then firstFlaw ((img.length, 0x10) :: headerFlaws img p0)
  else
    let head := headerFlaws img p0
    let count := fieldAt img 0x10 4
    let dir := fieldAt img 0x14 4
    if head ≠ [] then firstFlaw head
    else if img.length < dir + 64 * count then some (0x14, 0x10)
    else
      let ms := (List.range count).map (fun i => matrixAt img (dir + 64 * i))
      let recs := (ms.map (recordFlaws img)).flatten
      let good := ms.filter (fun m => recordFlaws img m == [])
      let fits := good.filter (fun m => decide (m.stream + m.streamBytes ≤ img.length))
      firstFlaw (recs ++ (good.map (streamFlaws img)).flatten ++ overlapFlaws fits)

/-! ### Sharing (R119) -/

/-- Whether a model or index number is free (R121). -/
def State.objectFree (s : State) (n : Nat) : Bool :=
  decide (n < 4096) && !s.objs.any (fun o => o.kind != .volume && o.num == n)

/-- The copy of a model already loaded in another Pod whose image has the same digest (R119). -/
def State.sharedCopy (s : State) (pod : Nat) (digest : BitVec 512) : Option Copy :=
  s.copies.find? (fun c => c.kind == .model && c.digest == digest &&
    s.objs.any (fun o => o.kind == .model && o.copy == c.id && o.pod != pod))

/-- LOAD_MODEL (R118, R119, R257, R316, R337, R404): the operand `n` is the number that the module gives the
model. -/
def execLoadModel (cmd n : Nat) (s : State) : Result :=
  let s := s.beginChain cmd 0x20
  s.onCmd cmd 0x20 fun c =>
    match s.queue? c.queue with
    | none => s
    | some q =>
      if s.creates = false then s.fail c .locked 0 0
      else match imageFlaw c.payload c.p0 with
        | some f => s.fail c .badPacket f.1 f.2
        | none =>
          let digest := Config.sha3 c.payload
          if s.media.wearState = 3 then s.refuse c 0x31
          else match s.sharedCopy q.pod digest with
            | some x =>
              if s.objectFree n = false then s
              else
                let o := s.addObject .model n q.pod 0 x.id
                let degraded := s.objs.any (fun y => y.copy == x.id && y.kind == .model && y.degraded)
                (o.2.modObj o.1 (fun y => { y with degraded := degraded })).fail c .ok o.1 0
            | none =>
              let parts := spanParts [(0, c.payload.length)]
              if s.hasRoom parts.length (shortPart parts) = false then s.refuse c 0x30
              else if s.objectFree n = false then s
              else
                let id := s.nextCopy
                let s := s.addCopy
                  { id := id, kind := .model, size := c.payload.length, mem := Sparse.ofList 0 c.payload
                    digest := digest, lblocks := parts.length } [(0, c.payload.length)]
                let o := s.addObject .model n q.pod 0 id
                (o.2.addKey o.1 (some id)).fail c .ok o.1 0

/-! ### Removing a model (R149, R372) -/

/-- Whether a page of a copy is being promoted. -/
def State.promoting (s : State) (copy : Nat) : Bool :=
  s.pages.any (fun x => x.copy == copy && x.state == .promoting)

/-- Whether an object may not be removed by a command (R149, R311). -/
def State.objectInUse (s : State) (c : Cmd) : Bool :=
  s.slated c.object ||
  s.link.cmds.any (fun x => x.uid != c.uid && usesObject x.opcode && x.object == c.object)

/-- Removes a stored copy with its frames and marks; its flash blocks are released as by DISCARD (R149). -/
def State.dropCopy (s : State) (copy : Nat) : State :=
  let s := s.unmapOwner (4096 + copy)
  { s with
    copies := s.copies.filter (fun c => c.id != copy)
    pages := s.pages.filter (fun x => x.copy != copy)
    integ := { s.integ with reported := s.integ.reported.filter (fun c => c != copy) } }

/-- The end of a removal: once no page is being promoted, the Pod's claims go, and the copy with the last
handle that names it. -/
def State.endRemoval (s : State) (c : Cmd) (pod copy : Nat) : State :=
  if s.promoting copy then s
  else
    let s := s.dropClaims pod copy
    let s := if s.objs.any (fun o => o.kind != .volume && o.copy == copy) then s else s.dropCopy copy
    s.ok c

/-- Begins or goes on with the removal of a model or index: the handle goes first, and the command keeps the
copy and the Pod in its progress while it waits. -/
def State.remove (s : State) (c : Cmd) (o : Obj) : State :=
  let s := ((s.dropObject o).dropRequests o.pod o.copy).failGone
  let s := s.modCmd c.uid (fun c => { c with begun := true, progress := o.copy * 65 + o.pod + 1 })
  s.endRemoval c o.pod o.copy

/-- Goes on with a removal that waits. -/
def State.goOn (s : State) (c : Cmd) : State :=
  s.endRemoval c ((c.progress - 1) % 65) ((c.progress - 1) / 65)

/-- UNLOAD_MODEL (R149). -/
def execUnloadModel (cmd : Nat) (s : State) : Result :=
  s.onCmd cmd 0x21 fun c =>
    if c.progress ≠ 0 then s.goOn c
    else match s.obj? c.object with
      | none => s.fail c .notBound 0 0
      | some o => if s.objectInUse c then s.refuse c 0x08 else s.remove c o

end Sys2Proof.Machine
end

