-- ==== Sys2Proof/Machine/Indexes.lean ====
section
/-!
DEFINITION. The commands that build, change, compact and delete an index (R279 to R291, R307 to R311).
-/

namespace Sys2Proof.Machine

/-! ### The build stream (R285, R286) -/

/-- The header of a build stream. -/
structure Build where
  w     : Nat
  lists : Nat
  codes : Nat
  cap   : Nat
  main  : Nat
  side  : Nat
  entry : Nat
  deriving DecidableEq, Repr

/-- The fields of a build stream's header. -/
def parseBuild (d : List Byte) : Build :=
  let f := fieldAt d
  { w := f 4 2, lists := f 8 4, codes := f 0x10 8, cap := f 0x18 8, main := f 0x20 8, side := f 0x28 4
    entry := f 0x2C 4 }

/-- Bytes of a code. -/
def Build.cb (b : Build) : Nat := b.w / 8
/-- Stream offsets: the graph nodes, the counts, the codes, the attribute words, the end (R285). -/
def Build.nodesAt (b : Build) : Nat := 128 + b.cb * b.lists
/-- See `Build.nodesAt`. -/
def Build.countsAt (b : Build) : Nat := b.nodesAt + 160 * b.lists
/-- See `Build.nodesAt`. -/
def Build.codesAt (b : Build) : Nat := b.countsAt + 4 * b.lists
/-- See `Build.nodesAt`. -/
def Build.wordsAt (b : Build) : Nat := b.codesAt + b.codes * b.cb
/-- See `Build.nodesAt`. -/
def Build.total (b : Build) : Nat := b.wordsAt + 8 * b.codes

/-- Flaws of a build header, for p0 to p2 (R285). -/
def buildFlaws (d : List Byte) (p0 p1 p2 : Nat) : List Flaw :=
  let b := parseBuild d
  flawField d (fieldAt d 0 4 != 0x49420002) 0 4 0x20 ++
  flawField d (b.w != p0 || b.w % 64 != 0 || decide (b.w < 64) || decide (4096 < b.w)) 4 2 0x20 ++
  nonZero d 6 2 0x20 ++
  flawField d (b.lists != p2 || b.lists == 0 || decide (16777216 < b.lists)) 8 4 0x20 ++ nonZero d 0x0C 4 0x20 ++
  flawField d (b.codes != p1) 0x10 8 0x20 ++
  flawField d (decide (b.cap < b.codes) || decide (2 ^ 47 < b.cap)) 0x18 8 0x20 ++
  flawField d (b.main % pageBytes != 0 || decide (b.main < b.codes * b.cb)) 0x20 8 0x20 ++
  flawField d (decide (b.lists ≤ b.entry)) 0x2C 4 0x20 ++ nonZero d 0x30 76 0x20 ++
  flawField d (fieldAt d 0x7C 4 != crc32c (bytesAt d 0 0x7C)) 0x7C 4 0x20

/-- Flaws of graph node `j` of a stream (R282, R286). -/
def nodeFlaws (d : List Byte) (b : Build) (j : Nat) : List Flaw :=
  let at_ := b.nodesAt + 160 * j
  let degree := fieldAt d (at_ + 8) 1
  nonZero d at_ 8 0x21 ++ flawField d (decide (32 < degree)) (at_ + 8) 1 0x21 ++ nonZero d (at_ + 9) 23 0x21 ++
  ((List.range (min degree 32)).map (fun i =>
    let n := fieldAt d (at_ + 0x20 + 4 * i) 4
    flawField d (decide (b.lists ≤ n) || n == j) (at_ + 0x20 + 4 * i) 4 0x21)).flatten ++
  nonZero d (at_ + 0x20 + 4 * degree) (128 - 4 * degree) 0x21

/-- The list counts of a stream. -/
def Build.counts (b : Build) (d : List Byte) : List Nat :=
  (List.range b.lists).map (fun j => fieldAt d (b.countsAt + 4 * j) 4)

/-- Flaws of the list counts (R286): a count too large, one with which the sum passes C, or a sum too small
at the last count. -/
def countFlaws (d : List Byte) (b : Build) : List Flaw :=
  let cs := b.counts d
  (cs.zipIdx.map (fun c =>
    flawField d (decide (16777216 < c.1) || decide (b.codes < ((cs.take (c.2 + 1)).sum))) (b.countsAt + 4 * c.2) 4 0x22)).flatten ++
  flawField d (decide (cs.sum < b.codes)) (b.countsAt + 4 * (b.lists - 1)) 4 0x22

/-- The first failure of a build stream (R286), a wrong length standing where the stream ends too early or goes on too
long. -/
def streamFlaw (d : List Byte) (p0 p1 p2 : Nat) : Option Flaw :=
  let head := buildFlaws d p0 p1 p2
  let b := parseBuild d
  if d.length < 128 then firstFlaw ((d.length, 0x20) :: head)
  else if head ≠ [] then firstFlaw head
  else firstFlaw ((if d.length = b.total then [] else [(min d.length b.total, 0x20)]) ++ ((List.range b.lists).map (nodeFlaws d b)).flatten ++ countFlaws d b)

/-! ### The window of a new index (R279 to R285) -/

/-- Sizes of the nine regions (R279). -/
def Build.sizes (b : Build) : List Nat :=
  let bitmap := roundUp (ceilDiv b.cap 8) 64
  [4096, 32 * b.lists, 160 * b.lists, bitmap, bitmap, b.cb * b.lists, 8 * b.cap, b.main,
   b.side * (1088 + 128 * b.cb)]

/-- Window offset of region `r`: the regions follow one another, each from a multiple of 2 MiB (log 30). -/
def Build.regionAt (b : Build) (r : Nat) : Nat := ((b.sizes.take r).map (fun n => roundUp n pageBytes)).sum

/-- The header of a new index (R280). -/
def Build.header (b : Build) : List Byte :=
  leBytes 4 0x49580002 ++ leBytes 2 b.w ++ leBytes 2 0 ++ leBytes 4 b.lists ++ leBytes 4 b.entry ++
  leBytes 8 b.cap ++ leBytes 8 b.main ++ leBytes 4 b.side ++ leBytes 4 0 ++
  ((List.range 9).map (fun r => leBytes 8 (b.regionAt r))).flatten ++ leBytes 8 b.codes

/-- The directory of a new index: list `j` has one run from identifier `first` (R285). -/
def Build.directory (b : Build) (cs : List Nat) (first : Nat) : List Byte :=
  match cs with
  | [] => []
  | n :: t =>
    leBytes 8 (b.regionAt 7 + b.cb * first) ++ leBytes 4 n ++ leBytes 2 (if n = 0 then 0 else 1) ++
    leBytes 1 0 ++ leBytes 1 0 ++ leBytes 4 noBlock ++ leBytes 4 0 ++ leBytes 8 (if n = 0 then 0 else first) ++
    b.directory t (first + n)

/-- The extents of the lists, as (offset, bytes). -/
def Build.extents (b : Build) (cs : List Nat) (first : Nat) : List (Nat × Nat) :=
  match cs with
  | [] => []
  | n :: t =>
    let rest := b.extents t (first + n)
    if n = 0 then rest else (b.regionAt 7 + b.cb * first, b.cb * n) :: rest

/-- The live bitmap of a new index: bits 0 to C − 1. -/
def liveBits (n : Nat) : List Byte :=
  List.replicate (n / 8) 0xFF ++ (if n % 8 = 0 then [] else [BitVec.ofNat 8 (2 ^ (n % 8) - 1)])

/-- The window of a new index (R279, R285). -/
def Build.window (b : Build) (d : List Byte) : Mem :=
  let part := fun (at_ n : Nat) => bytesAt d at_ n
  let m := Mem.write [] 0 b.header
  let m := Mem.write m (b.regionAt 1) (b.directory (b.counts d) 0)
  let m := Mem.write m (b.regionAt 2) (part b.nodesAt (160 * b.lists))
  let m := Mem.write m (b.regionAt 3) (liveBits b.codes)
  let m := Mem.write m (b.regionAt 5) (part 128 (b.cb * b.lists))
  let m := Mem.write m (b.regionAt 6) (part b.wordsAt (8 * b.codes))
  Mem.write m (b.regionAt 7) (part b.codesAt (b.codes * b.cb))

/-- The window bytes outside the metadata that a build stream writes, in the order in which they arrive (R118, R285):
the centroids, the codes, the attributes. -/
def Build.arrival (b : Build) : List (Nat × Nat) :=
  [(b.regionAt 5, b.cb * b.lists), (b.regionAt 7, b.codes * b.cb), (b.regionAt 6, 8 * b.cap)]

/-- BUILD_INDEX (R279, R285, R286, R316, R337, R404): the operand `n` is the number that the module gives the
index. No stream offset belongs to INDEX_T1 and INDEX_SPACE: result0 is a free value. -/
def execBuildIndex (cmd n : Nat) (s : State) : Result :=
  let s := s.beginChain cmd 0x22
  s.onCmd cmd 0x22 fun c =>
    match s.queue? c.queue with
    | none => s
    | some q =>
      if s.creates = false then s.fail c .locked 0 0
      else match streamFlaw c.payload c.p0 c.p1 c.p2 with
        | some f => s.fail c .badPacket f.1 f.2
        | none =>
          let b := parseBuild c.payload
          let metaPages := b.regionAt 5 / pageBytes
          let parts := spanParts (b.sizes.map (fun n => (0, n)))
          let none_ := s.fresh
          if s.media.wearState = 3 then s.refuse c 0x31
          else if s.canClaim q.pod metaPages = false then none_.2.fail c .badPacket none_.1 0x23
          else if s.hasRoom parts.length (shortPart parts) = false then none_.2.fail c .badPacket none_.1 0x24
          else if s.objectFree n = false then s
          else
            let id := s.nextCopy
            let s := s.addCopy
              { id := id, kind := .index, size := b.regionAt 8 + b.sizes.getD 8 0, mem := b.window c.payload
                lblocks := parts.length, metaPages := metaPages
                index := { extents := b.extents (b.counts c.payload) 0 } } b.arrival
            let o := s.addObject .index n q.pod 0 id
            ((o.2.addKey o.1 (some id)).fitShare o.2.pages.length q.pod).fail c .ok o.1 0

/-! ### Changes of an index (R287 to R291) -/

/-- The index that a command's handle names, with the space free that no transfer references any more (R308). -/
def State.indexOf (s : State) (h : Nat) : Option (Obj × Copy) :=
  match s.obj? h with
  | some o => if o.kind = .index then (s.copy? o.copy).map (fun c => (o, s.freed c)) else none
  | none => none

/-- An earlier change of the same index on the same queue has still to take effect (R290). -/
def State.changesFirst (s : State) (c : Cmd) : Bool :=
  (s.cmdsOf c.queue).any (fun x => decide (x.uid < c.uid) && x.object == c.object && !x.finished &&
    (x.opcode == 0x23 || x.opcode == 0x24 || x.opcode == 0x25))

/-- An entry of INSERT_CODES (R287). -/
structure Insert where
  ident : Nat
  word  : Nat
  list  : Nat
  zero  : Nat
  code  : List Byte
  deriving DecidableEq, Repr

/-- The entries of an INSERT_CODES payload for codes of `cb` bytes. -/
def parseInserts (cb : Nat) (d : List Byte) : List Insert :=
  (pieces (24 + cb) d).map (fun e =>
    { ident := fieldAt e 0 8, word := fieldAt e 8 8, list := fieldAt e 0x10 4, zero := fieldAt e 0x14 4
      code := bytesAt e 0x18 cb })

/-- The lowest side block that is neither used nor still referenced. -/
def Copy.freeBlock (c : Copy) : Option Nat :=
  (List.range (min (c.field 0x20 4) (c.index.sideUsed.length + c.index.sideLeaving.length + 1))).find?
    (fun b => !c.index.sideUsed.contains b && !c.index.sideLeaving.contains b)

/-- A new side block of list `j` (R283). -/
def Copy.openBlock (c : Copy) (b j : Nat) : Copy :=
  let head := leBytes 4 noBlock ++ leBytes 4 j ++ List.replicate 56 0
  { c with
    mem := Mem.write (Sparse.clear c.mem (c.sideAt b) c.sideBytes) (c.sideAt b) head
    index := { c.index with sideUsed := c.index.sideUsed ++ [b] } }

/-- Writes entry `e` of side block `b` (R283). -/
def Copy.putSide (c : Copy) (b e : Nat) (x : Insert) : Copy :=
  let c := c.setField (c.sideAt b + 8) 2 (e + 1)
  let c := c.setField (c.sideAt b + 0x40 + 8 * e) 8 x.ident
  { c with mem := Mem.write c.mem (c.sideAt b + 0x440 + c.codeBytes * e) x.code }

/-- Appends one entry to the side list of list `j`, in its last block or in a free one; none when the list is
full or no block is free (R287, R288). -/
def Copy.append (c : Copy) (j : Nat) (x : Insert) : Option Copy :=
  if 4096 ≤ c.sideCount j then none
  else
    let count := c.sideCount j + 1
    match (c.sideEntries j).getLast? with
    | some (b, e) =>
      if e < 127 then some ((c.putSide b (e + 1) x).setField (c.dirAt j + 20) 4 count)
      else c.freeBlock.map (fun n =>
        let c := (c.openBlock n j).setField (c.sideAt b) 4 n
        (c.putSide n 0 x).setField (c.dirAt j + 20) 4 count)
    | none => c.freeBlock.map (fun n =>
        let c := ((c.openBlock n j).setField (c.dirAt j + 16) 4 n).setField (c.dirAt j + 15) 1 0
        (c.putSide n 0 x).setField (c.dirAt j + 20) 4 count)

/-- One entry of INSERT_CODES (R287): its steps 1 to 4, with the counters. -/
def Copy.insertOne (c : Copy) (x : Insert) : Option Copy :=
  (c.append (c.resolve x.list).1 x).map (fun c =>
    let c := c.setField (c.region 6 + 8 * x.ident) 8 x.word
    ((c.setIdent x.ident .live).bump8 0x70 1).bump8 0x80 1)

/-- The entries in order: the copy after them, or the list at which there is no room. -/
def Copy.insertAll (c : Copy) (xs : List Insert) : Copy × Option Nat :=
  match xs with
  | [] => (c, none)
  | x :: t =>
    match c.insertOne x with
    | some c => c.insertAll t
    | none => (c, some (c.resolve x.list).1)

/-- INSERT_CODES (R72, R123, R287, R288, R338): on a chain that has not arrived whole, it begins. -/
def execInsertCodes (cmd : Nat) (s : State) : Result :=
  let s := s.beginChain cmd 0x23
  s.onCmd cmd 0x23 fun c =>
    match s.indexOf c.object with
    | none => s.fail c .notBound 0 0
    | some (_, x) =>
      let xs := parseInserts x.codeBytes c.payload
      if s.changesFirst c then s
      else if c.payload.length ≠ c.p1 * (24 + x.codeBytes) ∨ xs.any (fun e => e.zero != 0) = true then
        s.fail c .badPacket 0 0
      else if xs.any (fun e => decide (x.identCap ≤ e.ident) || x.ident e.ident != .free) = true ∨
          ¬ (xs.map (fun e => e.ident)).Nodup then s.refuse c 0x25
      else if xs.any (fun e => decide (x.lists ≤ e.list)) then s.refuse c 0x26
      else match x.insertAll xs with
        | (_, some j) => s.fail c .compactionRequired j 0
        | (y, none) =>
          if s.mediaHolds x y (x.grown y) = false then s.fail c .noSpaceWorn 0 0
          else if s.logsFit x y = false then s
          else (s.keepCopy y).ok c

/-- One identifier of DELETE_CODES (R289). -/
def Copy.deleteOne (c : Copy) (n : Nat) : Copy :=
  if c.ident n = .live then (c.setIdent n .deleted).bump8 0x78 1 else c.bump8 0x90 1

/-- DELETE_CODES (R63, R289): a broken chain deletes the identifiers received in full. -/
def State.deleteCodes (s : State) (c : Cmd) : State :=
  match s.indexOf c.object with
  | none => s.fail c .notBound 0 0
  | some (_, x) =>
    let ids := (List.range (c.payload.length / 8)).map (fun i => fieldAt c.payload (8 * i) 8)
    if s.changesFirst c then s
    else if ids.any (fun n => decide (x.identCap ≤ n)) then s.refuse c 0x25
    else
      let y := ids.foldl Copy.deleteOne x
      if s.mediaHolds x y [] = false then s.fail c .noSpaceWorn 0 0
      else if s.logsFit x y = false then s
      else (s.keepCopy y).complete c.uid (c.verdict.getD { status := .ok })

/-- DELETE_CODES (R63, R72, R289): on a chain that has not arrived whole, it begins. -/
def execDeleteCodes (cmd : Nat) (s : State) : Result :=
  let s := s.beginChain cmd 0x24
  match s.cmd? cmd with
  | none => .next s
  | some c =>
    if c.opcode = 0x24 ∧ c.whole = true ∧ c.finished = false ∧ s.unfenced c = true ∧ s.awake = true then
      .next (s.deleteCodes c).settle
    else .next s

/-! ### Compaction (R307 to R310) -/

/-- Whether a compaction of an index runs. -/
def Copy.compacting (c : Copy) : Bool := c.index.full.isSome || !c.index.ready.isEmpty

/-- Another COMPACT_INDEX of the same index, fetched before, is without its final completion. -/
def State.compactFirst (s : State) (c : Cmd) : Bool :=
  s.link.cmds.any (fun x => x.opcode == 0x25 && x.object == c.object && decide (x.uid < c.uid))

/-- COMPACT_INDEX (R290, R310): it starts a full compaction, or joins the one that the module runs by itself. -/
def execCompactIndex (cmd : Nat) (s : State) : Result :=
  s.onCmd cmd 0x25 fun c =>
    match s.indexOf c.object with
    | none => s.fail c .notBound 0 0
    | some (_, x) =>
      if x.index.waiting.contains c.uid then s
      else if s.compactFirst c then s.fail c .indexBusy 0 0
      else if s.changesFirst c then s
      else
        let s := s.modCmd c.uid (fun c => { c with begun := true })
        s.modCopy x.id (fun x => { x with index := { x.index with
          full := some (x.index.full.getD (0, 0))
          byCommand := x.index.byCommand || x.index.full.isNone
          waiting := x.index.waiting ++ [c.uid] } })

/-- AUTO_COMPACTION (R310): the module starts a full compaction by itself. -/
def execAutoCompaction (index : Nat) (s : State) : Result :=
  match s.copy? index with
  | none => .next s
  | some x =>
    let side := x.field 0x80 8
    let deleted := x.field 0x78 8
    let due := (side != 0 && decide (3 * (x.field 0x20 4 * 128) ≤ 4 * side)) ||
      (deleted != 0 && decide (x.field 0x70 8 ≤ 16 * deleted))
    if s.mediaRuns && decide (s.hw.pstate = .active) && x.kind == .index && due && !x.compacting then
      .next (s.modCopy index (fun x => { x with index := { x.index with full := some (0, 0) } }))
    else .next s

/-- A record that a compaction reads: identifier, code, and the window offset of what it reads. -/
abbrev Record := Nat × List Byte × Nat

/-- The records of list `j`: its extent, then its first `s0` side entries (R307 step 2). -/
def Copy.records (c : Copy) (j s0 : Nat) : List Record :=
  let ext := ((c.runTable j).map (fun r => (List.range r.2.1).map (fun i =>
    let at_ := r.2.2 + i * c.codeBytes
    (r.1 + i, Mem.bytes c.mem at_ c.codeBytes, at_)))).flatten
  ext ++ ((c.sideEntries j).take s0).map (fun p =>
    (c.sideIdent p.1 p.2, c.sideCode p.1 p.2, c.sideAt p.1 + 0x440 + c.codeBytes * p.2))

/-- A record put in its place by identifier. -/
def insertRecord (r : Record) (l : List Record) : List Record :=
  match l with
  | [] => [r]
  | x :: t => if r.1 < x.1 then r :: x :: t else x :: insertRecord r t

/-- Runs of consecutive identifiers, of at most 16,777,216 codes, among sorted records (R281, R307 step 4). -/
def runsOf (l : List Record) : List (List Record) :=
  l.foldr (fun r acc => match acc with
    | (x :: t) :: rest =>
      if r.1 + 1 = x.1 ∧ t.length + 1 < 16777216 then (r :: x :: t) :: rest else [r] :: (x :: t) :: rest
    | [] :: rest => [r] :: rest
    | [] => [[r]]) []

/-- The extent of some runs: a run table when there are two or more, then the codes (R281). -/
def extentOf (runs : List (List Record)) : List Byte :=
  let codes := (runs.map (fun r => (r.map (fun x => x.2.1)).flatten)).flatten
  if runs.length < 2 then codes
  else
    let table := (runs.map (fun r => leBytes 8 ((r.head?.map (fun x => x.1)).getD 0) ++ leBytes 4 r.length ++
      leBytes 4 0)).flatten
    table ++ List.replicate (roundUp table.length 64 - table.length) 0 ++ codes

/-- The first place of `n` bytes in the main area that no extent takes, at a multiple of 64 (R307 step 5). -/
def Copy.firstFit (c : Copy) (n : Nat) : Option Nat :=
  let base := c.region 7
  let taken := c.index.extents ++ c.index.leaving
  let tries := base :: taken.map (fun e => roundUp (e.1 + e.2) 64)
  let fits := tries.filter (fun a => decide (base ≤ a) && decide (a + n ≤ base + c.field 0x18 8) &&
    taken.all (fun e => !regionsOverlap (a, n) e))
  match fits with
  | [] => none
  | a :: t => some (t.foldl Nat.min a)

/-- A list that a compaction leaves unchanged: DEFERRED, counted once (R307). -/
def Copy.defer (c : Copy) (j : Nat) : Copy :=
  if c.listDeferred j then c
  else (c.setField (c.dirAt j + 14) 1 (c.listFlags j % 2 + 2)).bump4 0x8C 1

/-- The compaction of one list (R307, R372): the copy with its new extent ready for commit, or deferred. -/
def State.compactList (s : State) (c : Copy) (j : Nat) : Copy :=
  let s0 := c.sideCount j
  let all := c.records j s0
  let lost := all.filter (fun r => s.offsetLost c r.2.2)
  let kept := (all.filter (fun r => !s.offsetLost c r.2.2 && c.ident r.1 == .live)).foldl
    (fun l r => insertRecord r l) []
  let dropped := (all.filter (fun r => c.ident r.1 == .deleted)).map (fun r => r.1) ++
    (lost.filter (fun r => c.ident r.1 == .live)).map (fun r => r.1)
  let runs := runsOf kept
  let bytes := extentOf runs
  if 256 < runs.length then c.defer j
  else match (if bytes = [] then some (c.region 7) else c.firstFit bytes.length) with
    | none => c.defer j
    | some at_ =>
      let extents := if bytes = [] then c.index.extents else c.index.extents ++ [(at_, bytes.length)]
      let new := { c with
        mem := Mem.write c.mem at_ bytes
        index := { c.index with
          extents := extents
          ready := c.index.ready ++ [
            { list := j, s0 := s0, extent := at_, codes := kept.length, runs := runs.length
              first := (kept.head?.map (fun r => r.1)).getD 0, dropped := dropped }] } }
      if s.mediaHolds c new (c.grown new) then new else c.defer j

/-- LIST_COMPACTION (R307): the next list of a full compaction, in ascending order; a RETIRED list holds
nothing. -/
def execListCompaction (index list : Nat) (s : State) : Result :=
  match s.copy? index with
  | none => .next s
  | some x =>
    match x.index.full with
    | none => .next s
    | some (next, n) =>
      if s.mediaRuns = false ∨ s.hw.pstate ≠ .active ∨ list ≠ next ∨ x.lists ≤ list then .next s
      else
        let y := if x.listRetired list then x else s.compactList (s.freed x) list
        let s := s.keepCopy { y with index := { y.index with full := some (next + 1, n) } }
        .next (s.endCompaction index).settle

/-- STEWARD_LIST_COMMIT (R308): while no search job of the index runs, the steward commits its ready lists. -/
def execStewardListCommit (index : Nat) (s : State) : Result :=
  let busy := s.jobs.any (fun j => j.onCores && j.slate.kind == 2 && j.slate.index != 0 &&
    ((s.obj? j.slate.index).any (fun o => o.copy == index)))
  match s.copy? index with
  | none => .next s
  | some x =>
    if s.mediaRuns = false ∨ s.hw.pstate ≠ .active ∨ busy ∨ x.index.ready = [] then .next s
    else .next (s.commitReady index).1.settle

/-! ### DELETE_INDEX (R311) -/

/-- DELETE_INDEX. -/
def execDeleteIndex (cmd : Nat) (s : State) : Result :=
  s.onCmd cmd 0x26 fun c =>
    if c.progress ≠ 0 then s.goOn c
    else match s.indexOf c.object with
      | none => s.fail c .notBound 0 0
      | some (o, x) =>
        if s.objectInUse c then s.refuse c 0x08
        else if x.compacting then s.fail c .indexBusy 0 0
        else s.remove c o

end Sys2Proof.Machine
end

