-- ==== Sys2Proof/Machine/Hardware.lean ====
section
/-!
DEFINITION. Resets, pins, start-up, power and temperature (chapter 17, R79, R327, R328, R363, R391, R392,
R403, R404).
-/

namespace Sys2Proof.Machine

/-! ### The module reset (R14, R79, R365) -/

/-- A stored copy after a reset: a compaction that had not committed is gone with its new extents, and no
transfer holds old ones. -/
def Copy.restart (c : Copy) : Copy :=
  let gone := (c.index.ready.filter (fun r => decide (0 < r.codes))).map (fun r => r.extent)
  { c with index := { c.index with
      full := none, waiting := [], byCommand := false, ready := [], leaving := [], sideLeaving := []
      extents := c.index.extents.filter (fun e => !gone.contains e.1) } }

/-- The state right after a module reset, before start-up: every register at its After reset value, every
memory filled, the media, the objects, the fuses, the code flash and the pins as they were, every object in
the pool (R14, R79, R365). -/
def State.moduleReset (s : State) : State :=
  let named := fun (c : Copy) => s.objs.any (fun o => o.kind != .volume && o.copy == c.id)
  let t : State :=
    { pending := s.pending, clock := s.clock, gens := s.gens, nextCopy := s.nextCopy, arbs := Arb.resetAll
      free := s.free + 1
      host := { s.host with msix := [] }
      objs := s.objs.map (fun o => { o with pod := 0 })
      copies := (s.copies.filter named).map Copy.restart
      media := { s.media with staging := [], waiting := [], event := 0, shown := false }
      integ := { repairs := s.integ.repairs, fuses := s.integ.fuses }
      sec :=
        { lc := s.sec.lc, changes := s.sec.changes, erasedCount := s.sec.erasedCount, entries := s.sec.entries
          ownerKey := s.sec.ownerKey, image := s.sec.image, svnMin := s.sec.svnMin, revoked := s.sec.revoked
          keyTable := s.sec.keyTable.filter (fun k => s.objs.any k.serves)
          nonce := BitVec.ofNat 256 (Config.freeValue s.free) }
      hw :=
        { p54 := s.hw.p54, perst := s.hw.perst, pwrdis := s.hw.pwrdis, coolant := s.hw.coolant, cages := s.hw.cages
          lastTrip := s.hw.lastTrip, holdupWeak := s.hw.holdupWeak, clean := s.hw.clean } }
  t.releaseIdents

/-! ### Start-up (R446, R447) -/

/-- Whether the boot ROM accepts the firmware image of the code flash (R392). -/
def Security.imageValid (x : Security) : Bool :=
  match x.image with
  | none => false
  | some i =>
    i.genuine && decide (i.stepping = 0xB0) && decide (i.line = 2) && decide (i.keyIndex ≤ 3) &&
    !x.revoked.contains i.keyIndex && decide (x.svnMin.toNat ≤ i.svn) && decide (i.svn ≤ 63)

/-- Objects whose key-table slot cannot be read are degraded, with every handle of their copy (R400). -/
def State.loseKeys (s : State) (hs : List Nat) : State :=
  let lost := fun (o : Obj) =>
    hs.contains o.handle || (o.kind != .volume && s.objs.any (fun x =>
      x.kind == o.kind && x.copy == o.copy && hs.contains x.handle))
  { s with
    objs := s.objs.map (fun o => if lost o then { o with degraded := true } else o)
    sec := { s.sec with keyTable := s.sec.keyTable.filter (fun k => !s.objs.any (fun o => k.serves o && lost o)) } }

/-- The host link after training (R33). -/
def State.train (s : State) (env : StartEnv) : State :=
  { s with link := { s.link with
      linkUp := env.linkUp, x16 := env.linkUp && env.x16, rate := if env.linkUp then BitVec.ofNat 2 env.rate.val else 0 } }

/-- Step 5 of start-up on the security side: the self-tests, then the firmware (R392, R403, R404). -/
def State.boot (s : State) (env : StartEnv) : State :=
  if env.testsGood = false then { s with sec := { s.sec with err := .hard } }
  else
    let image := if env.imageGood then s.sec.image else s.sec.image.map (fun i => { i with genuine := false })
    let s : State := { s with sec := { s.sec with image := image } }
    if s.sec.imageValid then
      let svn := BitVec.ofNat 8 ((s.sec.image.map (fun i => i.svn)).getD 0)
      { s with sec := { s.sec with svnRun := svn, svnMin := if s.sec.svnMin < svn then svn else s.sec.svnMin } }
    else { s with sec := { s.sec with boot := 1 } }

/-- Temperatures at which the engine cores, and the flash back-end, are throttled (R443). -/
def hotEngine (t : Temps) : Bool := decide (95 ≤ t.kebex.toNat)
/-- See `hotEngine`. -/
def hotFlash (t : Temps) : Bool := decide (70 ≤ t.nand.toNat)

/-- What the sensors read next: free values. One that newly reaches a limit of R443 comes with the row that acts on it, and
so does one that trips (log 48). -/
def State.measure (s : State) : Temps :=
  let v := fun (i below : Nat) => BitVec.ofNat 8 (Config.freeValue (s.free + i) % below)
  let old := s.hw.temps
  ⟨v 0 (if 45 < old.inlet.toNat then 256 else 46), v 1 256, v 2 (if hotEngine old then 105 else 95), v 3 256,
    v 4 (if hotFlash old then 85 else 70), v 5 256⟩

/-- Step 7 of start-up with the measures that precede it: temperatures and supply are measured values, and
the hold-up bank may prove weak (R441, R446). -/
def State.ready (s : State) (env : StartEnv) : State :=
  let s : State :=
    { s with
      free := s.free + 7
      hw := { s.hw with
        phase := .running, started := true, startStep := 7, charged := true
        temps := s.measure
        inputDv := BitVec.ofNat 12 (Config.freeValue (s.free + 6))
        holdupWeak := decide (env.holdupMs < 20) } }
  if env.holdupMs < 20 then (s.hwEvent 2).raise 0 else s

/-- The spare rows of the macro or bank in which a unit lies: 8 in a T1 bank, 4 in an SRAM macro (R362). -/
def spareRows (u : ScrubUnit) : Nat := if (scrubPlace u).1 = 0 then 8 else 4

/-- Whether two units lie in one macro or T1 bank (R362). -/
def sameMacro (a b : ScrubUnit) : Bool :=
  let p := scrubPlace a
  let q := scrubPlace b
  p.1 == q.1 && Config.eccMacro p.1 p.2 == Config.eccMacro q.1 q.2

/-- The fuse map with the faulty rows added, each on a spare of its macro or bank (R363); none when one has no spare
left. -/
def replaceRows (fuses rows : List ScrubUnit) : Option (List ScrubUnit) :=
  match rows with
  | [] => some fuses
  | u :: rest =>
    if (fuses.filter (sameMacro u)).length < spareRows u then replaceRows (fuses ++ [u]) rest else none

/-- Start-up from step 4 of a module that has just been reset, up to the pending work of step 6. The recorded rows that
test faulty are replaced first (R362, R363). -/
def State.startOnce (s : State) (env : StartEnv) : State :=
  let s := s.train env
  match replaceRows s.integ.fuses (s.integ.repairs.filter (fun u => env.badRows.any (sameRow u))) with
  | none => { s with hw := { s.hw with phase := .stuck, startStep := 4 } }
  | some fuses =>
    let s : State := { s with integ := { s.integ with repairs := [], fuses := fuses } }
    let s := s.boot env
    let s := if s.sec.boot = 1 then s else (s.rebuild).loseKeys env.lostKeys
    s.ready env

/-- Every superblock that has been programmed is erased, with the wear of the erase (R332, R390). -/
def State.eraseFlash (s : State) : State :=
  s.media.sblocks.foldl (fun s b =>
    match b.role with
    | .free => s
    | .retired => s.setSb { b with owners := [] }
    | .mapped => s.eraseSb b.loc
    | .log => s.eraseSb b.loc
    | .copying => s.eraseSb b.loc
    | .released => s.eraseSb b.loc) s

/-- Steps 3 and 4 of a life-cycle change (R390): keys and flash are erased, wear and retirements kept. -/
def State.eraseAll (s : State) : State :=
  let s := s.eraseFlash
  { s with
    objs := [], copies := [], pages := []
    media := { s.media with
      lblocks := [], staging := [], journal := [], waiting := [], checkpoint := [], runs := []
      nextProg := s.media.nextJseq, checkpointJseq := 0, checkpoints := 0 }
    sec := { s.sec with
      keyTable := [], erasedCount := s.sec.changes
      ownerKey := if s.sec.lc = .service then s.sec.ownerKey else [] } }

/-- Whether a life-cycle change has not finished its steps 3 and 4 (R391). -/
def State.erasePending (s : State) : Bool :=
  decide (s.hw.phase = .running) && decide (s.sec.err ≠ .hard) && decide (s.sec.boot = 0) &&
  decide (s.sec.changes ≠ s.sec.erasedCount)

/-- Start-up from step 4 (R446): a life-cycle change left unfinished is finished first and ends in a further
reset (R391). -/
def State.start (s : State) (env : StartEnv) : State :=
  let s := s.startOnce env
  if s.erasePending then (s.eraseAll.moduleReset).startOnce env else s

/-! ### Pins and supply (R436 to R439) -/

/-- The flush of R327 or R437, where the module has anything to flush. -/
def State.flushing (s : State) (holds : Bool) : State :=
  if s.hw.phase = .running ∧ s.sec.err ≠ .hard ∧ s.sec.boot = 0 ∧ s.sec.lcBusy = false then s.flush holds else s

/-- Every rail is off, the always-on domain included: a latched trip cause is lost (R437, R438). -/
def State.dark (s : State) : State :=
  let s := s.moduleReset
  { s with hw := { s.hw with phase := .off, lastTrip := 0 } }

/-- Only the always-on domain runs, with a trip cause: 1 COOLANT, 2 THERMAL (R437, R443). -/
def State.trip (s : State) (cause : BitVec 2) : State :=
  let s := s.moduleReset
  { s with hw := { s.hw with phase := .tripped, lastTrip := cause } }

/-- Power reaches the always-on domain (R446 step 1): the inputs decide how far the start goes. -/
def State.powerOn (s : State) (env : StartEnv) : State :=
  if s.hw.p54 = false ∨ s.hw.pwrdis = true then s
  else if s.hw.coolant then s.trip 1
  else
    let s := s.moduleReset
    if s.hw.perst then { s with hw := { s.hw with phase := .held } } else s.start env

/-- POWER_APPLY (R446). -/
def execPowerApply (env : StartEnv) (s : State) : Result :=
  if s.hw.p54 then .next s
  else
    let s : State := { s with hw := { s.hw with p54 := true } }
    .next (s.powerOn env)

/-- POWER_LOSS (R327, R439): `bankHolds` says that the hold-up bank carries the flush to its end. -/
def execPowerLoss (bankHolds : Bool) (s : State) : Result :=
  if s.hw.p54 = false then .next s
  else
    let s := s.flushing bankHolds
    let s : State := { s with hw := { s.hw with p54 := false } }
    .next s.dark

/-- PERST_ASSERT (R437). -/
def execPerstAssert (s : State) : Result :=
  if s.hw.perst then .next s
  else
    let s := s.flushing true
    let s : State := { s with hw := { s.hw with perst := true } }
    if s.hw.phase = .running ∨ s.hw.phase = .stuck then
      let s := s.moduleReset
      .next { s with hw := { s.hw with phase := .held } }
    else .next s

/-- PERST_RELEASE (R437, R446): a start at step 3, or at step 2 after a trip once no leak is reported. -/
def execPerstRelease (env : StartEnv) (s : State) : Result :=
  if s.hw.perst = false then .next s
  else
    let s : State := { s with hw := { s.hw with perst := false } }
    if s.hw.phase = .held ∨ (s.hw.phase = .tripped ∧ s.hw.coolant = false) then
      .next (s.moduleReset.start env)
    else .next s

/-- PWRDIS_ASSERT (R437). -/
def execPwrdisAssert (s : State) : Result :=
  if s.hw.pwrdis then .next s
  else
    let s := s.flushing true
    let s : State := { s with hw := { s.hw with pwrdis := true } }
    .next s.dark

/-- PWRDIS_RELEASE (R437, R446). -/
def execPwrdisRelease (env : StartEnv) (s : State) : Result :=
  if s.hw.pwrdis = false then .next s
  else
    let s : State := { s with hw := { s.hw with pwrdis := false } }
    .next (s.powerOn env)

/-- COOLANT_FLT_ASSERT (R437). -/
def execCoolantFltAssert (s : State) : Result :=
  if s.hw.coolant then .next s
  else
    let s := s.flushing true
    let s : State := { s with hw := { s.hw with coolant := true } }
    if s.hw.phase = .off then .next s else .next (s.trip 1)

/-- COOLANT_FLT_RELEASE (R437): the module stays off. -/
def execCoolantFltRelease (s : State) : Result := .next { s with hw := { s.hw with coolant := false } }

/-- HOST_LINK_RESET (R33, R383): sessions and IDE keys end, commands already begun go on. -/
def execHostLinkReset (env : StartEnv) (s : State) : Result :=
  if s.hw.phase ≠ .running ∧ s.hw.phase ≠ .stuck then .next s
  else
    let s := s.train env
    .next { s with
      link := { s.link with ide := false, session := false }
      sec := { s.sec with sessions := [], ideBy := none } }

/-! ### Throttles and trips (R440, R441, R443) -/

/-- The Gaffer throttles the engine cores, or the flash back-end, for its allowance (R440). -/
def State.throttle (s : State) (engine : Bool) : State :=
  let s : State := { s with hw := { s.hw with
    thrEngine := s.hw.thrEngine || engine, thrFlash := s.hw.thrFlash || !engine
    limEngine := s.hw.limEngine && !engine, limFlash := s.hw.limFlash && engine } }
  s.hwEvent 0

/-- POWER_THROTTLE (R27, R440): the Gaffer acts on a meter reading that shows a consumer at its allowance: the engine
cores, or else the flash back-end. -/
def execPowerThrottle (engine : Bool) (s : State) : Result :=
  let due := if engine then s.hw.limEngine else s.hw.limFlash
  if s.hw.phase ≠ .running ∨ due = false then .next s else .next (s.throttle engine)

/-- Temperatures that trip the module (R443). -/
def tripsAt (t : Temps) : Bool :=
  decide (105 ≤ t.kebex.toNat) || decide (85 ≤ t.nand.toNat) || decide (55 < t.inlet.toNat)

/-- THERMAL_THROTTLE (R443). -/
def execThermalThrottle (t : Temps) (s : State) : Result :=
  if s.hw.phase ≠ .running ∨ (hotEngine t = false ∧ hotFlash t = false) then .next s
  else
    let s : State := { s with hw := { s.hw with
      temps := t, thrEngine := s.hw.thrEngine || hotEngine t, thrFlash := s.hw.thrFlash || hotFlash t } }
    .next (s.hwEvent 1)

/-- INLET_HIGH (R443). -/
def execInletHigh (t : Temps) (s : State) : Result :=
  if s.hw.phase ≠ .running ∨ t.inlet.toNat ≤ 45 then .next s
  else
    let s : State := { s with hw := { s.hw with temps := t } }
    .next (s.hwEvent 3)

/-- THERMAL_TRIP (R443): acts as an active COOLANT_FLT#, with cause THERMAL. -/
def execThermalTrip (t : Temps) (s : State) : Result :=
  if tripsAt t = false ∨ s.hw.phase = .off ∨ s.hw.phase = .tripped then .next s
  else .next ((s.flushing true).trip 2)

/-- HOLDUP_MEASURE (R441): the bank's hold-up time in ms, once in 24 h. -/
def execHoldupMeasure (ms : Nat) (s : State) : Result :=
  if s.hw.phase ≠ .running ∨ 20 ≤ ms then .next s
  else
    let s : State := { s with hw := { s.hw with holdupWeak := true } }
    .next ((s.hwEvent 2).raise 0)

/-! ### Draw, and the outputs at the edge connector (R437, R444, R448) -/

/-- The most that the module draws from P54 in a state, in watts. An exit to Active has the draw of Active. -/
def State.drawLimit (s : State) : Nat :=
  match s.hw.phase with
  | .off => 1
  | .tripped => 8
  | .held => 60
  | .stuck => 720
  | .running =>
    if s.hw.exiting then 720
    else match s.hw.pstate with
      | .active => 720
      | .standby => 250
      | .sleep => 150

/-- What ACT_LED shows (R448). -/
inductive LedPattern where
  | off
  | lit
  /-- At 8 Hz. -/
  | flicker
  /-- At 1 Hz. -/
  | slow
  /-- Two pulses of 100 ms each second. -/
  | pulses
  deriving DecidableEq, Repr

/-- ACT_LED (R448). Where two of its lines apply, recovery and HARD_ERROR come first, then the power state (DEDUCED,
log 62). -/
def State.actLed (s : State) : LedPattern :=
  if s.hw.phase ≠ .running ∨ s.hw.started = false then .off
  else if s.sec.boot = 1 ∨ s.sec.err = .hard then .pulses
  else if s.hw.pstate ≠ .active then .slow
  else if s.link.cmds ≠ [] ∨ s.jobs.any (fun j => j.onCores) = true then .flicker
  else .lit

/-- Whether PRSNT_ID is low in half second `half` since the last write of HW_CTL (R448): while IDENTIFY is 1 the pattern
begins with its released half. -/
def State.prsntLow (s : State) (half : Nat) : Bool := !(s.hw.identify && half % 2 == 0)

end Sys2Proof.Machine
end

