-- ==== Sys2Proof/Machine/Security.lean ====
section
/-!
DEFINITION. Security and life cycle (chapter 14): HARD_ERROR, attestation and sessions, the life-cycle
change, the firmware update, the code flash.
-/

namespace Sys2Proof.Machine

/-! ### The boundary and the keys (R379, R384 to R386) -/

/-- Whether the test domain and the debug ports are enabled (R379): only in BLANK. -/
def State.testEnabled (s : State) : Bool := s.sec.lc == .blank

/-- A key of 32 bytes derived from the DUS under a label in ASCII, with a context (R384). -/
def derived (label context : List Byte) : List Byte := Config.kmac256 Config.dus label context 32

/-- The change count as the context of a derivation. -/
def State.countContext (s : State) : List Byte := leBytes 4 s.sec.changes

/-- The key-encryption key (R384): of the change count, so that every change of the life cycle destroys it. -/
def State.kek (s : State) : List Byte := derived [0x4B, 0x45, 0x4B] s.countContext

/-- The media key of the map, the journal and the staging (R380, R384). -/
def State.mediaKey (s : State) : List Byte :=
  Config.kmac256 Config.dus [0x4D, 0x45, 0x44, 0x49, 0x41] s.countContext 64

/-- The seed of the device identity key (R384). -/
def dikSeed : List Byte := derived [0x44, 0x49, 0x4B] []

/-- The seed of the attestation key, of the running image (R384). -/
def State.akSeed (s : State) : List Byte :=
  derived [0x41, 0x4B] (leBytes 64 ((s.sec.image.map (fun i => i.digest.toNat)).getD 0))

/-- The XTS key pair of an object (R385). -/
def KeySlot.xtsKey (k : KeySlot) : List Byte := Config.kmac256 (leBytes 32 k.secret.toNat) [0x58, 0x54, 0x53] [] 64

/-- A slot of the key table as its 64 bytes (R386): handle, wrapped secret, check value. -/
def State.slotBytes (s : State) (k : KeySlot) : List Byte :=
  let body := leBytes 8 k.handle ++ (Config.keyWrap s.kek k.secret).take 40
  body ++ Config.kmac256 s.kek body [] 16

/-! ### Error states (R403, R404) -/

/-- The status codes of R78, in the table's order. -/
def Status.all : List Status :=
  [.ok, .okUnderfilled, .okReplayed, .badPacket, .chainBroken, .queueHalted, .notBound, .outOfRange, .stateBusy,
   .aborted, .queueReset, .resetAfterBegin, .noSpaceWorn, .mediaUncorrectable, .weightsLost, .readOnly,
   .engineFault, .scaleSkew, .doubleFault, .budgetOverrun, .pageFaultFatal, .indexBusy, .compactionRequired,
   .authFail, .locked, .fabricUnreachable]

/-- Stops a job without a Cut: its cores are free and it has ended; the manual names no cause for this end,
so the recorded causes and status are free values (R404). -/
def State.haltJob (s : State) (ctx : Nat) : State :=
  match s.job? ctx with
  | none => s
  | some j =>
    if j.state = .ended then s
    else
      let s := s.freeCores ctx
      let v := fun (i : Nat) => Config.freeValue (s.free + i)
      let e : JobEnd :=
        { cause := v 0 % 256, faultCause := v 1 % 256, status := Status.all.getD (v 2 % 26) .ok }
      let s : State := { s with free := s.free + 3 }
      let s := s.modJob ctx (fun j => { j with
        state := .ended, ended := e, pendingReqs := [], batch := [], detached := [], leaving := [], reclaims := [],
        endJobs := [], submit := none, lastCut := none, prevCut := none, program := [], writable := [],
        window := false, region := false, idleWait := false })
      s.showJob ctx

/-- HARD_ERROR (R404): jobs stop, staged sectors reach the media, keys go, every fetched command completes
with LOCKED, the ports go DOWN. -/
def State.hardError (s : State) : State :=
  if s.sec.err = .hard then s
  else
    let s := (s.jobs.map (fun j => j.ctx)).foldl State.haltJob s
    let s := s.flushing true
    let s : State := { s with
      link := { s.link with ide := false, session := false }
      sec := { s.sec with err := .hard, sessions := [], ideBy := none, staged := [], fwState := 0 } }
    let s := s.completeAll (s.link.cmds.map (fun c => c.uid)) { status := .locked }
    s.portsDownFree.settle

/-- Whether the security domain runs. -/
def State.secRuns (s : State) : Bool := decide (s.hw.phase = .running)

/-- SELF_TEST_PERIODIC (R403, R404). -/
def execSelfTestPeriodic (pass : Bool) (s : State) : Result :=
  if s.secRuns = false ∨ pass = true then .next s else .next s.hardError

/-- ENTROPY_TEST_FAIL (R404): a continuous test fails and the module is in SOFT_ERROR until its retries end;
with `retries` they end, and say whether one passed. -/
def execEntropyTestFail (retries : Option Bool) (s : State) : Result :=
  if s.secRuns = false ∨ s.sec.err = .hard then .next s
  else
    match retries with
    | none => .next { s with sec := { s.sec with err := .soft } }
    | some true => .next { s with sec := { s.sec with err := .none } }
    | some false => .next s.hardError

/-- WATCHDOG_EXPIRY (R398, R404): the watchdogs of stalled cores are suspended. -/
def execWatchdogExpiry (s : State) : Result :=
  if s.secRuns = false ∨ s.sec.cfBusy = true then .next s else .next s.hardError

/-! ### Attestation and sessions (R382, R383, R401) -/

/-- The code of an error state (SEC_STATUS). -/
def ErrState.code (e : ErrState) : Nat :=
  match e with
  | .none => 0
  | .soft => 1
  | .hard => 2

/-- The measurements (R401). -/
def State.measurement (s : State) (i : Nat) : Option (List (BitVec 512)) :=
  let n := BitVec.ofNat 512
  match i with
  | 1 => some [Config.bootRomDigest]
  | 2 => some [(s.sec.image.map (fun i => i.digest)).getD 0]
  | 3 => some ([n s.sec.lc.code, n s.sec.changes, n s.sec.svnMin.toNat] ++ s.sec.revoked.map n)
  | 4 => some [if s.sec.ownerKey = [] then 0 else Config.sha3 s.sec.ownerKey]
  | 5 => some [n (if s.sec.boot = 1 then 1 else 0), n s.sec.err.code]
  | _ => none

/-- The state with an SPDM answer given. -/
def State.answer (s : State) (r : SpdmReply) : State :=
  { s with host := { s.host with spdm := s.host.spdm ++ [r] } }

/-- The lowest session number that is not in use. -/
def State.newSession (s : State) : Nat :=
  ((List.range 4).find? (fun n => !s.sec.sessions.any (fun x => x.1 == n))).getD 4

/-- SPDM_MESSAGE (R382, R383, R401, R404): at most four sessions; a key exchange needs random values. -/
def execSpdmMessage (msg : SpdmMsg) (s : State) : Result :=
  if s.secRuns = false then .next s
  else if s.sec.err = .hard ∨ s.sec.lc = .blank then .next (s.answer .error)
  else
    match msg with
    | .getMeasurement i =>
      match s.measurement i with
      | some v => .next (s.answer (.measurement i v))
      | none => .next (s.answer .error)
    | .getCertificate => .next (s.answer (.chain Config.ownChain))
    | .keyExchange req =>
      if s.sec.err = .soft ∨ 4 ≤ s.sec.sessions.length then .next (s.answer .error)
      else
        let user := decide (s.sec.lc = .service) &&
          (match req with
           | some chain => Config.chainEndsIn chain s.sec.ownerKey
           | none => false)
        let n := s.newSession
        .next (({ s with sec := { s.sec with sessions := s.sec.sessions ++ [(n, user)] } }).answer (.session n user))
    | .endSession n =>
      if s.sec.sessions.any (fun x => x.1 == n) then
        let holds := s.sec.ideBy == some n
        let s : State := { s with
          sec := { s.sec with
            sessions := s.sec.sessions.filter (fun x => x.1 != n)
            ideBy := if holds then none else s.sec.ideBy }
          link := { s.link with ide := s.link.ide && !holds, session := s.link.session && !holds } }
        .next (s.answer (.ended n))
      else .next (s.answer .error)
    | .other code => .next (s.answer (.answered code))

/-- IDE_KM_MESSAGE (R383): a session sets the link's IDE keys. -/
def execIdeKmMessage (session : Nat) (s : State) : Result :=
  match s.sec.sessions.find? (fun x => x.1 == session) with
  | none => .next s
  | some x =>
    if s.secRuns = false ∨ s.link.linkUp = false ∨ s.sec.err = .hard then .next s
    else
      .next { s with
        link := { s.link with ide := true, session := x.2 }
        sec := { s.sec with ideBy := some session } }

/-! ### Reason codes (R405) -/

/-- IMAGE_FORMAT. -/
def imageFormat : Nat := 0x40
/-- IMAGE_SIGNATURE. -/
def imageSignature : Nat := 0x41
/-- IMAGE_ROLLBACK. -/
def imageRollback : Nat := 0x42
/-- IMAGE_TARGET. -/
def imageTarget : Nat := 0x43
/-- KEY_REVOKED. -/
def keyRevoked : Nat := 0x44
/-- NOT_IDLE. -/
def notIdle : Nat := 0x45
/-- TOKEN_FORMAT. -/
def tokenFormat : Nat := 0x46
/-- TOKEN_SIGNATURE. -/
def tokenSignature : Nat := 0x47
/-- TOKEN_NONCE. -/
def tokenNonce : Nat := 0x48
/-- TRANSITION. -/
def badTransition : Nat := 0x49
/-- SERVICE_EXHAUSTED. -/
def serviceExhausted : Nat := 0x4A
/-- ERROR_STATE. -/
def errorState : Nat := 0x4B

/-- The first reason that applies. -/
def firstCause (l : List (Bool × Nat)) : Option Nat := (l.find? (fun x => x.1)).map (fun x => x.2)

/-! ### The life-cycle change (R388 to R391) -/

/-- Bytes of a token (R389). -/
def tokenBytes : Nat := 0xA60 + 4627

/-- The key that a transition must be signed with; none when R388 has no such transition. -/
def State.transitionKey (s : State) (target : Nat) (newKey : List Byte) : Option (List Byte) :=
  match s.sec.lc, target with
  | .seeded, 2 => some newKey
  | .service, 1 => some s.sec.ownerKey
  | .service, 3 => some s.sec.ownerKey
  | .seeded, 3 => some Config.serviceKey
  | _, _ => none

/-- The life-cycle state that a code names (R387). -/
def lcOf (n : Nat) : LcState :=
  match n with
  | 0 => .blank
  | 1 => .seeded
  | 2 => .service
  | _ => .retired

/-- Whether the module is idle (R76) and neither stages nor commits firmware (R390). -/
def State.quiet (s : State) : Bool :=
  s.jobs.all (fun j => !j.onCores) && s.link.cmds.isEmpty && s.sec.fwState != 1 && s.sec.fwState != 4

/-- Step 1 of R390: why a token is refused; none when it holds. -/
def State.tokenCause (s : State) (tok : List Byte) (inside : Bool) : Option Nat :=
  let target := fieldAt tok 4 1
  let newKey := bytesAt tok 0x40 2592
  let key := s.transitionKey target newKey
  firstCause [
    (!inside || fieldAt tok 0 4 != 0x4C430002 || fieldAt tok 5 3 != 0 || fieldAt tok 0x38 8 != 0 ||
      fieldAt tok 8 16 != Config.serial.toNat || (target != 2 && !allZero newKey), tokenFormat),
    (fieldAt tok 0x18 32 != s.sec.nonce.toNat, tokenNonce),
    (key.isNone, badTransition),
    (!Config.mldsaVerify (bytesAt tok 0 0xA60) (key.getD []) (bytesAt tok 0xA60 4627), tokenSignature),
    (target == 2 && decide (32 ≤ s.sec.entries), serviceExhausted)]

/-- Steps 2 to 5 of R390. Without `whole`, a loss of power or PERST# follows step 2 (R391). -/
def State.changeLc (s : State) (target : Nat) (newKey : List Byte) (whole : Bool) (env : StartEnv) : State :=
  let s : State := { s with
    link := { s.link with session := false }
    sec := { s.sec with
      lc := lcOf target, changes := s.sec.changes + 1, lcBusy := true
      entries := if target = 2 then s.sec.entries + 1 else s.sec.entries
      ownerKey := if target = 2 then newKey else s.sec.ownerKey } }
  if whole then (s.eraseAll.moduleReset).start env
  else { s with objs := [], copies := [], pages := [], sec := { s.sec with cfBusy := true, cfLastOp := 2 } }

/-- GO (R389, R390, R405): every GO renews the nonce. -/
def State.lifecycle (s : State) (whole : Bool) (env : StartEnv) : State :=
  let off := s.sec.lcOffset.toNat * 4096
  let tok := s.apertureBytes off tokenBytes
  let cause :=
    if s.sec.err ≠ .none then some errorState
    else if s.quiet = false then some notIdle
    else s.tokenCause tok (decide (off + tokenBytes ≤ 2 ^ 30))
  let n := s.fresh
  let t : State := { n.2 with sec := { n.2.sec with nonce := BitVec.ofNat 256 n.1 } }
  match cause with
  | some r => { t with sec := { t.sec with lcReason := BitVec.ofNat 8 r } }
  | none => t.changeLc (fieldAt tok 4 1) (bytesAt tok 0x40 2592) whole env

/-! ### Firmware update (R392 to R396) -/

/-- Bytes of the signature area of an image (R394). -/
def signatureArea : Nat := 4632

/-- Whether the length and the header of an image keep R394. -/
def imageFormed (img : List Byte) : Bool :=
  let n := img.length
  let f := fieldAt img
  decide (0xA60 + signatureArea ≤ n) && decide (n ≤ 15728640) && n % 8 == 0 && f 0 4 == 0x46570002 &&
  f 4 4 == n && decide (f 0xB 1 ≤ 63) && decide (f 0xC 1 ≤ 3) && f 0xD 3 == 0 && f 0x10 4 % 4096 == 0 &&
  decide (f 0x10 4 ≤ f 0x14 4) && allZero (bytesAt img 0x1C 36) && allZero (bytesAt img (n - 5) 5)

/-- Why an image is refused (R392, R405); none when it holds. -/
def State.imageCause (s : State) (img : List Byte) : Option Nat :=
  let f := fieldAt img
  let pk := bytesAt img 0x40 2592
  let body := img.take (img.length - signatureArea)
  firstCause [
    (!imageFormed img, imageFormat),
    (f 8 2 != 0xB0 || f 0xA 1 != 2, imageTarget),
    (!(List.range 4).any (fun i => Config.vendorKeyDigest i == Config.sha3 pk) || s.sec.revoked.contains (f 0xC 1),
      keyRevoked),
    (!Config.mldsaVerify body pk (bytesAt img (img.length - signatureArea) 4627), imageSignature),
    (decide (f 0xB 1 < s.sec.svnMin.toNat), imageRollback)]

/-- The image as the code flash holds it. -/
def imageOf (img : List Byte) : FwImage :=
  let f := fieldAt img
  { stepping := f 8 2, line := f 0xA 1, svn := f 0xB 1, keyIndex := f 0xC 1, genuine := true
    digest := Config.sha3 img, xoStart := f 0x10 4, xoEnd := f 0x14 4, entry := f 0x18 4 }

/-- The image that is staged; in recovery the boot ROM reads it in the aperture (R393). -/
def State.stagedImage (s : State) : List Byte :=
  if s.sec.boot = 1 then s.apertureBytes s.sec.stagedFrom s.sec.staged.length else s.sec.staged

/-- A refusal of an update (R405). -/
def State.refuseFw (s : State) (reason : Nat) : State :=
  { s with sec := { s.sec with fwReason := BitVec.ofNat 8 reason } }

/-- OP STAGE (R395): copies the image; a new one replaces any other. -/
def State.stage (s : State) : State :=
  if s.sec.err ≠ .none then s.refuseFw errorState
  else
    let off := s.sec.fwOffset.toNat * 4096
    let n := s.sec.fwLength.toNat
    let img := if off + n ≤ 2 ^ 30 then s.apertureBytes off n else []
    { s with sec := { s.sec with staged := img, stagedFrom := off, fwState := 1 } }

/-- FW_VERIFY_DONE (R395): the check of the staged image ends. -/
def execFwVerifyDone (s : State) : Result :=
  if s.secRuns = false ∨ s.sec.fwState ≠ 1 then .next s
  else
    match s.imageCause s.stagedImage with
    | none => .next { s with sec := { s.sec with fwState := 2 } }
    | some r =>
      let s := s.refuseFw r
      .next { s with sec := { s.sec with fwState := 3 } }

/-- OP COMMIT (R396), as far as `stop` says. -/
def State.commitFw (s : State) (stop : CommitEnd) (env : StartEnv) : State :=
  if s.sec.err ≠ .none then s.refuseFw errorState
  else if s.sec.fwState ≠ 2 ∨ s.quiet = false then s.refuseFw notIdle
  else
    let img := s.stagedImage
    let s := s.flushing true
    match s.imageCause img with
    | some r =>
      let s := s.refuseFw r
      { s with sec := { s.sec with fwState := 3 } }
    | none =>
      let i := imageOf img
      let svn := BitVec.ofNat 8 i.svn
      let busy : Security :=
        { s.sec with fwState := 4, boot := 2, cfBusy := true, cfLastOp := if stop = .beforeFirstWord then 2 else 1 }
      match stop with
      | .beforeFirstWord => { s with sec := { busy with image := none } }
      | .beforeFuse => { s with sec := { busy with image := some i } }
      | .whole =>
        let s : State := { s with sec := { s.sec with
          image := some i, svnMin := if s.sec.svnMin < svn then svn else s.sec.svnMin } }
        s.moduleReset.start env

/-- A data read of the code flash by a steward core (R399): in the execute-only range of the running image it returns zero
and counts, saturating. No row makes such a read (log 60). -/
def State.stewardRead (s : State) (off : Nat) (word : BitVec 64) : BitVec 64 × State :=
  let hidden := s.sec.boot == 0 && s.sec.image.any (fun i => decide (i.xoStart ≤ off) && decide (off < i.xoEnd))
  if hidden then
    (0, { s with sec := { s.sec with
      xoViolations := if s.sec.xoViolations = 0xFFFF#16 then 0xFFFF#16 else s.sec.xoViolations + 1 } })
  else (word, s)

/-- CF_OPERATION_DONE (R397, R398): a program, or an erase, of the code flash ends with a result, and the
stalled steward cores go on. -/
def execCfOperationDone (erase : Bool) (result : Fin 4) (s : State) : Result :=
  if s.secRuns = false then .next s
  else .next { s with sec := { s.sec with
    cfBusy := false, cfLastOp := if erase then 2 else 1, cfResult := BitVec.ofNat 4 result.val } }

end Sys2Proof.Machine
end

