-- ==== Sys2Proof/Machine/Dailies.lean ====
section
/-!
DEFINITION. The Dailies (chapter 16) and the metering of energy (R116): counters folded, snapshots, samples,
and the ring in the aperture that they are written to.
-/

namespace Sys2Proof.Machine

/-! ### The ring (R427) -/

/-- Bytes of the ring. -/
def Dailies.bytes (d : Dailies) : Nat := d.ringSize * 4096

/-- Bytes between HEAD and TAIL, around the ring; the low four bits of HEAD are ignored. -/
def Dailies.used (d : Dailies) : Nat := (d.tail.toNat + d.bytes - d.head.toNat / 16 * 16 % d.bytes) % d.bytes

/-- Bytes that records of these lengths take from offset `at_` of a ring of `size` bytes, PAD records
included, and where they end. -/
def spanOf (size at_ : Nat) (ls : List Nat) : Nat × Nat :=
  ls.foldl (fun x n =>
    let pad := if size < x.2 + n then size - x.2 else 0
    (x.1 + pad + n, (if size < x.2 + n then n else x.2 + n) % size)) (0, at_)

/-- Whether the ring keeps the ranges of SIZE and lies in the aperture. No record fits one that does not (DESIGN CHOICE,
log 68). -/
def Dailies.placed (d : Dailies) : Bool :=
  decide (16 ≤ d.ringSize) && decide (d.ringSize ≤ 16384) && decide (d.ringOffset + d.ringSize ≤ 262144)

/-- Whether records of these lengths fit: the last ends at least 16 B before HEAD. -/
def Dailies.fits (d : Dailies) (ls : List Nat) : Bool :=
  d.placed && decide (d.used + (spanOf d.bytes d.tail.toNat ls).1 + 16 ≤ d.bytes)

/-- A record (R429): header and body. -/
def Dailies.record (d : Dailies) (kind : Nat) (body : List Byte) : List Byte :=
  leBytes 1 kind ++ leBytes 1 0 ++ leBytes 2 (32 + body.length) ++ leBytes 4 0 ++ leBytes 8 d.snap ++
  leBytes 8 d.interval ++ leBytes 8 0 ++ body

/-- The PAD record that fills the last `n` bytes of the ring; 16 bytes hold half of its header. -/
def Dailies.pad (d : Dailies) (n : Nat) : List Byte :=
  let body := List.replicate (n - 32) (0 : Byte)
  (leBytes 1 0 ++ leBytes 1 0 ++ leBytes 2 n ++ leBytes 4 0 ++ leBytes 8 d.snap ++ leBytes 8 d.interval ++
    leBytes 8 0 ++ body).take n

/-- Writes one record at TAIL, which has room for it: a record never wraps (R427). -/
def State.putRecord (s : State) (bs : List Byte) : State :=
  let d := s.dailies
  let at_ := d.tail.toNat
  let base := d.ringOffset * 4096
  if d.bytes < at_ + bs.length then
    let s := (s.writeAperture 37 (base + at_) (d.pad (d.bytes - at_))).writeAperture 37 base bs
    { s with dailies := { s.dailies with tail := BitVec.ofNat 32 (bs.length % d.bytes) } }
  else
    let s := s.writeAperture 37 (base + at_) bs
    { s with dailies := { s.dailies with tail := BitVec.ofNat 32 ((at_ + bs.length) % d.bytes) } }

/-- Saturating addition to a 32-bit count. -/
def addSat (v : BitVec 32) (n : Nat) : BitVec 32 := BitVec.ofNat 32 (min (v.toNat + n) 0xFFFFFFFF)

/-! ### Snapshots (R425, R428, R429) -/

/-- Whether the counters of a block stand still: those of a fenced core (R425). -/
def State.stands (s : State) (b : Nat) : Bool := decide (b < 32) && s.coreFenced b

/-- Folds every slot of the module (R425). -/
def State.foldAll (s : State) : State :=
  (List.range 165).foldl (fun s b => if s.stands b then s else s.foldBlock b) s

/-- The COUNTERS record of a block. -/
def State.counters (s : State) (b : Nat) : List Byte :=
  let entry := fun (c : Nat) =>
    let x := s.cntSel (8 * b + c)
    leBytes 1 x.event.toNat ++ leBytes 1 (b2n x.level + 2 * b2n x.changed + 4 * b2n (s.stands b)) ++
    List.replicate 6 0 ++ leBytes 8 (Sparse.get s.dailies.totals (8 * b + c)).toNat
  s.dailies.record 1 (leBytes 2 b ++ leBytes 1 (cntSlots b) ++ List.replicate 13 0 ++
    ((List.range (cntSlots b)).map entry).flatten)

/-- The jobs in context order. -/
def State.jobsInOrder (s : State) : List Job :=
  s.jobs.foldl (fun l j => l.takeWhile (fun x => decide (x.ctx < j.ctx)) ++
    j :: l.dropWhile (fun x => decide (x.ctx < j.ctx))) []

/-- The OVERHEAD record: energy in millijoules, then the bytes of fabric service. -/
def State.overheadRecord (s : State) : List Byte :=
  let e := fun (i : Nat) => leBytes 8 ((Sparse.get s.dailies.overhead i).toNat / 1000)
  s.dailies.record 3 (((List.range 7).map e).flatten ++ leBytes 8 s.spool.serviceBytes)

/-- The records of a snapshot, in order (R428). -/
def State.snapshotRecords (s : State) : List (List Byte) :=
  let d := s.dailies
  let rs := (List.range 165).map s.counters ++ s.jobsInOrder.map (fun j => d.record 2 (acctRecord j)) ++
    [s.overheadRecord]
  rs ++ [d.record 6 (leBytes 4 (rs.length + 1) ++ leBytes 4 d.lostSnaps.toNat ++ leBytes 8 d.lostSamples.toNat)]

/-- Takes a snapshot (R428): it is written whole or not at all. -/
def State.snapshot (s : State) : State :=
  let s := s.foldAll
  let rs := s.snapshotRecords
  let d := s.dailies
  if d.fits (rs.map List.length) then
    let s := rs.foldl State.putRecord s
    { s with dailies := { s.dailies with
        snap := d.snap + 1, sel := s.dailies.sel.map (fun x => { x with changed := false }) } }
  else { s with dailies := { d with lostSnaps := addSat d.lostSnaps 1 } }

/-- PERIODIC_SNAPSHOT (R428): PERIOD metering intervals have passed since the last one. -/
def execPeriodicSnapshot (s : State) : Result :=
  let d := s.dailies
  let due := decide (Nat.max 1 d.period.toNat ≤ d.since)
  if s.hw.phase ≠ .running ∨ d.enable = false ∨ d.ringSize = 0 ∨ due = false then .next s
  else
    let s : State := { s with dailies := { d with since := 0 } }
    .next s.snapshot

/-- COUNTER_FOLD (R425): a slot that reaches 2^47; one that counts cycles may have reached it. -/
def execCounterFold (i : Fin 1320) (s : State) : Result :=
  let n := i.val
  let full := decide (2 ^ 47 ≤ (Sparse.get s.dailies.slots n).toNat) || cntTimed (n / 8) (s.cntSel n)
  if s.hw.phase ≠ .running ∨ cntSlots (n / 8) ≤ n % 8 ∨ s.stands (n / 8) ∨ full = false then .next s
  else .next (s.foldSlot n)

/-! ### Samples (R430 to R432) -/

/-- Writes a sample record, or drops it with its `n` samples when the ring has no room. -/
def State.putSample (s : State) (n : Nat) (bs : List Byte) : State :=
  if s.dailies.fits [bs.length] then s.putRecord bs
  else { s with dailies := { s.dailies with lostSamples := addSat s.dailies.lostSamples n } }

/-- TAG_SAMPLE_DONE (R430). -/
def execTagSampleDone (core : Fin 32) (t : TagTimes) (s : State) : Result :=
  match (s.core core.val).tag with
  | none => .next s
  | some m =>
    let replayed := (s.jobByHandle? m.job).any (fun j => j.window)
    let body := leBytes 8 m.job ++ leBytes 4 m.pc ++ leBytes 2 m.word.toNat ++ leBytes 1 core.val ++
      leBytes 1 (b2n replayed + 2 * b2n t.throttled + 4 * b2n t.fetchMiss) ++ leBytes 4 t.held.toNat ++
      leBytes 4 t.accept.toNat ++ leBytes 4 t.done.toNat ++ leBytes 4 0
    let s := s.modCore core.val (fun c => { c with tag := none })
    .next (s.putSample 1 (s.dailies.record 4 body))

/-- An EXACT entry (R432). -/
def exactBytes (core : Nat) (e : ExactEntry) : List Byte :=
  leBytes 8 e.pc ++ leBytes 2 e.word.toNat ++ leBytes 1 core ++ leBytes 1 (b2n e.replayed) ++
  leBytes 4 e.latency.toNat

/-- EXACT_DRAIN (R431, R432). -/
def execExactDrain (core : Fin 32) (s : State) : Result :=
  let es := (s.core core.val).exact
  if es = [] then .next s
  else
    let s := s.modCore core.val (fun c => { c with exact := [] })
    .next (s.putSample es.length (s.dailies.record 5 ((es.map (exactBytes core.val)).flatten)))

/-! ### Metering (R116, R421, R440) -/

/-- Adds energy to a job. -/
def State.chargeEnergy (s : State) (ctx n : Nat) : State :=
  s.charge ctx (fun a => { a with energyUj := a.energyUj + n })

/-- Adds energy to the module overhead number `i`. -/
def State.addOverhead (s : State) (i n : Nat) : State :=
  { s with dailies := { s.dailies with
      overhead := Sparse.set s.dailies.overhead i (Sparse.get s.dailies.overhead i + BitVec.ofNat 64 n) } }

/-- The engine energy of a core goes to the job that holds it (R116): the whole interval to the job that holds it at the
interval's end (DESIGN CHOICE, log 67). -/
def State.meterCore (s : State) (core uj : Nat) : State :=
  match (s.core core).job with
  | some ctx => s.chargeEnergy ctx uj
  | none => s.addOverhead 0 uj

/-- The energy of a shared rail is divided among the jobs by the bytes that each moved on it; what the
division leaves over is module overhead (R116). -/
def State.meterRail (s : State) (to_ : Nat) (moved : RailBytes → Nat) (uj : Nat) : State :=
  let total := (s.jobs.map (fun j => moved j.rail)).sum
  if total = 0 then s.addOverhead to_ uj
  else
    let part := fun (j : Job) => uj * moved j.rail / total
    let left := uj - (s.jobs.map part).sum
    let s := s.jobs.foldl (fun s j => s.chargeEnergy j.ctx (part j)) s
    s.addOverhead to_ left

/-- The allowances of R27 that a meter reading can reach, in µJ per metering interval of 100 µs: the engine cores with
T0, the flash array and back-end, T1, and the steward die. -/
def allowances : List Nat := [34000, 18000, 4500, 600]

/-- What the consumers of `allowances` drew, from the energy of the 38 rails. -/
def drawn (rails : List Nat) : List Nat :=
  [(rails.take 32).sum, rails.getD 33 0, rails.getD 32 0, rails.getD 36 0]

/-- Whether consumer `i` of `allowances` has reached its own. -/
def atAllowance (rails : List Nat) (i : Nat) : Bool := decide (allowances.getD i 0 ≤ (drawn rails).getD i 0)

/-- Whether a module that draws at most `watts` can have drawn this, and by construction at most 85 W for the host link
and the Spool ports (R27, R440, R444). -/
def drawable (watts : Nat) (rails : List Nat) : Bool :=
  decide (rails.getD 37 0 ≤ 100 * watts) && decide (rails.getD 34 0 + rails.getD 35 0 ≤ 8500)

/-- What the Gaffer does with a meter reading (R27, R440): a throttle that the reading before called for acts now at the
latest; one ends when its consumer is below its allowance and its die is cool. T1 and the steward die have no bit of
HW_STATUS: only the event of their throttle is kept (log 67). -/
def State.readMeters (s : State) (rails : List Nat) : State :=
  let s := if s.hw.limEngine then s.throttle true else s
  let s := if s.hw.limFlash then s.throttle false else s
  let s := if atAllowance rails 2 || atAllowance rails 3 then s.hwEvent 0 else s
  let engine := atAllowance rails 0
  let flash := atAllowance rails 1
  { s with hw := { s.hw with
      limEngine := engine, limFlash := flash
      thrEngine := s.hw.thrEngine && (engine || hotEngine s.hw.temps)
      thrFlash := s.hw.thrFlash && (flash || hotFlash s.hw.temps) } }

/-- METERING_INTERVAL (R27, R116, R421, R440): the energy of the 38 rails in µJ over 100 µs, and new temperatures; a reading past what the module
can draw does not occur. Intervals that pass in reset and during start-up are not counted (DESIGN CHOICE, log 67). -/
def execMeteringInterval (rails : List Nat) (s : State) : Result :=
  if s.hw.phase ≠ .running ∨ drawable s.drawLimit rails = false then .next s
  else
    let e := fun (i : Nat) => rails.getD i 0
    let s := (List.range 32).foldl (fun s n => s.meterCore n (e n)) s
    let s := s.meterRail 1 (fun r => r.t1) (e 32)
    let s := s.meterRail 2 (fun r => r.flash) (e 33)
    let s := s.meterRail 3 (fun r => r.host) (e 34)
    let s := s.meterRail 4 (fun r => r.spool) (e 35)
    let used := ((List.range 37).map e).sum
    let s := (s.addOverhead 5 (e 36)).addOverhead 6 (e 37 - used)
    let s : State := { s with hw := { s.hw with temps := s.measure } }
    let s := s.readMeters rails
    let s : State := { s with
      free := s.free + 7
      jobs := s.jobs.map (fun j => { j with rail := {} })
      dailies := { s.dailies with interval := s.dailies.interval + 1, since := s.dailies.since + 1 }
      hw := { s.hw with
        inputDv := BitVec.ofNat 12 (Config.freeValue (s.free + 6))
        energy := (List.range 38).foldl (fun m i =>
          Sparse.set m i (Sparse.get m i + BitVec.ofNat 64 (e i))) s.hw.energy } }
    .next ((s.jobs.map (fun j => j.ctx)).foldl State.showJob s)

end Sys2Proof.Machine
end

