-- ==== Sys2Proof/Machine/Registers.lean ====
section
/-!
DEFINITION. The registers of BAR0 (chapter 15, R12 to R17, R406 to R423): where each lies, what it reads, what
a write of it does.
-/

namespace Sys2Proof.Machine

/-! ### The layout of BAR0 (R406, R407) -/

/-- The registers, with their instance. -/
inductive Reg where
  | idModule | idSerial | linkStatus | guardKey | regEvent | adminSq | adminCtl | adminCq
  | sqDoorbell (q : Nat) | cqDoorbell (q : Nat) | dbErr (i : Nat) | dbErrSummary
  | msixTable (i : Nat) | msixPending (i : Nat)
  | jobState (c : Nat) | jobHandle (c : Nat) | jobFaultAddr (c : Nat) | jobFaultPc (c : Nat)
  | jobSkew (c : Nat) | jobCycles (c : Nat) | jobCores (c : Nat)
  | objState (e : Nat) | objHandle (e : Nat) | objSize (e : Nat) | objT2 (e : Nat) | objT3 (e : Nat)
  | podStatus (p : Nat)
  | arbCfg (i : Nat) | arbHold (i : Nat) | arbOverrun (i : Nat)
  | mediaWear | mediaSpare | mediaEvent
  | spoolId | spoolEvent | spoolPort (i : Nat) | exportEntry (i : Nat) | inbox (i : Nat) | spoolRoute (d : Nat)
  | integrityEvent | coreFence | coreFenceCause | poisonHandle | poisonRange
  | splitCtl | splitAddr | splitData | splitCheck | flipCfg (i : Nat) | flipMask (i : Nat)
  | secStatus | lcCtl | fwStatus | cfStatus | fwCtl | lcNonce
  | hwStatus | hwCtl | hwEvent | thermal | railEnergy (i : Nat)
  | dailiesCtl | dailiesRing | dailiesHead | dailiesTail | dailiesLost | sampleCfg (c : Nat) | cntSel (i : Nat)
  deriving DecidableEq, Repr

/-- A row of the register map: first byte offset in BAR0, stride, instances, bytes, register. -/
structure RegRow where
  base   : Nat
  stride : Nat
  count  : Nat
  bytes  : Nat
  reg    : Nat → Reg

/-- The host-link blocks (R40, R406, R407). -/
def linkRows : List RegRow := [
  ⟨0x00, 64, 1, 8, fun _ => .idModule⟩, ⟨0x10, 64, 1, 16, fun _ => .idSerial⟩,
  ⟨0x20, 64, 1, 4, fun _ => .linkStatus⟩, ⟨0x30, 64, 1, 4, fun _ => .guardKey⟩,
  ⟨0x38, 64, 1, 4, fun _ => .regEvent⟩, ⟨0x10000, 64, 1, 4, fun _ => .adminSq⟩,
  ⟨0x10004, 64, 1, 4, fun _ => .adminCtl⟩, ⟨0x10008, 64, 1, 8, fun _ => .adminCq⟩,
  ⟨0x100000, 16, 4096, 8, .sqDoorbell⟩, ⟨0x100008, 16, 4096, 8, .cqDoorbell⟩,
  ⟨0x110000, 8, 64, 8, .dbErr⟩, ⟨0x110200, 64, 1, 8, fun _ => .dbErrSummary⟩,
  ⟨0x120000, 4, 8192, 4, .msixTable⟩, ⟨0x140000, 4, 64, 4, .msixPending⟩]

/-- The status blocks of the steward (R407). -/
def statusRows : List RegRow := [
  ⟨0x200000, 64, 4096, 8, .jobState⟩, ⟨0x200008, 64, 4096, 8, .jobHandle⟩,
  ⟨0x200010, 64, 4096, 8, .jobFaultAddr⟩, ⟨0x200018, 64, 4096, 8, .jobFaultPc⟩,
  ⟨0x200020, 64, 4096, 8, .jobSkew⟩, ⟨0x200028, 64, 4096, 8, .jobCycles⟩, ⟨0x200030, 64, 4096, 4, .jobCores⟩,
  ⟨0x240000, 64, 8192, 8, .objState⟩, ⟨0x240008, 64, 8192, 8, .objHandle⟩, ⟨0x240010, 64, 8192, 8, .objSize⟩,
  ⟨0x240018, 64, 8192, 8, .objT2⟩, ⟨0x240020, 64, 8192, 8, .objT3⟩, ⟨0x2C0000, 8, 65, 8, .podStatus⟩]

/-- The arbiter, media, Spool and integrity blocks (R407). -/
def dataRows : List RegRow := [
  ⟨0x400000, 32, 66, 4, .arbCfg⟩, ⟨0x400008, 32, 66, 8, .arbHold⟩, ⟨0x400010, 32, 66, 8, .arbOverrun⟩,
  ⟨0x500000, 64, 1, 8, fun _ => .mediaWear⟩, ⟨0x500008, 64, 1, 8, fun _ => .mediaSpare⟩,
  ⟨0x500010, 64, 1, 4, fun _ => .mediaEvent⟩,
  ⟨0x600000, 64, 1, 4, fun _ => .spoolId⟩, ⟨0x600008, 64, 1, 4, fun _ => .spoolEvent⟩,
  ⟨0x600100, 8, 8, 8, .spoolPort⟩, ⟨0x601000, 32, 64, 32, .exportEntry⟩, ⟨0x601800, 4, 64, 4, .inbox⟩,
  ⟨0x604000, 4, 4096, 4, .spoolRoute⟩,
  ⟨0x700000, 64, 1, 4, fun _ => .integrityEvent⟩, ⟨0x700004, 64, 1, 4, fun _ => .coreFence⟩,
  ⟨0x700008, 64, 1, 8, fun _ => .coreFenceCause⟩, ⟨0x700010, 64, 1, 8, fun _ => .poisonHandle⟩,
  ⟨0x700018, 64, 1, 8, fun _ => .poisonRange⟩, ⟨0x700020, 64, 1, 4, fun _ => .splitCtl⟩,
  ⟨0x700024, 64, 1, 4, fun _ => .splitAddr⟩, ⟨0x700028, 64, 1, 8, fun _ => .splitData⟩,
  ⟨0x700030, 64, 1, 4, fun _ => .splitCheck⟩, ⟨0x701000, 16, 82, 4, .flipCfg⟩, ⟨0x701008, 16, 82, 8, .flipMask⟩]

/-- The security, hardware and Dailies blocks (R407, chapters 16 and 17). -/
def serviceRows : List RegRow := [
  ⟨0x800000, 64, 1, 4, fun _ => .secStatus⟩, ⟨0x800004, 64, 1, 4, fun _ => .lcCtl⟩,
  ⟨0x800008, 64, 1, 4, fun _ => .fwStatus⟩, ⟨0x80000C, 64, 1, 4, fun _ => .cfStatus⟩,
  ⟨0x800010, 64, 1, 8, fun _ => .fwCtl⟩, ⟨0x800020, 64, 1, 32, fun _ => .lcNonce⟩,
  ⟨0x900000, 64, 1, 4, fun _ => .hwStatus⟩, ⟨0x900004, 64, 1, 4, fun _ => .hwCtl⟩,
  ⟨0x900008, 64, 1, 4, fun _ => .hwEvent⟩, ⟨0x900010, 64, 1, 8, fun _ => .thermal⟩,
  ⟨0x900100, 8, 38, 8, .railEnergy⟩,
  ⟨0xA00000, 64, 1, 4, fun _ => .dailiesCtl⟩, ⟨0xA00008, 64, 1, 8, fun _ => .dailiesRing⟩,
  ⟨0xA00010, 64, 1, 4, fun _ => .dailiesHead⟩, ⟨0xA00014, 64, 1, 4, fun _ => .dailiesTail⟩,
  ⟨0xA00018, 64, 1, 8, fun _ => .dailiesLost⟩, ⟨0xA00100, 4, 32, 4, .sampleCfg⟩, ⟨0xA01000, 4, 1320, 4, .cntSel⟩]

/-- The register map. -/
def regRows : List RegRow := linkRows ++ statusRows ++ dataRows ++ serviceRows

/-- A register as an access meets it: its first byte offset and its bytes. -/
structure RegPlace where
  reg   : Reg
  base  : Nat
  bytes : Nat
  deriving DecidableEq, Repr

/-- The register that a row places at a byte offset. -/
def RegRow.at? (r : RegRow) (off : Nat) : Option RegPlace :=
  let d := off - r.base
  if r.base ≤ off ∧ d / r.stride < r.count ∧ d % r.stride < r.bytes then
    some ⟨r.reg (d / r.stride), off - d % r.stride, r.bytes⟩
  else none

/-- Instances for counter slots that a block lacks are reserved (chapter 16). -/
def Reg.present (r : Reg) : Bool :=
  match r with
  | .cntSel i => decide (i % 8 < cntSlots (i / 8))
  | _ => true

/-- The register at a byte offset of BAR0; none in reserved space. -/
def regAt (off : Nat) : Option RegPlace :=
  (regRows.findSome? (fun r => r.at? off)).filter (fun p => p.reg.present)

/-- The registers that an access touches, lowest first. -/
def covered (off size : Nat) : List RegPlace :=
  if size = 0 then []
  else
    let first := off / 4
    let n := (off + size - 1) / 4 - first + 1
    ((List.range (min n 9)).filterMap (fun i => regAt (4 * (first + i)))).foldl
      (fun l p => if l.contains p then l else l ++ [p]) []

/-- Whether an access has a form that R408 allows. -/
def accessGood (off size : Nat) : Bool :=
  (size == 4 && off % 4 == 0) || (size == 8 && off % 8 == 0) ||
  (size == 32 && off % 32 == 0 &&
    (match covered off size with
     | [p] => p.base == off && p.bytes == 32
     | _ => false))

/-- Whether the register lies in the doorbell block, and whether in the MSI-X table. -/
def Reg.isDoorbell (r : Reg) : Bool :=
  match r with
  | .sqDoorbell _ => true
  | .cqDoorbell _ => true
  | _ => false

/-- Whether a write of the register leaves an open lock open (R415). -/
def Reg.spendsNothing (r : Reg) : Bool :=
  match r with
  | .msixTable _ => true
  | .msixPending _ => true
  | r => r.isDoorbell

/-- The WM registers (R15). -/
def Reg.masked (r : Reg) : Bool :=
  match r with
  | .guardKey => true
  | .adminCtl => true
  | .arbCfg _ => true
  | .splitCtl => true
  | .hwCtl => true
  | _ => false

/-- The guarded registers (R416). -/
def Reg.guarded (r : Reg) : Bool :=
  match r with
  | .spoolId => true
  | .exportEntry _ => true
  | .inbox _ => true
  | .splitCtl => true
  | .flipCfg _ => true
  | .lcCtl => true
  | .fwCtl => true
  | _ => false

/-! ### What a register reads (R15) -/

/-- A value from fields, each at its lowest bit. -/
def pack (l : List (Nat × Nat)) : Nat := (l.map (fun f => f.2 * 2 ^ f.1)).sum

/-- A set of numbers below 64 as bits. -/
def bitSet (l : List Nat) : Nat := pack (l.map (fun n => (n, 1)))

/-- The code of a job state (JOB_STATE). -/
def JobState.code (x : JobState) : Nat :=
  match x with
  | .ready => 1
  | .running => 2
  | .winding => 3
  | .ended => 4

/-- The code of a port state (SPOOL_PORT). -/
def PortState.code (x : PortState) : Nat :=
  match x with
  | .down => 0
  | .train => 1
  | .align => 2
  | .hello => 3
  | .secure => 4
  | .active => 5

/-- The code of a power state (HW_STATUS). -/
def PState.code (x : PState) : Nat :=
  match x with
  | .active => 0
  | .standby => 1
  | .sleep => 2

/-- JOB_STATE (R421). -/
def Job.stateWord (j : Job) : Nat :=
  let e := if j.state = .ended then j.ended else {}
  pack [(48, e.status.code), (40, e.faultCause % 256), (32, e.cause % 256), (16, j.pod), (0, j.state.code)]

/-- A field of the job in a context; a FREE context reads zero (R421). -/
def State.ofJob (s : State) (c : Nat) (f : Job → Nat) : Nat :=
  match s.job? c with
  | some j => f j
  | none => 0

/-- The object of an object status entry (R407, R422). -/
def State.entryObj (s : State) (e : Nat) : Option Obj :=
  s.objs.find? (fun o => if o.kind = .volume then o.num == e else o.num + 4096 == e)

/-- A field of the object of an entry; an entry without one reads zero (R422). -/
def State.ofObj (s : State) (e : Nat) (f : Obj → Nat) : Nat :=
  match s.entryObj e with
  | some o => f o
  | none => 0

/-- Whether another handle names the object's copy (R119, R422). -/
def State.shared (s : State) (o : Obj) : Bool :=
  o.kind == .model && s.objs.any (fun x => x.kind == .model && x.copy == o.copy && x.handle != o.handle)

/-- Bytes of an object in T2, or in T3 (R118, R422). -/
def State.tierBytes (s : State) (o : Obj) (t2 : Bool) : Nat :=
  if o.kind = .volume then
    if t2 then 0
    else (s.media.lblocks.filter (fun l => l.owner == o.num && (l.mapped != [] || l.chain != [] || l.merge.isSome))).length *
      (lbSectors * 4096)
  else ((s.copy? o.copy).map (fun c => (s.freed c).flashBytes t2)).getD 0

/-- The size of an object (R422). -/
def State.objSize (s : State) (o : Obj) : Nat :=
  if o.kind = .volume then o.sectors * 4096 else ((s.copy? o.copy).map (fun c => c.size)).getD 0

/-- POD_STATUS (R423). -/
def State.podWord (s : State) (p : Nat) : Nat :=
  match s.pod? p with
  | some x => pack [(63, 1), (40, x.slots), (32, x.granules), (0, bitSet (s.podCores p))]
  | none => 0

/-- MEDIA_WEAR (R337), once it is written (R14, R328): SPARE_PCT, WEAR_PCT over all superblocks, RETIRED. -/
def Media.wearWord (m : Media) : Nat :=
  pack [(48, m.wearState), (40, min 100 (m.retired * 100 / m.spareInitial)),
    (32, min 255 (m.wearTotal * 100 / (30000 * 144 * 14153))), (0, m.retired % 2 ^ 32)]

/-- A Spool port's register. -/
def Port.word (p : Port) : Nat :=
  pack [(52, p.peer.toNat), (32, p.state.code), (24, p.fail % 256), (8, b2n p.slow), (0, b2n p.enable)]

/-- An EXPORT entry as a register. -/
def Export.word (e : Export) : Nat :=
  pack [(192, e.handle), (176, e.tenant), (160, e.cls), (128, b2n e.valid), (64, e.length), (0, e.base)]

/-- An ECC_FLIP_CFG register. -/
def Flip.cfgWord (f : Flip) : Nat :=
  pack [(31, b2n f.armed), (16, f.check.toNat), (13, f.word.toNat), (0, f.req.toNat)]

/-- The registers of the security block. -/
def Security.word (x : Security) (r : Reg) : Nat :=
  match r with
  | .secStatus =>
    pack [(24, x.lcReason.toNat), (16, x.entries % 256), (8, x.err.code), (4, x.boot.toNat), (2, b2n x.lcBusy),
      (0, x.lc.code)]
  | .lcCtl => pack [(14, x.lcOffset.toNat)]
  | .fwStatus =>
    pack [(24, x.fwReason.toNat), (16, x.svnMin.toNat), (8, x.svnRun.toNat), (0, x.fwState.toNat)]
  | .cfStatus =>
    pack [(16, x.xoViolations.toNat), (7, b2n x.cfBusy), (4, x.cfLastOp.toNat), (0, x.cfResult.toNat)]
  | .fwCtl => pack [(32, x.fwLength.toNat), (14, x.fwOffset.toNat)]
  | .lcNonce => x.nonce.toNat
  | _ => 0

/-- The registers of the power and hardware block. -/
def Hw.word (x : Hw) (r : Reg) : Nat :=
  match r with
  | .hwStatus =>
    pack [(20, x.inputDv.toNat), (16, x.startStep.toNat), (10, x.lastTrip.toNat), (7, b2n x.holdupWeak),
      (6, b2n x.charged), (5, b2n x.thrFlash), (4, b2n x.thrEngine), (3, b2n x.started), (0, x.pstate.code)]
  | .hwCtl => b2n x.identify
  | .hwEvent => x.event.toNat
  | .thermal =>
    pack [(40, x.temps.inlet.toNat), (32, x.temps.outlet.toNat), (24, x.temps.kebex.toNat),
      (16, x.temps.steward.toNat), (8, x.temps.nand.toNat), (0, x.temps.dram.toNat)]
  | .railEnergy i => (Sparse.get x.energy i).toNat
  | _ => 0

/-- The registers of the Dailies block. -/
def State.dailiesWord (s : State) (r : Reg) : Nat :=
  let d := s.dailies
  match r with
  | .dailiesCtl => pack [(31, b2n d.enable), (0, d.period.toNat)]
  | .dailiesRing => pack [(32, d.ringSize), (12, d.ringOffset)]
  | .dailiesHead => d.head.toNat
  | .dailiesTail => d.tail.toNat
  | .dailiesLost => pack [(32, d.lostSamples.toNat), (0, d.lostSnaps.toNat)]
  | .sampleCfg c => (Sparse.get d.sample c).toNat
  | .cntSel i => pack [(15, b2n (s.cntSel i).level), (0, (s.cntSel i).event.toNat)]
  | _ => 0

/-- The registers of the integrity block. -/
def Integrity.word (x : Integrity) (r : Reg) : Nat :=
  match r with
  | .integrityEvent => x.event.toNat
  | .coreFence => x.fenced.toNat
  | .coreFenceCause => x.fenceCause.toNat
  | .poisonHandle => x.poisonHandle.toNat
  | .poisonRange => x.poisonRange.toNat
  | .splitCtl => pack [(8, x.splitCore.toNat), (2, x.splitTarget.toNat)]
  | .splitAddr => x.splitAddr.toNat
  | .splitData => x.splitData.toNat
  | .splitCheck => pack [(9, b2n x.splitRefused), (8, b2n x.splitDone), (0, x.splitCheck.toNat)]
  | .flipCfg i => (lookupD x.flips i {}).cfgWord
  | .flipMask i => (lookupD x.flips i {}).mask.toNat
  | _ => 0

/-- The registers of the host-link domain. An MSI-X entry is masked after a reset; the pending bits are the
PCIe capability's and free values here (log 15). -/
def State.linkWord (s : State) (r : Reg) : Nat :=
  let l := s.link
  match r with
  | .idModule => pack [(48, 0x1C2A), (32, 0x0200), (24, 1), (16, 2), (0, 0x00B0)]
  | .idSerial => Config.serial.toNat
  | .linkStatus => pack [(7, b2n l.session), (6, b2n l.ide), (4, l.rate.toNat), (0, b2n l.x16)]
  | .guardKey => b2n l.guardOpen
  | .regEvent => l.regEvent.toNat
  | .adminSq => l.admin.sqOffset
  | .adminCq => l.admin.cqAddr
  | .adminCtl =>
    pack [(15, b2n l.admin.err), (14, b2n l.admin.ready), (8, l.admin.cqLog2.toNat), (3, l.admin.sqLog2.toNat),
      (0, b2n l.admin.enable)]
  | .sqDoorbell q => ((s.queue? q).map (fun x => x.sqTail)).getD 0
  | .cqDoorbell q => ((s.queue? q).map (fun x => x.cqHead)).getD 0
  | .dbErr i => (Sparse.get l.dbErr i).toNat
  | .dbErrSummary => bitSet (l.dbErr.map (fun x => x.1))
  | .msixTable i => (Sparse.get s.host.msix i).toNat ^^^ b2n (decide (i % 4 = 3))
  | .msixPending i => Config.freeValue (s.free + i) % 2 ^ 32
  | _ => 0

/-- What a register reads. -/
def State.regValue (s : State) (r : Reg) : Nat :=
  match r with
  | .jobState c => s.ofJob c Job.stateWord
  | .jobHandle c => s.ofJob c (fun j => j.handle)
  | .jobFaultAddr c => s.ofJob c (fun j => j.faultAddr)
  | .jobFaultPc c => s.ofJob c (fun j => j.faultPc)
  | .jobSkew c => s.ofJob c (fun j => j.skew.toNat)
  | .jobCycles c => s.ofJob c (fun j => j.shown % 2 ^ 64)
  | .jobCores c => s.ofJob c (fun j => bitSet j.cores)
  | .objState e => s.ofObj e (fun o =>
      pack [(56, o.kind.code), (10, b2n (s.shared o)), (9, b2n o.readOnly), (8, b2n o.degraded), (0, o.pod)])
  | .objHandle e => s.ofObj e (fun o => o.handle)
  | .objSize e => s.ofObj e s.objSize
  | .objT2 e => s.ofObj e (fun o => s.tierBytes o true)
  | .objT3 e => s.ofObj e (fun o => s.tierBytes o false)
  | .podStatus p => s.podWord p
  | .arbCfg i => pack [(8, b2n (s.arb i).cutEn), (0, (s.arb i).ageLimit.toNat)]
  | .arbHold i => (s.arb i).hold.toNat
  | .arbOverrun i => (s.arb i).overrun.toNat
  | .mediaWear => if s.media.shown then s.media.wearWord else 0
  | .mediaSpare => if s.media.shown then pack [(32, s.free4), (0, s.media.spareInitial)] else 0
  | .mediaEvent => s.media.event.toNat
  | .spoolId => pack [(31, b2n s.spool.valid), (16, s.spool.hopLimit.toNat), (0, s.spool.moduleId.toNat)]
  | .spoolEvent => s.spool.event.toNat
  | .spoolPort i => (s.port i).word
  | .exportEntry i => (s.spool.exports.getD i {}).word
  | .inbox i =>
    let b := s.inbox (i + 1)
    pack [(16, b.tenant), (14, b.cls), (0, b.pages)]
  | .spoolRoute d => (Sparse.get s.spool.routes d).toNat
  | r => s.linkWord r + s.integ.word r + s.sec.word r + s.hw.word r + s.dailiesWord r

/-! ### What a write of a register does (R12, R15 to R17, R414) -/

/-- The low 16 bits of a WM register after a write (R15, R17). -/
def maskWrite (old v : Nat) : Nat := (old &&& (65535 - v / 65536 % 65536)) ||| (v % 65536 &&& v / 65536 % 65536)

/-- A W1C field after a write (R15). -/
def clearBits {w : Nat} (old : BitVec w) (v : Nat) : BitVec w := old &&& ~~~ (BitVec.ofNat w v)

/-- Checks the settings of the admin queue and brings it up (R47, R418). -/
def State.adminUp (s : State) : State :=
  let a := s.link.admin
  let q : Queue :=
    { id := 0, pod := 0, cls := 0, sqLog2 := a.sqLog2.toNat, cqLog2 := a.cqLog2.toNat, sqOffset := a.sqOffset
      cqAddr := a.cqAddr, vector := 0 }
  let inLog := fun (n : Nat) => decide (6 ≤ n) && decide (n ≤ 16)
  let good := inLog q.sqLog2 && inLog q.cqLog2 && decide (q.sqOffset + 64 * q.depth ≤ 2 ^ 30) &&
    !s.claimed (q.sqOffset, 64 * q.depth)
  if good then
    let up := s.hw.started
    { s with link := { s.link with
        admin := { a with enable := true, err := false, ready := up }
        queues := if up then s.link.queues ++ [q] else s.link.queues } }
  else { s with link := { s.link with admin := { a with enable := true, err := true } } }

/-- Takes the admin queue down once its commands have ended (R419). -/
def State.adminOff (s : State) : State :=
  let a := s.link.admin
  let s : State := { s with link := { s.link with admin := { a with enable := false, draining := a.ready } } }
  s.settle

/-- A write of ADMIN_CTL (R17, R414, R418, R419): depths are fixed while ENABLE or READY is 1. -/
def State.adminWrite (s : State) (v : Nat) : State :=
  let a := s.link.admin
  let held := a.enable || a.ready
  let word := maskWrite (pack [(8, a.cqLog2.toNat), (3, a.sqLog2.toNat), (0, b2n a.enable)]) v
  let s : State :=
    if held then s
    else { s with link := { s.link with admin := { a with
      cqLog2 := BitVec.ofNat 5 (bits word 12 8), sqLog2 := BitVec.ofNat 5 (bits word 7 3) } } }
  if bitOf v 16 = false then s
  else if bitOf v 0 then (if a.ready then s else s.adminUp)
  else s.adminOff

/-- A write of GUARD_KEY with a mask that is not zero (R415). -/
def State.guardWrite (s : State) (v : Nat) : State :=
  if v = 0xFFFFC1A9 then { s with link := { s.link with guardOpen := true } }
  else
    let s := s.regEvent 1
    { s with link := { s.link with guardOpen := false } }

/-- A write of SPOOL_ID (R342, R414): a change takes every port to DOWN. -/
def State.spoolIdTo (s : State) (v : Nat) : State :=
  let x := { s.spool with
    valid := bitOf v 31, hopLimit := BitVec.ofNat 8 (bits v 23 16), moduleId := BitVec.ofNat 12 (bits v 11 0) }
  if x = s.spool then s else ({ s with spool := x }).portsDownFree

/-- Whether a VALID entry may be written in place `i` (R349, R350). -/
def State.exportGood (s : State) (i : Nat) (e : Export) : Bool :=
  (s.obj? e.handle).any (fun o => o.kind != .volume) && e.base % pageBytes == 0 && e.length % pageBytes == 0 &&
  e.length != 0 && decide (e.base + e.length ≤ inboxWindow) &&
  (s.spool.exports.zipIdx).all (fun x => x.2 == i || !x.1.valid || !regionsOverlap (e.base, e.length) (x.1.base, x.1.length))

/-- A write of an EXPORT entry (R350): the fields take what is written, but for a VALID that may not be set (R15). -/
def State.exportTo (s : State) (i v : Nat) : State :=
  let e : Export :=
    { handle := bits v 255 192, tenant := bits v 191 176, cls := bits v 161 160, valid := bitOf v 128
      length := bits v 111 64, base := bits v 47 0 }
  if e.valid && !s.exportGood i e then
    let s : State := { s with spool := { s.spool with exports := s.spool.exports.set i { e with valid := false } } }
    s.spoolEvent 0
  else { s with spool := { s.spool with exports := s.spool.exports.set i e } }

/-- A write of the INBOX register of Pod `p` (R350): pages that are added are claimed and wiped first, and
those removed are wiped after. PAGES keeps its old value where the share cannot release them (R85), and above its
range (DESIGN CHOICE, log 68). -/
def State.inboxTo (s : State) (p v : Nat) : State :=
  let pages := bits v 5 0
  let old := (s.inbox p).pages
  if (s.pod? p).isNone then s.spoolEvent 0
  else
    let s := s.modInbox p (fun b => { b with tenant := bits v 31 16, cls := bits v 15 14 })
    if 32 < pages ∨ (old < pages ∧ s.canRelease p (pages - old) = false) then s.spoolEvent 0
    else
      let keep := min old pages * pageBytes
      let s := s.modInbox p (fun b =>
        { b with pages := pages, mem := b.mem.filter (fun c => decide (c.1 < keep)) })
      let s : State := { s with integ := { s.integ with t1Ecc := s.integ.t1Ecc.filter (fun k =>
        !(decide (t1Base (1 + p) + keep / 8 ≤ k.unit) && decide (k.unit < t1Base (2 + p)))) } }
      s.fitShare s.pages.length p

/-! ### Split mode and flip-masks (R366, R367) -/

/-- Whether data and check bits are those of the word at an address that differs in one or two bits (R359). -/
def nearAddress (unit : Nat) (data : BitVec 64) (check : BitVec 8) : Bool :=
  let at_ := fun (i : Nat) => 2 ^ i
  (List.range 20).any (fun i => Config.eccCheck (unit ^^^ at_ i) data == check ||
    (List.range i).any (fun k => Config.eccCheck (unit ^^^ at_ i ^^^ at_ k) data == check))

/-- The mark of a word stored with given data and check bits, and the data that it stands for: the code word
within one bit when there is one (R358, R366). The word of a near address is uncorrectable (R359). -/
def splitMark (unit : Nat) (data : BitVec 64) (check : BitVec 8) : BitVec 64 × EccMark :=
  let flip := fun (i : Nat) => data ^^^ BitVec.ofNat 64 (2 ^ i)
  let off := fun (d : BitVec 64) => popcount (Config.eccCheck unit d ^^^ check)
  let places := List.range 64
  let plain : EccMark := { unit := unit, data := 0, check := Config.eccCheck unit data ^^^ check }
  if off data = 0 then (data, plain)
  else if nearAddress unit data check then (data, { plain with lost := true })
  else if off data = 1 then (data, plain)
  else match places.find? (fun i => off (flip i) == 0) with
    | some i => (flip i, { unit := unit, data := BitVec.ofNat 64 (2 ^ i), check := 0 })
    | none =>
      let two := places.any (fun i => off (flip i) == 1 ||
        places.any (fun k => k != i && off (flip i ^^^ BitVec.ofNat 64 (2 ^ k)) == 0))
      (data, { plain with lost := two })

/-- Bytes of a split target: 0 operand store, 1 lane weight buffers. -/
def splitBytes (target : Nat) : Nat := if target = 0 then osBytes else 0x400000

/-- The core that split mode names, when it may be reached: in the pool or fenced (R366). -/
def State.splitCore? (s : State) : Option Nat :=
  let n := s.integ.splitCore.toNat
  if (s.core n).pod = some 0 ∨ s.coreFenced n = true then some n else none

/-- A split write (R366). -/
def State.splitStore (s : State) (n : Nat) : State :=
  let x := s.integ
  let u := x.splitAddr.toNat / 8
  if splitBytes x.splitTarget.toNat ≤ 8 * u ∨ 2 ≤ x.splitTarget.toNat then s
  else
    let m := splitMark u x.splitData x.splitCheck
    let bad := decide (m.2.data ≠ 0 ∨ m.2.check ≠ 0)
    let put := fun (mem : Mem) => Mem.write mem (8 * u) (leBytes 8 m.1.toNat)
    let mark := fun (l : List EccMark) => l.filter (fun k => k.unit != u) ++ (if bad then [m.2] else [])
    s.modCore n (fun c =>
      if x.splitTarget.toNat = 0 then { c with os := put c.os, osEcc := mark c.osEcc }
      else { c with lwb := put c.lwb, lwbEcc := mark c.lwbEcc })

/-- A raw read (R366): stored data and check bits. Where the manual gives the word no stored bits, they are
free values. -/
def State.splitLoad (s : State) (n : Nat) : State :=
  let x := s.integ
  let u := x.splitAddr.toNat / 8
  let free : State := { s with
    free := s.free + 2
    integ := { x with
      splitData := BitVec.ofNat 64 (Config.freeValue s.free)
      splitCheck := BitVec.ofNat 8 (Config.freeValue (s.free + 1)) } }
  if splitBytes x.splitTarget.toNat ≤ 8 * u ∨ 2 ≤ x.splitTarget.toNat then free
  else
    let c := s.core n
    let mem := if x.splitTarget.toNat = 0 then c.os else c.lwb
    let marks := if x.splitTarget.toNat = 0 then c.osEcc else c.lwbEcc
    let m := (marks.find? (fun k => k.unit == u)).getD { unit := u, data := 0, check := 0 }
    let d := BitVec.ofNat 64 (Mem.field mem (8 * u) 8)
    if m.lost ∧ popcount m.data + popcount m.check ≤ 1 then free
    else { s with integ := { x with splitData := d ^^^ m.data, splitCheck := Config.eccCheck u d ^^^ m.check } }

/-- A write of ECC_SPLIT_CTL (R17, R366): the operation ends at once and sets DONE. -/
def State.splitWrite (s : State) (v : Nat) : State :=
  let x := s.integ
  let word := maskWrite (pack [(8, x.splitCore.toNat), (2, x.splitTarget.toNat)]) v
  let s : State := { s with integ := { x with
    splitCore := BitVec.ofNat 5 (bits word 12 8), splitTarget := BitVec.ofNat 2 (bits word 3 2) } }
  let op := bits word 1 0
  if op = 0 ∨ op = 3 then s
  else
    let t := match s.splitCore? with
      | none => { s with integ := { s.integ with splitRefused := true } }
      | some n => if op = 1 then s.splitStore n else s.splitLoad n
    { t with integ := { t.integ with splitDone := true } }

/-- A write of ECC_FLIP_CFG (R367): ignored as a whole when REQ is above 38. -/
def State.flipWrite (s : State) (i v : Nat) : State :=
  if 38 < bits v 5 0 then s
  else s.setFlip i { s.flip i with
    armed := bitOf v 31, check := BitVec.ofNat 8 (bits v 23 16), word := BitVec.ofNat 3 (bits v 15 13)
    req := BitVec.ofNat 6 (bits v 5 0) }

/-! ### The Dailies' registers (chapter 16) -/

/-- A write of DAILIES_CTL (R428). -/
def State.dailiesCtlTo (s : State) (v : Nat) : State :=
  let d := s.dailies
  let on := bitOf v 31
  let s : State := { s with dailies := { d with
    enable := on, period := BitVec.ofNat 16 (bits v 15 0), since := if on && !d.enable then 0 else d.since } }
  if bitOf v 30 then s.snapshot else s

/-- A write of DAILIES_RING (R36, R427): one whose ring would overlap a submission ring is not applied. A ring outside
its ranges takes no record (`Dailies.placed`). -/
def State.dailiesRingTo (s : State) (v : Nat) : State :=
  let size := bits v 55 32
  let off := bits v 29 12
  if size ≠ 0 ∧ s.rings.any (regionsOverlap (off * 4096, size * 4096)) then s.regEvent 4
  else { s with dailies := { s.dailies with ringSize := size, ringOffset := off, head := 0, tail := 0 } }

/-- A write of CNT_SEL (R426). -/
def State.cntSelTo (s : State) (i v : Nat) : State :=
  let x := s.cntSel i
  let y : CntSel := { slot := i, event := BitVec.ofNat 8 (bits v 7 0), level := bitOf v 15, changed := true }
  if x.event = y.event ∧ x.level = y.level then s
  else { s with dailies := { s.dailies with
    sel := s.dailies.sel.filter (fun z => z.slot != i) ++ [y]
    slots := Sparse.set s.dailies.slots i 0, totals := Sparse.set s.dailies.totals i 0 } }

/-- A write of SAMPLE_CFG (R431): counting begins again. -/
def State.sampleCfgTo (s : State) (n v : Nat) : State :=
  let s : State := { s with dailies := { s.dailies with
    sample := Sparse.set s.dailies.sample n (BitVec.ofNat 32 (pack [(30, bits v 31 30), (0, bits v 19 0)])) } }
  s.modCore n (fun c => { c with sampled := 0, tagAt := 0 })

/-! ### The security registers (chapter 14) -/

/-- A write of LC_CTL (R390, R414). -/
def State.lcWrite (s : State) (v : Nat) (whole : Bool) (env : StartEnv) : State :=
  if s.sec.lcBusy then s
  else
    let s : State := { s with sec := { s.sec with lcOffset := BitVec.ofNat 18 (bits v 31 14) } }
    if bitOf v 0 then s.lifecycle whole env else s

/-- A write of FW_CTL (R382, R393, R395, R396, R414): an update is a User's service, but for recovery. -/
def State.fwWrite (s : State) (v : Nat) (stop : CommitEnd) (env : StartEnv) : State :=
  if s.sec.fwState = 4 then s
  else
    let s : State := { s with sec := { s.sec with
      fwLength := BitVec.ofNat 24 (bits v 55 32), fwOffset := BitVec.ofNat 18 (bits v 31 14) } }
    if s.link.session = false ∧ s.sec.boot ≠ 1 then s
    else if bits v 1 0 = 1 then s.stage
    else if bits v 1 0 = 2 then s.commitFw stop env
    else s

/-! ### One register written -/

/-- What the rows of a life-cycle change and of a firmware commit add to their register write. -/
structure Course where
  whole : Bool
  stop  : CommitEnd
  env   : StartEnv
  deriving DecidableEq, Repr

/-- Writes a register of the arbiters (R148). -/
def State.putArb (s : State) (r : Reg) (v : Nat) : State :=
  match r with
  | .arbCfg i =>
    let word := maskWrite (pack [(8, b2n (s.arb i).cutEn), (0, (s.arb i).ageLimit.toNat)]) v
    s.modArb i (fun a => { a with cutEn := bitOf word 8, ageLimit := BitVec.ofNat 8 (bits word 7 0) })
  | .arbHold i => s.modArb i (fun a => { a with hold := BitVec.ofNat 64 v })
  | .arbOverrun i => s.modArb i (fun a => { a with overrun := clearBits a.overrun v })
  | _ => s

/-- Writes a register of the Spool block. -/
def State.putSpool (s : State) (r : Reg) (v : Nat) : State :=
  match r with
  | .spoolId => s.spoolIdTo v
  | .spoolEvent => { s with spool := { s.spool with event := clearBits s.spool.event v } }
  | .spoolPort i =>
    let s := s.modPort i (fun p => { p with enable := bitOf v 0 })
    if bitOf v 0 then s else s.portDown i failDisabled
  | .exportEntry i => s.exportTo i v
  | .inbox i => s.inboxTo (i + 1) v
  | .spoolRoute d => { s with spool := { s.spool with
      routes := Sparse.set s.spool.routes d
        (BitVec.ofNat 32 (pack [(31, bits v 31 31), (16, bits v 16 16), (0, bits v 7 0)])) } }
  | _ => s

/-- Writes a register of the integrity block. -/
def State.putInteg (s : State) (r : Reg) (v : Nat) : State :=
  let x := s.integ
  match r with
  | .integrityEvent => { s with integ := { x with event := clearBits x.event v } }
  | .splitCtl => s.splitWrite v
  | .splitAddr => { s with integ := { x with splitAddr := BitVec.ofNat 24 v } }
  | .splitData => { s with integ := { x with splitData := BitVec.ofNat 64 v } }
  | .splitCheck => { s with integ := { x with
      splitCheck := BitVec.ofNat 8 v, splitRefused := x.splitRefused && !bitOf v 9 } }
  | .flipCfg i => s.flipWrite i v
  | .flipMask i => s.setFlip i { s.flip i with mask := BitVec.ofNat 64 v }
  | _ => s

/-- Writes a register of the Dailies block. -/
def State.putDailies (s : State) (r : Reg) (v : Nat) : State :=
  match r with
  | .dailiesCtl => s.dailiesCtlTo v
  | .dailiesRing => s.dailiesRingTo v
  | .dailiesHead => { s with dailies := { s.dailies with head := BitVec.ofNat 32 v } }
  | .dailiesLost => { s with dailies := { s.dailies with
      lostSamples := clearBits s.dailies.lostSamples (v / 2 ^ 32), lostSnaps := clearBits s.dailies.lostSnaps v } }
  | .sampleCfg c => s.sampleCfgTo c v
  | .cntSel i => s.cntSelTo i v
  | _ => s

/-- Writes a register of the host-link domain; a doorbell acts as its own row does. -/
def State.putLink (s : State) (r : Reg) (v : Nat) : State :=
  let l := s.link
  match r with
  | .guardKey => s.guardWrite v
  | .regEvent => { s with link := { l with regEvent := clearBits l.regEvent v } }
  | .adminSq =>
    if l.admin.enable || l.admin.ready then s
    else { s with link := { l with admin := { l.admin with sqOffset := bits v 29 12 * 4096 } } }
  | .adminCq =>
    if l.admin.enable || l.admin.ready then s
    else { s with link := { l with admin := { l.admin with cqAddr := v / 4096 * 4096 } } }
  | .adminCtl => s.adminWrite v
  | .sqDoorbell q => s.ringSq q v
  | .cqDoorbell q => s.ringCq q v
  | .dbErr i => { s with link := { l with dbErr := Sparse.set l.dbErr i (clearBits (Sparse.get l.dbErr i) v) } }
  | .msixTable i => { s with host := { s.host with
      msix := Sparse.set s.host.msix i (BitVec.ofNat 32 (v ^^^ b2n (decide (i % 4 = 3)))) } }
  | _ => s

/-- Writes one register whole. Read-only registers take nothing. -/
def State.putReg (s : State) (r : Reg) (v : Nat) (how : Course) : State :=
  let s := (((s.putLink r v).putArb r v).putSpool r v |>.putInteg r v).putDailies r v
  match r with
  | .mediaEvent => { s with media := { s.media with event := clearBits s.media.event v } }
  | .hwCtl => { s with hw := { s.hw with identify := bitOf (maskWrite (b2n s.hw.identify) v) 0 } }
  | .hwEvent => { s with hw := { s.hw with event := clearBits s.hw.event v } }
  | .lcCtl => s.lcWrite v how.whole how.env
  | .fwCtl => s.fwWrite v how.stop how.env
  | _ => s

/-! ### Host accesses (R408 to R416) -/

/-- Whether BAR0 answers: the link is up, and the module has its rails (R33, R446, R447). -/
def State.bar0 (s : State) : Bool :=
  s.link.linkUp && (decide (s.hw.phase = .running) || decide (s.hw.phase = .stuck))

/-- Whether an offset lies in a block of another domain that does not answer before step 7 (R447). -/
def State.dormant (s : State) (off : Nat) : Bool := decide (0x200000 ≤ off) && !s.hw.started

/-- The lock is armed. -/
def State.arm (s : State) : State := { s with link := { s.link with guardOpen := false } }

/-- Whether a write covers a register wider than 32 bits only in part; a doorbell may be written by its low
word (R410). -/
def RegPlace.split (p : RegPlace) (off size : Nat) : Bool :=
  decide (4 < p.bytes) && !(p.reg.isDoorbell && p.base == off) &&
  (decide (p.base < off) || decide (off + size < p.base + p.bytes))

/-- Whether a value written to a WM register has a zero mask: such a write has no side effect, the guard's among them
(R17; DEDUCED, log 68). -/
def Reg.unmasked (r : Reg) (v : Nat) : Bool := r.masked && v / 65536 == 0

/-- One register of a write access: a guarded one only while the lock is open (R415, R416). -/
def State.accept (s : State) (p : RegPlace) (v : Nat) (how : Course) : State :=
  if p.reg.unmasked v then s
  else if p.reg.guarded && !s.link.guardOpen then s.regEvent 0 else s.putReg p.reg v how

/-- The part of a written value that lies on a register. -/
def RegPlace.part (p : RegPlace) (off v : Nat) : Nat := v / 2 ^ (8 * (p.base - off)) % 2 ^ (8 * p.bytes)

/-- A host write to BAR0 (R408, R410, R412, R415). -/
def State.hostWrite (s : State) (off size v : Nat) (how : Course) : State :=
  let ps := covered off size
  let v := v % 2 ^ (8 * size)
  let exempt := !ps.isEmpty && ps.all (fun p => p.reg.spendsNothing)
  let idle := !ps.isEmpty && ps.all (fun p => p.reg.unmasked (p.part off v))
  if s.bar0 = false then s
  else if accessGood off size = false ∧ ps ≠ [] then
    if exempt then s.regEvent 3 else (s.regEvent 3).arm
  else if s.dormant off then s.arm
  else if ps.any (fun p => p.split off size) then
    if exempt then s.regEvent 2 else (s.regEvent 2).arm
  else if idle then s
  else
    let t := ps.foldl (fun s p => s.accept p (p.part off v) how) s
    if exempt || !s.link.guardOpen then t else t.arm

/-- The part of one register that a read returns, in its place, and the shadow that it leaves (R409). -/
def State.readPart (s : State) (off size : Nat) (p : RegPlace) : Nat × State :=
  let lo := Nat.max off p.base
  let hi := min (off + size) (p.base + p.bytes)
  let wide := decide (4 < p.bytes) && !p.reg.isDoorbell
  let v := if wide && decide (p.base < lo) then (Sparse.get s.link.shadow p.base).toNat else s.regValue p.reg
  let s : State :=
    if wide && decide (lo = p.base) then
      { s with link := { s.link with shadow := Sparse.set s.link.shadow p.base (BitVec.ofNat 256 v) } }
    else s
  (v / 2 ^ (8 * (lo - p.base)) % 2 ^ (8 * (hi - lo)) * 2 ^ (8 * (lo - off)), s)

/-- A host read of BAR0 (R408, R409): its value, and the state after it. -/
def State.hostRead (s : State) (off size : Nat) : Nat × State :=
  let ps := covered off size
  if accessGood off size = false ∧ ps ≠ [] then (0, s.regEvent 3)
  else if s.dormant off then (0, s)
  else
    let r := ps.foldl (fun (x : Nat × State) p =>
      let y := x.2.readPart off size p
      (x.1 + y.1, y.2)) (0, s)
    (r.1, { r.2 with free := r.2.free + 64 })

/-! ### The rows -/

/-- The course of a write that starts neither a life-cycle change nor a commit. -/
def noCourse : Course := ⟨true, .whole, ⟨false, false, 0, [], false, false, [], 0⟩⟩

/-- WIDE_REGISTER_READ (R408, R409): any read of BAR0. -/
def execWideRegisterRead (off size : Nat) (s : State) : Result :=
  if s.bar0 = false then .next s
  else
    let r := s.hostRead off size
    .next { r.2 with host := { r.2.host with readData := BitVec.ofNat 256 r.1 } }

/-- Whether a write starts a life-cycle change or a commit, which have rows of their own (R390, R396). -/
def startsCourse (off size v : Nat) : Bool :=
  (covered off size).any (fun p =>
    (p.reg == .lcCtl && bitOf (p.part off v) 0) || (p.reg == .fwCtl && bits (p.part off v) 1 0 == 2))

/-- REGISTER_WRITE (R408, R410, R412, R415): any write of BAR0 that is neither LC_GO nor FW_COMMIT. -/
def execRegisterWrite (off size : Nat) (v : BitVec 256) (s : State) : Result :=
  if startsCourse off size v.toNat then .next s else .next (s.hostWrite off size v.toNat noCourse)

/-- GUARD_KEY_WRITE (R415). -/
def execGuardKeyWrite (v : BitVec 32) (s : State) : Result := .next (s.hostWrite 0x30 4 v.toNat noCourse)

/-- GUARD_LOCK_TIMEOUT (R415). -/
def execGuardLockTimeout (s : State) : Result := .next s.arm

/-- ADMIN_ENABLE (R418): a write of ADMIN_CTL with ENABLE 1. -/
def execAdminEnable (v : BitVec 32) (s : State) : Result :=
  if bitOf v.toNat 16 ∧ bitOf v.toNat 0 then .next (s.hostWrite 0x10004 4 v.toNat noCourse) else .next s

/-- ADMIN_DISABLE (R419): a write of ADMIN_CTL with ENABLE 0. -/
def execAdminDisable (v : BitVec 32) (s : State) : Result :=
  if bitOf v.toNat 16 ∧ bitOf v.toNat 0 = false then .next (s.hostWrite 0x10004 4 v.toNat noCourse) else .next s

/-- LC_GO (R389, R390): a write of LC_CTL with GO; without `whole`, a loss of power or PERST# follows step 2
(R391). -/
def execLcGo (v : BitVec 32) (whole : Bool) (env : StartEnv) (s : State) : Result :=
  if bitOf v.toNat 0 then .next (s.hostWrite 0x800004 4 v.toNat ⟨whole, .whole, env⟩) else .next s

/-- FW_STAGE (R395): a write of FW_CTL with OP STAGE. -/
def execFwStage (v : BitVec 64) (s : State) : Result :=
  if bits v.toNat 1 0 = 1 then .next (s.hostWrite 0x800010 8 v.toNat noCourse) else .next s

/-- FW_COMMIT (R396): a write of FW_CTL with OP COMMIT. -/
def execFwCommit (v : BitVec 64) (stop : CommitEnd) (env : StartEnv) (s : State) : Result :=
  if bits v.toNat 1 0 = 2 then .next (s.hostWrite 0x800010 8 v.toNat ⟨true, stop, env⟩) else .next s

/-- SPOOL_ID_WRITE (R342). -/
def execSpoolIdWrite (v : BitVec 32) (s : State) : Result := .next (s.hostWrite 0x600000 4 v.toNat noCourse)

/-- SPOOL_PORT_ENABLE_WRITE (R342). -/
def execSpoolPortEnableWrite (port : Fin 8) (v : BitVec 64) (s : State) : Result :=
  .next (s.hostWrite (0x600100 + 8 * port.val) 8 v.toNat noCourse)

/-- EXPORT_WRITE (R350). -/
def execExportWrite (i : Fin 64) (v : BitVec 256) (s : State) : Result :=
  .next (s.hostWrite (0x601000 + 32 * i.val) 32 v.toNat noCourse)

/-- INBOX_WRITE (R350). -/
def execInboxWrite (i : Fin 64) (v : BitVec 32) (s : State) : Result :=
  .next (s.hostWrite (0x601800 + 4 * i.val) 4 v.toNat noCourse)

/-- SPLIT_WRITE (R366): a write of ECC_SPLIT_CTL with OP 1. -/
def execSplitWrite (v : BitVec 32) (s : State) : Result :=
  if bits (maskWrite 0 v.toNat) 1 0 = 1 then .next (s.hostWrite 0x700020 4 v.toNat noCourse) else .next s

/-- RAW_READ (R366): a write of ECC_SPLIT_CTL with OP 2. -/
def execRawRead (v : BitVec 32) (s : State) : Result :=
  if bits (maskWrite 0 v.toNat) 1 0 = 2 then .next (s.hostWrite 0x700020 4 v.toNat noCourse) else .next s

/-- FLIP_ARM (R367): a write of ECC_FLIP_CFG with ARMED 1. -/
def execFlipArm (i : Fin 82) (v : BitVec 32) (s : State) : Result :=
  if bitOf v.toNat 31 then .next (s.hostWrite (0x701000 + 16 * i.val) 4 v.toNat noCourse) else .next s

/-- SNAP_NOW (R428): a write of DAILIES_CTL with SNAP_NOW 1. -/
def execSnapNow (v : BitVec 32) (s : State) : Result :=
  if bitOf v.toNat 30 then .next (s.hostWrite 0xA00000 4 v.toNat noCourse) else .next s

/-- DAILIES_RING_WRITE (R427). -/
def execDailiesRingWrite (v : BitVec 64) (s : State) : Result :=
  .next (s.hostWrite 0xA00008 8 v.toNat noCourse)

/-- CNT_SEL_WRITE (R426). -/
def execCntSelWrite (i : Fin 1320) (v : BitVec 32) (s : State) : Result :=
  .next (s.hostWrite (0xA01000 + 4 * i.val) 4 v.toNat noCourse)

/-- SAMPLE_CFG_WRITE (R431). -/
def execSampleCfgWrite (core : Fin 32) (v : BitVec 32) (s : State) : Result :=
  .next (s.hostWrite (0xA00100 + 4 * core.val) 4 v.toNat noCourse)

end Sys2Proof.Machine
end

