-- ==== Sys2Proof/Machine/Vector.lean ====
section
/-!
DEFINITION. The rows of single epilogue instructions (R209, R221 to R223): the epilogue unit executes one
instruction of the run that is under way or due. A run row executes all that are left of it.
-/

namespace Sys2Proof.Machine

/-- The word of an epilogue instruction of format REG (R180). -/
def epiReg (op : Nat) (g : Guard) (d a b : BitVec 5) (mod : BitVec 6) : W64 :=
  BitVec.ofNat 64 (4 * 2 ^ 59 + op * 2 ^ 53 + d.toNat * 2 ^ 48 + a.toNat * 2 ^ 43 + b.toNat * 2 ^ 38 +
    g.g.toNat * 2 ^ 35 + b2n g.gn * 2 ^ 34 + b2n g.ge * 2 ^ 33 + mod.toNat * 2 ^ 27)

/-- The word of an epilogue instruction of format IMM (R180). -/
def epiImm (op : Nat) (d : BitVec 5) (imm : BitVec 40) : W64 :=
  BitVec.ofNat 64 (4 * 2 ^ 59 + op * 2 ^ 53 + d.toNat * 2 ^ 48 + imm.toNat)

/-- Words that the run of a core has executed. -/
def Core.runPos (c : Core) : Nat := (c.run.map (fun r => r.pos)).getD 0

/-- One epilogue instruction (R209): the unit executes it only from a program store, as the next word of the run that is
under way or that it takes next; any other word has no effect (log 11). -/
def State.epiRow (s : State) (n : Fin 32) (w : W64) : Result :=
  match s.unitJob n.val, (s.core n.val).nextRun with
  | some j, some d =>
    if d.words[(s.core n.val).runPos]? = some w then s.carryRun n.val j d 1 else .next s
  | _, _ => .next s

/-- VRACC (R222). -/
def execVracc (n : Fin 32) (g : Guard) (d : BitVec 5) (mod : BitVec 6) (s : State) : Result :=
  s.epiRow n (epiReg 0 g d 0 0 mod)
/-- VMOV (R222). -/
def execVmov (n : Fin 32) (g : Guard) (d : BitVec 5) (a : BitVec 5) (mod : BitVec 6) (s : State) : Result :=
  s.epiRow n (epiReg 3 g d a 0 mod)
/-- VADD (R222). -/
def execVadd (n : Fin 32) (g : Guard) (d : BitVec 5) (a : BitVec 5) (b : BitVec 5) (s : State) : Result :=
  s.epiRow n (epiReg 4 g d a b 0)
/-- VSUB (R222). -/
def execVsub (n : Fin 32) (g : Guard) (d : BitVec 5) (a : BitVec 5) (b : BitVec 5) (s : State) : Result :=
  s.epiRow n (epiReg 5 g d a b 0)
/-- VMUL (R222). -/
def execVmul (n : Fin 32) (g : Guard) (d : BitVec 5) (a : BitVec 5) (b : BitVec 5) (s : State) : Result :=
  s.epiRow n (epiReg 6 g d a b 0)
/-- VFMA (R222). -/
def execVfma (n : Fin 32) (g : Guard) (d : BitVec 5) (a : BitVec 5) (b : BitVec 5) (s : State) : Result :=
  s.epiRow n (epiReg 7 g d a b 0)
/-- VMAX (R222). -/
def execVmax (n : Fin 32) (g : Guard) (d : BitVec 5) (a : BitVec 5) (b : BitVec 5) (s : State) : Result :=
  s.epiRow n (epiReg 8 g d a b 0)
/-- VMIN (R222). -/
def execVmin (n : Fin 32) (g : Guard) (d : BitVec 5) (a : BitVec 5) (b : BitVec 5) (s : State) : Result :=
  s.epiRow n (epiReg 9 g d a b 0)
/-- VEXP (R222). -/
def execVexp (n : Fin 32) (g : Guard) (d : BitVec 5) (a : BitVec 5) (s : State) : Result :=
  s.epiRow n (epiReg 10 g d a 0 0)
/-- VRCP (R222). -/
def execVrcp (n : Fin 32) (g : Guard) (d : BitVec 5) (a : BitVec 5) (s : State) : Result :=
  s.epiRow n (epiReg 11 g d a 0 0)
/-- VRSQRT (R222). -/
def execVrsqrt (n : Fin 32) (g : Guard) (d : BitVec 5) (a : BitVec 5) (s : State) : Result :=
  s.epiRow n (epiReg 12 g d a 0 0)
/-- VREDMAX (R222). -/
def execVredmax (n : Fin 32) (g : Guard) (d : BitVec 5) (a : BitVec 5) (s : State) : Result :=
  s.epiRow n (epiReg 13 g d a 0 0)
/-- VREDSUM (R222). -/
def execVredsum (n : Fin 32) (g : Guard) (d : BitVec 5) (a : BitVec 5) (s : State) : Result :=
  s.epiRow n (epiReg 14 g d a 0 0)
/-- VCVT (R222). -/
def execVcvt (n : Fin 32) (g : Guard) (d : BitVec 5) (a : BitVec 5) (mod : BitVec 6) (s : State) : Result :=
  s.epiRow n (epiReg 15 g d a 0 mod)
/-- VPACK (R222). -/
def execVpack (n : Fin 32) (g : Guard) (d : BitVec 5) (a : BitVec 5) (mod : BitVec 6) (s : State) : Result :=
  s.epiRow n (epiReg 16 g d a 0 mod)
/-- VUNPK (R222). -/
def execVunpk (n : Fin 32) (g : Guard) (d : BitVec 5) (a : BitVec 5) (mod : BitVec 6) (s : State) : Result :=
  s.epiRow n (epiReg 17 g d a 0 mod)
/-- VCMPLT (R222). -/
def execVcmplt (n : Fin 32) (g : Guard) (d : BitVec 5) (a : BitVec 5) (b : BitVec 5) (mod : BitVec 6) (s : State) : Result :=
  s.epiRow n (epiReg 18 g d a b mod)
/-- VCMPEQ (R222). -/
def execVcmpeq (n : Fin 32) (g : Guard) (d : BitVec 5) (a : BitVec 5) (b : BitVec 5) (mod : BitVec 6) (s : State) : Result :=
  s.epiRow n (epiReg 19 g d a b mod)
/-- VIDX (R222). -/
def execVidx (n : Fin 32) (g : Guard) (d : BitVec 5) (mod : BitVec 6) (s : State) : Result :=
  s.epiRow n (epiReg 20 g d 0 0 mod)
/-- VTK (R222). -/
def execVtk (n : Fin 32) (g : Guard) (a : BitVec 5) (b : BitVec 5) (mod : BitVec 6) (s : State) : Result :=
  s.epiRow n (epiReg 21 g 0 a b mod)
/-- RSTAT (R267). -/
def execRstat (n : Fin 32) (g : Guard) (a : BitVec 5) (mod : BitVec 6) (s : State) : Result :=
  s.epiRow n (epiReg 22 g 0 a 0 mod)
/-- RSGET (R269). -/
def execRsget (n : Fin 32) (g : Guard) (d : BitVec 5) (s : State) : Result :=
  s.epiRow n (epiReg 23 g d 0 0 0)
/-- VENC (R246 to R249). -/
def execVenc (n : Fin 32) (g : Guard) (d : BitVec 5) (a : BitVec 5) (mod : BitVec 6) (s : State) : Result :=
  s.epiRow n (epiReg 24 g d a 0 mod)
/-- VLD (R221, R223). -/
def execVld (n : Fin 32) (d : BitVec 5) (imm : BitVec 40) (s : State) : Result :=
  s.epiRow n (epiImm 1 d imm)
/-- VST (R221, R223). -/
def execVst (n : Fin 32) (d : BitVec 5) (imm : BitVec 40) (s : State) : Result :=
  s.epiRow n (epiImm 2 d imm)
/-- ESTORE (R223). -/
def execEstore (n : Fin 32) (imm : BitVec 40) (s : State) : Result := s.epiRow n (epiImm 25 0 imm)

end Sys2Proof.Machine
end

