-- ==== Sys2Proof/Machine/Dispatch.lean ====
section
/-!
DEFINITION. The meaning of every command: one arm per constructor of `Instr`, one definition per arm.
-/

namespace Sys2Proof.Machine

def exec (i : Instr) (s : State) : Host.Outcome State Fault Refusal :=
  match i with
  | .apertureWrite off bytes => Sys2Proof.Machine.execApertureWrite off bytes s
  | .sqTailDoorbell q v => Sys2Proof.Machine.execSqTailDoorbell q v s
  | .cqHeadDoorbell q v => Sys2Proof.Machine.execCqHeadDoorbell q v s
  | .packetFetch q => Sys2Proof.Machine.execPacketFetch q s
  | .headerRetryTimeout q => Sys2Proof.Machine.execHeaderRetryTimeout q s
  | .chainTimeout q => Sys2Proof.Machine.execChainTimeout q s
  | .createQueue cmd => Sys2Proof.Machine.execCreateQueue cmd s
  | .deleteQueue cmd => Sys2Proof.Machine.execDeleteQueue cmd s
  | .resetQueue cmd => Sys2Proof.Machine.execResetQueue cmd s
  | .abort cmd => Sys2Proof.Machine.execAbort cmd s
  | .setPowerState cmd => Sys2Proof.Machine.execSetPowerState cmd s
  | .powerStateExit => Sys2Proof.Machine.execPowerStateExit s
  | .createPod cmd => Sys2Proof.Machine.execCreatePod cmd s
  | .deletePod cmd => Sys2Proof.Machine.execDeletePod cmd s
  | .moveCores cmd => Sys2Proof.Machine.execMoveCores cmd s
  | .moveT1 cmd => Sys2Proof.Machine.execMoveT1 cmd s
  | .moveObject cmd => Sys2Proof.Machine.execMoveObject cmd s
  | .moveQueue cmd => Sys2Proof.Machine.execMoveQueue cmd s
  | .moveSlots cmd => Sys2Proof.Machine.execMoveSlots cmd s
  | .createVolume cmd n => Sys2Proof.Machine.execCreateVolume cmd n s
  | .deleteVolume cmd => Sys2Proof.Machine.execDeleteVolume cmd s
  | .read cmd => Sys2Proof.Machine.execRead cmd s
  | .write cmd => Sys2Proof.Machine.execWrite cmd s
  | .discard cmd => Sys2Proof.Machine.execDiscard cmd s
  | .secureDiscard cmd => Sys2Proof.Machine.execSecureDiscard cmd s
  | .loadModel cmd n => Sys2Proof.Machine.execLoadModel cmd n s
  | .unloadModel cmd => Sys2Proof.Machine.execUnloadModel cmd s
  | .buildIndex cmd n => Sys2Proof.Machine.execBuildIndex cmd n s
  | .insertCodes cmd => Sys2Proof.Machine.execInsertCodes cmd s
  | .deleteCodes cmd => Sys2Proof.Machine.execDeleteCodes cmd s
  | .compactIndex cmd => Sys2Proof.Machine.execCompactIndex cmd s
  | .deleteIndex cmd => Sys2Proof.Machine.execDeleteIndex cmd s
  | .submitJob cmd ctx => Sys2Proof.Machine.execSubmitJob cmd ctx s
  | .invoke cmd => Sys2Proof.Machine.execInvoke cmd s
  | .search cmd => Sys2Proof.Machine.execSearch cmd s
  | .reclaim cmd => Sys2Proof.Machine.execReclaim cmd s
  | .endJob cmd => Sys2Proof.Machine.execEndJob cmd s
  | .globalPersistentFlush => Sys2Proof.Machine.execGlobalPersistentFlush s
  | .spdmMessage msg => Sys2Proof.Machine.execSpdmMessage msg s
  | .ideKmMessage session => Sys2Proof.Machine.execIdeKmMessage session s
  | .jobStart ctx cores => Sys2Proof.Machine.execJobStart ctx cores s
  | .budgetExpiry core => Sys2Proof.Machine.execBudgetExpiry core s
  | .cutGraceExpiry core => Sys2Proof.Machine.execCutGraceExpiry core s
  | .regionEnd ctx overrun => Sys2Proof.Machine.execRegionEnd ctx overrun s
  | .nop core => Sys2Proof.Machine.execNop core s
  | .b core cond off => Sys2Proof.Machine.execB core cond off s
  | .call core cond off => Sys2Proof.Machine.execCall core cond off s
  | .ret core => Sys2Proof.Machine.execRet core s
  | .mov core d a => Sys2Proof.Machine.execMov core d a s
  | .movi core d imm => Sys2Proof.Machine.execMovi core d imm s
  | .movl core d imm ext => Sys2Proof.Machine.execMovl core d imm ext s
  | .add core d a b => Sys2Proof.Machine.execAdd core d a b s
  | .sub core d a b => Sys2Proof.Machine.execSub core d a b s
  | .mul core d a b => Sys2Proof.Machine.execMul core d a b s
  | .and core d a b => Sys2Proof.Machine.execAnd core d a b s
  | .or core d a b => Sys2Proof.Machine.execOr core d a b s
  | .xor core d a b => Sys2Proof.Machine.execXor core d a b s
  | .shl core d a b => Sys2Proof.Machine.execShl core d a b s
  | .shr core d a b => Sys2Proof.Machine.execShr core d a b s
  | .sar core d a b => Sys2Proof.Machine.execSar core d a b s
  | .min core d a b => Sys2Proof.Machine.execMin core d a b s
  | .max core d a b => Sys2Proof.Machine.execMax core d a b s
  | .minu core d a b => Sys2Proof.Machine.execMinu core d a b s
  | .maxu core d a b => Sys2Proof.Machine.execMaxu core d a b s
  | .cmp core a b => Sys2Proof.Machine.execCmp core a b s
  | .addi core d a imm => Sys2Proof.Machine.execAddi core d a imm s
  | .subi core d a imm => Sys2Proof.Machine.execSubi core d a imm s
  | .andi core d a imm => Sys2Proof.Machine.execAndi core d a imm s
  | .ori core d a imm => Sys2Proof.Machine.execOri core d a imm s
  | .xori core d a imm => Sys2Proof.Machine.execXori core d a imm s
  | .shli core d a imm => Sys2Proof.Machine.execShli core d a imm s
  | .shri core d a imm => Sys2Proof.Machine.execShri core d a imm s
  | .sari core d a imm => Sys2Proof.Machine.execSari core d a imm s
  | .cmpi core a imm => Sys2Proof.Machine.execCmpi core a imm s
  | .muli core d a imm => Sys2Proof.Machine.execMuli core d a imm s
  | .mova core d a => Sys2Proof.Machine.execMova core d a s
  | .movs core d a => Sys2Proof.Machine.execMovs core d a s
  | .adda core d a b => Sys2Proof.Machine.execAdda core d a b s
  | .addai core d a imm => Sys2Proof.Machine.execAddai core d a imm s
  | .ld core d a imm => Sys2Proof.Machine.execLd core d a imm s
  | .st core d a imm => Sys2Proof.Machine.execSt core d a imm s
  | .mvLoad core d a b c imm direct => Sys2Proof.Machine.execMvLoad core d a b c imm direct s
  | .mvStore core d a b c imm direct => Sys2Proof.Machine.execMvStore core d a b c imm direct s
  | .mvSpread core d a b c imm direct => Sys2Proof.Machine.execMvSpread core d a b c imm direct s
  | .mvTload core d a b c imm direct => Sys2Proof.Machine.execMvTload core d a b c imm direct s
  | .mvTstore core d a b c imm direct => Sys2Proof.Machine.execMvTstore core d a b c imm direct s
  | .mvWait core d => Sys2Proof.Machine.execMvWait core d s
  | .mvStat core d a => Sys2Proof.Machine.execMvStat core d a s
  | .passFp8 core d a b => Sys2Proof.Machine.execPassFp8 core d a b s
  | .passBf16c core d a b => Sys2Proof.Machine.execPassBf16c core d a b s
  | .passBf16 core d a b => Sys2Proof.Machine.execPassBf16 core d a b s
  | .passBin core d a b => Sys2Proof.Machine.execPassBin core d a b s
  | .prologueRun core => Sys2Proof.Machine.execPrologueRun core s
  | .epilogueRun core => Sys2Proof.Machine.execEpilogueRun core s
  | .finishRun core => Sys2Proof.Machine.execFinishRun core s
  | .vracc core g d mod => Sys2Proof.Machine.execVracc core g d mod s
  | .vld core d imm => Sys2Proof.Machine.execVld core d imm s
  | .vst core d imm => Sys2Proof.Machine.execVst core d imm s
  | .vmov core g d a mod => Sys2Proof.Machine.execVmov core g d a mod s
  | .vadd core g d a b => Sys2Proof.Machine.execVadd core g d a b s
  | .vsub core g d a b => Sys2Proof.Machine.execVsub core g d a b s
  | .vmul core g d a b => Sys2Proof.Machine.execVmul core g d a b s
  | .vfma core g d a b => Sys2Proof.Machine.execVfma core g d a b s
  | .vmax core g d a b => Sys2Proof.Machine.execVmax core g d a b s
  | .vmin core g d a b => Sys2Proof.Machine.execVmin core g d a b s
  | .vexp core g d a => Sys2Proof.Machine.execVexp core g d a s
  | .vrcp core g d a => Sys2Proof.Machine.execVrcp core g d a s
  | .vrsqrt core g d a => Sys2Proof.Machine.execVrsqrt core g d a s
  | .vredmax core g d a => Sys2Proof.Machine.execVredmax core g d a s
  | .vredsum core g d a => Sys2Proof.Machine.execVredsum core g d a s
  | .vcvt core g d a mod => Sys2Proof.Machine.execVcvt core g d a mod s
  | .vpack core g d a mod => Sys2Proof.Machine.execVpack core g d a mod s
  | .vunpk core g d a mod => Sys2Proof.Machine.execVunpk core g d a mod s
  | .vcmplt core g d a b mod => Sys2Proof.Machine.execVcmplt core g d a b mod s
  | .vcmpeq core g d a b mod => Sys2Proof.Machine.execVcmpeq core g d a b mod s
  | .vidx core g d mod => Sys2Proof.Machine.execVidx core g d mod s
  | .vtk core g a b mod => Sys2Proof.Machine.execVtk core g a b mod s
  | .rstat core g a mod => Sys2Proof.Machine.execRstat core g a mod s
  | .rsget core g d => Sys2Proof.Machine.execRsget core g d s
  | .venc core g d a mod => Sys2Proof.Machine.execVenc core g d a mod s
  | .estore core imm => Sys2Proof.Machine.execEstore core imm s
  | .cbload core a mod imm => Sys2Proof.Machine.execCbload core a mod imm s
  | .scset core d a => Sys2Proof.Machine.execScset core d a s
  | .scget core d a => Sys2Proof.Machine.execScget core d a s
  | .scadv core d => Sys2Proof.Machine.execScadv core d s
  | .tkOn core mod imm => Sys2Proof.Machine.execTkOn core mod imm s
  | .tkOff core => Sys2Proof.Machine.execTkOff core s
  | .tkStripe core a => Sys2Proof.Machine.execTkStripe core a s
  | .tkClr core a b => Sys2Proof.Machine.execTkClr core a b s
  | .tkMerge core d a b c imm => Sys2Proof.Machine.execTkMerge core d a b c imm s
  | .srWalk core a => Sys2Proof.Machine.execSrWalk core a s
  | .srFilt core a => Sys2Proof.Machine.execSrFilt core a s
  | .fenceU core => Sys2Proof.Machine.execFenceU core s
  | .bar core => Sys2Proof.Machine.execBar core s
  | .cut core => Sys2Proof.Machine.execCut core s
  | .take core a b => Sys2Proof.Machine.execTake core a b s
  | .sysrd core d imm => Sys2Proof.Machine.execSysrd core d imm s
  | .endI core => Sys2Proof.Machine.execEndI core s
  | .eload core d a imm => Sys2Proof.Machine.execEload core d a imm s
  | .transferStart core x => Sys2Proof.Machine.execTransferStart core x s
  | .arbiterGrant arb reqs beats => Sys2Proof.Machine.execArbiterGrant arb reqs beats s
  | .holdCutOff arb => Sys2Proof.Machine.execHoldCutOff arb s
  | .promotionGrant copy page => Sys2Proof.Machine.execPromotionGrant copy page s
  | .promotionEnd copy page good => Sys2Proof.Machine.execPromotionEnd copy page good s
  | .tileFault core => Sys2Proof.Machine.execTileFault core s
  | .jobFault ctx core => Sys2Proof.Machine.execJobFault ctx core s
  | .coreFence core repeated => Sys2Proof.Machine.execCoreFence core repeated s
  | .heartbeatTimeout core => Sys2Proof.Machine.execHeartbeatTimeout core s
  | .stagingProgram lb p => Sys2Proof.Machine.execStagingProgram lb p s
  | .mergeStart lb locs => Sys2Proof.Machine.execMergeStart lb locs s
  | .logIdleTimeout lb locs => Sys2Proof.Machine.execLogIdleTimeout lb locs s
  | .mergeCommit e => Sys2Proof.Machine.execMergeCommit e s
  | .superblockErase loc good => Sys2Proof.Machine.execSuperblockErase loc good s
  | .relocation src dst => Sys2Proof.Machine.execRelocation src dst s
  | .journalCheckpoint => Sys2Proof.Machine.execJournalCheckpoint s
  | .stripeRebuild at_ rebuilt => Sys2Proof.Machine.execStripeRebuild at_ rebuilt s
  | .dieFail dieSet die => Sys2Proof.Machine.execDieFail dieSet die s
  | .mapEntryRebuild lb => Sys2Proof.Machine.execMapEntryRebuild lb s
  | .listCompaction index list => Sys2Proof.Machine.execListCompaction index list s
  | .stewardListCommit index => Sys2Proof.Machine.execStewardListCommit index s
  | .autoCompaction index => Sys2Proof.Machine.execAutoCompaction index s
  | .rdReq port f => Sys2Proof.Machine.execRdReq port f s
  | .rdRsp port f => Sys2Proof.Machine.execRdRsp port f s
  | .wrReq port f => Sys2Proof.Machine.execWrReq port f s
  | .wrAck port f => Sys2Proof.Machine.execWrAck port f s
  | .nak port f => Sys2Proof.Machine.execNak port f s
  | .link port f => Sys2Proof.Machine.execLink port f s
  | .key port f last => Sys2Proof.Machine.execKey port f last s
  | .hello port f peer => Sys2Proof.Machine.execHello port f peer s
  | .spoolRequestTimeout reqId => Sys2Proof.Machine.execSpoolRequestTimeout reqId s
  | .portTrainStart port => Sys2Proof.Machine.execPortTrainStart port s
  | .portTrainingDone port slow => Sys2Proof.Machine.execPortTrainingDone port slow s
  | .fecLock port => Sys2Proof.Machine.execFecLock port s
  | .portStateTimeout port => Sys2Proof.Machine.execPortStateTimeout port s
  | .linkFrameTimeout port => Sys2Proof.Machine.execLinkFrameTimeout port s
  | .fecLockLoss port => Sys2Proof.Machine.execFecLockLoss port s
  | .errorRateLimit port => Sys2Proof.Machine.execErrorRateLimit port s
  | .rekeyTimer port => Sys2Proof.Machine.execRekeyTimer port s
  | .guardKeyWrite v => Sys2Proof.Machine.execGuardKeyWrite v s
  | .guardLockTimeout => Sys2Proof.Machine.execGuardLockTimeout s
  | .adminEnable v => Sys2Proof.Machine.execAdminEnable v s
  | .adminDisable v => Sys2Proof.Machine.execAdminDisable v s
  | .lcGo v whole env => Sys2Proof.Machine.execLcGo v whole env s
  | .fwStage v => Sys2Proof.Machine.execFwStage v s
  | .fwVerifyDone => Sys2Proof.Machine.execFwVerifyDone s
  | .fwCommit v stop env => Sys2Proof.Machine.execFwCommit v stop env s
  | .cfOperationDone erase result => Sys2Proof.Machine.execCfOperationDone erase result s
  | .spoolIdWrite v => Sys2Proof.Machine.execSpoolIdWrite v s
  | .spoolPortEnableWrite port v => Sys2Proof.Machine.execSpoolPortEnableWrite port v s
  | .exportWrite n v => Sys2Proof.Machine.execExportWrite n v s
  | .inboxWrite n v => Sys2Proof.Machine.execInboxWrite n v s
  | .splitWrite v => Sys2Proof.Machine.execSplitWrite v s
  | .rawRead v => Sys2Proof.Machine.execRawRead v s
  | .flipArm n v => Sys2Proof.Machine.execFlipArm n v s
  | .snapNow v => Sys2Proof.Machine.execSnapNow v s
  | .dailiesRingWrite v => Sys2Proof.Machine.execDailiesRingWrite v s
  | .cntSelWrite n v => Sys2Proof.Machine.execCntSelWrite n v s
  | .sampleCfgWrite core v => Sys2Proof.Machine.execSampleCfgWrite core v s
  | .wideRegisterRead off size => Sys2Proof.Machine.execWideRegisterRead off size s
  | .registerWrite off size v => Sys2Proof.Machine.execRegisterWrite off size v s
  | .periodicSnapshot => Sys2Proof.Machine.execPeriodicSnapshot s
  | .counterFold n => Sys2Proof.Machine.execCounterFold n s
  | .tagSampleDone core t => Sys2Proof.Machine.execTagSampleDone core t s
  | .exactDrain core => Sys2Proof.Machine.execExactDrain core s
  | .meteringInterval rails => Sys2Proof.Machine.execMeteringInterval rails s
  | .powerThrottle engine => Sys2Proof.Machine.execPowerThrottle engine s
  | .thermalThrottle t => Sys2Proof.Machine.execThermalThrottle t s
  | .inletHigh t => Sys2Proof.Machine.execInletHigh t s
  | .thermalTrip t => Sys2Proof.Machine.execThermalTrip t s
  | .holdupMeasure ms => Sys2Proof.Machine.execHoldupMeasure ms s
  | .scrub unit => Sys2Proof.Machine.execScrub unit s
  | .selfTestPeriodic pass => Sys2Proof.Machine.execSelfTestPeriodic pass s
  | .entropyTestFail retries => Sys2Proof.Machine.execEntropyTestFail retries s
  | .watchdogExpiry => Sys2Proof.Machine.execWatchdogExpiry s
  | .powerApply env => Sys2Proof.Machine.execPowerApply env s
  | .powerLoss bankHolds => Sys2Proof.Machine.execPowerLoss bankHolds s
  | .perstAssert => Sys2Proof.Machine.execPerstAssert s
  | .perstRelease env => Sys2Proof.Machine.execPerstRelease env s
  | .pwrdisAssert => Sys2Proof.Machine.execPwrdisAssert s
  | .pwrdisRelease env => Sys2Proof.Machine.execPwrdisRelease env s
  | .coolantFltAssert => Sys2Proof.Machine.execCoolantFltAssert s
  | .coolantFltRelease => Sys2Proof.Machine.execCoolantFltRelease s
  | .hostLinkReset env => Sys2Proof.Machine.execHostLinkReset env s
  | .malformedFrame port f => Sys2Proof.Machine.execMalformedFrame port f s
  | .illegalInstruction core w0 w1 => Sys2Proof.Machine.execIllegalInstruction core w0 w1 s

end Sys2Proof.Machine
end

