-- ==== Sys2Proof/WellFormed.lean ====
section
/-!
DEFINITION. Which commands are well formed: every field of an instruction names a register, condition,
format or part that the manual assigns (R180, R182, R211, R213, R222, R224), and every list that names
things names each once.
-/

namespace Sys2Proof

/-- A field that names an A register (R182). -/
def isAReg (r : BitVec 5) : Bool := decide (r.toNat ≤ 15)
/-- A field that names a transfer slot or a P register (R182). -/
def isXReg (r : BitVec 5) : Bool := decide (r.toNat ≤ 7)
/-- A field that names an epilogue program slot (R182). -/
def isEReg (r : BitVec 5) : Bool := decide (r.toNat ≤ 3)
/-- The IMM of VLD and VST: bits [39:37] reserved, base not 3 (R221, R222, R224). -/
def vImmGood (imm : BitVec 40) : Bool :=
  decide (imm.toNat / 2 ^ 37 = 0) && decide (imm.toNat / 2 ^ 35 % 4 ≠ 3)
/-- The MOD of VPACK and VUNPK: a format, a part that the format has, bit 5 reserved (R222, R224). -/
def packGood (mod : BitVec 6) : Bool :=
  decide (mod.toNat < 32) && decide (mod.toNat % 4 ≠ 3) &&
  (if mod.toNat % 4 = 0 then decide (mod.toNat / 4 ≤ 1) else decide (mod.toNat / 4 ≤ 3))

/-- Whether a command is well formed. -/
def wellFormed (i : Instr) : Bool :=
  match i with
  | .apertureWrite _ _ => true
  | .sqTailDoorbell _ _ => true
  | .cqHeadDoorbell _ _ => true
  | .packetFetch _ => true
  | .headerRetryTimeout _ => true
  | .chainTimeout _ => true
  | .createQueue _ => true
  | .deleteQueue _ => true
  | .resetQueue _ => true
  | .abort _ => true
  | .setPowerState _ => true
  | .powerStateExit => true
  | .createPod _ => true
  | .deletePod _ => true
  | .moveCores _ => true
  | .moveT1 _ => true
  | .moveObject _ => true
  | .moveQueue _ => true
  | .moveSlots _ => true
  | .createVolume _ _ => true
  | .deleteVolume _ => true
  | .read _ => true
  | .write _ => true
  | .discard _ => true
  | .secureDiscard _ => true
  | .loadModel _ _ => true
  | .unloadModel _ => true
  | .buildIndex _ _ => true
  | .insertCodes _ => true
  | .deleteCodes _ => true
  | .compactIndex _ => true
  | .deleteIndex _ => true
  | .submitJob _ _ => true
  | .invoke _ => true
  | .search _ => true
  | .reclaim _ => true
  | .endJob _ => true
  | .globalPersistentFlush => true
  | .spdmMessage _ => true
  | .ideKmMessage _ => true
  | .jobStart _ cores => cores.Nodup
  | .budgetExpiry _ => true
  | .cutGraceExpiry _ => true
  | .regionEnd _ _ => true
  | .nop _ => true
  | .b _ cond _ => decide (cond.toNat ≤ 8)
  | .call _ cond _ => decide (cond.toNat ≤ 8)
  | .ret _ => true
  | .mov _ _ _ => true
  | .movi _ _ _ => true
  | .movl _ _ _ _ => true
  | .add _ _ _ _ => true
  | .sub _ _ _ _ => true
  | .mul _ _ _ _ => true
  | .and _ _ _ _ => true
  | .or _ _ _ _ => true
  | .xor _ _ _ _ => true
  | .shl _ _ _ _ => true
  | .shr _ _ _ _ => true
  | .sar _ _ _ _ => true
  | .min _ _ _ _ => true
  | .max _ _ _ _ => true
  | .minu _ _ _ _ => true
  | .maxu _ _ _ _ => true
  | .cmp _ _ _ => true
  | .addi _ _ _ _ => true
  | .subi _ _ _ _ => true
  | .andi _ _ _ _ => true
  | .ori _ _ _ _ => true
  | .xori _ _ _ _ => true
  | .shli _ _ _ imm => decide (imm.toNat ≤ 63)
  | .shri _ _ _ imm => decide (imm.toNat ≤ 63)
  | .sari _ _ _ imm => decide (imm.toNat ≤ 63)
  | .cmpi _ _ _ => true
  | .muli _ _ _ _ => true
  | .mova _ d _ => isAReg d
  | .movs _ _ a => isAReg a
  | .adda _ d a _ => isAReg d && isAReg a
  | .addai _ d a _ => isAReg d && isAReg a
  | .ld _ _ _ _ => true
  | .st _ _ _ _ => true
  | .mvLoad _ d a _ _ _ _ => isXReg d && isAReg a
  | .mvStore _ d a _ _ _ direct => isXReg d && isAReg a && !direct
  | .mvSpread _ d a _ _ _ _ => isXReg d && isAReg a
  | .mvTload _ d a _ _ _ _ => isXReg d && isAReg a
  | .mvTstore _ d a _ _ _ direct => isXReg d && isAReg a && !direct
  | .mvWait _ d => isXReg d
  | .mvStat _ _ a => isXReg a
  | .passFp8 _ _ _ _ => true
  | .passBf16c _ _ _ _ => true
  | .passBf16 _ _ _ _ => true
  | .passBin _ _ _ _ => true
  | .prologueRun _ => true
  | .epilogueRun _ => true
  | .finishRun _ => true
  | .vracc _ _ _ _ => true
  | .vld _ _ imm => vImmGood imm
  | .vst _ _ imm => vImmGood imm
  | .vmov _ _ _ _ mod => decide (mod.toNat ≤ 3)
  | .vadd _ _ _ _ _ => true
  | .vsub _ _ _ _ _ => true
  | .vmul _ _ _ _ _ => true
  | .vfma _ _ _ _ _ => true
  | .vmax _ _ _ _ _ => true
  | .vmin _ _ _ _ _ => true
  | .vexp _ _ _ _ => true
  | .vrcp _ _ _ _ => true
  | .vrsqrt _ _ _ _ => true
  | .vredmax _ _ _ _ => true
  | .vredsum _ _ _ _ => true
  | .vcvt _ _ _ _ mod => decide (mod.toNat ≤ 2)
  | .vpack _ _ _ _ mod => packGood mod
  | .vunpk _ _ _ _ mod => packGood mod
  | .vcmplt _ _ d _ _ mod => isXReg d && decide (mod.toNat ≤ 1)
  | .vcmpeq _ _ d _ _ mod => isXReg d && decide (mod.toNat ≤ 1)
  | .vidx _ _ _ mod => decide (mod.toNat ≤ 3)
  | .vtk _ _ _ _ mod => decide (mod.toNat ≤ 3)
  | .rstat _ _ _ mod => decide (mod.toNat ≤ 2)
  | .rsget _ _ _ => true
  | .venc _ _ _ _ mod => decide (mod.toNat ≤ 15)
  | .estore _ imm => decide (1 ≤ imm.toNat ∧ imm.toNat ≤ 16384)
  | .cbload _ _ mod imm => decide (mod.toNat ≤ 3) && decide (imm.toNat ≤ 15)
  | .scset _ d _ => isEReg d
  | .scget _ d _ => isEReg d
  | .scadv _ d => isEReg d
  | .tkOn _ mod _ => decide (mod.toNat ≤ 1)
  | .tkOff _ => true
  | .tkStripe _ _ => true
  | .tkClr _ _ _ => true
  | .tkMerge _ _ _ _ _ _ => true
  | .srWalk _ _ => true
  | .srFilt _ _ => true
  | .fenceU _ => true
  | .bar _ => true
  | .cut _ => true
  | .take _ _ b => isAReg b
  | .sysrd _ _ imm => decide (imm.toNat ≤ 63)
  | .endI _ => true
  | .eload _ d _ _ => isEReg d
  | .transferStart _ _ => true
  | .arbiterGrant _ reqs _ => (reqs.map (fun r => r.requester)).Nodup
  | .holdCutOff _ => true
  | .promotionGrant _ _ => true
  | .promotionEnd _ _ _ => true
  | .tileFault _ => true
  | .jobFault _ _ => true
  | .coreFence _ _ => true
  | .heartbeatTimeout _ => true
  | .stagingProgram _ _ => true
  | .mergeStart _ locs => locs.Nodup
  | .logIdleTimeout _ locs => locs.Nodup
  | .mergeCommit _ => true
  | .superblockErase _ _ => true
  | .relocation _ _ => true
  | .journalCheckpoint => true
  | .stripeRebuild _ _ => true
  | .dieFail _ _ => true
  | .mapEntryRebuild _ => true
  | .listCompaction _ _ => true
  | .stewardListCommit _ => true
  | .autoCompaction _ => true
  | .rdReq _ _ => true
  | .rdRsp _ _ => true
  | .wrReq _ _ => true
  | .wrAck _ _ => true
  | .nak _ _ => true
  | .link _ _ => true
  | .key _ _ _ => true
  | .hello _ _ _ => true
  | .spoolRequestTimeout _ => true
  | .portTrainStart _ => true
  | .portTrainingDone _ _ => true
  | .fecLock _ => true
  | .portStateTimeout _ => true
  | .linkFrameTimeout _ => true
  | .fecLockLoss _ => true
  | .errorRateLimit _ => true
  | .rekeyTimer _ => true
  | .guardKeyWrite _ => true
  | .guardLockTimeout => true
  | .adminEnable _ => true
  | .adminDisable _ => true
  | .lcGo _ _ _ => true
  | .fwStage _ => true
  | .fwVerifyDone => true
  | .fwCommit _ _ _ => true
  | .cfOperationDone _ _ => true
  | .spoolIdWrite _ => true
  | .spoolPortEnableWrite _ _ => true
  | .exportWrite _ _ => true
  | .inboxWrite _ _ => true
  | .splitWrite _ => true
  | .rawRead _ => true
  | .flipArm _ _ => true
  | .snapNow _ => true
  | .dailiesRingWrite _ => true
  | .cntSelWrite _ _ => true
  | .sampleCfgWrite _ _ => true
  | .wideRegisterRead _ _ => true
  | .registerWrite _ _ _ => true
  | .periodicSnapshot => true
  | .counterFold _ => true
  | .tagSampleDone _ _ => true
  | .exactDrain _ => true
  | .meteringInterval _ => true
  | .powerThrottle _ => true
  | .thermalThrottle _ => true
  | .inletHigh _ => true
  | .thermalTrip _ => true
  | .holdupMeasure _ => true
  | .scrub _ => true
  | .selfTestPeriodic _ => true
  | .entropyTestFail _ => true
  | .watchdogExpiry => true
  | .powerApply _ => true
  | .powerLoss _ => true
  | .perstAssert => true
  | .perstRelease _ => true
  | .pwrdisAssert => true
  | .pwrdisRelease _ => true
  | .coolantFltAssert => true
  | .coolantFltRelease => true
  | .hostLinkReset _ => true
  | .malformedFrame _ _ => true
  | .illegalInstruction _ _ _ => true

end Sys2Proof
end

