-- ==== Sys2Proof/Safety.lean ====
section
/-!
DEFINITION. What counts as a safe run, and the views of a state that the statements use. The invariant
that every step keeps: memories hold their canonical form, so equal memories are equal data; the module keeps
its cores, arbiters, ports, exports and inboxes.
-/

namespace Sys2Proof.Safety

open Sys2Proof.Machine

/-! ### The invariant -/

/-- Every sparse store of a core is in canonical form. -/
def coreWf (c : Core) : Bool :=
  Sparse.wf c.sregs && Sparse.wf c.aregs && Sparse.wf c.vregs && Sparse.wf c.pregs && Sparse.wf c.acc &&
  Sparse.wf c.os && Sparse.wf c.lwb && Sparse.wf c.cb && Sparse.wf c.cbCtl && Sparse.wf c.scale

/-- The top-k lists of a core are no longer than the unit allows, which is at most 256 (R173, R227). -/
def listsWf (t : TopK) : Bool := decide (t.kLane ≤ 256) && t.counts.all (fun p => decide (p.2.toNat ≤ t.kLane))

/-- As `coreWf`, for the stores of the top-k unit, the spill area and what a run would restore too. -/
def coreMemoryWf (c : Core) : Bool :=
  coreWf c && Sparse.wf c.topk.stripes && Sparse.wf c.topk.counts && listsWf c.topk && Sparse.wf c.spill &&
  c.run.all (fun r => Sparse.wf r.vregs && Sparse.wf r.pregs)

/-- Every sparse store of a Cut is in canonical form. -/
def cutWf (c : Cut) : Bool :=
  c.recs.all (fun r => Sparse.wf r.sregs && Sparse.wf r.aregs && Sparse.wf r.vregs && Sparse.wf r.pregs &&
    Sparse.wf r.carry && Sparse.wf r.acc && Sparse.wf r.lists && Sparse.wf r.topk.stripes && Sparse.wf r.topk.counts &&
    listsWf r.topk)

/-- The content of a sector, if there is one, is in canonical form. -/
def contentWf (x : Option Sector) : Bool := x.all (fun x => Sparse.wf x.data)

/-- The content of log blocks is in canonical form. -/
def chainWf (c : List LogBlock) : Bool := c.all (fun b => b.entries.all (fun e => contentWf e.data))

/-- The content of a logical block is in canonical form. -/
def lblockWf (l : LBlock) : Bool :=
  chainWf l.chain && l.merge.all (fun m => chainWf m.frozen) && l.content.all (fun x => Sparse.wf x.2.data)

/-- Each logical block is listed once. -/
def lblocksWf (s : State) : Bool := decide (s.media.lblocks.map (fun l => l.num)).Nodup

/-- Every memory and sparse register file of the state is in canonical form: equal contents are equal
data. -/
def memoryWf (s : State) : Bool :=
  lblocksWf s &&
  Sparse.wf s.link.aperture && Sparse.wf s.link.dbErr && Sparse.wf s.link.shadow &&
  s.link.cmds.all (fun c => c.undo.all (fun x => Sparse.wf x.2.2.data)) &&
  Sparse.wf s.host.mem && Sparse.wf s.host.msix && s.cores.all coreMemoryWf &&
  s.jobs.all (fun j => Sparse.wf j.program && Sparse.wf j.writable && j.lastCut.all cutWf && j.prevCut.all cutWf) &&
  s.copies.all (fun c => Sparse.wf c.mem) && s.media.lblocks.all lblockWf &&
  s.media.staging.all (fun e => contentWf e.data) && Sparse.wf s.spool.routes &&
  s.spool.inboxes.all (fun b => Sparse.wf b.mem) && Sparse.wf s.dailies.sample && Sparse.wf s.dailies.slots &&
  Sparse.wf s.dailies.totals && Sparse.wf s.dailies.overhead && Sparse.wf s.hw.energy

/-- The module keeps its 32 engine cores, its 66 arbiters, and the eight ports, 64 export entries and 64
inboxes of its Spool (R142, R151, R341, R349, R350). -/
def shapeWf (s : State) : Bool :=
  decide (s.cores.length = 32) && decide (s.arbs.length = 66) && decide (s.spool.ports.length = 8) &&
  decide (s.spool.exports.length = 64) && decide (s.spool.inboxes.length = 64)

/-! ### Views of a state -/

/-- All that completing commands leaves alone: everything but the host link, the host's side and the
counter slots. -/
def inside (s : State) : State :=
  { s with link := {}, host := {}, dailies := { s.dailies with slots := [] } }

/-- A core without what the issue of any instruction moves: its place in the program, cycle counts, samples, and what a
walk or filter that was waiting left. -/
def coreBody (c : Core) : Core :=
  { c with
    pc := 0, runCycles := 0, windCycles := 0, sampled := 0, tagAt := 0, tag := none, exact := []
    seek := none, searchFaults := 0 }

/-- A job without the engine cycles that every issued instruction counts, for its record and for its RECLAIMs. -/
def jobBody (j : Job) : Job :=
  { j with
    acct := { j.acct with engineCycles := 0 }
    reclaims := j.reclaims.map (fun r => (r.1, [])), watches := j.watches.map (fun r => (r.1, [])) }

/-- All of a state but what the issue of any instruction moves. -/
def body (s : State) : State :=
  { s with
    free := 0
    cores := s.cores.map coreBody
    jobs := s.jobs.map jobBody
    dailies := { s.dailies with slots := [], lostSamples := 0 } }

/-- Core `n` issues instructions of job `j` from within its program region (R120, R154): the core's job runs and no pass
waits for its prologue (R220). -/
def Issues (s : State) (n : Fin 32) (j : Job) : Prop :=
  s.issuing n.val = some j ∧ (s.core n.val).pc < j.programRegion

/-- As `Issues`, with the second word of an instruction in the program region too (R122). -/
def IssuesLong (s : State) (n : Fin 32) (j : Job) : Prop :=
  Issues s n j ∧ (s.core n.val).pc + 8 < j.programRegion

/-- State `t` follows `s` by the issue of one instruction of `len` bytes on core `n` whose whole effect is
`f` on that core: nothing else moves but the core's place in the program, and counts. -/
def Issued (s : State) (n : Fin 32) (len : Nat) (f : Core → Core) (t : State) : Prop :=
  body t = body (s.modCore n.val f) ∧ (t.core n.val).pc = (s.core n.val).pc + len

/-- All of a state but what the issue of an instruction and the completion of commands move. -/
def calm (s : State) : State := inside (body s)

/-- As `Issued`, where commands may complete besides. -/
def Done (s : State) (n : Fin 32) (len : Nat) (f : Core → Core) (t : State) : Prop :=
  calm t = calm (s.modCore n.val f) ∧ (t.core n.val).pc = (s.core n.val).pc + len

/-- The job in context `ctx` has failed with a status and a fault cause at a place of its program, and
holds no core (R199). -/
def Failed (t : State) (ctx : Nat) (st : Status) (cause pc : Nat) : Prop :=
  ∃ j, t.job? ctx = some j ∧ j.state = .ended ∧ j.ended = { cause := 4, faultCause := cause, status := st } ∧
    j.faultPc = pc ∧ j.cores = []

/-! ### Commands of the host -/

/-- The fetched command `c`, numbered `u`, of the given opcode may act now. -/
def Runs (s : State) (u opcode : Nat) (c : Cmd) : Prop :=
  s.cmd? u = some c ∧ c.opcode = opcode ∧ s.mayBegin c = true ∧ s.awake = true

/-- State `t` is `w` after command `u` has ended with `v`: its completion, and those that its end lets
follow, have gone to their rings. -/
def Ends (w : State) (u : Nat) (v : Verdict) (t : State) : Prop := t = (w.complete u v).settle

/-- A command that is a BIND of operation `op` with a valid descriptor `b` may act now (R82). -/
def Binds (s : State) (u op : Nat) (c : Cmd) (b : Bind) : Prop :=
  Runs s u 0x06 c ∧ c.payload.length = 64 ∧ parseBind c.payload = b ∧ b.valid = true ∧ b.op = op

/-- A BIND takes effect: it completes with OK and the time that it took, at most `bound`, from a state `w`, of which `f`
holds (R83). -/
def Bound (i : Instr) (s : State) (u bound : Nat) (f : State → Prop) : Prop :=
  ∃ t w r, exec i s = .next t ∧ Ends w u { status := .ok, result0 := r } t ∧ r ≤ bound ∧ f w

/-! ### Frames of the Spool -/

/-- Frame `f` reaches port `p` of a module whose port may take it: intact, in order, and of R343's form. -/
def Takes (s : State) (p : Fin 8) (f : Frame) : Prop :=
  s.spoolRuns = true ∧ (s.port p.val).reads f = true ∧ f.good = true ∧
  ((s.port p.val).state = .active → f.guarded = true ∨ f.ftype = 7) ∧
  f.lseq.toNat = (s.port p.val).rxSeq ∧ f.clean = true ∧ ((s.port p.val).state = .active ∨ oneLink f = true)

/-- In state `t` frame `g` waits at the egress of port `q` for a grant of requester `req`, behind those that waited there
in `s` (R348). -/
def Sends (s t : State) (q req : Nat) (g : Frame) : Prop :=
  (t.port q).out = (s.port q).out ++ [(req, s.leaving q g)]

/-- What a frame that no job waits for leaves alone. -/
def SameWork (s t : State) : Prop :=
  t.cores = s.cores ∧ t.jobs = s.jobs ∧ t.objs = s.objs ∧ t.copies = s.copies ∧ t.pages = s.pages ∧
  t.media = s.media ∧ t.link = s.link ∧ t.sec = s.sec ∧ t.hw = s.hw

end Sys2Proof.Safety
end

