-- ==== Sys2Proof/Certificates/Slice0/Obligations.lean ====
section
/-!
DEFINITION. The statements for the provers, and the tables of the spec that they go through.
-/

open Sys2Proof Sys2Proof.Machine Sys2Proof.Safety

/-! ### The queue of commands -/

/-- The rule of the queue: a step takes the command at the front of the queue and is exec of it on the state
with the queue's rest. -/
def Sys2Proof.Safety.StepRunsFront : Prop :=
  ∀ (c : Instr) (rest : List Instr) (s : State),
    s.pending = c :: rest → step s = exec c { s with pending := rest }

/-- Log 2 (the model's choice): on an empty queue the block idles. -/
def Sys2Proof.Safety.StepIdles : Prop := ∀ s : State, s.pending = [] → step s = .next s

/-! ### Scalar instructions (R205, R206, R210, R211) -/

/-- The register forms of R211's table on core `n`: each instruction with the value of Sd. -/
def Sys2Proof.Safety.registerForms (n : Fin 32) (d a b : BitVec 5) (x y : W64) : List (Instr × W64) :=
  [(.mov n d a, x), (.add n d a b, x + y), (.sub n d a b, x - y), (.mul n d a b, x * y),
   (.and n d a b, x &&& y), (.or n d a b, x ||| y), (.xor n d a b, x ^^^ y),
   (.shl n d a b, x <<< (y.toNat % 64)), (.shr n d a b, x >>> (y.toNat % 64)),
   (.sar n d a b, x.sshiftRight (y.toNat % 64)),
   (.min n d a b, if x.toInt < y.toInt then x else y), (.max n d a b, if x.toInt < y.toInt then y else x),
   (.minu n d a b, if x.toNat < y.toNat then x else y), (.maxu n d a b, if x.toNat < y.toNat then y else x)]

/-- R211, R206: a register form writes Sd with the value of its table; every other register of the core,
its memories and the rest of the module stay, but for the place in the program and counts. -/
def Sys2Proof.Safety.ScalarRegisterForms : Prop :=
  ∀ (s : State) (n : Fin 32) (j : Job) (d a b : BitVec 5),
    Issues s n j → coreWf (s.core n.val) = true →
    ∀ row ∈ registerForms n d a b ((s.core n.val).sreg a) ((s.core n.val).sreg b),
      ∃ t, exec row.1 s = .next t ∧ Issued s n 8 (fun c => c.setS d row.2) t ∧
        ∀ r, (t.core n.val).sreg r = if r = d then row.2 else (s.core n.val).sreg r

/-- The immediate forms of R211's table, IMM sign-extended from 40 bits (R206). -/
def Sys2Proof.Safety.immediateForms (n : Fin 32) (d a : BitVec 5) (imm : BitVec 40) (x : W64) :
    List (Instr × W64) :=
  let y : W64 := imm.signExtend 64
  [(.movi n d imm, y), (.addi n d a imm, x + y), (.subi n d a imm, x - y), (.andi n d a imm, x &&& y),
   (.ori n d a imm, x ||| y), (.xori n d a imm, x ^^^ y), (.muli n d a imm, x * y)]

/-- The immediate shifts of R211's table. -/
def Sys2Proof.Safety.shiftForms (n : Fin 32) (d a : BitVec 5) (imm : BitVec 40) (x : W64) :
    List (Instr × W64) :=
  [(.shli n d a imm, x <<< imm.toNat), (.shri n d a imm, x >>> imm.toNat),
   (.sari n d a imm, x.sshiftRight imm.toNat)]

/-- R211, R206: the immediate forms; a shift by more than 63 fails the job with ILLEGAL_INSTRUCTION. -/
def Sys2Proof.Safety.ScalarImmediateForms : Prop :=
  ∀ (s : State) (n : Fin 32) (j : Job) (d a : BitVec 5) (imm : BitVec 40),
    Issues s n j → coreWf (s.core n.val) = true →
    (∀ row ∈ immediateForms n d a imm ((s.core n.val).sreg a) ++
        (if imm.toNat ≤ 63 then shiftForms n d a imm ((s.core n.val).sreg a) else []),
      ∃ t, exec row.1 s = .next t ∧ Issued s n 8 (fun c => c.setS d row.2) t ∧
        ∀ r, (t.core n.val).sreg r = if r = d then row.2 else (s.core n.val).sreg r) ∧
    (63 < imm.toNat → ∀ row ∈ shiftForms n d a imm ((s.core n.val).sreg a),
      exec row.1 s = .next (s.failJob j.ctx .engineFault 3 (s.core n.val).pc).settle)

/-- R211: MOVL is two words long; IMM is the low half and EXT the high half of the value. -/
def Sys2Proof.Safety.MovlLoadsBothHalves : Prop :=
  ∀ (s : State) (n : Fin 32) (j : Job) (d : BitVec 5) (imm ext : BitVec 32),
    IssuesLong s n j → coreWf (s.core n.val) = true →
    ∃ t, exec (.movl n d imm ext) s = .next t ∧ Issued s n 16 (fun c => c.setS d (ext ++ imm)) t ∧
      ((t.core n.val).sreg d).toNat = ext.toNat * 2 ^ 32 + imm.toNat

/-- R205, R211: CMP and CMPI set Z, SLT and ULT from the two operands and write no register. -/
def Sys2Proof.Safety.ComparesSetFlags : Prop :=
  ∀ (s : State) (n : Fin 32) (j : Job) (a b : BitVec 5) (imm : BitVec 40),
    Issues s n j →
    ∀ row ∈ [(Instr.cmp n a b, (s.core n.val).sreg b), (Instr.cmpi n a imm, imm.signExtend 64)],
      ∃ t, exec row.1 s = .next t ∧
        (let x := (s.core n.val).sreg a
         let y := row.2
         Issued s n 8 (fun c => { c with
           z := decide (x = y), slt := decide (x.toInt < y.toInt), ult := decide (x.toNat < y.toNat) }) t ∧
         (t.core n.val).z = decide (x = y) ∧ (t.core n.val).slt = decide (x.toInt < y.toInt) ∧
         (t.core n.val).ult = decide (x.toNat < y.toNat))

/-- R211, R182: the address forms; an A register is one of A0 to A15. -/
def Sys2Proof.Safety.AddressForms : Prop :=
  ∀ (s : State) (n : Fin 32) (j : Job) (d a b : BitVec 5) (imm : BitVec 40),
    Issues s n j → coreWf (s.core n.val) = true →
    (d.toNat ≤ 15 → ∀ row ∈ [(Instr.mova n d a, (s.core n.val).sreg a)] ++
        (if a.toNat ≤ 15 then
          [(Instr.adda n d a b, (s.core n.val).areg a + (s.core n.val).sreg b),
           (Instr.addai n d a imm, (s.core n.val).areg a + imm.signExtend 64)] else []),
      ∃ t, exec row.1 s = .next t ∧ Issued s n 8 (fun c => c.setA d row.2) t ∧
        ∀ r, (t.core n.val).areg r = if r = d then row.2 else (s.core n.val).areg r) ∧
    (a.toNat ≤ 15 → ∃ t, exec (.movs n d a) s = .next t ∧
      Issued s n 8 (fun c => c.setS d ((s.core n.val).areg a)) t ∧
      (t.core n.val).sreg d = (s.core n.val).areg a) ∧
    (15 < d.toNat → exec (.mova n d a) s =
      .next (s.failJob j.ctx .engineFault 3 (s.core n.val).pc).settle)

/-! ### Control (R183, R189, R205, R210) -/

/-- The branch conditions with what they test (R180, R205). -/
def Sys2Proof.Safety.conditions (c : Core) : List (BitVec 4 × Bool) :=
  [(0, true), (1, c.z), (2, !c.z), (3, c.slt), (4, !c.slt), (5, !c.slt && !c.z), (6, c.slt || c.z),
   (7, c.ult), (8, !c.ult)]

/-- R180, R183, R205, R210: NOP changes nothing. A branch whose condition holds goes on at its place plus
OFFSET words, else at the next word; a CALL that is taken puts the address of the next word on the return
stack; RET takes it off. Nothing else moves. -/
def Obligations.ControlFlow : Prop :=
  ∀ (s : State) (n : Fin 32) (j : Job), Issues s n j →
    (∃ t, exec (.nop n) s = .next t ∧ Issued s n 8 (fun c => c) t) ∧
    (∀ row ∈ conditions (s.core n.val), ∀ off : BitVec 39,
      (row.2 = true → 0 ≤ ((s.core n.val).pc : Int) + 8 * off.toInt ∧
        ((s.core n.val).pc : Int) + 8 * off.toInt < j.programRegion) →
      (∃ t, exec (.b n row.1 off) s = .next t ∧ body t = body s ∧
        ((t.core n.val).pc : Int) =
          if row.2 then ((s.core n.val).pc : Int) + 8 * off.toInt else (s.core n.val).pc + 8) ∧
      ((s.core n.val).stack.length < 16 →
        ∃ t, exec (.call n row.1 off) s = .next t ∧
          body t = body (if row.2 then s.modCore n.val (fun c => { c with
            stack := c.stack ++ [BitVec.ofNat 64 ((s.core n.val).pc + 8)] }) else s) ∧
          ((t.core n.val).pc : Int) =
            if row.2 then ((s.core n.val).pc : Int) + 8 * off.toInt else (s.core n.val).pc + 8)) ∧
    (∀ (rest : List W64) (a : W64), (s.core n.val).stack = rest ++ [a] → a.toNat < j.programRegion →
      ∃ t, exec (.ret n) s = .next t ∧ body t = body (s.modCore n.val (fun c => { c with stack := rest })) ∧
        (t.core n.val).pc = a.toNat)

/-- R189, R183, R122: a taken CALL with 16 entries on the return stack and a RET with none are refused, the
job failing with ISSUE_REFUSED; a branch out of the program region fails it under R122. -/
def Sys2Proof.Safety.ControlRefusals : Prop :=
  ∀ (s : State) (n : Fin 32) (j : Job) (off : BitVec 39), Issues s n j →
    let r := s.retire n.val j 8
    let pc := (s.core n.val).pc
    (16 ≤ (s.core n.val).stack.length →
      exec (.call n 0 off) s = .next (r.failJob j.ctx .engineFault 4 pc).settle) ∧
    ((s.core n.val).stack = [] → exec (.ret n) s = .next (r.failJob j.ctx .engineFault 4 pc).settle) ∧
    ((pc : Int) + 8 * off.toInt < 0 ∨ (j.programRegion : Int) ≤ (pc : Int) + 8 * off.toInt →
      exec (.b n 0 off) s =
        .next ((r.accessFault j.ctx
          ((0x000000C000000000 + ((pc : Int) + 8 * off.toInt)) % 2 ^ 64).toNat pc).settle))

/-! ### Scalar loads and stores (R188, R190) -/

/-- R188, R190, R211: LD reads the 8 bytes at Sa + IMM and ST writes them, little-endian; nothing else of
the operand store or the module changes. -/
def Obligations.ScalarMemory : Prop :=
  ∀ (s : State) (n : Fin 32) (j : Job) (d a : BitVec 5) (imm : BitVec 40),
    Issues s n j → coreWf (s.core n.val) = true → (s.core n.val).osEcc = [] →
    let at_ := ((s.core n.val).sreg a + imm.signExtend 64).toNat
    at_ % 8 = 0 → at_ + 8 ≤ 0x800000 → (s.core n.val).holdRefused at_ 8 = false →
    ((s.core n.val).readHeld at_ 8 = false →
      ∃ t, exec (.ld n d a imm) s = .next t ∧
        Issued s n 8 (fun c => c.setS d (BitVec.ofNat 64 (Mem.field (s.core n.val).os at_ 8))) t ∧
        (t.core n.val).sreg d = BitVec.ofNat 64 (Mem.field (s.core n.val).os at_ 8)) ∧
    ((s.core n.val).writeHeld at_ 8 = false → (s.flip (48 + n.val)).armed = false →
      ∃ t, exec (.st n d a imm) s = .next t ∧
        Issued s n 8 (fun c => { c with os := Mem.write c.os at_ (leBytes 8 ((s.core n.val).sreg d).toNat) }) t ∧
        ∀ i, Sparse.get (t.core n.val).os i =
          if at_ ≤ i ∧ i < at_ + 8 then
            BitVec.ofNat 8 (((s.core n.val).sreg d).toNat / 256 ^ (i - at_))
          else Sparse.get (s.core n.val).os i)

/-- R188: an LD or ST at an address that is not a multiple of 8, or outside the operand store, fails the job
with ISSUE_REFUSED and changes no register and no memory of the core. -/
def Sys2Proof.Safety.ScalarMemoryRefused : Prop :=
  ∀ (s : State) (n : Fin 32) (j : Job) (d a : BitVec 5) (imm : BitVec 40), Issues s n j →
    (((s.core n.val).sreg a + imm.signExtend 64).toNat % 8 ≠ 0 ∨
      0x800000 < ((s.core n.val).sreg a + imm.signExtend 64).toNat + 8) →
    ∀ i ∈ [Instr.ld n d a imm, Instr.st n d a imm],
      exec i s = .next (((s.retire n.val j 8).failJob j.ctx .engineFault 4 (s.core n.val).pc).settle)

/-- The rule of the queue (the model's interface, log 2): a step takes the command at the front of the queue and is
exec of it on the state with the queue's rest; on an empty queue the block idles. -/
def Obligations.QueueOfCommands : Prop := StepRunsFront ∧ StepIdles

/-- R205, R206, R211: the register forms, the immediate forms and MOVL of the scalar arithmetic write Sd with the
value of their table and leave every other register, every memory and the rest of the module as they were, but for the place in
the program and counts; an immediate shift by more than 63 fails the job. -/
def Obligations.ScalarArithmetic : Prop := ScalarRegisterForms ∧ ScalarImmediateForms ∧ MovlLoadsBothHalves

/-- R182, R205, R211: CMP and CMPI set Z, SLT and ULT and write no register; MOVA, MOVS, ADDA and ADDAI move between the
S and A files and add to an address. -/
def Obligations.ComparesAndAddresses : Prop := ComparesSetFlags ∧ AddressForms

/-! ### Failures of a job (R181, R199) -/

/-- R199: a failing job ends with its status, the cause and the place of the faulting instruction in its
record, and holds no core any more. -/
def Obligations.FailureIsRecorded : Prop :=
  ∀ (s : State) (j : Job) (st : Status) (cause pc : Nat),
    s.job? j.ctx = some j → j.state ≠ .ended → j.endJobs = [] →
    Failed (s.failJob j.ctx st cause pc).settle j.ctx st cause pc ∧
    ∀ n ∈ j.cores, n < s.cores.length → ((s.failJob j.ctx st cause pc).settle.core n).job = none

/-- R181, R199: words that are no instruction fail the job of the core that issues them with ENGINE_FAULT,
cause 3. -/
def Sys2Proof.Safety.IllegalInstructionFails : Prop :=
  ∀ (s : State) (n : Fin 32) (j : Job) (w0 w1 : W64),
    Issues s n j → j.endJobs = [] → seqLegal w0 w1 = false →
    ∃ t, exec (.illegalInstruction n w0 w1) s = .next t ∧
      Failed t j.ctx .engineFault 3 (s.core n.val).pc

/-- Instructions whose fields may be outside their range (R182), of core `n`. -/
def Sys2Proof.Safety.fieldForms (n : Fin 32) (d a b c : BitVec 5) (cond : BitVec 4) (off : BitVec 39)
    (imm : BitVec 40) (x : BitVec 32) (direct : Bool) (mod : BitVec 3) : List Instr :=
  [.b n cond off, .call n cond off, .shli n d a imm, .shri n d a imm, .sari n d a imm, .mova n d a, .movs n d a,
   .adda n d a b, .addai n d a imm, .mvLoad n d a b c x direct, .mvStore n d a b c x direct,
   .mvSpread n d a b c x direct, .mvTload n d a b c x direct, .mvTstore n d a b c x direct, .mvWait n d,
   .mvStat n d a, .cbload n a mod imm, .scset n d a, .scget n d a, .scadv n d, .eload n d a imm, .tkOn n mod imm,
   .take n a b]

/-- The words of such an instruction: two for a transfer of the mover (R180, R213). -/
def Sys2Proof.Safety.wordsOf (i : Instr) : Nat :=
  match i with
  | .mvLoad _ _ _ _ _ _ _ => 2
  | .mvStore _ _ _ _ _ _ _ => 2
  | .mvSpread _ _ _ _ _ _ _ => 2
  | .mvTload _ _ _ _ _ _ _ => 2
  | .mvTstore _ _ _ _ _ _ _ => 2
  | _ => 1

/-- R181, R182, R183: an instruction with a field outside its range fails the job of its core with
ILLEGAL_INSTRUCTION, and does nothing else. -/
def Sys2Proof.Safety.FieldsOutOfRangeFail : Prop :=
  ∀ (s : State) (n : Fin 32) (j : Job) (d a b c : BitVec 5) (cond : BitVec 4) (off : BitVec 39) (imm : BitVec 40)
    (x : BitVec 32) (direct : Bool) (mod : BitVec 3), Issues s n j →
    ∀ i ∈ fieldForms n d a b c cond off imm x direct mod, wellFormed i = false →
      (s.core n.val).pc + 8 * (wordsOf i - 1) < j.programRegion →
      exec i s = .next (s.failJob j.ctx .engineFault 3 (s.core n.val).pc).settle

/-! ### Mover instructions (R169, R187, R212 to R215) -/

/-- The mover instructions that issue a transfer, with mode and direction. -/
def Sys2Proof.Safety.moverForms (n : Fin 32) (d a b c : BitVec 5) (imm : BitVec 32) (direct : Bool) :
    List (Instr × XMode × Bool) :=
  [(.mvLoad n d a b c imm direct, .copy, false), (.mvStore n d a b c imm direct, .copy, true),
   (.mvSpread n d a b c imm direct, .spread, false), (.mvTload n d a b c imm direct, .transpose, false),
   (.mvTstore n d a b c imm direct, .transpose, true)]

/-- R169, R187, R212, R213: a mover instruction that nothing holds or refuses captures its shape descriptor
and addresses in the transfer slot it names, QUEUED with no progress; nothing else moves. -/
def Sys2Proof.Safety.MoverQueuesTransfer : Prop :=
  ∀ (s : State) (n : Fin 32) (j : Job) (d a b c : BitVec 5) (imm : BitVec 32) (direct : Bool),
    IssuesLong s n j → (s.core n.val).osEcc = [] → d.toNat ≤ 7 → a.toNat ≤ 15 →
    ∀ row ∈ moverForms n d a b c imm direct, (row.2.2 = true → direct = false) →
    let k := s.core n.val
    let at_ := (k.sreg c).toNat
    let desc := Mem.bytes k.os at_ 32
    let x := shapeXfer row.2.1 row.2.2 direct (k.areg a + imm.signExtend 64).toNat
      (if row.2.1 = .spread then (k.sreg b).toNat + 0x01000000 else (k.sreg b).toNat) desc
    k.xDone d.toNat = true → (d.toNat = 7 → k.estoreOpen = false) →
    at_ % 32 = 0 → at_ + 32 ≤ 0x800000 → k.holdRefused at_ 32 = false → k.readHeld at_ 32 = false →
    shapeGood x desc = true → localMapped x.laddr x.lSpan = true → k.holdRefused x.laddr x.lSpan = false →
    ∃ t, exec row.1 s = .next t ∧
      Issued s n 16 (fun k => { k.setXfer d.toNat { x with order := k.xorder, pc := (s.core n.val).pc } with
        xorder := k.xorder + 1 }) t ∧
      (let y := (t.core n.val).xfer d.toNat
       y.state = .queued ∧ y.progress = 0 ∧ y.mode = row.2.1 ∧ y.store = row.2.2 ∧
       y.rows = fieldAt desc 0 4 ∧ y.rowBytes = fieldAt desc 4 4 ∧ y.srcStride = fieldAt desc 8 4 ∧
       y.dstStride = fieldAt desc 12 4 ∧ y.uaddr = (k.areg a + imm.signExtend 64).toNat)

/-- R213, R214: MV.STAT gives the state code and the progress of a slot; MV.WAIT goes on at once when its
slot is DONE and else holds the sequencer. X7 can be looked at once no pass with an ESTORE is open and its ESTORE is
DONE (R215). -/
def Sys2Proof.Safety.MoverStatusAndWait : Prop :=
  ∀ (s : State) (n : Fin 32) (j : Job) (d a : BitVec 5),
    Issues s n j → coreWf (s.core n.val) = true →
    (a.toNat ≤ 7 → (s.core n.val).lookHeld a = false → ∃ t, exec (.mvStat n d a) s = .next t ∧
      ((t.core n.val).sreg d).toNat =
        ((s.core n.val).xfer a.toNat).progress % 2 ^ 32 * 2 ^ 32 +
          (match ((s.core n.val).xfer a.toNat).state with
           | .queued => 0 | .active => 1 | .parked => 2 | .cutOff => 3 | .stopped => 4 | .done => 5
           | .failed => 6) ∧
      Issued s n 8 (fun c => c.setS d ((t.core n.val).sreg d)) t) ∧
    (d.toNat ≤ 7 → (s.core n.val).lookHeld d = false → n.val ∈ j.cores → ∃ t, exec (.mvWait n d) s = .next t ∧
      Done s n 8 (fun c => { c with
        hold := if (c.xfer d.toNat).state = .done then none else some (.wait d.toNat) }) t)

/-! ### Array passes (R158, R163, R216 to R220) -/

/-- The pass instructions with their modes (R157). -/
def Sys2Proof.Safety.passForms (n : Fin 32) (d a b : BitVec 5) : List (Instr × PassMode) :=
  [(.passFp8 n d a b, .fp8), (.passBf16c n d a b, .bf16c), (.passBf16 n d a b, .bf16), (.passBin n d a b, .bin)]

/-- What lets a pass issue at once: its descriptor lies in the operand store, nothing of R219, R242, R260
or R273 refuses it, nothing of R163, R190, R220, R271 or R272 holds it, and no read meets an error. -/
def Sys2Proof.Safety.PassReady (c : Core) (at_ : Nat) (t : Tile) : Prop :=
  c.osEcc = [] ∧ c.lwbEcc = [] ∧ at_ % 64 = 0 ∧ at_ + 64 ≤ 0x800000 ∧ c.holdRefused at_ 64 = false ∧
  c.readHeld at_ 64 = false ∧ passRefused c t = false ∧ passHeld c t = false

/-- R187, R216, R220: a pass with a prologue captures its descriptor and registers and waits, alone, for its
prologue run. -/
def Sys2Proof.Safety.PassWaitsForPrologue : Prop :=
  ∀ (s : State) (n : Fin 32) (j : Job) (d a b : BitVec 5), Issues s n j →
    ∀ row ∈ passForms n d a b,
    let c := s.core n.val
    let t := passTile c row.2 c.pc d a b
    PassReady c (c.sreg b).toNat t → (dPrologue t.desc).isSome = true →
    ∃ u, exec row.1 s = .next u ∧ Issued s n 8 (fun c => { c.sweepPass t with opening := some t }) u ∧
      (u.core n.val).opening = some t

/-- R158, R163, R217: an arithmetic pass without a prologue, none of whose checks fails, leaves in each
accumulator of its range, on each enabled lane, the sum of its products, and every other accumulator as it
was; with an epilogue its tile waits for a run. -/
def Obligations.ArithmeticPassAccumulates : Prop :=
  ∀ (s : State) (n : Fin 32) (j : Job) (d a b : BitVec 5), Issues s n j → n.val ∈ j.cores →
    coreWf (s.core n.val) = true →
    ∀ row ∈ (passForms n d a b).take 3,
    let c := s.core n.val
    let t := passTile c row.2 c.pc d a b
    PassReady c (c.sreg b).toNat t → dPrologue t.desc = none →
    (∀ l ∈ enabledLanes t.desc, t.mode.coded = true →
      laneSkews c t.mode t.desc l.1 l.2 (c.laneHalf t.desc l.2) = []) →
    ∃ u, exec row.1 s = .next u ∧
      (u.core n.val).tiles = c.tiles ++ (if (dEpilogue t.desc).isSome then [t] else []) ∧
      (u.core n.val).sregs = c.sregs ∧ (u.core n.val).os = c.os ∧ (u.core n.val).lwb = c.lwb ∧
      (∀ r < 4, ∀ l < 128, ∀ k < 16, Sparse.get (u.core n.val).acc (16 * (128 * r + l) + k) =
        if bitOf (dRows t.desc) r ∧ t.sa ≤ k ∧ k < t.sa + dAccCount t.desc then
          accumulate t (laneWeights c t.mode t.desc r (c.laneHalf t.desc (128 * r + l)))
            ((List.range (dOpCount t.desc)).map (fun i =>
              activations t.mode t.desc (Mem.bytes c.os (t.operandAt (k - t.sa) i) 32)))
            (Sparse.get c.acc (16 * (128 * r + l) + k))
        else Sparse.get c.acc (16 * (128 * r + l) + k)) ∧
      ∀ m < 32, m ≠ n.val → coreBody (u.core m) = coreBody (s.core m)

/-- R160, R174, R175, R218: a binary pass offers each code's distance to the lanes that take part, and writes no
accumulator. -/
def Sys2Proof.Safety.BinaryPassOffers : Prop :=
  ∀ (s : State) (n : Fin 32) (j : Job) (d a b : BitVec 5), Issues s n j → n.val ∈ j.cores →
    let c := s.core n.val
    let t := passTile c .bin c.pc d a b
    PassReady c (c.sreg b).toNat t → dPrologue t.desc = none →
    ∃ u, exec (.passBin n d a b) s = .next u ∧
      (u.core n.val).topk = ((s.offerCodes n.val t).core n.val).topk ∧
      (u.core n.val).lwb = ((s.offerCodes n.val t).core n.val).lwb ∧
      (u.core n.val).acc = c.acc ∧ (u.core n.val).sregs = c.sregs ∧ (u.core n.val).os = c.os ∧
      (u.core n.val).tiles = c.tiles ++ (if (dEpilogue t.desc).isSome then [t] else [])

/-- R245, R421: a coded pass that finds a failed check fails the job with SCALE_SKEW, at the pass. -/
def Obligations.SkewFailsTheJob : Prop :=
  ∀ (s : State) (n : Fin 32) (j : Job) (d a b : BitVec 5), Issues s n j → j.endJobs = [] →
    ∀ row ∈ (passForms n d a b).take 2,
    let c := s.core n.val
    let t := passTile c row.2 c.pc d a b
    PassReady c (c.sreg b).toNat t → dPrologue t.desc = none →
    (∃ l ∈ enabledLanes t.desc, laneSkews c t.mode t.desc l.1 l.2 (c.laneHalf t.desc l.2) ≠ []) →
    ∃ u, exec row.1 s = .next u ∧ Failed u j.ctx .scaleSkew 9 c.pc

/-- R122, R181, R182, R183, R188, R189, R199: a CALL on a full return stack, a RET on an empty one, a branch out of the
program region, an LD or ST out of place, a field outside its range and words that are no instruction each fail the job, with the
status and cause that the manual names. -/
def Obligations.RefusedIssuesFail : Prop := ControlRefusals ∧ ScalarMemoryRefused ∧ IllegalInstructionFails ∧ FieldsOutOfRangeFail

/-- R169, R187, R212 to R214: the mover instructions queue the transfer that they describe; MV.STAT reads a transfer's
state and progress; MV.WAIT holds its sequencer until the transfer is DONE. -/
def Obligations.MoverInstructions : Prop := MoverQueuesTransfer ∧ MoverStatusAndWait

/-- R160, R175, R187, R216, R218, R220: a pass with a prologue waits for its prologue run; a binary pass offers
distances and writes no accumulator. -/
def Obligations.PassesWaitOrOffer : Prop := PassWaitsForPrologue ∧ BinaryPassOffers

/-! ### Epilogue instructions (R153, R221 to R223, R246 to R249, R267 to R269) -/

/-- Element `l` of Vv. -/
def Sys2Proof.Safety.element (c : Core) (v : BitVec 5) (l : Nat) : W32 := Sparse.get c.vregs (128 * v.toNat + l)

/-- The epilogue unit of a core works for job `j` while its sequencer waits for nothing; it is in the midst of run `d`,
`r` so far, whose next word is `w` (R209, R220). -/
def Sys2Proof.Safety.InRun (s : State) (n : Fin 32) (j : Job) (d : DueRun) (r : Run) (w : W64) : Prop :=
  s.unitJob n.val = some j ∧ n.val ∈ j.cores ∧ (s.core n.val).hold = none ∧ coreWf (s.core n.val) = true ∧
  (s.core n.val).spilling = 0 ∧ (s.core n.val).run = some r ∧ (s.core n.val).nextRun = some d ∧
  d.words[r.pos]? = some w ∧ r.pos + 1 < d.words.length

/-- A V instruction has written Vd alone: element by element where the guard leaves it active, as it was
elsewhere; its run is one word further; no other register, no memory and no accumulator has changed. -/
def Sys2Proof.Safety.WritesVector (s t : State) (n : Fin 32) (r : Run) (g : Guard) (d : BitVec 5) (f : Nat → W32) :
    Prop :=
  calm t = calm (s.modCore n.val (fun c => { c with
    vregs := (t.core n.val).vregs, run := some { r with pos := r.pos + 1 } })) ∧
  (t.core n.val).pc = (s.core n.val).pc ∧
  ∀ (v : BitVec 5), ∀ l < 128, element (t.core n.val) v l =
    if v = d ∧ (s.core n.val).active g l = true then f l else element (s.core n.val) v l

/-- The arithmetic forms of R222: each with its word and with what it writes (FP32, each result rounded once). -/
def Sys2Proof.Safety.arithmeticForms (n : Fin 32) (g : Guard) (d a b : BitVec 5) (c : Core) :
    List (Instr × W64 × (Nat → W32)) :=
  let x := fun l => element c a l
  let y := fun l => element c b l
  [(.vadd n g d a b, epiReg 4 g d a b 0, fun l => toF32 ((ofF32 (x l)).add (ofF32 (y l)))),
   (.vsub n g d a b, epiReg 5 g d a b 0, fun l => toF32 ((ofF32 (x l)).add (ofF32 (y l)).neg)),
   (.vmul n g d a b, epiReg 6 g d a b 0, fun l => toF32 ((ofF32 (x l)).mul (ofF32 (y l)))),
   (.vfma n g d a b, epiReg 7 g d a b 0,
     fun l => toF32 ((ofF32 (element c d l)).add ((ofF32 (x l)).mul (ofF32 (y l))))),
   (.vmax n g d a b, epiReg 8 g d a b 0, fun l => max32 (x l) (y l)),
   (.vmin n g d a b, epiReg 9 g d a b 0, fun l => min32 (x l) (y l)),
   (.vexp n g d a, epiReg 10 g d a 0 0, fun l => exp32 (x l))]

/-- R158, R222: the arithmetic of V registers, element by element under the guard. -/
def Sys2Proof.Safety.VectorArithmetic : Prop :=
  ∀ (s : State) (n : Fin 32) (j : Job) (u : DueRun) (r : Run) (g : Guard) (d a b : BitVec 5),
    ∀ row ∈ arithmeticForms n g d a b (s.core n.val), InRun s n j u r row.2.1 →
      ∃ t, exec row.1 s = .next t ∧ WritesVector s t n r g d row.2.2

/-- R222: VMOV with its magnitude and negation bits, VCVT to a format and back, VIDX with a lane row's index,
VUNPK of a part. -/
def Sys2Proof.Safety.VectorMoves : Prop :=
  ∀ (s : State) (n : Fin 32) (j : Job) (u : DueRun) (r : Run) (g : Guard) (d a : BitVec 5) (mod : BitVec 6),
    let c := s.core n.val
    (mod.toNat ≤ 3 → InRun s n j u r (epiReg 3 g d a 0 mod) →
      ∃ t, exec (.vmov n g d a mod) s = .next t ∧ WritesVector s t n r g d (fun l =>
        let x := if bitOf mod.toNat 1 then element c a l &&& 0x7FFFFFFF#32 else element c a l
        if bitOf mod.toNat 0 then x ^^^ 0x80000000#32 else x)) ∧
    (mod.toNat ≤ 2 → InRun s n j u r (epiReg 15 g d a 0 mod) →
      ∃ t, exec (.vcvt n g d a mod) s = .next t ∧ WritesVector s t n r g d (fun l =>
        if isNan32 (element c a l) then 0x7FC00000#32
        else toF32 (ofFormat mod.toNat (toFormat mod.toNat (ofF32 (element c a l)))))) ∧
    (mod.toNat ≤ 3 → InRun s n j u r (epiReg 20 g d 0 0 mod) →
      ∃ t, exec (.vidx n g d mod) s = .next t ∧ WritesVector s t n r g d (fun l =>
        BitVec.ofNat 32 (l + 128 * mod.toNat))) ∧
    (partGood mod.toNat = true → InRun s n j u r (epiReg 17 g d a 0 mod) →
      ∃ t, exec (.vunpk n g d a mod) s = .next t ∧ WritesVector s t n r g d (fun l =>
        let fmt := mod.toNat % 4
        let w := if fmt = 0 then 2 else 1
        toF32 (ofFormat fmt (fieldAt (vBytes (c.vreg a))
          ((if fmt = 0 then 256 else 128) * (mod.toNat / 4) + w * l) w))))

/-- R222: VPACK puts each active element, converted, at its place of the named part of Vd; nothing but Vd
changes. -/
def Sys2Proof.Safety.VectorPacks : Prop :=
  ∀ (s : State) (n : Fin 32) (j : Job) (u : DueRun) (r : Run) (g : Guard) (d a : BitVec 5) (mod : BitVec 6),
    InRun s n j u r (epiReg 16 g d a 0 mod) → partGood mod.toNat = true →
    ∃ t, exec (.vpack n g d a mod) s = .next t ∧
      calm t = calm (s.modCore n.val (fun c => { c with
        vregs := (t.core n.val).vregs, run := some { r with pos := r.pos + 1 } })) ∧
      (∀ v, v ≠ d → ∀ l < 128, element (t.core n.val) v l = element (s.core n.val) v l) ∧
      ∀ l < 128, (s.core n.val).active g l = true →
        let fmt := mod.toNat % 4
        let w := if fmt = 0 then 2 else 1
        fieldAt (vBytes ((t.core n.val).vreg d)) ((if fmt = 0 then 256 else 128) * (mod.toNat / 4) + w * l) w =
          toFormat fmt (ofF32 (element (s.core n.val) a l)) % 256 ^ w

/-- R222: VRCP and VRSQRT write the correctly rounded result wherever the spec states one; elsewhere (a zero,
a negative root) the element is open (log 14). -/
def Sys2Proof.Safety.VectorReciprocals : Prop :=
  ∀ (s : State) (n : Fin 32) (j : Job) (u : DueRun) (r : Run) (g : Guard) (d a : BitVec 5),
    ∀ row ∈ [(Instr.vrcp n g d a, epiReg 11 g d a 0 0, rcp32), (Instr.vrsqrt n g d a, epiReg 12 g d a 0 0, rsqrt32)],
      InRun s n j u r row.2.1 →
      ∃ t, exec row.1 s = .next t ∧
        calm t = calm (s.modCore n.val (fun c => { c with
          vregs := (t.core n.val).vregs, run := some { r with pos := r.pos + 1 } })) ∧
        ∀ (v : BitVec 5), ∀ l < 128,
          (v ≠ d ∨ (s.core n.val).active g l = false → element (t.core n.val) v l = element (s.core n.val) v l) ∧
          (v = d → (s.core n.val).active g l = true → ∀ x, row.2.2 (element (s.core n.val) a l) = some x →
            element (t.core n.val) v l = x)

/-- R222: VREDMAX and VREDSUM write the maximum and the once-rounded exact sum of the active elements of Va
into the active elements of Vd (that the guard also applies to Vd is the model's reading, log 16). With no active
element VREDMAX writes nothing. -/
def Sys2Proof.Safety.VectorReductions : Prop :=
  ∀ (s : State) (n : Fin 32) (j : Job) (u : DueRun) (r : Run) (g : Guard) (d a : BitVec 5),
    let xs := (s.core n.val).activeOf g a
    (InRun s n j u r (epiReg 14 g d a 0 0) → ∃ t, exec (.vredsum n g d a) s = .next t ∧
      WritesVector s t n r g d (fun _ => toF32 (Fv.sum (xs.map ofF32)))) ∧
    (InRun s n j u r (epiReg 13 g d a 0 0) → ∃ t, exec (.vredmax n g d a) s = .next t ∧
      WritesVector s t n r g d (fun _ => match xs with
        | [] => 0
        | x :: rest => rest.foldl max32 (max32 x x)))

/-- R222: VCMPLT and VCMPEQ write one bit of Pd per active element, comparing as integers or as numbers; the
other bits and every V register stay. -/
def Sys2Proof.Safety.VectorCompares : Prop :=
  ∀ (s : State) (n : Fin 32) (j : Job) (u : DueRun) (r : Run) (g : Guard) (d a b : BitVec 5) (mod : BitVec 6),
    d.toNat ≤ 7 → mod.toNat ≤ 1 →
    let c := s.core n.val
    ∀ row ∈ [(Instr.vcmplt n g d a b mod, epiReg 18 g d a b mod, fun x y : W32 =>
        if mod = 1 then decide (x.toInt < y.toInt) else (ofF32 x).lt (ofF32 y)),
      (Instr.vcmpeq n g d a b mod, epiReg 19 g d a b mod, fun x y : W32 =>
        if mod = 1 then decide (x = y) else (ofF32 x).same (ofF32 y))],
      InRun s n j u r row.2.1 →
      ∃ t, exec row.1 s = .next t ∧
        calm t = calm (s.modCore n.val (fun c => { c with
          pregs := (t.core n.val).pregs, run := some { r with pos := r.pos + 1 } })) ∧
        (∀ p < 8, p ≠ d.toNat → (t.core n.val).preg p = c.preg p) ∧
        ∀ l < 128, ((t.core n.val).preg d.toNat).getLsbD l =
          if c.active g l then row.2.2 (element c a l) (element c b l) else (c.preg d.toNat).getLsbD l

/-- R163, R222: VRACC reads accumulator Sa plus its number, of the lane row it names, of the tile whose run it
belongs to; a number past 15 names none, and what it writes then is open (log 14). -/
def Sys2Proof.Safety.AccumulatorReads : Prop :=
  ∀ (s : State) (n : Fin 32) (j : Job) (u : DueRun) (r : Run) (g : Guard) (d : BitVec 5) (mod : BitVec 6),
    InRun s n j u r (epiReg 0 g d 0 0 mod) →
    let acc := u.place.tile.sa + mod.toNat % 16
    ∃ t f, exec (.vracc n g d mod) s = .next t ∧ WritesVector s t n r g d f ∧ (acc ≤ 15 →
      f = fun l => Sparse.get (s.core n.val).acc (16 * (128 * (mod.toNat / 16) + l) + acc))

/-- R221, R222, R223: VLD reads and VST writes 64 bytes times the count in IMM, from a base of the tile plus an
offset; VLD leaves the rest of Vd, and VST every other byte, as it was. -/
def Sys2Proof.Safety.VectorMemory : Prop :=
  ∀ (s : State) (n : Fin 32) (j : Job) (u : DueRun) (r : Run) (d : BitVec 5) (imm : BitVec 40),
    let c := s.core n.val
    let p := u.place.tile.vAddr imm
    baseGood imm.toNat = true → c.epiBad p.1 p.2 = false → c.xfers = [] → c.osEcc = [] →
    (InRun s n j u r (epiImm 1 d imm) → ∃ t, exec (.vld n d imm) s = .next t ∧
      calm t = calm (s.modCore n.val (fun c => { c with
        vregs := (t.core n.val).vregs, run := some { r with pos := r.pos + 1 } })) ∧
      ∀ (v : BitVec 5), ∀ l < 128, element (t.core n.val) v l =
        if v = d ∧ 4 * l < p.2 then BitVec.ofNat 32 (Mem.field c.os (p.1 + 4 * l) 4) else element c v l) ∧
    (InRun s n j u r (epiImm 2 d imm) → (s.flip (osFlip n.val)).armed = false →
      ∃ t, exec (.vst n d imm) s = .next t ∧
      calm t = calm (s.modCore n.val (fun c => { c with
        os := (t.core n.val).os, run := some { r with pos := r.pos + 1 } })) ∧
      ∀ i, Sparse.get (t.core n.val).os i =
        if p.1 ≤ i ∧ i < p.1 + p.2 then
          BitVec.ofNat 8 ((element c d ((i - p.1) / 4)).toNat / 256 ^ ((i - p.1) % 4))
        else Sparse.get c.os i)

/-- R173, R174, R222: VTK offers each active element of Va, as a BF16 score with the element of Vb as its tag, to the
list of its lane; a NaN is no candidate; only those lists, which lie in the lane weight buffers, change. -/
def Obligations.VectorTopK : Prop :=
  ∀ (s : State) (n : Fin 32) (j : Job) (u : DueRun) (r : Run) (g : Guard) (a b : BitVec 5) (mod : BitVec 6),
    let c := s.core n.val
    InRun s n j u r (epiReg 21 g 0 a b mod) → mod.toNat ≤ 3 → c.topk.on = true → c.topk.score = true →
    listsWf c.topk = true → Sparse.wf c.topk.counts = true → c.lwbEcc = [] →
    ∃ t, exec (.vtk n g a b mod) s = .next t ∧
      calm t = calm (s.modCore n.val (fun c => { c with
        lwb := (t.core n.val).lwb, topk := { c.topk with counts := (t.core n.val).topk.counts }
        run := some { r with pos := r.pos + 1 } })) ∧
      (∀ i, i / 8192 / 128 ≠ mod.toNat ∨ i % 8192 < 6144 →
        Sparse.get (t.core n.val).lwb i = Sparse.get c.lwb i) ∧
      (∀ lane, lane / 128 ≠ mod.toNat → (t.core n.val).topk.count lane = c.topk.count lane) ∧
      ∀ l < 128, (t.core n.val).tkList (128 * mod.toNat + l) =
        if c.active g l then
          match scoreKey (toBf16 (ofF32 (element c a l))) with
          | some k => (tkOffer true c.topk.kLane (tkEntry k (element c b l).toNat)
              (c.tkList (128 * mod.toNat + l))).1
          | none => c.tkList (128 * mod.toNat + l)
        else c.tkList (128 * mod.toNat + l)

/-- R267, R268, R269: RSTAT adds the active elements of Va to the statistic that its order in the run names;
RSGET writes the completed value of the next statistic of the phase before into every element of Vd. -/
def Obligations.RowStatistics : Prop :=
  ∀ (s : State) (n : Fin 32) (j : Job) (u : DueRun) (r : Run) (g : Guard) (d a : BitVec 5) (mod : BitVec 6),
    let c := s.core n.val
    let p := u.place
    let rows := dAccCount p.tile.desc
    dRowstat p.tile.desc = true →
    (InRun s n j u r (epiReg 22 g 0 a 0 mod) → mod.toNat ≤ 2 → ∃ t r', exec (.rstat n g a mod) s = .next t ∧
      calm t = calm (s.modCore n.val (fun c => { c with run := some r' })) ∧
      r'.pos = r.pos + 1 ∧ r'.rsget = r.rsget ∧ r'.rstat = r.rstat.set mod.toNat (r.rstat.getD mod.toNat 0 + 1) ∧
      statOf r'.stats p.phase mod.toNat (r.rstat.getD mod.toNat 0 % rows) =
        (c.activeOf g a).foldl Stat.addElement
          (statOf r.stats p.phase mod.toNat (r.rstat.getD mod.toNat 0 % rows))) ∧
    (InRun s n j u r (epiReg 23 g d 0 0 0) → ∃ t, exec (.rsget n g d) s = .next t ∧
      calm t = calm (s.modCore n.val (fun c => { c with
        vregs := (t.core n.val).vregs, run := some { r with pos := r.pos + 1, rsget := r.rsget + 1 } })) ∧
      (∀ l < 128, element (t.core n.val) d l =
        (let i := r.rsget % (p.kinds.length * rows)
         statOf p.stats (p.phase - 1) (p.kinds.getD (i / rows) 0) (i % rows)).value) ∧
      ∀ v, v ≠ d → ∀ l < 128, element (t.core n.val) v l = element c v l)

/-- R246 to R249, R252: VENC writes Vd and the scale state of the slot that its run's program lies in, and nothing
else. -/
def Sys2Proof.Safety.VencWrites : Prop :=
  ∀ (s : State) (n : Fin 32) (j : Job) (u : DueRun) (r : Run) (g : Guard) (d a : BitVec 5) (mod : BitVec 6),
    InRun s n j u r (epiReg 24 g d a 0 mod) → mod.toNat ≤ 15 →
    let e := 64 * u.place.slot
    ∃ t, exec (.venc n g d a mod) s = .next t ∧
      calm t = calm (s.modCore n.val (fun c => { c with
        vregs := (t.core n.val).vregs, scale := (t.core n.val).scale, run := some { r with pos := r.pos + 1 } })) ∧
      (∀ v, v ≠ d → ∀ l < 128, element (t.core n.val) v l = element (s.core n.val) v l) ∧
      (t.core n.val).scale = ((s.core n.val).venc u.place.slot g d a mod.toNat).scale ∧
      ∀ i, i < e ∨ e + 64 ≤ i → Sparse.get (t.core n.val).scale i = Sparse.get (s.core n.val).scale i

/-- R215, R222, R223: ESTORE queues a STORE of its beats through X7, from the tile's output to its place in the
unified range. -/
def Sys2Proof.Safety.EstoreQueues : Prop :=
  ∀ (s : State) (n : Fin 32) (j : Job) (u : DueRun) (r : Run) (imm : BitVec 40),
    let c := s.core n.val
    let x := u.place.tile
    let at_ := (dUBase x.desc + x.row * dUStride x.desc) % 2 ^ 64
    InRun s n j u r (epiImm 25 0 imm) →
    1 ≤ imm.toNat → imm.toNat ≤ 16384 → c.epiBad x.out (64 * imm.toNat) = false → at_ % 64 = 0 →
    c.xDone 7 = true →
    ∃ t, exec (.estore n imm) s = .next t ∧
      calm t = calm (s.modCore n.val (fun c => { c with
        xfers := (t.core n.val).xfers, xorder := c.xorder + 1, run := some { r with pos := r.pos + 1 } })) ∧
      (t.core n.val).xfer 7 = { state := .queued, store := true, uaddr := at_, laddr := x.out, rows := 1
                                rowBytes := 64 * imm.toNat, estore := true, tile := x.order, order := c.xorder
                                pc := x.pc } ∧
      ∀ i < 7, (t.core n.val).xfer i = c.xfer i

/-! ### Runs (R209, R220, R258, R260, R266, R270) -/

/-- The instructions of an epilogue program, each with its word (R180, R222). -/
def Sys2Proof.Safety.unitRows (n : Fin 32) (g : Guard) (d a b : BitVec 5) (mod : BitVec 6) (imm : BitVec 40) :
    List (Instr × W64) :=
  [(.vracc n g d mod, epiReg 0 g d 0 0 mod), (.vld n d imm, epiImm 1 d imm), (.vst n d imm, epiImm 2 d imm),
   (.vmov n g d a mod, epiReg 3 g d a 0 mod), (.vadd n g d a b, epiReg 4 g d a b 0),
   (.vsub n g d a b, epiReg 5 g d a b 0), (.vmul n g d a b, epiReg 6 g d a b 0),
   (.vfma n g d a b, epiReg 7 g d a b 0), (.vmax n g d a b, epiReg 8 g d a b 0),
   (.vmin n g d a b, epiReg 9 g d a b 0), (.vexp n g d a, epiReg 10 g d a 0 0), (.vrcp n g d a, epiReg 11 g d a 0 0),
   (.vrsqrt n g d a, epiReg 12 g d a 0 0), (.vredmax n g d a, epiReg 13 g d a 0 0),
   (.vredsum n g d a, epiReg 14 g d a 0 0), (.vcvt n g d a mod, epiReg 15 g d a 0 mod),
   (.vpack n g d a mod, epiReg 16 g d a 0 mod), (.vunpk n g d a mod, epiReg 17 g d a 0 mod),
   (.vcmplt n g d a b mod, epiReg 18 g d a b mod), (.vcmpeq n g d a b mod, epiReg 19 g d a b mod),
   (.vidx n g d mod, epiReg 20 g d 0 0 mod), (.vtk n g a b mod, epiReg 21 g 0 a b mod),
   (.rstat n g a mod, epiReg 22 g 0 a 0 mod), (.rsget n g d, epiReg 23 g d 0 0 0),
   (.venc n g d a mod, epiReg 24 g d a 0 mod), (.estore n imm, epiImm 25 0 imm)]

/-- The row that carries a run of a kind to its end. -/
def Sys2Proof.Safety.wholeRun (n : Fin 32) (u : DueRun) : Instr :=
  if u.kind = 0 then .prologueRun n else if u.kind = 1 then .epilogueRun n else .finishRun n

/-- R209: the row of an epilogue instruction executes it from the program store of the run that is due: at the last
word it does all that the run's own row does, its end included; where it is not the next word, nothing happens. -/
def Sys2Proof.Safety.UnitRowsFollowTheRun : Prop :=
  ∀ (s : State) (n : Fin 32) (u : DueRun) (g : Guard) (d a b : BitVec 5) (mod : BitVec 6) (imm : BitVec 40),
    ∀ row ∈ unitRows n g d a b mod imm,
      ((s.core n.val).nextRun = some u → u.words[(s.core n.val).runPos]? = some row.2 →
        (s.core n.val).runPos + 1 = u.words.length → exec row.1 s = exec (wholeRun n u) s) ∧
      ((∀ u, (s.core n.val).nextRun = some u → u.words[(s.core n.val).runPos]? ≠ some row.2) →
        exec row.1 s = .next s)

/-- R220, R258, R260, R266, R270: a run that meets no wait executes its whole program. After a prologue run
the operands of the opening pass enter the array; a phase-0 run ends the tile that waits longest; a finish
run starts from V0 to V31 as its tile's hold slot keeps them, and ends one phase of its tile. What waits for
the unit then goes on. -/
def Sys2Proof.Safety.RunsToTheEnd : Prop :=
  ∀ (s s' : State) (n : Fin 32) (j : Job) (t : Tile) (r : Run),
    let c := s.core n.val
    let begun := fun (kind slot : Nat) =>
      { kind := kind, vregs := c.vregs, pregs := c.pregs, scale := Mem.bytes c.scale (64 * slot) 64 : Run }
    s.unitJob n.val = some j → c.hold = none → c.run = none → c.spilling = 0 →
    (c.opening = some t → c.tiles = [] → c.sweeps = [] →
      s.runWords n.val j
        { tile := t, slot := (dPrologue t.desc).getD 0, phase := 0, kinds := [], stats := [] }
        (begun 0 ((dPrologue t.desc).getD 0)) (c.prologue t) = .ran s' r →
      (c.prologue t).length ≤ r.pos →
      exec (.prologueRun n) s =
        .next (((s'.modCore n.val (fun c => { c with run := none, opening := none })).feed n.val j t).settleCore
          n.val)) ∧
    (∀ rest, c.tiles = t :: rest → dRowstat t.desc = false →
      s.runWords n.val j
        { tile := t, slot := (dEpilogue t.desc).getD 0, phase := 0, kinds := [], stats := [] }
        (begun 1 ((dEpilogue t.desc).getD 0)) ((c.tilePhases t).headD []) = .ran s' r →
      ((c.tilePhases t).headD []).length ≤ r.pos →
      exec (.epilogueRun n) s =
        .next ((s'.modCore n.val (fun c => { c with run := none, tiles := c.tiles.drop 1 })).settleCore n.val)) ∧
    (∀ k i ph w x, c.finishPlace = some (k, i, ph) → c.opening = none → c.tiles = [] → c.osEcc = [] →
      c.sweeps[k]? = some w → w.tiles[i]? = some x → i < 64 →
      let slot := 0x600000 + (if w.half then 0x100000 else 0) + 0x4000 * i
      (s.modCore n.val (fun c => { c with
          vregs := Sparse.ofList 0 (vWords (Mem.bytes c.os slot 0x4000)) })).runWords n.val j
        { tile := x.tile, slot := (dEpilogue x.tile.desc).getD 0, phase := ph
          kinds := phaseKinds ((c.tilePhases x.tile).getD (ph - 1) []), stats := w.stats }
        (begun 2 ((dEpilogue x.tile.desc).getD 0)) ((c.tilePhases x.tile).getD ph []) = .ran s' r →
      ((c.tilePhases x.tile).getD ph []).length ≤ r.pos →
      exec (.finishRun n) s =
        .next (((s'.modCore n.val (fun c => { c with run := none })).endRun n.val k i r).settleCore n.val))

/-- R158, R222: the arithmetic of V registers and the compares into P registers, element by element under the guard. -/
def Obligations.VectorElements : Prop := VectorArithmetic ∧ VectorCompares

/-- R222: VMOV, VCVT, VIDX, VUNPK and VPACK. -/
def Obligations.VectorConversions : Prop := VectorMoves ∧ VectorPacks

/-- R222: VRCP and VRSQRT, where the spec states a result (elsewhere open, log 14); VREDMAX and VREDSUM (that the
guard also applies to their destination is the model's reading, log 16). -/
def Obligations.VectorReciprocalsAndReductions : Prop := VectorReciprocals ∧ VectorReductions

/-- R163, R221 to R223: VRACC reads accumulators of its tile; VLD and VST move between V registers and the operand store. -/
def Obligations.VectorAccess : Prop := AccumulatorReads ∧ VectorMemory

/-- R215, R222, R223, R246 to R249, R252: VENC writes its register and its slot's scale state; ESTORE queues its transfer. -/
def Obligations.VencAndEstore : Prop := VencWrites ∧ EstoreQueues

/-- R209, R220, R258, R260, R266, R270: a run that meets no wait executes its whole program; a single epilogue
instruction is executed from its run's program store alone. -/
def Obligations.RunsExecutePrograms : Prop := RunsToTheEnd ∧ UnitRowsFollowTheRun

/-! ### Tables, scale states and programs (R224 to R226, R235, R250 to R253) -/

/-- R225, R235: CBLOAD writes one table of every lane row in its mask from the record, entries past the
record's own as zero, and leaves every other table as it was. -/
def Sys2Proof.Safety.CodebookLoads : Prop :=
  ∀ (s : State) (n : Fin 32) (j : Job) (a : BitVec 5) (mod : BitVec 3) (imm : BitVec 40),
    Issues s n j → coreWf (s.core n.val) = true → (s.core n.val).osEcc = [] → mod.toNat ≤ 3 → imm.toNat ≤ 15 →
    let c := s.core n.val
    let at_ := (c.sreg a).toNat
    let table := mod.toNat % 2
    let wide := decide (2 ≤ mod.toNat)
    let rec_ := Mem.bytes c.os at_ (if wide then 544 else 64)
    at_ % 64 = 0 → at_ + (if wide then 544 else 64) ≤ 0x800000 →
    c.readHeld at_ (if wide then 544 else 64) = false →
    (∀ r < 4, bitOf imm.toNat r = true → c.tableOpen r table = false) → recordGood wide rec_ = true →
    ∃ u, exec (.cbload n a mod imm) s = .next u ∧
      Issued s n 8 (fun c => { c with cb := (u.core n.val).cb, cbCtl := (u.core n.val).cbCtl }) u ∧
      ∀ r < 4, ∀ t < 2,
        ((u.core n.val).cbControl r t = if bitOf imm.toNat r ∧ t = table then fieldAt rec_ 0 6 else c.cbControl r t) ∧
        ∀ i < 256, (u.core n.val).cbEntry r t i =
          if bitOf imm.toNat r ∧ t = table then
            (if wide = true ∨ i < 16 then fieldAt rec_ (32 + 2 * i) 2 else 0)
          else c.cbEntry r t i

/-- R226, R250, R265: SCSET loads the scale state of a slot from the operand store, SCGET stores it there, and
each ends an open sweep. -/
def Sys2Proof.Safety.ScaleStateMoves : Prop :=
  ∀ (s : State) (n : Fin 32) (j : Job) (d a : BitVec 5), Issues s n j → coreWf (s.core n.val) = true →
    (s.core n.val).osEcc = [] → d.toNat ≤ 3 →
    let c := s.core n.val
    let at_ := (c.sreg a).toNat
    at_ % 64 = 0 → at_ + 64 ≤ 0x800000 → c.slotOpen d.toNat = false →
    (c.readHeld at_ 64 = false → scaleGood (Mem.bytes c.os at_ 64) = true →
      ∃ t, exec (.scset n d a) s = .next t ∧
        Issued s n 8 (fun c => { c.endSweep with scale := (t.core n.val).scale }) t ∧
        ∀ i, Sparse.get (t.core n.val).scale i =
          if 64 * d.toNat ≤ i ∧ i < 64 * d.toNat + 64 then Sparse.get c.os (at_ + (i - 64 * d.toNat))
          else Sparse.get c.scale i) ∧
    (c.writeHeld at_ 64 = false → (s.flip (osFlip n.val)).armed = false →
      ∃ t, exec (.scget n d a) s = .next t ∧
        Issued s n 8 (fun c => { c.endSweep with os := (t.core n.val).os }) t ∧
        ∀ i, Sparse.get (t.core n.val).os i =
          if at_ ≤ i ∧ i < at_ + 64 then Sparse.get c.scale (64 * d.toNat + (i - at_)) else Sparse.get c.os i)

/-- R253: SCADV clears the counters of a slot's scale state and leaves every other slot as it was; a FIXED
state keeps its scale. -/
def Sys2Proof.Safety.ScaleStateAdvances : Prop :=
  ∀ (s : State) (n : Fin 32) (j : Job) (d : BitVec 5), Issues s n j → coreWf (s.core n.val) = true →
    d.toNat ≤ 3 → (s.core n.val).slotOpen d.toNat = false →
    ∃ t, exec (.scadv n d) s = .next t ∧
      Issued s n 8 (fun c => { c.endSweep with scale := (t.core n.val).scale }) t ∧
      (t.core n.val).scField d.toNat 0x18 4 = 0 ∧ (t.core n.val).scField d.toNat 0x1C 4 = 0 ∧
      (t.core n.val).scField d.toNat 0x10 2 = 0 ∧ bitOf ((t.core n.val).scField d.toNat 1 1) 2 = false ∧
      ((s.core n.val).scField d.toNat 0 1 = 0 →
        (t.core n.val).scField d.toNat 4 2 = (s.core n.val).scField d.toNat 4 2) ∧
      ∀ i, i < 64 * d.toNat ∨ 64 * d.toNat + 64 ≤ i →
        Sparse.get (t.core n.val).scale i = Sparse.get (s.core n.val).scale i

/-- R224, R265: ELOAD loads a program slot with IMM words of the operand store, every one a valid epilogue
instruction; the other slots stay. -/
def Sys2Proof.Safety.ProgramLoads : Prop :=
  ∀ (s : State) (n : Fin 32) (j : Job) (d a : BitVec 5) (imm : BitVec 40), Issues s n j →
    (s.core n.val).osEcc = [] → d.toNat ≤ 3 →
    let c := s.core n.val
    let at_ := (c.sreg a).toNat
    let words := (List.range imm.toNat).map (fun i => BitVec.ofNat 64 (Mem.field c.os (at_ + 8 * i) 8))
    at_ % 8 = 0 → 1 ≤ imm.toNat → imm.toNat ≤ 256 → at_ + 8 * imm.toNat ≤ 0x800000 →
    c.slotOpen d.toNat = false → c.readHeld at_ (8 * imm.toNat) = false → words.all epiLegal = true →
    ∃ t, exec (.eload n d a imm) s = .next t ∧
      Issued s n 8 (fun c => { c.endSweep with progs := assocSet c.progs d.toNat words }) t ∧
      (t.core n.val).prog d.toNat = words ∧ ∀ e, e ≠ d.toNat → (t.core n.val).prog e = c.prog e

/-! ### The top-k unit (R173 to R176, R227) -/

/-- R173, R227, R176: TK.ON starts the unit with empty lists, TK.OFF ends it, TK.STRIPE loads the 512 stripes, TK.CLR
empties a range of lanes; none of them touches anything else. -/
def Sys2Proof.Safety.TopKControl : Prop :=
  ∀ (s : State) (n : Fin 32) (j : Job) (a b : BitVec 5) (mod : BitVec 3) (imm : BitVec 40), Issues s n j →
    coreMemoryWf (s.core n.val) = true → (s.core n.val).osEcc = [] → (s.core n.val).feeds = false →
    let c := s.core n.val
    (mod.toNat ≤ 1 → 1 ≤ imm.toNat → imm.toNat ≤ 256 → ∃ t, exec (.tkOn n mod imm) s = .next t ∧
      Issued s n 8 (fun c => { c with
        topk := { on := true, score := mod == 1, kLane := imm.toNat, counts := [], stripes := [] } }) t) ∧
    (c.topk.on = true → ∃ t, exec (.tkOff n) s = .next t ∧ Issued s n 8 (fun c => { c with topk := {} }) t) ∧
    (let at_ := (c.sreg a).toNat
     c.topk.on = true → at_ % 64 = 0 → at_ + 512 ≤ 0x800000 → c.readHeld at_ 512 = false →
     (Mem.bytes c.os at_ 512).all stripeGood = true →
     ∃ t, exec (.tkStripe n a) s = .next t ∧
       Issued s n 8 (fun c => { c with topk := { c.topk with stripes := (t.core n.val).topk.stripes } }) t ∧
       ∀ l < 512, Sparse.get (t.core n.val).topk.stripes l = Sparse.get c.os (at_ + l)) ∧
    (let first := (c.sreg a).toNat
     let k := (c.sreg b).toNat
     c.topk.on = true → 1 ≤ k → first + k ≤ 512 →
     ∃ t, exec (.tkClr n a b) s = .next t ∧
       Issued s n 8 (fun c => { c with topk := { c.topk with counts := (t.core n.val).topk.counts } }) t ∧
       ∀ l, (t.core n.val).tkList l = if first ≤ l ∧ l < first + k then [] else c.tkList l)

/-- R176: TK.MERGE stores the best entries of a range of lanes, at most IMM of them, and puts their number into
an S register; the lists stay. -/
def Sys2Proof.Safety.TopKMerges : Prop :=
  ∀ (s : State) (n : Fin 32) (j : Job) (d a b sc : BitVec 5) (imm : BitVec 32), IssuesLong s n j →
    coreWf (s.core n.val) = true → (s.core n.val).osEcc = [] → (s.core n.val).lwbEcc = [] →
    (s.flip (osFlip n.val)).armed = false →
    (s.core n.val).feeds = false →
    let c := s.core n.val
    let to_ := (c.sreg d).toNat
    let first := (c.sreg a).toNat
    let k := (c.sreg b).toNat
    let best := (c.merged first k).take imm.toNat
    c.topk.on = true → 1 ≤ k → first + k ≤ 512 → 1 ≤ imm.toNat → imm.toNat ≤ 4096 → to_ % 64 = 0 →
    to_ + 8 * imm.toNat ≤ 0x800000 → c.writeHeld to_ (8 * imm.toNat) = false →
    ∃ t, exec (.tkMerge n d a b sc imm) s = .next t ∧
      Issued s n 16 (fun c => { c.setS sc (BitVec.ofNat 64 best.length) with os := (t.core n.val).os }) t ∧
      (t.core n.val).sreg sc = BitVec.ofNat 64 best.length ∧
      (∀ i (h : i < best.length), BitVec.ofNat 64 (Mem.field (t.core n.val).os (to_ + 8 * i) 8) = best[i]) ∧
      ∀ i, i < to_ ∨ to_ + 8 * best.length ≤ i → Sparse.get (t.core n.val).os i = Sparse.get c.os i

/-! ### Search instructions (R228, R229, R292 to R296, R301 to R303) -/

/-- R228, R292 to R296: a walk that nothing holds or refuses, and that meets no lost page, runs from its entry
list for at most its rounds, and leaves its words, its visit bitmap and the lists; no register changes. -/
def Sys2Proof.Safety.WalkCompletes : Prop :=
  ∀ (s : State) (n : Fin 32) (j : Job) (a : BitVec 5) (x : Copy), Issues s n j →
    (s.core n.val).osEcc = [] → (s.core n.val).lwbEcc = [] → listsWf (s.core n.val).topk = true →
    let c := s.core n.val
    let at_ := (c.sreg a).toNat
    let d := Mem.bytes c.os at_ 64
    let k : WalkCtx := { core := n.val, ctx := j.ctx, copy := x, lanes := c.walkLanes x d }
    let entry := if fieldAt d 0x1C 4 = 0xFFFFFFFF then x.field 0x0C 4 else fieldAt d 0x1C 4
    let w := walkFrom (s.retire n.val j 8) k entry (fieldAt d 0x0D 1)
    at_ % 64 = 0 → at_ + 64 ≤ 0x800000 → c.opening = none → c.feeds = false → c.xfers = [] →
    c.tiles = [] → c.sweeps = [] → s.indexAt j (fieldAt d 0 8) = some x → walkGood c x d = true →
    w.lost k = none →
    exec (.srWalk n a) s = .next (w.finish k d) ∧
    ((w.finish k d).core n.val).sregs = c.sregs ∧
    (∀ i, i % 8192 < 6144 → Sparse.get ((w.finish k d).core n.val).lwb i = Sparse.get c.lwb i) ∧
    ((w.finish k d).core n.val).vregs = c.vregs ∧ (w.finish k d).copies = s.copies ∧
    w.rounds ≤ fieldAt d 0x0D 1

/-- R229, R301 to R303: a filter step that nothing holds or refuses examines its entries in order until its
list is full, and stores the result list; no register changes. -/
def Sys2Proof.Safety.FilterCompletes : Prop :=
  ∀ (s : State) (n : Fin 32) (j : Job) (a : BitVec 5) (x : Copy), Issues s n j →
    (s.core n.val).osEcc = [] →
    let c := s.core n.val
    let at_ := (c.sreg a).toNat
    let d := Mem.bytes c.os at_ 32
    let filter := if fieldAt d 0x10 4 = 0xFFFFFFFF then none else some (Mem.bytes c.os (fieldAt d 0x10 4) 256)
    let entries := (pieces 8 (Mem.bytes c.os (fieldAt d 8 4) (8 * fieldAt d 0x0C 4))).map
      (fun p => BitVec.ofNat 64 (le p))
    let f : FiltStep := entries.foldl (fun (f : FiltStep) e => f.entry j.ctx x filter (fieldAt d 0x18 2) e)
      { st := s.retire n.val j 8 }
    at_ % 32 = 0 → at_ + 32 ≤ 0x800000 → c.xfers = [] → c.tiles = [] → c.opening = none → c.sweeps = [] →
    s.indexAt j (fieldAt d 0 8) = some x → filtGood c d = true → f.lost = none → f.outside = none →
    exec (.srFilt n a) s = .next (f.st.osWrite n.val (fieldAt d 0x14 4) (f.result d)) ∧
    f.out.length ≤ fieldAt d 0x18 2 ∧ f.examined ≤ entries.length ∧
    ((f.st.osWrite n.val (fieldAt d 0x14 4) (f.result d)).core n.val).sregs = c.sregs

/-! ### Synchronisation (R192, R193, R200 to R204, R231 to R234) -/

/-- R192, R232: FENCE.U holds its sequencer while a STORE issued before it is not DONE, and else goes on. -/
def Sys2Proof.Safety.FenceWaitsForStores : Prop :=
  ∀ (s : State) (n : Fin 32) (j : Job), Issues s n j → n.val ∈ j.cores →
    ∃ t, exec (.fenceU n) s = .next t ∧
      Done s n 8 (fun c => { c.endSweep with
        hold := if c.xfers.any (fun p => p.2.store && p.2.state != .done && decide (p.2.order < c.xorder))
          then some (.fence c.xorder) else none }) t

/-- R193: BAR, CUT, TAKE and END hold the core that reaches them while another core of its job has reached
none. -/
def Sys2Proof.Safety.CollectivesHold : Prop :=
  ∀ (s : State) (n : Fin 32) (j : Job) (a b : BitVec 5) (m : Nat), Issues s n j → n.val ∈ j.cores →
    m ∈ j.cores → m ≠ n.val → (s.core m).hold = none →
    (∀ row ∈ [(Instr.bar n, Hold.bar), (.cut n, .cut), (.endI n, .finished)],
      ∃ t, exec row.1 s = .next t ∧ Done s n 8 (fun c => { c.endSweep with hold := some row.2 }) t) ∧
    (let places := ((s.core n.val).sreg a).toNat
     let table := ((s.core n.val).areg b).toNat
     b.toNat ≤ 15 → places ≤ 128 → table % 64 = 0 →
     ∃ t, exec (.take n a b) s = .next t ∧
       Done s n 8 (fun c => { c.endSweep with hold := some (.take places table) }) t)

/-- R193: once every core of a job has reached BAR, every one goes on, and no other core changes; where one
has reached another collective, the job fails with ENGINE_FAULT, cause 5. -/
def Sys2Proof.Safety.BarReleasesAll : Prop :=
  ∀ (s : State) (n : Fin 32) (j : Job), Issues s n j → n.val ∈ j.cores → j.region = false →
    ((∀ m ∈ j.cores, m ≠ n.val → (s.core m).hold = some .bar) →
      ∃ t, exec (.bar n) s = .next t ∧ ∀ m < s.cores.length, coreBody (t.core m) =
        if m ∈ j.cores then
          coreBody { (if m = n.val then (s.core m).endSweep else s.core m) with hold := none }
        else coreBody (s.core m)) ∧
    ((∀ m ∈ j.cores, m ≠ n.val → (s.core m).hold = some .cut) → (∃ m ∈ j.cores, m ≠ n.val) → j.endJobs = [] →
      ∃ t pc, exec (.bar n) s = .next t ∧ Failed t j.ctx .engineFault 5 pc)

/-- What a job of one core needs so that a Cut of it continues (R108, R204), the core's storage without errors. -/
def Sys2Proof.Safety.GoesOn (s : State) (j : Job) (n : Fin 32) : Prop :=
  (s.core n.val).osEcc = [] ∧ (s.core n.val).lwbEcc = [] ∧ j.replayDue = false ∧ j.cores = [n.val] ∧
  j.state = .running ∧ j.reclaims = [] ∧ j.reclaiming = false ∧ j.closing = false ∧ j.region = false ∧ j.leaving = []

/-- R97, R98, R231: CUT on the only core of a job saves the core's registers, its flags, its stack and the
place after the CUT as the job's last Cut, in the slot that does not hold the Cut before; the core goes on with
CUT_KIND 0. -/
def Obligations.CutSavesCore : Prop :=
  ∀ (s : State) (n : Fin 32) (j : Job), Issues s n j → GoesOn s j n → (s.core n.val).xfers = [] →
    (s.core n.val).opening = none → (s.core n.val).tiles = [] → (s.core n.val).sweeps = [] →
    ∃ t j' cut r, exec (.cut n) s = .next t ∧ t.job? j.ctx = some j' ∧ j'.lastCut = some cut ∧
      cut.recs[0]? = some r ∧ cut.n = 1 ∧ cut.cuts = j.cuts + 1 ∧ j'.cuts = j.cuts + 1 ∧
      cut.slot = (match j.lastCut with | some c => 1 - c.slot | none => 0) ∧
      (let c := s.core n.val
       r.pc = c.pc + 8 ∧ r.sregs = c.sregs ∧ r.aregs = c.aregs ∧ r.vregs = c.vregs ∧ r.pregs = c.pregs ∧
       r.stack = c.stack ∧ (r.z, r.slt, r.ult) = (c.z, c.slt, c.ult) ∧
       r.acc = (if j.slate.carryAcc then c.acc else []) ∧
       r.carry = Sparse.extract c.os 0 j.slate.carryBytes ∧
       coreBody (t.core n.val) = coreBody { c with hold := none, cutKind := 0 })

/-- R102, R201, R204: TAKE on the only core of a job whose table is good and posts nothing, with no request
pending, takes a Cut, counts a Take, stores 0 as the number admitted, and goes on. -/
def Sys2Proof.Safety.TakeGoesOn : Prop :=
  ∀ (s : State) (n : Fin 32) (j : Job) (a b : BitVec 5), Issues s n j → GoesOn s j n →
    let places := ((s.core n.val).sreg a).toNat
    let table := ((s.core n.val).areg b).toNat
    (s.core n.val).xfers = [] → (s.core n.val).opening = none → (s.core n.val).tiles = [] →
    (s.core n.val).sweeps = [] → b.toNat ≤ 15 → places ≤ 128 → table % 64 = 0 → s.integ.t1Ecc = [] →
    j.slate.kind = 1 → j.slate.idleYield = false → j.pendingReqs = [] → j.tableGood table places = true →
    j.answers table = [] →
    ∃ t j', exec (.take n a b) s = .next t ∧ t.job? j.ctx = some j' ∧ j'.takes = j.takes + 1 ∧
      j'.cuts = j.cuts + 1 ∧ j'.writable = Mem.write j.writable (table + 4) (leBytes 4 0) ∧
      (t.core n.val).hold = none ∧ (t.core n.val).cutKind = 0 ∧ (t.core n.val).sregs = (s.core n.val).sregs

/-- R234: END on the only core of a job, its epilogue unit and transfers done, ends the job with cause 0. -/
def Sys2Proof.Safety.EndEndsJob : Prop :=
  ∀ (s : State) (n : Fin 32) (j : Job), Issues s n j → j.cores = [n.val] → j.region = false → j.endJobs = [] →
    (s.core n.val).xfers = [] → (s.core n.val).opening = none → (s.core n.val).tiles = [] →
    (s.core n.val).sweeps = [] →
    ∃ t j', exec (.endI n) s = .next t ∧ t.job? j.ctx = some j' ∧ j'.state = .ended ∧ j'.ended = {} ∧
      j'.cores = [] ∧ (t.core n.val).job = none

/-- R178, R233, R189: SYSRD reads a system value; a reserved code is refused. -/
def Obligations.SystemValues : Prop :=
  ∀ (s : State) (n : Fin 32) (j : Job) (d : BitVec 5) (imm : BitVec 40), Issues s n j →
    coreWf (s.core n.val) = true →
    (∀ row ∈ [(0, n.val), (1, (s.core n.val).rank), (2, j.cores.length), (4, (s.core n.val).cutKind),
        (5, j.takes), (6, j.cuts), (9, j.handle), (10, 0x000000E000000000)], imm.toNat = row.1 →
      ∃ t, exec (.sysrd n d imm) s = .next t ∧ Issued s n 8 (fun c => c.setS d (BitVec.ofNat 64 row.2)) t ∧
        (t.core n.val).sreg d = BitVec.ofNat 64 row.2) ∧
    (12 ≤ imm.toNat → exec (.sysrd n d imm) s =
      .next (((s.retire n.val j 8).failJob j.ctx .engineFault 4 (s.core n.val).pc).settle))

/-- R224, R225, R235, R265: CBLOAD loads codebook tables and ELOAD an epilogue program; every other table and slot
stays. -/
def Obligations.TablesAndProgramsLoad : Prop := CodebookLoads ∧ ProgramLoads

/-- R226, R250, R253, R265: SCSET and SCGET move a scale state; SCADV advances one. -/
def Obligations.ScaleStates : Prop := ScaleStateMoves ∧ ScaleStateAdvances

/-- R173 to R176, R227: the instructions of the top-k unit. -/
def Obligations.TopKUnit : Prop := TopKControl ∧ TopKMerges

/-- R228, R229, R292 to R296, R301 to R303: SR.WALK and SR.FILT, where nothing holds them and no page is lost. -/
def Obligations.SearchInstructions : Prop := WalkCompletes ∧ FilterCompletes

/-- R192, R193, R232: FENCE.U waits for earlier STOREs; a collective holds the core until every core of its job has
reached one; BAR then releases all, and mixed collectives fail the job. -/
def Obligations.FencesAndCollectives : Prop := FenceWaitsForStores ∧ CollectivesHold ∧ BarReleasesAll

/-- R102, R201, R204, R234: TAKE on a job of one core with nothing to post goes on; END ends the job of one core. -/
def Obligations.TakeAndEnd : Prop := TakeGoesOn ∧ EndEndsJob

/-! ### Transfers, arbiters, promotions (R126 to R128, R138, R139, R142 to R148) -/

/-- R139, R191: the mover starts a QUEUED transfer that no earlier transfer holds: it is ACTIVE when its beat
lies in the writable area, and PARKED, its page asked for, when it lies in an ABSENT read-only page that it
may not read directly. -/
def Obligations.TransfersStart : Prop :=
  ∀ (s : State) (n : Fin 32) (x : Fin 8) (j : Job),
    s.unitJob n.val = some j → n.val ∈ j.cores → (s.core n.val).hold = none →
    let c := s.core n.val
    let y := c.xfer x.val
    y.state = .queued → c.startHeld y = false → y.progress < y.beats →
    ((∀ a ∈ y.uAddrs y.progress, a < j.slate.writableBytes) → j.slate.writableBytes ≤ 0x000000C000000000 →
      ∃ t, exec (.transferStart n x) s = .next t ∧
        coreBody (t.core n.val) = coreBody (c.setXfer x.val { y with state := .active, asked := y.progress })) ∧
    (∀ pg a, y.uAddrs y.progress = [a] → s.objectPage j a = some pg → y.store = false → y.direct = false →
      s.page? pg.1 pg.2 = none → j.slate.storyboard = 0 → y.progress = 0 →
      ∃ t, exec (.transferStart n x) s = .next t ∧ ((t.core n.val).xfer x.val).state = .parked ∧
        t.pageState pg.1 pg.2 = .queued)

/-- R138, R144, R155: a grant to a COPY transfer's last beat between the operand store and the writable area
moves its 64 bytes, and the transfer is DONE; every other byte stays. -/
def Sys2Proof.Safety.GrantMovesBeat : Prop :=
  ∀ (s : State) (arb : Fin 66) (r : GrantReq) (n : Fin 32) (j : Job) (beats : Nat),
    r.requester.val = n.val → s.requests arb.val r = true → s.unitJob n.val = some j → n.val ∈ j.cores →
    (s.core n.val).hold = none → coreWf (s.core n.val) = true → Sparse.wf j.writable = true →
    (s.core n.val).osEcc = [] → s.integ.t1Ecc = [] → s.integ.flips = [] → 1 ≤ beats → (s.core n.val).spilling = 0 →
    let c := s.core n.val
    let y := c.xfer r.slot.val
    let a := (y.uAddrs y.progress).headD 0
    let l := (y.lAddrs y.progress).headD 0
    y.state = .active → y.mode = .copy → y.direct = false → y.progress + 1 = y.beats → y.asked ≤ y.progress →
    j.slate.writableBytes ≤ 0x000000C000000000 → a + 64 ≤ j.slate.writableBytes → l + 64 ≤ 0x800000 →
    c.beatHeld y y.progress = false → arb.val < 48 →
    ∃ t j', exec (.arbiterGrant arb [r] beats) s = .next t ∧ t.job? j.ctx = some j' ∧
      ((t.core n.val).xfer r.slot.val).state = .done ∧ ((t.core n.val).xfer r.slot.val).progress = y.beats ∧
      (t.core n.val).sregs = c.sregs ∧ (t.core n.val).vregs = c.vregs ∧ (t.core n.val).lwb = c.lwb ∧
      (y.store = false → j'.writable = j.writable ∧ ∀ i, Sparse.get (t.core n.val).os i =
        if l ≤ i ∧ i < l + 64 then Sparse.get j.writable (a + (i - l)) else Sparse.get c.os i) ∧
      (y.store = true → (t.core n.val).os = c.os ∧ ∀ i, Sparse.get j'.writable i =
        if a ≤ i ∧ i < a + 64 then Sparse.get c.os (l + (i - a)) else Sparse.get j.writable i)

/-- R144: the oldest requester that has waited through more than AGE_LIMIT grants to others is served first;
where there is none, or AGE_LIMIT is 0, one of the lowest class present is served, in round robin from the requester
last granted in that class. A grant counts as one more wait for every other requester present. -/
def Obligations.ArbitersTakeBestClass : Prop :=
  ∀ (b : Arb) (present : List GrantReq), present ≠ [] →
    (∀ (i : Nat) (w : Nat × Nat), b.ageLimit ≠ 0 → (b.queue present)[i]? = some w → b.ageLimit.toNat < w.2 →
      (∀ k v, k < i → (b.queue present)[k]? = some v → v.2 ≤ b.ageLimit.toNat) →
      ∃ r ∈ present, r.requester.val = w.1 ∧ b.choose present = some (r, true)) ∧
    ((b.ageLimit = 0 ∨ ∀ w ∈ b.queue present, w.2 ≤ b.ageLimit.toNat) →
      ∃ r ∈ present, b.choose present = some (r, false) ∧ (∀ q ∈ present, r.cls.val ≤ q.cls.val) ∧
        (let last := (b.last.find? (fun x => x.1 == r.cls.val)).map (fun x => x.2)
         let after := fun (q : GrantReq) => ∀ l, last = some l → l < q.requester.val
         ∀ q ∈ present, q.cls = r.cls →
           (after r ∧ after q → r.requester.val ≤ q.requester.val) ∧
           (¬ after r → ¬ after q ∧ r.requester.val ≤ q.requester.val))) ∧
    ∀ r ∈ present, (b.granted present r).last.find? (fun x => x.1 == r.cls.val) =
        some (r.cls.val, r.requester.val) ∧
      (∀ w ∈ b.queue present, w.1 ≠ r.requester.val → (w.1, w.2 + 1) ∈ (b.granted present r).waits) ∧
      ∀ w ∈ (b.granted present r).waits, w.1 ≠ r.requester.val

/-- R146, R147: a cut-off ends the grant, marks the requester, and leaves the transfer CUT_OFF with its
progress; the sixteenth in a row at one progress fails its job with ENGINE_FAULT, cause 2. -/
def Sys2Proof.Safety.CutOffsEndGrants : Prop :=
  ∀ (s : State) (arb : Fin 66) (g : Grant) (j : Job), arb.val < s.arbs.length →
    (s.arb arb.val).grant = some g → (s.arb arb.val).cutEn = true → (s.arb arb.val).limit g.req.cls.val ≠ 0 →
    g.req.requester.val < 32 → g.req.requester.val < s.cores.length →
    (s.core g.req.requester.val).job.bind s.job? = some j →
    let x := (s.core g.req.requester.val).xfer g.req.slot.val
    g.spill = false → x.state = .active →
    (x.cut.cutOffs < 16 → ∃ t, exec (.holdCutOff arb) s = .next t ∧ (t.arb arb.val).grant = none ∧
      (t.arb arb.val).overrun.getLsbD g.req.requester.val = true ∧
      (let y := (t.core g.req.requester.val).xfer g.req.slot.val
       y.state = .cutOff ∧ y.progress = x.progress ∧
       y.cutOffs = if x.progress = x.cutFrom then x.cutOffs + 1 else 1)) ∧
    (16 ≤ x.cut.cutOffs → j.state ≠ .ended → j.endJobs = [] →
      ∃ t, exec (.holdCutOff arb) s = .next t ∧ Failed t j.ctx .engineFault 2 x.pc)

/-- R126, R127, R129, R137: a QUEUED page gets a frame by a grant of its class while its Pod has room; at the end of its reads it is RESIDENT,
its claims kept. -/
def Sys2Proof.Safety.PromotionsRun : Prop :=
  ∀ (s : State) (x : Page) (p : Nat), s.page? x.copy x.page = some x → s.awake = true →
    (x.state = .queued → x.claims = [p] → s.freeQuota p = true → (s.promotionGrant? (x.copy, x.page)).isSome = true →
      ∃ t, exec (.promotionGrant x.copy x.page) s = .next t ∧ t.pageState x.copy x.page = .promoting ∧
        t.cores = s.cores ∧ t.jobs = s.jobs ∧ t.copies = s.copies) ∧
    (x.state = .promoting → x.claims ≠ [] → s.keyed x.copy = true →
      (s.copy? x.copy).any (fun c => c.unreadable.contains x.page) = false →
      (∀ y ∈ s.pages, y.state ≠ .queued ∧ y.wants = []) → (∀ n < 32, s.parkedOn n (x.copy, x.page) = []) →
      ∃ t, exec (.promotionEnd x.copy x.page true) s = .next t ∧ t.pageState x.copy x.page = .resident ∧
        t.cores = s.cores ∧ t.integ.event = s.integ.event ∧ t.copies = s.copies)

/-- R126, R370, R371: a promotion whose reads cannot be rebuilt leaves its page POISONED; the first such page of
a copy sets INTEGRITY_EVENT[0], and every model or index handle of the copy reads degraded. -/
def Sys2Proof.Safety.LostPagesArePoisoned : Prop :=
  ∀ (s : State) (x : Page), s.page? x.copy x.page = some x → x.state = .promoting → x.claims ≠ [] →
    (∀ n < 32, s.parkedOn n (x.copy, x.page) = []) → s.integ.reported.contains x.copy = false →
    ∃ t, exec (.promotionEnd x.copy x.page false) s = .next t ∧ t.pageState x.copy x.page = .poisoned ∧
      t.integ.event.getLsbD 0 = true ∧ t.integ.poisonRange = BitVec.ofNat 64 (x.page * 2 ^ 32 + x.page) ∧
      (∀ o ∈ t.objs, o.copy = x.copy → o.kind ≠ .volume → o.degraded = true) ∧ t.cores = s.cores

/-! ### Faults (R194, R196, R197, R373 to R377) -/

/-- R196, R259: a tile fault discards the run under way, whose V and P registers are again those of the run before, and
counts; the tile stays the oldest. Fewer than four leave the job as it is. -/
def Sys2Proof.Safety.TileFaultsCount : Prop :=
  ∀ (s : State) (n : Fin 32) (j : Job) (t : Tile) (rest : List Tile),
    s.unitJob n.val = some j → (s.core n.val).tiles = t :: rest →
    (s.core n.val).run.map (fun r => r.kind) ≠ some 2 → t.faults + 1 < 4 →
    ∃ u, exec (.tileFault n) s = .next u ∧
      (u.core n.val).tiles = { t with faults := t.faults + 1 } :: rest ∧ (u.core n.val).run = none ∧
      (∀ r, (s.core n.val).run = some r → (u.core n.val).vregs = r.vregs ∧ (u.core n.val).pregs = r.pregs) ∧
      (u.core n.val).sregs = (s.core n.val).sregs ∧ (u.core n.val).os = (s.core n.val).os ∧
      u.jobs = s.jobs ∧ u.integ = s.integ

/-- R197, R198, R374: a job fault replays a job of one core from its last Cut, or from its start where it has
none, and opens a recovery window; a second one in a window of the Pod fails the job with DOUBLE_FAULT. -/
def Sys2Proof.Safety.JobFaultsReplay : Prop :=
  ∀ (s : State) (n : Fin 32) (j : Job), s.unitJob n.val = some j → s.job? j.ctx = some j → j.cores = [n.val] →
    s.cores.length = 32 → j.slate.storyboard = 0 →
    ((∀ x ∈ s.jobs, x.pod = j.pod → x.window = false) → j.slate.minCores ≤ 1 → s.recordLost j 1 = false →
      ∃ t j', exec (.jobFault j.ctx (some n)) s = .next t ∧ t.job? j.ctx = some j' ∧ j'.window = true ∧
        j'.state = j.state ∧ j'.cores = [n.val] ∧ j'.batch.all (fun b => b.replayed) = true ∧
        (j.lastCut = none → (t.core n.val).pc = j.slate.entry ∧ (t.core n.val).vregs = [] ∧
          (t.core n.val).os = []) ∧
        (∀ cut r, j.lastCut = some cut → cut.n = 1 → cut.recs[0]? = some r →
          (t.core n.val).pc = r.pc ∧ (t.core n.val).vregs = r.vregs ∧ (t.core n.val).pregs = r.pregs ∧
          (t.core n.val).os = r.carry ∧ (t.core n.val).cutKind = 2 ∧ (t.core n.val).stack = r.stack)) ∧
    (∀ x ∈ s.jobs, x.pod = j.pod → x.window = true → j.endJobs = [] →
      ∃ t pc, exec (.jobFault j.ctx (some n)) s = .next t ∧ Failed t j.ctx .doubleFault 10 pc ∧
        t.integ.event.getLsbD 2 = true)

/-- R373, R423: a failed check, a silent heartbeat or the third attributed job fault fences a core: it belongs to
no Pod, its bit and cause are set, and so is INTEGRITY_EVENT[1]; no other core changes. -/
def Obligations.FencesTakeCores : Prop :=
  ∀ (s : State) (n : Fin 32), s.fenceable n.val = true → n.val < s.cores.length → (s.core n.val).job = none →
    ∀ row ∈ [(Instr.coreFence n false, 1), (.heartbeatTimeout n, 2)] ++
        (if 3 ≤ (s.core n.val).faultCount then [(Instr.coreFence n true, 3)] else []),
      ∃ t, exec row.1 s = .next t ∧ (t.core n.val).pod = none ∧ (t.core n.val).job = none ∧
        t.integ.fenced.getLsbD n.val = true ∧ t.integ.event.getLsbD 1 = true ∧
        t.integ.fenceCause = s.integ.fenceCause ||| BitVec.ofNat 64 (row.2 * 4 ^ n.val) ∧
        ∀ m, m ≠ n.val → t.core m = s.core m

/-- R138, R144, R146, R147, R155: a grant moves the beat of its transfer; a cut-off ends the grant and, the sixteenth
time in a row, the job. -/
def Obligations.GrantsMoveAndEnd : Prop := GrantMovesBeat ∧ CutOffsEndGrants

/-- R126, R127, R137, R370, R371: a promotion gets its frame and ends RESIDENT, or POISONED where its reads cannot be
rebuilt. -/
def Obligations.PromotionsEnd : Prop := PromotionsRun ∧ LostPagesArePoisoned

/-- R196 to R198, R374: a tile fault replays its tile, a job fault its job; a second job fault in a recovery window
fails the job. -/
def Obligations.FaultsReplay : Prop := TileFaultsCount ∧ JobFaultsReplay

/-! ### Command transport (R32 to R58) -/

/-- R32, R34: aperture stores are returned by later reads and change nothing else but the check bits of what they
write, and one beyond the HDM range faults; a global persistent flush is acknowledged. -/
def Sys2Proof.Safety.HostAccesses : Prop :=
  ∀ (s : State), s.link.linkUp = true → Sparse.wf s.link.aperture = true →
    (∀ (off : Nat) (bytes : List Byte),
      (off + bytes.length ≤ 2 ^ 30 →
        ∃ t, exec (.apertureWrite off bytes) s = .next t ∧
          t = { s with
            link := { s.link with aperture := t.link.aperture }
            integ := { s.integ with t1Ecc := t.integ.t1Ecc, flips := t.integ.flips } } ∧
          (s.integ.t1Ecc = [] → s.integ.flips = [] → t.integ = s.integ ∧
            t.apertureBytes off bytes.length = bytes) ∧
          ∀ i, Sparse.get t.link.aperture i =
            if off ≤ i ∧ i < off + bytes.length then bytes.getD (i - off) 0 else Sparse.get s.link.aperture i) ∧
      (2 ^ 30 < off + bytes.length → exec (.apertureWrite off bytes) s = .fault .apertureRange)) ∧
    exec .globalPersistentFlush s = .next { s with host := { s.host with gpfAcks := s.host.gpfAcks + 1 } }

/-- R41: with D the ring's depth, h its head, t its tail and n the written index, a submission tail write is
valid when n is below D and (n - h) mod D is at least (t - h) mod D, a completion head write when n is below D
and (n - h) mod D is at most (t - h) mod D. A valid write moves its own index to n (a queue whose reset is under way may
end it then, R74) and sets no bit; any other moves nothing and sets the DB_ERR bit of the queue. -/
def Obligations.DoorbellsMoveForward : Prop :=
  ∀ (s : State) (q : Nat) (x : Queue) (v : BitVec 64), s.link.linkUp = true → Sparse.wf s.link.dbErr = true →
    q < 4096 → s.doorbellQueue q = some x →
    let n := v.toNat % 65536
    (let d := x.depth
     let valid : Prop := n < d ∧ ((x.sqTail : Int) - x.sqHead) % d ≤ ((n : Int) - x.sqHead) % d
     x.sqHead < d →
      (valid → ∃ t, exec (.sqTailDoorbell q v) s = .next t ∧ t.queue? q = some { x with sqTail := n } ∧
        t.link.dbErr = s.link.dbErr ∧ (s.hw.pstate = .active → inside t = inside s) ∧
        (s.hw.pstate ≠ .active → t.hw.exiting = true)) ∧
      (¬ valid → ∃ t, exec (.sqTailDoorbell q v) s = .next t ∧ inside t = inside s ∧
        t.link.queues = s.link.queues ∧ ∀ k < 4096, (Sparse.get t.link.dbErr (k / 64)).getLsbD (k % 64) =
          ((Sparse.get s.link.dbErr (k / 64)).getLsbD (k % 64) || decide (k = q)))) ∧
    (let d := x.cqDepth
     let valid : Prop := n < d ∧ ((n : Int) - x.cqHead) % d ≤ ((x.cqTail : Int) - x.cqHead) % d
     x.cqHead < d →
      (valid → ∃ t, exec (.cqHeadDoorbell q v) s = .next t ∧ t.link.dbErr = s.link.dbErr ∧
        (s.hw.pstate = .active → inside t = inside s) ∧ (s.hw.pstate ≠ .active → t.hw.exiting = true) ∧
        (x.resetting = none → (q = 0 → s.link.admin.draining = false) → ∃ y, t.queue? q = some y ∧
          y.cqHead = n ∧ y.sqTail = x.sqTail ∧ y.sqHead = x.sqHead)) ∧
      (¬ valid → ∃ t, exec (.cqHeadDoorbell q v) s = .next t ∧ inside t = inside s ∧
        t.link.queues = s.link.queues ∧ ∀ k < 4096, (Sparse.get t.link.dbErr (k / 64)).getLsbD (k % 64) =
          ((Sparse.get s.link.dbErr (k / 64)).getLsbD (k % 64) || decide (k = q))))

/-- R43, R49 to R54: a published packet that no check refuses becomes an outstanding command with its header's
fields and its payload, its slots consumed; a header that stays unaccepted halts its queue, whose head stays;
100 ms without the next packet end the open chain. -/
def Sys2Proof.Safety.PacketsAreFetched : Prop :=
  ∀ (s : State) (qid : Nat) (q : Queue), s.queue? qid = some q →
    (let h := s.headerOf q
     s.fetches q = true → s.accepts q h = true → h.len ≤ packetLimit q.depth →
     packetSlots h.len ≤ (q.sqTail + q.depth - q.sqHead) % q.depth → q.chain = none → q.discard = none →
     s.sec.err ≠ .hard → s.sec.boot ≠ 1 → s.sec.lc = .service → s.link.session = true →
     s.badPacket (q.advance (packetSlots h.len)) h = false → s.notBound q h = false →
     (h.opcode = 0x32 → s.searchGood h.object (s.payloadOf q h.len) = true) →
     s.integ.t1Ecc = [] → (∀ c ∈ s.link.cmds, c.uid < s.link.nextUid) →
     (∀ x ∈ s.link.queues, ∀ r, x.resetting = some r → r.uid < s.link.nextUid) →
     ∃ t c y, exec (.packetFetch qid) s = .next t ∧ inside { t with jobs := s.jobs } = inside s ∧
       (h.opcode ≠ 0x33 → t.jobs = s.jobs) ∧
       t.cmd? s.link.nextUid = some c ∧ c.queue = qid ∧ c.opcode = h.opcode ∧ c.tag = h.tag ∧
       c.object = h.object ∧ c.p0 = h.p0 ∧ c.p1 = h.p1 ∧ c.p2 = h.p2 ∧ c.payload = s.payloadOf q h.len ∧
       c.whole = !h.chain ∧ c.verdict = none ∧ c.finished = false ∧ t.queue? qid = some y ∧
       y.sqHead = (q.sqHead + packetSlots h.len) % q.depth) ∧
    (s.fetches q = true → s.accepts q (s.headerOf q) = false → s.integ.t1Ecc = [] →
      ∃ t y, exec (.headerRetryTimeout qid) s = .next t ∧ inside t = inside s ∧ t.queue? qid = some y ∧
        y.halted = true ∧ y.sqHead = q.sqHead) ∧
    (∀ u, q.chain = some u → q.resetting = none → qid ≠ 0 →
      ∃ t y, exec (.chainTimeout qid) s = .next t ∧ inside t = inside s ∧ t.queue? qid = some y ∧ y.chain = none)

/-- R56, R57: a completion packet without payload that finds room takes one slot: its header lies at the
ring's tail with its fields where R56 puts them, every other byte of host memory stays, the tail and the
sequence move on by one, and the vector is raised unless NO_INTR. -/
def Sys2Proof.Safety.CompletionsAreWritten : Prop :=
  ∀ (s : State) (q : Queue) (c : Cpl), s.queue? q.id = some q → q.held = [] → 1 ≤ q.cqRoom →
    c.payload = [] → c.chain = false → q.cqTail < q.cqDepth → (∀ x ∈ s.link.cmds, x.uid = c.uid → x.seqNo = none) →
    Sparse.wf s.host.mem = true → c.tag < 2 ^ 16 → q.id < 2 ^ 16 → c.result0 < 2 ^ 64 → c.result1 < 2 ^ 64 → q.seq < 2 ^ 64 →
    let t := s.writeCpl q.id c
    let m := t.host.mem
    let a := q.cqAddr + 64 * q.cqTail
    Mem.field m a 2 = c.status.code ∧ Mem.field m (a + 2) 2 = c.tag ∧ Mem.field m (a + 4) 2 = q.id ∧
    bitOf (Mem.field m (a + 7) 1) 7 = q.phase ∧ Mem.field m (a + 8) 8 = q.seq ∧
    Mem.field m (a + 0x20) 8 = c.result0 ∧ Mem.field m (a + 0x28) 8 = c.result1 ∧
    (∀ i, i < a ∨ a + 64 ≤ i → Sparse.get m i = Sparse.get s.host.mem i) ∧
    t.cmd? c.uid = none ∧ inside t = inside s ∧
    t.host.vectors = s.host.vectors ++ (if c.noIntr then [] else [q.vector]) ∧
    ∃ y, t.queue? q.id = some y ∧ y.cqTail = (q.cqTail + 1) % q.cqDepth ∧ y.seq = q.seq + 1 ∧
      y.phase = if q.cqDepth ≤ q.cqTail + 1 then !q.phase else q.phase

/-! ### The admin queue's commands (R47, R48, R71 to R77, R79 to R88) -/

/-- R47, R48, R73 to R77: CREATE_QUEUE adds the queue that its descriptor describes, or is a BAD_PACKET;
DELETE_QUEUE removes and RESET_QUEUE restarts a queue with nothing outstanding; ABORT ends the command it
names when that has not begun, and else has no effect; SET_POWER_STATE enters Standby or Sleep when the module is
idle; an exit reaches Active. -/
def Obligations.AdminCommands : Prop :=
  ∀ (s : State) (u : Nat) (c : Cmd),
    (Runs s u 0x01 c →
      (s.descriptorGood c.payload = true → ∃ t q, exec (.createQueue u) s = .next t ∧
        Ends { s with link := { s.link with queues := s.link.queues ++ [q] } } u { status := .ok } t ∧
        q = { id := fieldAt c.payload 0 2, pod := fieldAt c.payload 2 2, cls := fieldAt c.payload 4 1
              sqLog2 := fieldAt c.payload 5 1, cqLog2 := fieldAt c.payload 6 1
              sqOffset := fieldAt c.payload 8 8, cqAddr := fieldAt c.payload 16 8
              vector := fieldAt c.payload 24 2 }) ∧
      (s.descriptorGood c.payload = false → ∃ t, exec (.createQueue u) s = .next t ∧
        Ends s u { status := .badPacket } t)) ∧
    (∀ q, s.namedQueue c = some q → q.resetting = none → s.cmdsOf q.id = [] → s.waitingRefusal q = none →
      (Runs s u 0x02 c → ∃ t, exec (.deleteQueue u) s = .next t ∧ inside t = inside s ∧ t.queue? q.id = none) ∧
      (Runs s u 0x03 c → ∃ t, exec (.resetQueue u) s = .next t ∧ inside t = inside s ∧
        t.queue? q.id = some q.restart)) ∧
    (∀ q, Runs s u 0x04 c → c.progress = 0 → s.queue? (bits c.p0 15 0) = some q → q.depth ≤ 1024 →
      ((s.cmdsOf q.id).find? (fun x => x.tag == bits c.p0 31 16 && !s.isBegun x) = none →
        ∃ t, exec (.abort u) s = .next t ∧ Ends s u { status := .ok } t) ∧
      ∀ x, (s.cmdsOf q.id).find? (fun x => x.tag == bits c.p0 31 16 && !s.isBegun x) = some x →
        ∃ t w, exec (.abort u) s = .next t ∧ Ends w x.uid { status := .aborted } t ∧
          inside w = inside (s.unrequest x.uid) ∧ w.cmd? u = some { c with progress := x.uid + 1 }) ∧
    (Runs s u 0x05 c →
      (c.p0 = 0 → ∃ t, exec (.setPowerState u) s = .next t ∧ Ends s u { status := .ok } t) ∧
      (c.p0 ≠ 0 → s.idle u = false → ∃ t, exec (.setPowerState u) s = .next t ∧
        Ends s u { status := .stateBusy } t) ∧
      ∀ q, s.idle u = true → s.queue? 0 = some q → q.cqRoom ≠ 0 →
        (c.p0 = 1 → ∃ t, exec (.setPowerState u) s = .next t ∧
          inside t = inside { s with hw := { s.hw with pstate := .standby } }) ∧
        (c.p0 = 2 → s.exporting = false → ∃ t, exec (.setPowerState u) s = .next t ∧
          t.hw = { s.hw with pstate := .sleep } ∧ t.cores = s.cores ∧ t.jobs = s.jobs ∧ t.objs = s.objs ∧
          ∀ p < 8, (t.port p).state = .down)) ∧
    (s.hw.phase = .running → s.hw.exiting = true →
      ∃ t, exec .powerStateExit s = .next t ∧ t.hw = { s.hw with pstate := .active, exiting := false } ∧
        t.media = s.media ∧ t.objs = s.objs ∧
        (s.hw.pstate ≠ .sleep → t.cores = s.cores) ∧
        (s.hw.pstate = .sleep → ∀ n < 32, (t.core n).os = [] ∧ (t.core n).lwb = [] ∧ (t.core n).sregs = [] ∧
          (t.core n).vregs = [] ∧ (t.core n).progs = []))

/-- R71: an ABORT that names a queue deeper than 1024 slots, or a queue that does not exist, completes with
BAD_PACKET and affects nothing. -/
def Obligations.AbortNeedsShallowQueue : Prop :=
  ∀ (s : State) (u : Nat) (c : Cmd), Runs s u 0x04 c → c.progress = 0 →
    (∀ q, s.queue? (bits c.p0 15 0) = some q → 1024 < q.depth) →
    ∃ t, exec (.abort u) s = .next t ∧ Ends s u { status := .badPacket } t

/-- A core after a wipe, in a Pod (R84): all but its fault count and its exact samples is zero. -/
def Sys2Proof.Safety.wiped (c : Core) (pod : Nat) : Core :=
  { pod := some pod, faultCount := c.faultCount, sampled := c.sampled, exact := c.exact }

/-- R79 to R88: each operation of BIND that nothing of R87 refuses moves exactly what it names; cores that
move are wiped, and what a deleted Pod still has returns to the pool. A payload that is no descriptor, or a descriptor
that breaks R82, is refused with DESCRIPTOR_INVALID. -/
def Obligations.PodsChange : Prop :=
  ∀ (s : State) (u op : Nat) (c : Cmd) (b : Bind),
    (Runs s u 0x06 c → c.payload.length ≠ 64 ∨ (parseBind c.payload).valid = false →
      ∀ i ∈ [Instr.createPod u, .deletePod u, .moveCores u, .moveT1 u, .moveObject u, .moveQueue u, .moveSlots u],
        ∃ t, exec i s = .next t ∧ Ends s u { status := .badPacket, result1 := 0x50 } t) ∧
    (Binds s u op c b →
      (op = 1 → s.pod? b.dst = none → Bound (.createPod u) s u 1000 (fun w =>
        w.pods = s.pods ++ [{ id := b.dst, granules := 0, slots := 0 }] ∧
        { w with pods := s.pods, free := s.free } = s)) ∧
      (∀ x z, op = 2 → b.dst ≠ 0 → s.pod? b.dst = some x → s.pod? 0 = some z → x.id = b.dst →
        s.podInUse b.dst = false → s.cores.length = 32 →
        Bound (.deletePod u) s u (2000 + 1500 * x.granules) (fun w =>
          w.pod? b.dst = none ∧
          w.pod? 0 = some { z with granules := z.granules + x.granules, slots := z.slots + x.slots } ∧
          w.link = s.link ∧ w.objs = s.objs ∧ w.jobs = s.jobs ∧ w.copies = s.copies ∧ w.pages = s.pages ∧
          w.media = s.media ∧ (∀ p, p ≠ 0 → p ≠ b.dst → w.pod? p = s.pod? p) ∧
          ∀ n < 32, w.core n = if (s.core n).pod = some b.dst then wiped (s.core n) 0 else s.core n)) ∧
      (op = 3 → s.noPod b = false → s.cores.length = 32 →
        (∀ n ∈ b.cores, (s.core n).pod = some b.src ∧ (s.core n).job = none ∧ s.coreFenced n = false) →
        Bound (.moveCores u) s u 2000 (fun w =>
          (∀ n < 32, w.core n = if n ∈ b.cores then wiped (s.core n) b.dst else s.core n) ∧
          w.pods = s.pods ∧ w.objs = s.objs ∧ w.jobs = s.jobs ∧ w.link = s.link ∧ w.copies = s.copies ∧
          w.pages = s.pages ∧ w.media = s.media)) ∧
      (∀ x y, op = 4 → s.pod? b.src = some x → s.pod? b.dst = some y →
        s.canGive b.src (b.amount / 0x10000000) = true →
        Bound (.moveT1 u) s u (1500 * (b.amount / 0x10000000)) (fun w =>
          (b.src = b.dst → w.pods = s.pods ∧ w.pages = s.pages) ∧
          (b.src ≠ b.dst → w.pod? b.src = some { x with granules := x.granules - b.amount / 0x10000000 } ∧
          w.pod? b.dst = some { y with granules := y.granules + b.amount / 0x10000000 }) ∧
          (∀ p, p ≠ b.src → p ≠ b.dst → w.pod? p = s.pod? p) ∧
          w.cores = s.cores ∧ w.objs = s.objs ∧ w.jobs = s.jobs ∧ w.link = s.link ∧ w.copies = s.copies ∧
          w.media = s.media)) ∧
      (∀ q, op = 6 → s.noPod b = false → s.queue? b.handle = some q → q.pod = b.src → s.cmdsOf b.handle = [] →
        Bound (.moveQueue u) s u 1000 (fun w =>
          w.queue? b.handle = some { q with pod := b.dst } ∧ (∀ k, k ≠ b.handle → w.queue? k = s.queue? k) ∧
          w.link.cmds = s.link.cmds ∧ { w with link := s.link, free := s.free } = s)) ∧
      (∀ x y, op = 7 → s.pod? b.src = some x → s.pod? b.dst = some y →
        b.amount ≤ s.unreserved b.src → (b.dst ≠ 0 → b.dst ≠ b.src → y.slots + b.amount ≤ 128) →
        Bound (.moveSlots u) s u 1000 (fun w =>
          (b.src = b.dst → w.pods = s.pods) ∧
          (b.src ≠ b.dst → w.pod? b.src = some { x with slots := x.slots - b.amount } ∧
          w.pod? b.dst = some { y with slots := y.slots + b.amount }) ∧
          (∀ p, p ≠ b.src → p ≠ b.dst → w.pod? p = s.pod? p) ∧
          { w with pods := s.pods, free := s.free } = s)))

/-- R86: an object that MOVE_OBJECT moves keeps its content, its handle, its keys and its metadata; only the
owning Pod changes, and no copy of its data is made. -/
def Obligations.ObjectsMoveWhole : Prop :=
  ∀ (s : State) (u : Nat) (c : Cmd) (b : Bind) (o : Obj), Binds s u 5 c b → s.noPod b = false →
    s.obj? b.handle = some o → o.pod = b.src → b.src ≠ b.dst → s.canClaim b.dst (s.metaOf o) = true →
    s.slated b.handle = false → s.addressed b.handle = false →
    o.kind = .volume ∨ (∀ n < 32, ∀ p ∈ (s.core n).xfers, p.2.state ≠ .parked) →
    Bound (.moveObject u) s u 1000 (fun w =>
      w.objs = s.objs.map (fun x => if x.handle == b.handle then { x with pod := b.dst } else x) ∧
      w.copies = s.copies ∧ w.nextCopy = s.nextCopy ∧ w.media = s.media ∧ w.sec = s.sec ∧ w.cores = s.cores ∧
      w.pods = s.pods ∧ w.jobs = s.jobs ∧ w.link = s.link)

/-! ### Volumes (R61 to R68, R316 to R320, R331, R386) -/

/-- The volume commands: CREATE_VOLUME adds a volume under a new handle with its key (R316, R386), DELETE_VOLUME
removes both (R317); READ answers the newest content of its sectors (R61, R68); a WRITE completes once its last
sector is staged, and later reads find it (R63, R319); DISCARD and SECURE_DISCARD make a sector read as zeros, and
DISCARD a whole logical block (R331), a bad mark staying on a trimmed sector (R324, the model's reading: log 68); both
discards complete when nothing of theirs is left to do. -/
def Obligations.VolumeCommands : Prop :=
  ∀ (s : State) (u : Nat) (c : Cmd) (o : Obj),
    (∀ n, Runs s u 0x07 c → s.sec.err = .none → s.media.wearState ≠ 3 → (s.pod? (bits c.p0 15 0)).isSome = true →
      s.hasRoom (ceilDiv c.p1 65536) (volumeShort c.p1) = true → s.volumeFree n = true →
      ∃ t w h r, exec (.createVolume u n) s = .next t ∧ Ends w u { status := .ok, result0 := h } t ∧
        h / 2 ^ 56 = 1 ∧ h % 4096 = n ∧
        w.objs = s.objs ++ [{ handle := h, kind := .volume, num := n, pod := bits c.p0 15 0, sectors := c.p1 }] ∧
        (∃ k, w.sec.keyTable = s.sec.keyTable ++ [k] ∧ k.handle = h ∧ k.copy = none) ∧
        w.media = { s.media with runs := s.media.runs ++ r } ∧
        (r.map (fun x => x.2.2)).sum = ceilDiv c.p1 65536 ∧ (∀ x ∈ r, x.1 / 2097152 = n) ∧
        w.link = s.link ∧ w.cores = s.cores) ∧
    (s.volume? c.object = some o →
      (Runs s u 0x08 c → ∃ t w, exec (.deleteVolume u) s = .next t ∧ Ends w u { status := .ok } t ∧
        w.objs = s.objs.filter (fun x => x.handle != c.object) ∧ 
        (∀ k ∈ w.sec.keyTable, k.copy = none → k.handle ≠ c.object) ∧
        (∀ e ∈ w.media.staging, e.lb / 2097152 ≠ o.num) ∧ w.cores = s.cores ∧ w.link = s.link ∧
        w.jobs = s.jobs) ∧
      (Runs s u 0x10 c → c.p0 + c.p1 ≤ o.sectors → s.overtakes c = false → o.degraded = false →
        let at_ := fun (i : Nat) => s.sectorOf (o.num * 2097152 + (c.p0 + i) / 65536) ((c.p0 + i) % 65536)
        ((∀ i < c.p1, (at_ i).bad = false) →
          ∃ t w, exec (.read u) s = .next t ∧ w.link = s.link ∧ w.cores = s.cores ∧ w.objs = s.objs ∧
            w.media.lblocks = s.media.lblocks ∧ w.media.staging = s.media.staging ∧
            Ends w u { status := .ok, payload :=
              ((List.range c.p1).map (fun i => Mem.bytes (at_ i).data 0 4096)).flatten } t) ∧
        ∀ k < c.p1, (∀ i < k, (at_ i).bad = false) → (at_ k).bad = true →
          ∃ t w, exec (.read u) s = .next t ∧ w.link = s.link ∧ w.media.lblocks = s.media.lblocks ∧
            Ends w u { status := .mediaUncorrectable, result0 := c.p0 + k, payload :=
              ((List.range k).map (fun i => Mem.bytes (at_ i).data 0 4096)).flatten } t) ∧
      (Runs s u 0x11 c → c.p0 + c.p1 ≤ o.sectors → s.overtakes c = false → o.readOnly = false →
        c.progress + 1 = c.payload.length / 4096 → s.hw.holdupWeak = false → (s.flip 80).armed = false →
        let lb := o.num * 2097152 + (c.p0 + c.progress) / 65536
        let sec := (c.p0 + c.progress) % 65536
        s.wornOut lb = false → s.stageRoom lb = true →
        ∃ t w, exec (.write u) s = .next t ∧ Ends w u { status := .ok, result0 := c.progress + 1 } t ∧
          w.media.lblocks = s.media.lblocks ∧ w.cores = s.cores ∧ w.objs = s.objs ∧ w.jobs = s.jobs ∧
          Mem.bytes (w.sectorOf lb sec).data 0 4096 = (c.payload.drop (4096 * c.progress)).take 4096 ∧
          (w.sectorOf lb sec).bad = false ∧
          ∀ l k, l ≠ lb ∨ k ≠ sec → w.sectorOf l k = s.sectorOf l k) ∧
      (Runs s u 0x12 c → c.p0 + c.p1 ≤ o.sectors → s.overtakes c = false → c.p1 = 1 →
        let lb := o.num * 2097152 + c.p0 / 65536
        (c.begun = false → c.progress = 0 → o.readOnly = false → s.merging o c = false → s.logRoom lb = true →
          s.media.waiting = [] →
          ∃ t, exec (.discard u) s = .next t ∧ (t.sectorOf lb (c.p0 % 65536)).data = [] ∧
            (t.sectorOf lb (c.p0 % 65536)).bad = (s.sectorOf lb (c.p0 % 65536)).bad ∧
            t.cores = s.cores ∧ t.jobs = s.jobs ∧
            ∀ l k, l ≠ lb ∨ k ≠ c.p0 % 65536 → t.sectorOf l k = s.sectorOf l k) ∧
        (c.begun = true → c.progress = 1 → (∀ e ∈ s.media.staging, e.uid ≠ some u) → s.media.waiting = [] →
          ∃ t, exec (.discard u) s = .next t ∧ Ends s u { status := .ok } t)) ∧
      (Runs s u 0x12 c → c.p0 + c.p1 ≤ o.sectors → s.overtakes c = false → c.p1 = 65536 → c.p0 % 65536 = 0 →
        c.begun = false → s.merging o c = false →
        let lb := o.num * 2097152 + c.p0 / 65536
        (s.lblock lb).locs ≠ [] →
        ∃ t, exec (.discard u) s = .next t ∧ t.cores = s.cores ∧ t.jobs = s.jobs ∧
          ∀ k < 65536, (t.sectorOf lb k).data = [] ∧ (t.sectorOf lb k).bad = false) ∧
      (Runs s u 0x13 c → c.p0 + c.p1 ≤ o.sectors → s.overtakes c = false → c.p1 = 1 → c.begun = false →
        c.progress = 0 → o.readOnly = false → s.merging o c = false →
        let lb := o.num * 2097152 + c.p0 / 65536
        s.logRoom lb = true → s.media.waiting = [] →
        ∃ t, exec (.secureDiscard u) s = .next t ∧ (t.sectorOf lb (c.p0 % 65536)).data = [] ∧
          (t.sectorOf lb (c.p0 % 65536)).bad = ((s.lblock lb).onMedia (c.p0 % 65536)).bad ∧ t.cores = s.cores ∧ t.jobs = s.jobs ∧
          (∀ e ∈ t.media.staging, e.lb = lb → e.sector = c.p0 % 65536 → e.data = none) ∧
          ∀ l k, l ≠ lb ∨ k ≠ c.p0 % 65536 → t.sectorOf l k = s.sectorOf l k) ∧
      (Runs s u 0x13 c → c.p0 + c.p1 ≤ o.sectors → s.overtakes c = false → c.begun = true →
        c.progress = (partSectors c.p0 c.p1).length → s.media.waiting = [] →
        (∀ p ∈ partsOf c.p0 c.p1, s.residue (o.num * 2097152 + p) = false) →
        ∃ t, exec (.secureDiscard u) s = .next t ∧ Ends s u { status := .ok } t))

/-- R61: a READ or WRITE that reaches past the last sector of its volume completes with OUT_OF_RANGE and has no
effect (what is left of its chain is discarded, R73). -/
def Obligations.OutOfRangeRefused : Prop :=
  ∀ (s : State) (u : Nat) (c : Cmd) (o : Obj), s.volume? c.object = some o → o.sectors < c.p0 + c.p1 →
    (Runs s u 0x10 c → ∃ t, exec (.read u) s = .next t ∧ Ends s u { status := .outOfRange } t) ∧
    (Runs s u 0x11 c → ∃ t w, exec (.write u) s = .next t ∧ Ends w u { status := .outOfRange } t ∧
      w = { s with link := { s.link with queues := w.link.queues } })

/-- R32, R34, R43, R49 to R58, R77: aperture stores, the fetch of packets, the ends of headers and chains, and the
writing of completions. -/
def Obligations.HostLink : Prop := HostAccesses ∧ PacketsAreFetched ∧ CompletionsAreWritten

/-! ### Models and indexes (R118, R119, R149, R255 to R257, R278 to R291, R307 to R311) -/

/-- No transfer of a core waits on a page. -/
def Sys2Proof.Safety.NoneParked (s : State) : Prop := ∀ n < 32, ∀ p ∈ (s.core n).xfers, p.2.state ≠ .parked

/-- Stored copy `x` has become `y` but for where its pages lie, and every other copy is as it was. -/
def Sys2Proof.Safety.Rewrites (s w : State) (x y : Copy) : Prop :=
  (∃ z, w.copy? x.id = some z ∧ z = { y with t2 := z.t2, t3 := z.t3 }) ∧ ∀ k, k ≠ x.id → w.copy? k = s.copy? k

/-- R119, R149, R255 to R257: LOAD_MODEL refuses an image with its first flaw's offset and reason, and else
stores it under a new handle, or names the copy that another Pod has loaded; UNLOAD_MODEL removes the handle, its key,
and the copy with its last handle. -/
def Obligations.ModelCommands : Prop :=
  ∀ (s : State) (u n : Nat) (c : Cmd),
    (∀ q, Runs s u 0x20 c → s.queue? c.queue = some q → s.sec.err = .none →
      (∀ f, imageFlaw c.payload c.p0 = some f → ∃ t, exec (.loadModel u n) s = .next t ∧
        Ends s u { status := .badPacket, result0 := f.1, result1 := f.2 } t) ∧
      (imageFlaw c.payload c.p0 = none → s.media.wearState ≠ 3 →
        s.sharedCopy q.pod (Config.sha3 c.payload) = none → (∀ x ∈ s.copies, x.id < s.nextCopy) →
        (let parts := spanParts [(0, c.payload.length)]
         s.hasRoom parts.length (shortPart parts) = true) → s.objectFree n = true →
        ∃ t w h x, exec (.loadModel u n) s = .next t ∧ Ends w u { status := .ok, result0 := h } t ∧
          h / 2 ^ 56 = 2 ∧ h % 4096 = n ∧ w.copies = s.copies ++ [x] ∧ x.id = s.nextCopy ∧ x.kind = .model ∧
          x.size = c.payload.length ∧ (∀ i, Sparse.get x.mem i = c.payload.getD i 0) ∧
          w.objs = s.objs ++ [{ handle := h, kind := .model, num := n, pod := q.pod, copy := x.id }] ∧
          (∃ k, w.sec.keyTable = s.sec.keyTable ++ [k] ∧ k.handle = h ∧ k.copy = some x.id) ∧
          w.link = s.link ∧ w.cores = s.cores ∧ w.jobs = s.jobs) ∧
      (∀ x, imageFlaw c.payload c.p0 = none → s.media.wearState ≠ 3 →
        s.sharedCopy q.pod (Config.sha3 c.payload) = some x → s.objectFree n = true →
        (∀ o ∈ s.objs, o.handle ≠ (s.newHandle 2 n).1) →
        ∃ t w h d, exec (.loadModel u n) s = .next t ∧ Ends w u { status := .ok, result0 := h } t ∧
          h / 2 ^ 56 = 2 ∧ h % 4096 = n ∧ w.copies = s.copies ∧ w.media = s.media ∧
          w.objs = s.objs ++ [{ handle := h, kind := .model, num := n, pod := q.pod, copy := x.id, degraded := d }] ∧
          w.sec = s.sec ∧ w.link = s.link ∧ w.cores = s.cores ∧ w.jobs = s.jobs)) ∧
    (∀ o, Runs s u 0x21 c → c.progress = 0 → s.obj? c.object = some o → s.objectInUse c = false →
      s.promoting o.copy = false → NoneParked s →
      ∃ t w, exec (.unloadModel u) s = .next t ∧ Ends w u { status := .ok } t ∧
        w.objs = s.objs.filter (fun x => x.handle != c.object) ∧
        (o.kind ≠ .volume →
          if w.objs.any (fun x => x.kind != .volume && x.copy == o.copy) then w.sec = s.sec
          else ∀ k ∈ w.sec.keyTable, k.copy ≠ some o.copy) ∧
        (w.objs.any (fun x => x.kind != .volume && x.copy == o.copy) = true → w.copies = s.copies) ∧
        (w.objs.any (fun x => x.kind != .volume && x.copy == o.copy) = false →
          w.copies = s.copies.filter (fun x => x.id != o.copy) ∧ ∀ x ∈ w.pages, x.copy ≠ o.copy) ∧
        w.cores = s.cores ∧ w.jobs = s.jobs)

/-- R279, R285 to R290, R311: BUILD_INDEX refuses a stream with its first flaw and else stores the index that it
describes; INSERT_CODES and DELETE_CODES change its window and complete, or INSERT_CODES names a list without room; COMPACT_INDEX starts a full compaction;
DELETE_INDEX removes it. -/
def Obligations.IndexCommands : Prop :=
  ∀ (s : State) (u n : Nat) (c : Cmd),
    (∀ q, Runs s u 0x22 c → s.queue? c.queue = some q → s.sec.err = .none →
      (∀ f, streamFlaw c.payload c.p0 c.p1 c.p2 = some f → ∃ t, exec (.buildIndex u n) s = .next t ∧
        Ends s u { status := .badPacket, result0 := f.1, result1 := f.2 } t) ∧
      (let b := parseBuild c.payload
       streamFlaw c.payload c.p0 c.p1 c.p2 = none → s.media.wearState ≠ 3 →
        s.canClaim q.pod (b.regionAt 5 / pageBytes) = true → (∀ x ∈ s.copies, x.id < s.nextCopy) →
        (let parts := spanParts (b.sizes.map (fun n => (0, n)))
         s.hasRoom parts.length (shortPart parts) = true) → s.objectFree n = true →
        ∃ t w h x, exec (.buildIndex u n) s = .next t ∧ Ends w u { status := .ok, result0 := h } t ∧
          h / 2 ^ 56 = 3 ∧ h % 4096 = n ∧ w.copies = s.copies ++ [x] ∧ x.id = s.nextCopy ∧ x.kind = .index ∧
          x.mem = b.window c.payload ∧ x.codeBits = b.w ∧ x.lists = b.lists ∧ x.identCap = b.cap ∧
          w.objs = s.objs ++ [{ handle := h, kind := .index, num := n, pod := q.pod, copy := x.id }] ∧
          (∃ k, w.sec.keyTable = s.sec.keyTable ++ [k] ∧ k.handle = h ∧ k.copy = some x.id) ∧
          w.link = s.link ∧ w.cores = s.cores ∧ w.jobs = s.jobs)) ∧
    (∀ o x, s.indexOf c.object = some (o, x) →
      (s.changesFirst c = false →
        (let xs := parseInserts x.codeBytes c.payload
         Runs s u 0x23 c → c.payload.length = c.p1 * (24 + x.codeBytes) → (∀ e ∈ xs, e.zero = 0) →
          (∀ e ∈ xs, e.ident < x.identCap ∧ x.ident e.ident = .free) → (xs.map (fun e => e.ident)).Nodup →
          (∀ e ∈ xs, e.list < x.lists) →
          (∀ y, x.insertAll xs = (y, none) → s.mediaHolds x y (x.grown y) = true → s.logsFit x y = true →
            ∃ t w, exec (.insertCodes u) s = .next t ∧ Ends w u { status := .ok } t ∧ Rewrites s w x y ∧
              w.objs = s.objs ∧ w.cores = s.cores ∧ w.jobs = s.jobs ∧ w.link = s.link) ∧
          (∀ y j, x.insertAll xs = (y, some j) → ∃ t, exec (.insertCodes u) s = .next t ∧
            Ends s u { status := .compactionRequired, result0 := j } t)) ∧
        (let ids := (List.range (c.payload.length / 8)).map (fun i => fieldAt c.payload (8 * i) 8)
         let y := ids.foldl Copy.deleteOne x
         Runs s u 0x24 c → (∀ k ∈ ids, k < x.identCap) → s.mediaHolds x y [] = true → s.logsFit x y = true →
          ∃ t w, exec (.deleteCodes u) s = .next t ∧ Ends w u { status := .ok } t ∧ Rewrites s w x y ∧
            w.objs = s.objs ∧ w.cores = s.cores ∧ w.jobs = s.jobs ∧ w.link = s.link) ∧
        (∀ z, Runs s u 0x25 c → u ∉ x.index.waiting → s.compactFirst c = false → s.copy? x.id = some z →
          ∃ t y, exec (.compactIndex u) s = .next t ∧ t.copy? x.id = some y ∧
            y = { z with index := { z.index with
              full := some (z.index.full.getD (0, 0))
              byCommand := z.index.byCommand || z.index.full.isNone
              waiting := z.index.waiting ++ [u] } } ∧
            t.objs = s.objs ∧ t.cores = s.cores ∧ t.jobs = s.jobs)) ∧
      (Runs s u 0x26 c → c.progress = 0 → s.objectInUse c = false → x.compacting = false →
        s.promoting o.copy = false → NoneParked s →
        ∃ t w, exec (.deleteIndex u) s = .next t ∧ Ends w u { status := .ok } t ∧
          w.objs = s.objs.filter (fun x => x.handle != c.object) ∧
          (w.objs.any (fun x => x.kind != .volume && x.copy == o.copy) = false →
            w.copies = s.copies.filter (fun x => x.id != o.copy) ∧ ∀ k ∈ w.sec.keyTable, k.copy ≠ some o.copy) ∧
          w.cores = s.cores ∧ w.jobs = s.jobs))

/-- R307, R308, R310: the lists of a full compaction are rewritten in order, one that is RETIRED left as it is;
the steward commits the ready lists while no search job of the index runs; the module starts a full compaction
by itself when side entries or deleted codes pass their thresholds. No core and no job changes. -/
def Obligations.IndexesCompact : Prop :=
  ∀ (s : State) (x : Copy), s.copy? x.id = some x → s.mediaRuns = true → s.hw.pstate = .active →
    (∀ j k, x.index.full = some (j, k) → j < x.lists →
      let y := if x.listRetired j then x else s.compactList (s.freed x) j
      j + 1 < y.lists →
      ∃ t, exec (.listCompaction x.id j) s = .next t ∧ t.cores = s.cores ∧ t.jobs = s.jobs ∧ t.objs = s.objs ∧
        Rewrites s t x { y with index := { y.index with full := some (j + 1, k) } }) ∧
    (x.index.ready ≠ [] →
      (∀ j ∈ s.jobs, j.onCores = true → j.slate.kind = 2 → j.slate.index ≠ 0 →
        (s.obj? j.slate.index).any (fun o => o.copy == x.id) = false) →
      ∃ t y, exec (.stewardListCommit x.id) s = .next t ∧ t.copy? x.id = some y ∧
        y.index.ready = x.index.ready.drop 4096 ∧ t.cores = s.cores ∧ t.jobs = s.jobs ∧ t.objs = s.objs) ∧
    (x.kind = .index → x.compacting = false →
      (x.field 0x80 8 ≠ 0 ∧ 3 * (x.field 0x20 4 * 128) ≤ 4 * x.field 0x80 8 ∨
        x.field 0x78 8 ≠ 0 ∧ x.field 0x70 8 ≤ 16 * x.field 0x78 8) →
      exec (.autoCompaction x.id) s = .next (s.modCopy x.id (fun x => { x with index := { x.index with
        full := some (0, 0) } })))

/-! ### Jobs from outside (R88 to R96, R103 to R112, R198 to R204) -/

/-- R60, R90 to R95, R103, R111, R112: SUBMIT_JOB loads a READY job under a new handle or refuses it with its
reason; INVOKE and SEARCH put a request on the pending list, and one for an ended job completes at once;
RECLAIM ends a READY job with cause 2 and winds a running one down; END_JOB stops admission, and takes an ended job away;
a start places the job on its cores, in rank order. -/
def Obligations.JobCommands : Prop :=
  ∀ (s : State) (u : Nat) (c : Cmd),
    (∀ ctx q, Runs s u 0x30 c → (∀ j ∈ s.jobs, j.submit ≠ some u) → ctx < 4096 → s.job? ctx = none →
      s.jobs.length < 4096 → s.queue? c.queue = some q →
      let j := s.jobOf q.pod ctx u c.payload
      (∀ r, s.submitReason q.pod c.payload j = some r → ∃ t, exec (.submitJob u ctx) s = .next t ∧
        Ends s u { status := .badPacket, result1 := r } t) ∧
      (s.submitReason q.pod c.payload j = none →
        ∃ t h k, exec (.submitJob u ctx) s = .next t ∧ h / 2 ^ 56 = 4 ∧ h % 4096 = ctx ∧
          t.jobs = s.jobs ++ [{ j with handle := h, readyAt := k }] ∧ t.cores = s.cores ∧ t.objs = s.objs ∧
          t.copies = s.copies)) ∧
    (∀ j, s.jobByHandle? c.object = some j → s.job? j.ctx = some j →
      (∀ row ∈ [(Instr.invoke u, 0x31), (.search u, 0x32)],
        Runs s u row.2 c →
        (j.state = .ended → ∃ t, exec row.1 s = .next t ∧ Ends s u (requestVerdict j.ended j.faultPc) t) ∧
        (j.state ≠ .ended → j.closing = true → ∃ t, exec row.1 s = .next t ∧ Ends s u { status := .notBound } t) ∧
        (j.state ≠ .ended → j.closing = false → u ∉ j.pendingReqs → (∀ b ∈ j.batch, b.uid ≠ u) →
          ∃ t j', exec row.1 s = .next t ∧ t.job? j.ctx = some j' ∧
            j' = { j with pendingReqs := j'.pendingReqs, rail := j'.rail, acct := j'.acct } ∧
            (∀ v, v ∈ j'.pendingReqs ↔ v = u ∨ v ∈ j.pendingReqs) ∧ t.cores = s.cores ∧ t.objs = s.objs)) ∧
      (Runs s u 0x33 c → (∀ r ∈ j.reclaims, r.1 ≠ u) →
        (j.state = .ready → j.endJobs = [] → ∃ t j', exec (.reclaim u) s = .next t ∧ t.job? j.ctx = some j' ∧
          j'.state = .ended ∧ j'.ended = { cause := 2 } ∧ j'.cores = []) ∧
        (j.state = .running → ∃ t j', exec (.reclaim u) s = .next t ∧ t.job? j.ctx = some j' ∧
          j'.state = .winding ∧ j'.cores = j.cores ∧ (∃ x, j'.reclaims = j.reclaims ++ [(u, x)]) ∧
          ∀ n, (t.core n).job = (s.core n).job ∧ (t.core n).pc = (s.core n).pc)) ∧
      (Runs s u 0x34 c → u ∉ j.endJobs →
        (j.state ≠ .ended → ∃ t j', exec (.endJob u) s = .next t ∧ t.job? j.ctx = some j' ∧
          j' = { j with closing := true, endJobs := j.endJobs ++ [u], pendingReqs := [] } ∧ t.cores = s.cores) ∧
        (j.state = .ended → ∃ t, exec (.endJob u) s = .next t ∧ t.job? j.ctx = none ∧ t.cores = s.cores))) ∧
    (∀ (j : Job) (cores : List (Fin 32)), s.job? j.ctx = some j → s.awake = true →
      (s.nextJob j.pod).map (fun x => x.ctx) = some j.ctx → cores.Nodup → s.cores.length = 32 →
      (∀ n ∈ cores, n.val ∈ s.freeCoresOf j.pod) → s.recordLost j cores.length = false →
      cores.length = min (j.resolved.getD (if j.slate.cores = 0 then (s.podCores j.pod).length else j.slate.cores))
        (s.freeCoresOf j.pod).length →
      ∃ t j', exec (.jobStart j.ctx cores) s = .next t ∧ t.job? j.ctx = some j' ∧ j'.state = .running ∧
        j'.cores = cores.map (fun n => n.val) ∧ j'.acct.runs = j.acct.runs + 1 ∧ j'.submit = none ∧
        (∀ r (h : r < cores.length), (t.core cores[r].val).job = some j.ctx ∧ (t.core cores[r].val).rank = r ∧
          (j.lastCut = none → (t.core cores[r].val).pc = j.slate.entry ∧
            (t.core cores[r].val).cutKind = 3 ∧ (t.core cores[r].val).sreg 1 = BitVec.ofNat 64 r)) ∧
        ∀ m : Fin 32, m ∉ cores → t.core m.val = s.core m.val)

/-- R105 to R109: when a core's count reaches the budget the job winds down if another job of its Pod is READY,
else the counts restart; that it was reached is kept where the job winds down already; a WINDING job past its grace ends with cause 3 under a RECLAIM and fails with cause 1
without; a region ends, and one over its overrun limit fails the job with BUDGET_OVERRUN. -/
def Obligations.BudgetsEnd : Prop :=
  ∀ (s : State) (n : Fin 32) (j : Job), s.job? j.ctx = some j → (s.core n.val).job = some j.ctx →
    n.val < s.cores.length →
    (j.state = .winding → j.budgetOut = false → j.slate.budget ≠ 0 →
      ∃ t j', exec (.budgetExpiry n) s = .next t ∧ t.job? j.ctx = some j' ∧ j'.state = .winding ∧
        j'.budgetOut = true ∧ j'.cores = j.cores ∧ ∀ m, (t.core m).pc = (s.core m).pc) ∧
    (j.state = .running → j.budgetOut = false → j.slate.budget ≠ 0 →
      ((∃ x ∈ s.jobs, x.pod = j.pod ∧ x.ctx ≠ j.ctx ∧ x.state = .ready) →
        ∃ t j', exec (.budgetExpiry n) s = .next t ∧ t.job? j.ctx = some j' ∧ j'.state = .winding ∧
          j'.budgetOut = true ∧ j'.cores = j.cores ∧ ∀ m, (t.core m).pc = (s.core m).pc) ∧
      ((∀ x ∈ s.jobs, x.pod = j.pod → x.ctx ≠ j.ctx → x.state ≠ .ready) →
        ∃ t j', exec (.budgetExpiry n) s = .next t ∧ t.job? j.ctx = some j' ∧ j'.state = .running ∧
          (∀ m ∈ j.cores, (t.core m).runCycles = 0) ∧ ∀ m, (t.core m).pc = (s.core m).pc)) ∧
    (j.state = .winding → j.region = false → j.endJobs = [] →
      (j.reclaims ≠ [] ∨ j.reclaiming = true → ∃ t j', exec (.cutGraceExpiry n) s = .next t ∧
        t.job? j.ctx = some j' ∧ j'.state = .ended ∧ j'.ended = { cause := 3 } ∧ j'.cores = []) ∧
      (j.reclaims = [] → j.reclaiming = false → ∃ t, exec (.cutGraceExpiry n) s = .next t ∧
        Failed t j.ctx .engineFault 1 noPc)) ∧
    (∀ overrun, j.region = true → j.endJobs = [] → s.integ.t1Ecc = [] →
      let excess := if j.budgetOut then overrun else 0
      (j.slate.overrunLimit ≠ 0 → j.slate.overrunLimit < excess →
        ∃ t, exec (.regionEnd j.ctx overrun) s = .next t ∧ Failed t j.ctx .budgetOverrun 11 noPc) ∧
      (∀ n places table, j.slate.overrunLimit = 0 ∨ excess ≤ j.slate.overrunLimit → j.cores.head? = some n →
        (s.core n).hold = some (.take places table) → j.pendingReqs = [] →
        ∃ t j', exec (.regionEnd j.ctx overrun) s = .next t ∧ t.job? j.ctx = some j' ∧ j'.region = false ∧
          j'.acct.overrunCycles = j.acct.overrunCycles + excess * j.cores.length ∧
          j'.acct.overrunEvents = j.acct.overrunEvents + (if excess = 0 then 0 else 1) ∧
          j'.writable = Mem.write j.writable (table + 4) (leBytes 4 0) ∧
          ∀ m ∈ j.cores, (t.core m).hold = none ∧ (t.core m).sregs = (s.core m).sregs))

/-! ### The Spool (R340 to R357, R402) -/

/-- R351 to R354: RD_REQ of an export range is answered with its bytes and WR_REQ of an inbox writes its bytes and
is acknowledged; an access that no export or inbox allows is answered by a NAK and sets DENIED; a frame for
another module waits to go on toward it, with one hop less when it leaves. No core, job or object changes. (The
responses wait at the egress for requester 34: R348. T1 beats with errors: log 21.) -/
def Obligations.RequestsAreServed : Prop :=
  ∀ (s : State) (p : Fin 8) (f : Frame), Takes s p f → (s.port p.val).state = .active →
    s.spool.inboxes.length = 64 →
    (f.dst.toNat = s.spool.moduleId.toNat →
      (f.ftype = 1 → f.src.toNat ≠ s.spool.moduleId.toNat →
        (∀ c o q, s.integ.t1Ecc = [] →
          s.exportPlace f.tenant.toNat f.offset.toNat f.arg.toNat = some (c, o) →
          s.pageLost c.id (pageOf o) = false → s.pageLost c.id (pageOf (o + f.arg.toNat - 1)) = false →
          s.routePort (s.reply f 2 (Mem.bytes c.mem o f.arg.toNat)) = some q →
          ∃ t g, exec (.rdReq p f) s = .next t ∧ SameWork s t ∧ Sends s t q 34 g ∧ g.ftype = 2 ∧ g.dst = f.src ∧
            g.reqId = f.reqId ∧ g.tenant = f.tenant ∧ g.payload = Mem.bytes c.mem o f.arg.toNat) ∧
        (∀ q, s.exportPlace f.tenant.toNat f.offset.toNat f.arg.toNat = none →
          s.routePort (s.nakFor f .pageFaultFatal) = some q →
          ∃ t g, exec (.rdReq p f) s = .next t ∧ SameWork s t ∧ Sends s t q 34 g ∧ g.ftype = 5 ∧ g.dst = f.src ∧
            g.reqId = f.reqId ∧ g.arg.toNat = 0x0305 ∧ t.spool.event.getLsbD 4 = true)) ∧
      (f.ftype = 3 →
        (∀ x o q, s.integ.t1Ecc = [] →
          s.inboxPlace f.tenant.toNat f.offset.toNat f.payload.length false = some (x, o) →
          s.routePort (s.reply f 4 []) = some q → Sparse.wf (s.inbox x).mem = true → f.payload ≠ [] →
          ∃ t g, exec (.wrReq p f) s = .next t ∧ SameWork s t ∧ Sends s t q 34 g ∧ g.ftype = 4 ∧ g.dst = f.src ∧
            g.reqId = f.reqId ∧ (∀ y, 1 ≤ y → y ≤ 64 → y ≠ x → t.inbox y = s.inbox y) ∧
            ∀ i, Sparse.get (t.inbox x).mem i =
              if o ≤ i ∧ i < o + f.payload.length then f.payload.getD (i - o) 0
              else Sparse.get (s.inbox x).mem i) ∧
        (∀ q, s.inboxPlace f.tenant.toNat f.offset.toNat f.payload.length false = none →
          s.routePort (s.nakFor f .pageFaultFatal) = some q →
          ∃ t g, exec (.wrReq p f) s = .next t ∧ SameWork s t ∧ Sends s t q 34 g ∧ g.ftype = 5 ∧ g.dst = f.src ∧
            g.reqId = f.reqId ∧ g.arg.toNat = 0x0305 ∧ t.spool.event.getLsbD 4 = true ∧
            t.spool.inboxes = s.spool.inboxes))) ∧
    (f.dst.toNat ≠ s.spool.moduleId.toNat → f.hops ≠ 0 → ∀ q, s.routePort f = some q →
      ∀ row ∈ [(Instr.rdReq p f, 1), (.rdRsp p f, 2), (.wrReq p f, 3), (.wrAck p f, 4), (.nak p f, 5)],
        f.ftype.toNat = row.2 →
        ∃ t, exec row.1 s = .next t ∧ SameWork s t ∧ Sends s t q 34 f ∧
          (s.leaving q f).hops.toNat + 1 = f.hops.toNat ∧ (s.leaving q f).payload = f.payload ∧
          t.spool.serviceBytes = s.spool.serviceBytes + f.bytes)

/-- R353 to R356: the answer to a mover's last outstanding request makes its transfer DONE, the bytes of a read
written at their place; a NAK fails the job with the status it carries; a request without an answer waits to go out
again by the next port, at most twice, and then fails its job. -/
def Obligations.ResponsesEndRequests : Prop :=
  ∀ (s : State) (p : Fin 8) (f : Frame) (r : RemoteReq) (j : Job),
    (s.core r.core).job = some j.ctx → s.job? j.ctx = some j → r.core ∈ j.cores → j.endJobs = [] →
    j.state ≠ .ended →
    let c := s.core r.core
    let x := c.xfer r.slot
    (Takes s p f → (s.port p.val).state = .active → f.dst.toNat = s.spool.moduleId.toNat →
      s.requestOf f = some r →
      (∀ st, f.ftype = 5 → frameStatus f = some st →
        ∃ t cause, exec (.nak p f) s = .next t ∧ Failed t j.ctx st cause x.pc) ∧
      (s.remoteOf r.core r.slot = [r] → x.state = .active → x.asked = x.beats → r.beat + 1 = x.beats →
        r.core < s.cores.length → r.slot < 8 → c.hold = none →
        (f.ftype = 4 → r.frame.ftype = 3 → ∃ t, exec (.wrAck p f) s = .next t ∧
          ((t.core r.core).xfer r.slot).state = .done ∧ t.spool.requests = s.spool.requests.filter (fun q => q.id != r.id) ∧
          (t.core r.core).os = c.os ∧ (t.core r.core).lwb = c.lwb ∧ (t.core r.core).sregs = c.sregs) ∧
        (f.ftype = 2 → r.frame.ftype = 1 → f.payload.length = 64 → r.frame.arg.toNat = 64 → r.beats = 1 →
          x.mode = .copy → c.osEcc = [] → (s.flip (osFlip r.core)).armed = false → Sparse.wf c.os = true →
          let l := (x.lAddrs r.beat).headD 0
          l + 64 ≤ 0x800000 →
          ∃ t, exec (.rdRsp p f) s = .next t ∧ ((t.core r.core).xfer r.slot).state = .done ∧
            t.spool.requests = s.spool.requests.filter (fun q => q.id != r.id) ∧
            (t.core r.core).lwb = c.lwb ∧ (t.core r.core).sregs = c.sregs ∧
            ∀ i, Sparse.get (t.core r.core).os i =
              if l ≤ i ∧ i < l + 64 then f.payload.getD (i - l) 0 else Sparse.get c.os i))) ∧
    (s.spool.requests.find? (fun q => q.id == r.id) = some r → s.spoolRuns = true → r.got = none →
      s.spool.valid = true → s.routeValid r.frame.dst.toNat = true →
      (∀ q, r.attempts < 3 → s.nextPort r.frame r.port = some q → q < s.spool.ports.length →
        ∃ t, exec (.spoolRequestTimeout r.id) s = .next t ∧ Sends s t q r.core r.frame ∧
          t.spool.requests.find? (fun q => q.id == r.id) = some { r with attempts := r.attempts + 1, port := q } ∧
          t.cores = s.cores) ∧
      (3 ≤ r.attempts → ∃ t cause, exec (.spoolRequestTimeout r.id) s = .next t ∧
        Failed t j.ctx .fabricUnreachable cause x.pc))

/-- The clear frames of the next message for one link that wait at the egress of port `p` for requester 38. -/
def Sys2Proof.Safety.KeysWait (s t : State) (p : Nat) : Prop :=
  ∃ m, (t.port p).out = (s.port p).out ++ (s.linkFrames 7 (Config.keyMessage m)).map (fun f => (38, f))

/-- R342 to R347, R402: a port comes up from DOWN over training, alignment, HELLO and SECURE to ACTIVE. On its lock
it sends the module's HELLO message. A HELLO message of a peer with the module's own ID, one of a peer outside SERVICE,
one whose chain or owner does not hold, and a key message that does not hold take it back to DOWN with their reason;
LINK acknowledges frames sent and has the others sent again when asked; a frame that breaks R343 only sets MALFORMED.
(Which side sends which key message, and the ends of the exchange: log 24.) -/
def Sys2Proof.Safety.PortsComeUp : Prop :=
  ∀ (s : State) (p : Fin 8), s.spoolRuns = true → s.spool.ports.length = 8 →
    let x := s.port p.val
    (x.state = .down → x.enable = true → s.spool.valid = true →
      ∃ t, exec (.portTrainStart p) s = .next t ∧ t.spool = (s.modPort p.val (fun x => { x with state := .train })).spool ∧
        t.hw = { s.hw with cages := t.hw.cages } ∧ t.hw.cages.getLsbD (cageOf p) = true ∧
        (∀ i < 4, i ≠ cageOf p → t.hw.cages.getLsbD i = s.hw.cages.getLsbD i) ∧
        { t with spool := s.spool, hw := s.hw } = s) ∧
    (∀ slow, x.state = .train → exec (.portTrainingDone p slow) s =
      .next (s.modPort p.val (fun x => { x with state := .align, slow := slow }))) ∧
    (x.state = .align →
      ∃ t fs, exec (.fecLock p) s = .next t ∧ SameWork s t ∧ (t.port p.val).state = .hello ∧
        (∀ q < 8, q ≠ p.val → t.port q = s.port q) ∧ t.spool.sent = fs ++ s.spool.sent ∧
        (∀ g ∈ fs, g.1 = p.val ∧ g.2.ftype = 8 ∧ g.2.guarded = false) ∧
        fs.reverse.map (fun g => g.2.payload) =
          (s.linkFrames 8 (Config.helloMessage s.spool.moduleId s.sec.lc.code Config.ownChain)).map
            (fun g => g.payload)) ∧
    (∀ (f : Frame) (peer : PeerHello), x.state = .hello → f.ftype = 8 → f.guarded = false → f.good = true →
      f.clean = true →
      ∃ t, exec (.hello p f peer) s = .next t ∧ SameWork s t ∧ (∀ q < 8, q ≠ p.val → t.port q = s.port q) ∧
        (peer.id = s.spool.moduleId → (t.port p.val).state = .down ∧ (t.port p.val).fail = 3) ∧
        (peer.id ≠ s.spool.moduleId → peer.lcState ≠ 2 →
          (t.port p.val).state = .down ∧ (t.port p.val).fail = 4) ∧
        (peer.id ≠ s.spool.moduleId → peer.lcState = 2 → s.sec.lc ≠ .service →
          (t.port p.val).state = .hello ∧ (t.port p.val).peer = peer.id) ∧
        (peer.id ≠ s.spool.moduleId → peer.lcState = 2 → s.sec.lc = .service →
          ((Config.chainVerifies peer.chain && Config.peerOwnerMatches peer.chain s.sec.ownerKey) = true →
            (t.port p.val).state = .secure ∧ (t.port p.val).peer = peer.id ∧
            (s.spool.moduleId < peer.id → KeysWait s t p.val)) ∧
          ((Config.chainVerifies peer.chain && Config.peerOwnerMatches peer.chain s.sec.ownerKey) = false →
            (t.port p.val).state = .down ∧ (t.port p.val).fail = 5))) ∧
    (∀ f : Frame, Takes s p f → f.guarded = false → f.ftype = 7 → x.state = .secure ∨ x.state = .active →
      ∃ t, exec (.key p f true) s = .next t ∧ SameWork s t ∧ (∀ q < 8, q ≠ p.val → t.port q = s.port q) ∧
        (Config.keyMessageGood f.payload = false → (t.port p.val).state = .down ∧ (t.port p.val).fail = 5) ∧
        (Config.keyMessageGood f.payload = true →
          (¬ s.spool.moduleId < x.peer → KeysWait s t p.val) ∧
          (x.state = .secure → x.keys.1 = false →
            (t.port p.val).state = .secure ∧ (t.port p.val).keys = (true, false)) ∧
          (x.state = .secure → x.keys.1 = true →
            (t.port p.val).state = .active ∧ (t.port p.val).keys = (true, true) ∧ (t.port p.val).retry = []) ∧
          (x.state = .active → ¬ s.spool.moduleId < x.peer ∨ x.rekey = true →
            (t.port p.val).state = .active ∧ (t.port p.val).keyId = !x.keyId ∧ (t.port p.val).rekey = false) ∧
          (x.state = .active → s.spool.moduleId < x.peer → x.rekey = false →
            (t.port p.val).state = .active ∧ (t.port p.val).keyId = x.keyId ∧ (t.port p.val).keys = x.keys))) ∧
    (∀ f : Frame, Takes s p f → x.state = .active → f.guarded = true → f.ftype = 6 →
      ∃ t, exec (.link p f) s = .next t ∧ SameWork s t ∧
        (t.port p.val).retry = x.retry.filter (fun g => !seqBefore g.lseq.toNat (Config.linkAck f.payload)) ∧
        (Config.linkResend f.payload = false → t.spool.sent = s.spool.sent) ∧
        (Config.linkResend f.payload = true →
          t.spool.sent = (t.port p.val).retry.reverse.map (fun g => (p.val, g)) ++ s.spool.sent) ∧
        (t.port p.val).state = .active ∧ ∀ q < 8, q ≠ p.val → t.port q = s.port q) ∧
    (∀ f : Frame, x.state = .active → f.good = true → f.guarded = true → f.lseq.toNat = x.rxSeq →
      f.clean = false →
      ∃ t, exec (.malformedFrame p f) s = .next t ∧ SameWork s t ∧ t.spool.event.getLsbD 5 = true ∧
        t.spool.sent = s.spool.sent ∧ t.spool.inboxes = s.spool.inboxes ∧ (t.port p.val).out = x.out)

/-- R342, R344, R347: the bound of a state that passes, and an ACTIVE port's lost FEC lock, error rate or missing
LINK frames, take the port to DOWN with their reason, its keys and retry buffer gone; leaving ACTIVE sets
PORT_DOWN and raises vector 0; a rekey begins, by the side with the lower module ID. (Where the spec names no reason,
FAIL is free, and which side begins: log 24.) -/
def Sys2Proof.Safety.PortsGoDown : Prop :=
  ∀ (s : State) (p : Fin 8), s.spool.ports.length = 8 →
    let x := s.port p.val
    (∀ row ∈ [(PortState.train, some 1), (.align, some 2), (.hello, none), (.secure, some 5)], x.state = row.1 →
      ∃ t, exec (.portStateTimeout p) s = .next t ∧ SameWork s t ∧ (t.port p.val).state = .down ∧
        (∀ r, row.2 = some r → (t.port p.val).fail = r) ∧ (t.port p.val).keys = (false, false) ∧
        (t.port p.val).retry = [] ∧ t.host = s.host ∧ ∀ q < 8, q ≠ p.val → t.port q = s.port q) ∧
    (x.state = .active →
      (∀ row ∈ [(Instr.linkFrameTimeout p, none), (.fecLockLoss p, some 2), (.errorRateLimit p, some 6)],
        ∃ t, exec row.1 s = .next t ∧ SameWork s t ∧ (t.port p.val).state = .down ∧
          (∀ r, row.2 = some r → (t.port p.val).fail = r) ∧ (t.port p.val).keys = (false, false) ∧
          (t.port p.val).retry = [] ∧ t.spool.event.getLsbD 1 = true ∧ t.host.vectors = s.host.vectors ++ [0] ∧
          ∀ q < 8, q ≠ p.val → t.port q = s.port q) ∧
      ∃ t, exec (.rekeyTimer p) s = .next t ∧ SameWork s t ∧ (t.port p.val).state = .active ∧
        (t.port p.val).rekey = true ∧ (t.port p.val).txCount = 0 ∧ (t.port p.val).keys = x.keys ∧
        (t.port p.val).keyId = x.keyId ∧ (x.rekey = false → s.spool.moduleId < x.peer → KeysWait s t p.val) ∧
        ∀ q < 8, q ≠ p.val → t.port q = s.port q)

/-- R342 to R347, R402: a Spool port comes up to ACTIVE, and goes DOWN, as its state machine says. -/
def Obligations.PortStates : Prop := PortsComeUp ∧ PortsGoDown

/-! ### Flash management (R313 to R338, R369) -/

/-- Records of the journal stand in their order: none waits, no reserved number is outstanding, and no closed copy
waits for its COMMIT record. -/
def Sys2Proof.Safety.JournalRests (s : State) : Prop :=
  s.media.waiting = [] ∧ s.media.nextProg = s.media.nextJseq ∧
  ∀ l ∈ s.media.lblocks, ∀ m, l.merge = some m → m.closed = false

/-- State `t` holds every sector's content of `s`, and its cores, jobs and objects. -/
def Sys2Proof.Safety.SameSectors (s t : State) : Prop :=
  (∀ k i, t.sectorOf k i = s.sectorOf k i) ∧ t.cores = s.cores ∧ t.jobs = s.jobs ∧ t.objs = s.objs

/-- R318 to R338, R369: programming staged sectors, starting and committing a merge, erasing, relocating, rebuilding
and checkpointing leave every sector of every volume with the content it had; staging shrinks, a merge freezes the
chain and ends in its new superblocks, an erase frees a released superblock and counts its wear or retires it, a
copy takes its source's place. Only sectors of a page that cannot be rebuilt are lost. (When records of the journal
are programmed, and the free choices of superblocks: log 28, 63, 65.) -/
def Obligations.MediaKeepsContent : Prop :=
  ∀ (s : State), s.mediaRuns = true → lblocksWf s = true →
    (∀ lb loc, let l := s.lblock lb
      (∃ e ∈ s.media.staging, e.lb = lb) →
      (l.logFull = false ∨ (l.chain.length < 4 ∧ s.logsUsed < 4096 ∧ s.locFree loc true .log = true)) →
      (∃ t, exec (.stagingProgram lb ⟨loc, true⟩) s = .next t ∧ SameSectors s t ∧
        t.media.staging.length < s.media.staging.length) ∧
      ∃ t, exec (.stagingProgram lb ⟨loc, false⟩) s = .next t ∧ SameSectors s t ∧ t.media.staging = s.media.staging ∧
        (JournalRests s → l.logFull = true →
          (t.sblock loc).role = .retired ∧ t.media.retired = s.media.retired + 1)) ∧
    (∀ lb locs, let l := s.lblock lb
      s.mergeable l locs = true →
      ∀ row ∈ (if s.mergeDue l then [Instr.mergeStart lb locs] else []) ++
          (if s.media.staging.any (fun e => e.lb == lb) then [] else [.logIdleTimeout lb locs]),
        ∃ t m, exec row s = .next t ∧ SameSectors s t ∧ (t.lblock lb).merge = some m ∧ m.frozen = l.chain ∧
          m.locs = locs ∧ m.jseq = s.media.nextJseq ∧ (t.lblock lb).chain = [] ∧
          ∀ p ∈ locs, (t.sblock p).role = .copying) ∧
    (∀ lb m, (s.lblock lb).merge = some m →
      (∀ good, ∃ t, exec (.mergeCommit ⟨lb, good⟩) s = .next t ∧ SameSectors s t) ∧
      (s.media.waiting = [] → s.media.nextProg = m.jseq → (∀ l ∈ s.media.lblocks, ∀ m, l.merge = some m → m.closed = false) →
        ∃ t, exec (.mergeCommit ⟨lb, true⟩) s = .next t ∧
          (t.lblock lb).merge = none ∧ (t.lblock lb).mapped = m.locs ∧ (t.lblock lb).chain = (s.lblock lb).chain ∧
          (∀ p ∈ m.locs, (t.sblock p).role = .mapped) ∧
          ∀ p ∈ (s.lblock lb).mapped ++ m.frozen.map (fun b => b.loc), p ∉ m.locs → (t.sblock p).role = .released)) ∧
    (∀ loc, let b := s.sblock loc
      let units := if b.oneBit then 1 else 10
      JournalRests s →
      (b.role = .released → b.freed ≤ s.media.nextProg →
        (∃ t, exec (.superblockErase loc true) s = .next t ∧ SameSectors s t ∧ t.media.lblocks = s.media.lblocks ∧
          (t.sblock loc).wear = b.wear + units ∧ t.media.wearTotal = s.media.wearTotal + units ∧
          (b.wear + units < 30000 → b.failing = false →
            (t.sblock loc).role = .free ∧ t.media.retired = s.media.retired) ∧
          (30000 ≤ b.wear + units ∨ b.failing = true →
            (t.sblock loc).role = .retired ∧ t.media.retired = s.media.retired + 1)) ∧
        ∃ t, exec (.superblockErase loc false) s = .next t ∧ SameSectors s t ∧ t.media.lblocks = s.media.lblocks ∧
          (t.sblock loc).role = .retired ∧ t.media.retired = s.media.retired + 1) ∧
      (b.role = .retired → ∃ t, exec (.superblockErase loc true) s = .next t ∧ SameSectors s t ∧
        t.sblock loc = { b with owners := [] } ∧ t.media.lblocks = s.media.lblocks)) ∧
    (∀ src dst, let b := s.sblock src
      JournalRests s → s.movable src = true → s.relocDue b = true → s.erased dst b.oneBit = true →
      (b.oneBit = true → (s.sblock dst).duty = b.duty ∨ (s.sblock dst).duty = .spare) →
      ∃ t, exec (.relocation src dst) s = .next t ∧ SameSectors s t ∧
        (t.sblock dst).role = b.role ∧ (t.sblock dst).oneBit = b.oneBit ∧
        (t.sblock src).role =
          (if s.setFailed src.dieSet.val || b.failing then .retired else .released) ∧
        ∀ lb, src ∈ (s.lblock lb).mapped → dst ∈ (t.lblock lb).mapped) ∧
    (s.media.journal ≠ [] → JournalRests s → ∃ t, exec .journalCheckpoint s = .next t ∧ SameSectors s t ∧
      (∀ r ∈ t.media.journal, s.media.nextJseq < r.jseq) ∧
      t.media.checkpointJseq = s.media.nextJseq ∧ t.media.checkpoints = s.media.checkpoints + 1 ∧
      t.media.lblocks = s.media.lblocks) ∧
    (∀ loc (sectors : List Nat), (s.sblock loc).role = .mapped ∨ (s.sblock loc).role = .log → sectors.length ≤ 4 →
      (s.diesFailed loc.dieSet.val < 2 →
        ∃ t, exec (.stripeRebuild (.sectors loc sectors) true) s = .next t ∧ (t.sblock loc).rebuilt = true ∧
          SameSectors s t) ∧
      ∃ t, exec (.stripeRebuild (.sectors loc sectors) false) s = .next t ∧ t.media.event.getLsbD 3 = true ∧
        (∀ k i, i ∉ sectors → t.sectorOf k i = s.sectorOf k i) ∧
        ∀ k l i, s.lblock? k = some l → loc ∈ l.mapped → i ∈ sectors →
          (∀ e ∈ s.media.staging, e.lb = k → e.sector ≠ i) →
          (∀ e ∈ chainEntries (l.frozen ++ l.chain), e.sector ≠ i) → (t.sectorOf k i).bad = true) ∧
    (∀ c pg loc, s.copy? c.id = some c → s.pageLoc c pg = some loc →
      (s.diesFailed loc.dieSet.val < 2 →
        ∃ t, exec (.stripeRebuild (.object c.id pg) true) s = .next t ∧ (t.sblock loc).rebuilt = true ∧
          SameSectors s t ∧ t.copies = s.copies) ∧
      ∃ t y, exec (.stripeRebuild (.object c.id pg) false) s = .next t ∧ t.copy? c.id = some y ∧
        pg ∈ y.unreadable ∧ y.mem = c.mem ∧ t.pages = s.pages ∧ SameSectors s t) ∧
    (∀ (d : Fin 144) (i : Fin 16), ∃ t, exec (.dieFail d i) s = .next t ∧ (d.val, i.val) ∈ t.media.failedDies ∧
      t.media.lblocks = s.media.lblocks ∧ SameSectors s t) ∧
    (∀ lb l, s.lblock? lb = some l → ∃ t, exec (.mapEntryRebuild lb) s = .next t ∧ t.media = s.media ∧
      t.integ.event.getLsbD 4 = true ∧ SameSectors s t)

/-! ### Registers (R15 to R17, R36, R342, R349, R350, R366, R367, R407 to R419) -/

/-- R415, R416: with the lock armed a write of a guarded register has no effect but GUARD_ERR; the key opens the
lock, another value with a mask sets KEY_ERR and arms it, a write without mask does nothing, and the lock's time-out
arms it. -/
def Obligations.LockGuardsRegisters : Prop :=
  ∀ (s : State) (v : BitVec 32) (x : BitVec 64) (w : BitVec 256) (i : Fin 64) (k : Fin 82) (whole : Bool)
    (stop : CommitEnd) (env : StartEnv), s.bar0 = true →
    (s.link.guardOpen = false → s.hw.started = true →
      ∀ row ∈ [Instr.spoolIdWrite v, .exportWrite i w, .inboxWrite i v] ++
          (if bitOf v.toNat 0 then [.lcGo v whole env] else []) ++
          (if bits x.toNat 1 0 = 1 then [.fwStage x] else []) ++
          (if bits x.toNat 1 0 = 2 then [.fwCommit x stop env] else []) ++
          (if bits (maskWrite 0 v.toNat) 1 0 = 1 then [.splitWrite v] else []) ++
          (if bits (maskWrite 0 v.toNat) 1 0 = 2 then [.rawRead v] else []) ++
          (if bitOf v.toNat 31 then [.flipArm k v] else []),
        exec row s = .next { s with link := { s.link with regEvent := s.link.regEvent ||| 1 } }) ∧
    (s.link.guardOpen = false → exec (.guardKeyWrite 0xFFFFC1A9) s =
      .next { s with link := { s.link with guardOpen := true } }) ∧
    (v ≠ 0xFFFFC1A9 → v.toNat / 65536 ≠ 0 → exec (.guardKeyWrite v) s =
      .next { s with link := { s.link with guardOpen := false, regEvent := s.link.regEvent ||| 2 } }) ∧
    (v.toNat / 65536 = 0 → exec (.guardKeyWrite v) s = .next s) ∧
    exec .guardLockTimeout s = .next { s with link := { s.link with guardOpen := false } }

/-- R16, R17, R148, R408 to R412: an 8-byte read returns a wide register, a read of its low half latches the rest,
which a read of the high half returns; a form that R408 does not allow reads 0 and writes nothing; writes of event
fields clear the bits written as 1; ARB_HOLD takes its value. No read changes more than the latch. -/
def Obligations.RegistersAreAccessed : Prop :=
  ∀ (s : State), s.bar0 = true → s.hw.started = true → Sparse.wf s.link.shadow = true →
    (∀ off p, regAt off = some p → regAt (off + 4) = some p → off % 8 = 0 → p.base = off → p.bytes = 8 →
      p.reg.isDoorbell = false →
      (∃ t, exec (.wideRegisterRead off 8) s = .next t ∧ t.host.readData.toNat = s.regValue p.reg % 2 ^ 64 ∧
        t = { s with host := t.host, link := t.link, free := t.free }) ∧
      (∃ t, exec (.wideRegisterRead off 4) s = .next t ∧ t.host.readData.toNat = s.regValue p.reg % 2 ^ 32 ∧
        (Sparse.get t.link.shadow off).toNat = s.regValue p.reg % 2 ^ 256 ∧
        t = { s with host := t.host, link := t.link, free := t.free }) ∧
      ∃ t, exec (.wideRegisterRead (off + 4) 4) s = .next t ∧
        t.host.readData.toNat = (Sparse.get s.link.shadow off).toNat / 2 ^ 32 % 2 ^ 32 ∧
        t = { s with host := t.host, free := t.free }) ∧
    (∀ off size v, accessGood off size = false → covered off size ≠ [] →
      (∃ t, exec (.wideRegisterRead off size) s = .next t ∧ t.host.readData = 0 ∧
        t = { s with host := t.host, link := { s.link with regEvent := s.link.regEvent ||| 8 } }) ∧
      (startsCourse off size v.toNat = false → ∃ t, exec (.registerWrite off size v) s = .next t ∧
        t = { s with link := { s.link with
          regEvent := s.link.regEvent ||| 8, guardOpen := t.link.guardOpen } })) ∧
    (∀ v : BitVec 256,
      (∃ t, exec (.registerWrite 0x38 4 v) s = .next t ∧ inside t = inside s ∧
        t.link.regEvent = s.link.regEvent &&& ~~~ v.truncate 5) ∧
      (∃ t, exec (.registerWrite 0x500010 4 v) s = .next t ∧
        inside t = inside { s with media := { s.media with event := s.media.event &&& ~~~ v.truncate 5 } }) ∧
      (∃ t, exec (.registerWrite 0x600008 4 v) s = .next t ∧
        inside t = inside { s with spool := { s.spool with event := s.spool.event &&& ~~~ v.truncate 6 } }) ∧
      (∃ t, exec (.registerWrite 0x700000 4 v) s = .next t ∧
        inside t = inside { s with integ := { s.integ with event := s.integ.event &&& ~~~ v.truncate 5 } }) ∧
      (∃ t, exec (.registerWrite 0x900008 4 v) s = .next t ∧
        inside t = inside { s with hw := { s.hw with event := s.hw.event &&& ~~~ v.truncate 4 } }) ∧
      ∀ i : Fin 66, ∃ t, exec (.registerWrite (0x400008 + 32 * i.val) 8 v) s = .next t ∧
        inside t = inside (s.modArb i.val (fun a => { a with hold := v.truncate 64 })))

/-- R17, R47, R418, R419: writing ENABLE as 1 brings the admin queue up with the depths that the write leaves and the
addresses written, or sets ERR; writing it as 0 takes down a queue that has nothing outstanding. -/
def Obligations.AdminQueueSwitches : Prop :=
  ∀ (s : State) (v : BitVec 32), s.bar0 = true → bitOf v.toNat 16 = true →
    (let word := maskWrite (pack [(8, s.link.admin.cqLog2.toNat), (3, s.link.admin.sqLog2.toNat), (0, 0)]) v.toNat
     let sq := bits word 7 3
     let cq := bits word 12 8
     let fits := decide (6 ≤ sq ∧ sq ≤ 16 ∧ 6 ≤ cq ∧ cq ≤ 16 ∧ s.link.admin.sqOffset + 64 * 2 ^ sq ≤ 2 ^ 30) &&
       !s.claimed (s.link.admin.sqOffset, 64 * 2 ^ sq)
     bitOf v.toNat 0 = true → s.link.admin.enable = false → s.link.admin.ready = false →
     (fits = true → s.hw.started = true → s.queue? 0 = none →
       ∃ t, exec (.adminEnable v) s = .next t ∧ inside t = inside s ∧ t.link.admin.enable = true ∧
         t.link.admin.ready = true ∧ t.link.admin.err = false ∧ t.link.guardOpen = false ∧
         t.queue? 0 = some { id := 0, pod := 0, cls := 0, sqLog2 := sq, cqLog2 := cq
                             sqOffset := s.link.admin.sqOffset, cqAddr := s.link.admin.cqAddr, vector := 0 }) ∧
     (fits = false → ∃ t, exec (.adminEnable v) s = .next t ∧ inside t = inside s ∧
       t.link.admin.err = true ∧ t.link.admin.ready = false ∧ t.link.queues = s.link.queues)) ∧
    (bitOf v.toNat 0 = false → s.link.admin.ready = true → s.cmdsOf 0 = [] →
      ∃ t, exec (.adminDisable v) s = .next t ∧ inside t = inside s ∧ t.link.admin.enable = false ∧
        t.link.admin.ready = false ∧ t.queue? 0 = none)

/-- R342, R349, R350, R366, R367: with the lock open the registers of the Spool and of the integrity block take
what is written, or refuse it with their event; each such write arms the lock. -/
def Obligations.OpenLockTakesWrites : Prop :=
  ∀ (s : State) (v : BitVec 32), s.bar0 = true → s.hw.started = true → s.link.guardOpen = true →
    s.spool.ports.length = 8 → s.spool.inboxes.length = 64 →
    (∃ t, exec (.spoolIdWrite v) s = .next t ∧ t.link.guardOpen = false ∧ t.cores = s.cores ∧ t.jobs = s.jobs ∧
      t.spool.moduleId = v.truncate 12 ∧ t.spool.hopLimit = (v >>> 16).truncate 8 ∧ t.spool.valid = v.getLsbD 31 ∧
      (v.truncate 12 ≠ s.spool.moduleId → ∀ p < 8, (t.port p).state = .down)) ∧
    (∀ (p : Fin 8) (x : BitVec 64), ∃ t, exec (.spoolPortEnableWrite p x) s = .next t ∧ t.cores = s.cores ∧
      (t.port p.val).enable = x.getLsbD 0 ∧ (∀ q < 8, q ≠ p.val → t.port q = s.port q) ∧
      (x.getLsbD 0 = true → (t.port p.val).state = (s.port p.val).state) ∧
      (x.getLsbD 0 = false → (t.port p.val).state = .down ∧
        ((s.port p.val).state ≠ .down → (t.port p.val).fail = 7))) ∧
    (∀ (i : Fin 64) (w : BitVec 256),
      let e : Export :=
        { handle := bits w.toNat 255 192, tenant := bits w.toNat 191 176, cls := bits w.toNat 161 160
          valid := bitOf w.toNat 128, length := bits w.toNat 111 64, base := bits w.toNat 47 0 }
      (e.valid = false ∨ s.exportGood i.val e = true → ∃ t, exec (.exportWrite i w) s = .next t ∧
        t.spool = { s.spool with exports := s.spool.exports.set i.val e } ∧ t.link.guardOpen = false) ∧
      (e.valid = true → s.exportGood i.val e = false → ∃ t, exec (.exportWrite i w) s = .next t ∧
        t.link.guardOpen = false ∧
        t.spool = { s.spool with
          event := s.spool.event ||| 1, exports := s.spool.exports.set i.val { e with valid := false } })) ∧
    (∀ i : Fin 64, let p := i.val + 1
      let old := (s.inbox p).pages
      let new := bits v.toNat 5 0
      ((s.pod? p).isSome = true → new ≤ 32 → new ≤ old ∨ s.canRelease p (new - old) = true →
        ∃ t, exec (.inboxWrite i v) s = .next t ∧ (t.inbox p).pages = new ∧
          (t.inbox p).tenant = bits v.toNat 31 16 ∧ (t.inbox p).cls = bits v.toNat 15 14 ∧
          (∀ a, Sparse.get (t.inbox p).mem a =
            if a < min old new * 0x200000 then Sparse.get (s.inbox p).mem a else 0) ∧
          t.cores = s.cores ∧ t.objs = s.objs) ∧
      ((s.pod? p).isSome = true → new ≤ 32 → old < new → s.canRelease p (new - old) = false →
        ∃ t, exec (.inboxWrite i v) s = .next t ∧ t.spool.event = s.spool.event ||| 1 ∧
          t.inbox p = { s.inbox p with tenant := bits v.toNat 31 16, cls := bits v.toNat 15 14 } ∧
          t.cores = s.cores ∧ t.objs = s.objs ∧ t.pages = s.pages) ∧
      ((s.pod? p).isSome = false → ∃ t, exec (.inboxWrite i v) s = .next t ∧
        t.spool = { s.spool with event := s.spool.event ||| 1 })) ∧
    (let word := maskWrite (pack [(8, s.integ.splitCore.toNat), (2, s.integ.splitTarget.toNat)]) v.toNat
     let n := bits word 12 8
     let u := s.integ.splitAddr.toNat / 8
     bits word 3 2 = 0 → n < s.cores.length → 8 * u < 0x800000 →
     ((s.core n).pod = some 0 ∨ s.coreFenced n = true →
       (bits word 1 0 = 1 → Sparse.wf (s.core n).os = true →
         ∃ t, exec (.splitWrite v) s = .next t ∧ t.integ.splitDone = true ∧
           t.core n = { s.core n with os := (t.core n).os, osEcc := (t.core n).osEcc } ∧
           (∀ i, i < 8 * u ∨ 8 * u + 8 ≤ i → Sparse.get (t.core n).os i = Sparse.get (s.core n).os i) ∧
           ∀ m, m ≠ n → t.core m = s.core m) ∧
       (bits word 1 0 = 2 → (∀ k ∈ (s.core n).osEcc, k.unit ≠ u) →
         ∃ t, exec (.rawRead v) s = .next t ∧ t.integ.splitDone = true ∧
           t.integ.splitData = BitVec.ofNat 64 (Mem.field (s.core n).os (8 * u) 8) ∧
           t.integ.splitCheck = Config.eccCheck u t.integ.splitData ∧ t.cores = s.cores)) ∧
     ((s.core n).pod ≠ some 0 → s.coreFenced n = false → bits word 1 0 = 1 →
       ∃ t, exec (.splitWrite v) s = .next t ∧ t.integ.splitRefused = true ∧ t.integ.splitDone = true ∧
         t.cores = s.cores)) ∧
    (∀ k : Fin 82, v.getLsbD 31 = true →
      (bits v.toNat 5 0 ≤ 38 → ∃ t, exec (.flipArm k v) s = .next t ∧
        t.flip k.val = { armed := true, check := (v >>> 16).truncate 8, word := (v >>> 13).truncate 3
                         req := v.truncate 6, mask := (s.flip k.val).mask } ∧ t.cores = s.cores) ∧
      (38 < bits v.toNat 5 0 → ∃ t, exec (.flipArm k v) s = .next t ∧ t.integ = s.integ ∧ t.cores = s.cores))

/-! ### Security (R383, R387 to R404) -/

/-- R383, R389, R390, R395 to R398, R401, R404: SPDM requests are answered, a session sets the IDE keys; GO with a
token that holds changes the life-cycle state and erases keys, objects and jobs, one that does not only gives its
reason; an image is staged, verified and committed; the end of an operation of the code flash is recorded; a failed
self-test, a failed retry and a watchdog put the module into HARD_ERROR, a failed entropy test into SOFT_ERROR. -/
def Obligations.SecurityRuns : Prop :=
  ∀ (s : State), s.hw.phase = .running → s.sec.err ≠ .hard →
    (s.sec.lc ≠ .blank →
      (∀ i v, s.measurement i = some v →
        exec (.spdmMessage (.getMeasurement i)) s = .next (s.answer (.measurement i v))) ∧
      exec (.spdmMessage .getCertificate) s = .next (s.answer (.chain Config.ownChain)) ∧
      (∀ code, exec (.spdmMessage (.other code)) s = .next (s.answer (.answered code))) ∧
      (∀ req, s.sec.err = .none → s.sec.sessions.length < 4 → ∃ t n user,
        exec (.spdmMessage (.keyExchange req)) s = .next t ∧ t.sec.sessions = s.sec.sessions ++ [(n, user)] ∧
        (∀ x ∈ s.sec.sessions, x.1 ≠ n) ∧
        (user = true ↔ s.sec.lc = .service ∧ ∃ chain, req = some chain ∧
          Config.chainEndsIn chain s.sec.ownerKey = true)) ∧
      (∀ n user, (n, user) ∈ s.sec.sessions → ∃ t, exec (.spdmMessage (.endSession n)) s = .next t ∧
        (∀ x ∈ t.sec.sessions, x.1 ≠ n) ∧ (s.sec.ideBy = some n → t.link.ide = false ∧ t.link.session = false) ∧
        (s.sec.ideBy ≠ some n → t.link = s.link))) ∧
    (∀ n user, s.sec.sessions.find? (fun x => x.1 == n) = some (n, user) → s.link.linkUp = true →
      exec (.ideKmMessage n) s = .next { s with
        link := { s.link with ide := true, session := user }, sec := { s.sec with ideBy := some n } }) ∧
    (s.bar0 = true → s.hw.started = true → s.link.guardOpen = true →
      (∀ (v : BitVec 32) (env : StartEnv), bitOf v.toNat 0 = true → s.sec.lcBusy = false → s.sec.err = .none →
        s.quiet = true →
        let off := bits v.toNat 31 14 * 4096
        let tok := s.apertureBytes off 7283
        (∀ r, s.tokenCause tok (decide (off + 7283 ≤ 2 ^ 30)) = some r →
          ∃ t, exec (.lcGo v true env) s = .next t ∧ t.sec.lc = s.sec.lc ∧
            t.sec.lcReason = BitVec.ofNat 8 r ∧ t.objs = s.objs ∧ t.jobs = s.jobs ∧ t.cores = s.cores) ∧
        (s.tokenCause tok (decide (off + 7283 ≤ 2 ^ 30)) = none →
          ∃ t, exec (.lcGo v true env) s = .next t ∧ t.sec.lc = lcOf (fieldAt tok 4 1) ∧ t.objs = [] ∧
            t.copies = [] ∧ t.jobs = [] ∧ t.sec.keyTable = [] ∧ t.media.lblocks = [] ∧
            t.sec.ownerKey = (if fieldAt tok 4 1 = 2 then bytesAt tok 0x40 2592 else []) ∧
            t.sec.changes = s.sec.changes + 1)) ∧
      (∀ (x : BitVec 64) (env : StartEnv), s.sec.boot = 0 → s.link.session = true → s.sec.err = .none →
        (bits x.toNat 1 0 = 1 → s.sec.fwState ≠ 4 → bits x.toNat 31 14 * 4096 + bits x.toNat 55 32 ≤ 2 ^ 30 →
          ∃ t, exec (.fwStage x) s = .next t ∧ t.sec.fwState = 1 ∧
            t.sec.staged = s.apertureBytes (bits x.toNat 31 14 * 4096) (bits x.toNat 55 32) ∧
            t.cores = s.cores ∧ t.jobs = s.jobs ∧ t.sec.image = s.sec.image) ∧
        (bits x.toNat 1 0 = 2 → s.sec.fwState = 2 → s.quiet = true → s.imageCause s.sec.staged = none →
          env.imageGood = true →
          ∃ t, exec (.fwCommit x .whole env) s = .next t ∧ t.sec.image = some (imageOf s.sec.staged) ∧
            s.sec.svnMin ≤ t.sec.svnMin ∧ t.sec.fwState = 0 ∧ t.jobs = []))) ∧
    (s.sec.fwState = 1 →
      (s.imageCause s.stagedImage = none → exec .fwVerifyDone s = .next { s with sec := { s.sec with fwState := 2 } }) ∧
      ∀ r, s.imageCause s.stagedImage = some r → exec .fwVerifyDone s =
        .next { s with sec := { s.sec with fwReason := BitVec.ofNat 8 r, fwState := 3 } }) ∧
    (∀ (erase : Bool) (r : Fin 4), exec (.cfOperationDone erase r) s = .next { s with sec := { s.sec with
      cfBusy := false, cfLastOp := if erase then 2 else 1, cfResult := BitVec.ofNat 4 r.val } }) ∧
    exec (.entropyTestFail none) s = .next { s with sec := { s.sec with err := .soft } } ∧
    exec (.entropyTestFail (some true)) s = .next { s with sec := { s.sec with err := .none } } ∧
    (s.sec.cfBusy = false → (s.jobs.map (fun j => j.ctx)).Nodup → s.spool.ports.length = 8 →
      ∀ row ∈ [Instr.selfTestPeriodic false, .entropyTestFail (some false), .watchdogExpiry],
        ∃ t, exec row s = .next t ∧ t.sec.err = .hard ∧ t.sec.sessions = [] ∧ t.link.session = false ∧
          (∀ j ∈ t.jobs, j.state = .ended) ∧ (∀ p < 8, (t.port p).state = .down) ∧ t.objs = s.objs)

/-! ### The Dailies and metering (R116, R424 to R432, R440) -/

/-- R27, R36, R116, R421, R425 to R432, R440: the ring is placed or refused, a snapshot is written whole or counted as
lost, a counter folds into its total, a new selection starts its slot from zero, samples leave their core for the ring or
are counted as lost, and a metering interval adds to the rails' energy, throttles a consumer that stood at its allowance
at the reading before too, and ends the throttle of one that is below it and cool. No register of a core changes. (A ring
that is not in the aperture, and readings past what the module can draw: log 67, 68.) -/
def Obligations.DailiesRun : Prop :=
  ∀ (s : State), s.hw.phase = .running →
    (s.bar0 = true → s.hw.started = true → Sparse.wf s.dailies.slots = true → Sparse.wf s.dailies.totals = true →
      Sparse.wf s.dailies.sample = true →
      (∀ v : BitVec 64, let size := bits v.toNat 55 32
        let off := bits v.toNat 29 12
        (size = 0 ∨ s.rings.any (regionsOverlap (off * 4096, size * 4096)) = false →
          ∃ t, exec (.dailiesRingWrite v) s = .next t ∧
            inside t = inside { s with dailies := { s.dailies with
              ringSize := size, ringOffset := off, head := 0, tail := 0 } }) ∧
        (size ≠ 0 → s.rings.any (regionsOverlap (off * 4096, size * 4096)) = true →
          ∃ t, exec (.dailiesRingWrite v) s = .next t ∧ inside t = inside s ∧
            t.link.regEvent = s.link.regEvent ||| 16)) ∧
      (∀ (i : Fin 1320) (v : BitVec 32), i.val % 8 < cntSlots (i.val / 8) →
        (v.truncate 8 ≠ (s.cntSel i.val).event ∨ v.getLsbD 15 ≠ (s.cntSel i.val).level) →
        ∃ t, exec (.cntSelWrite i v) s = .next t ∧
          t.cntSel i.val = { slot := i.val, event := v.truncate 8, level := v.getLsbD 15, changed := true } ∧
          Sparse.get t.dailies.slots i.val = 0 ∧ Sparse.get t.dailies.totals i.val = 0 ∧ t.cores = s.cores ∧
          ∀ k, k ≠ i.val → t.cntSel k = s.cntSel k ∧
            Sparse.get t.dailies.slots k = Sparse.get s.dailies.slots k) ∧
      (∀ (n : Fin 32) (v : BitVec 32), n.val < s.cores.length → ∃ t, exec (.sampleCfgWrite n v) s = .next t ∧
        (Sparse.get t.dailies.sample n.val).toNat = bits v.toNat 31 30 * 2 ^ 30 + bits v.toNat 19 0 ∧
        t.core n.val = { s.core n.val with sampled := 0, tagAt := 0 } ∧ t.jobs = s.jobs) ∧
      (∀ v : BitVec 32, v.getLsbD 30 = true →
        let u : State := { s with dailies := { s.dailies with
          enable := v.getLsbD 31, period := v.truncate 16
          since := if v.getLsbD 31 && !s.dailies.enable then 0 else s.dailies.since } }
        let fits := u.foldAll.dailies.fits (u.foldAll.snapshotRecords.map List.length)
        ∃ t, exec (.snapNow v) s = .next t ∧ t.cores = s.cores ∧ t.jobs = s.jobs ∧
          t.dailies.snap = s.dailies.snap + (if fits then 1 else 0) ∧
          (fits = false → t.dailies.lostSnaps.toNat = min (s.dailies.lostSnaps.toNat + 1) 0xFFFFFFFF))) ∧
    (let u : State := { s with dailies := { s.dailies with since := 0 } }
     let fits := u.foldAll.dailies.fits (u.foldAll.snapshotRecords.map List.length)
     s.dailies.enable = true → s.dailies.ringSize ≠ 0 → max 1 s.dailies.period.toNat ≤ s.dailies.since →
     ∃ t, exec .periodicSnapshot s = .next t ∧ t.cores = s.cores ∧ t.jobs = s.jobs ∧ t.dailies.since = 0 ∧
       t.dailies.snap = s.dailies.snap + (if fits then 1 else 0) ∧
       (fits = false → t.dailies.lostSnaps.toNat = min (s.dailies.lostSnaps.toNat + 1) 0xFFFFFFFF)) ∧
    (∀ i : Fin 1320, i.val % 8 < cntSlots (i.val / 8) → s.stands (i.val / 8) = false →
      2 ^ 47 ≤ (Sparse.get s.dailies.slots i.val).toNat → cntTimed (i.val / 8) (s.cntSel i.val) = false →
      Sparse.wf s.dailies.slots = true → Sparse.wf s.dailies.totals = true →
      ∃ t, exec (.counterFold i) s = .next t ∧ Sparse.get t.dailies.slots i.val = 0 ∧
        Sparse.get t.dailies.totals i.val = Sparse.get s.dailies.totals i.val +
          (Sparse.get s.dailies.slots i.val).zeroExtend 64 ∧ t.cores = s.cores ∧ t.jobs = s.jobs) ∧
    (∀ (n : Fin 32) (k : TagTimes) (m : TagMark), (s.core n.val).tag = some m → n.val < s.cores.length →
      ∃ t, exec (.tagSampleDone n k) s = .next t ∧ t.core n.val = { s.core n.val with tag := none } ∧
        t.jobs = s.jobs ∧ (s.dailies.fits [64] = true → t.dailies.lostSamples = s.dailies.lostSamples) ∧
        (s.dailies.fits [64] = false →
          t.dailies.lostSamples.toNat = min (s.dailies.lostSamples.toNat + 1) 0xFFFFFFFF)) ∧
    (∀ n : Fin 32, (s.core n.val).exact ≠ [] → n.val < s.cores.length →
      let k := (s.core n.val).exact.length
      ∃ t, exec (.exactDrain n) s = .next t ∧ t.core n.val = { s.core n.val with exact := [] } ∧
        t.jobs = s.jobs ∧ (s.dailies.fits [32 + 16 * k] = true → t.dailies.lostSamples = s.dailies.lostSamples) ∧
        (s.dailies.fits [32 + 16 * k] = false →
          t.dailies.lostSamples.toNat = min (s.dailies.lostSamples.toNat + k) 0xFFFFFFFF)) ∧
    (∀ rails : List Nat, Sparse.wf s.hw.energy = true → drawable s.drawLimit rails = true →
      ∃ t, exec (.meteringInterval rails) s = .next t ∧ t.cores = s.cores ∧ t.objs = s.objs ∧
        (s.hw.limEngine = true → atAllowance rails 0 = true → t.hw.thrEngine = true ∧ t.hw.event.getLsbD 0 = true) ∧
        (s.hw.limFlash = true → atAllowance rails 1 = true → t.hw.thrFlash = true ∧ t.hw.event.getLsbD 0 = true) ∧
        (atAllowance rails 0 = false → hotEngine s.hw.temps = false → t.hw.thrEngine = false) ∧
        (atAllowance rails 1 = false → hotFlash s.hw.temps = false → t.hw.thrFlash = false) ∧
        t.dailies.interval = s.dailies.interval + 1 ∧ t.dailies.since = s.dailies.since + 1 ∧
        (∀ j ∈ t.jobs, j.rail = {}) ∧ ∀ i < 38, Sparse.get t.hw.energy i =
          Sparse.get s.hw.energy i + BitVec.ofNat 64 (rails.getD i 0))

/-! ### Pins, supply, temperature, scrubbing (R33, R327, R363, R364, R436 to R447) -/

/-- R33, R327, R363, R364, R437 to R447: losing power, PERST#, PWRDIS, a coolant fault and a thermal trip stop every
job and leave no core with work, and every sector of every volume keeps its content; a start that nothing spoils ends at
step 7 with every object in the pool, and with the map as it stood where no merge was under way; a throttle that a meter
reading called for (log 67), thermal throttles, a high inlet and a weak hold-up bank set their events; a scrub of the
operand store makes a correctable word good and records the row of one that is not. -/
def Obligations.HardwareEvents : Prop :=
  ∀ (s : State),
    (∀ (bank : Bool) (tt : Temps), s.hw.phase = .running → s.hw.p54 = true → s.hw.perst = false →
      s.hw.pwrdis = false → s.hw.coolant = false → tripsAt tt = true →
      ∀ row ∈ [(Instr.powerLoss bank, Phase.off, (0 : BitVec 2)), (.perstAssert, .held, s.hw.lastTrip),
          (.pwrdisAssert, .off, 0), (.coolantFltAssert, .tripped, 1), (.thermalTrip tt, .tripped, 2)],
        ∃ t, exec row.1 s = .next t ∧ t.hw.phase = row.2.1 ∧ t.hw.lastTrip = row.2.2 ∧ t.jobs = [] ∧
          t.link.queues = [] ∧ (∀ n < 32, t.core n = {}) ∧ t.arbs = Arb.resetAll ∧
          t.objs = s.objs.map (fun o => { o with pod := 0 }) ∧
          (s.sec.err ≠ .hard → s.sec.boot = 0 → s.sec.lcBusy = false → lblocksWf s = true →
            ∀ k i, t.sectorOf k i = s.sectorOf k i)) ∧
    (∀ env : StartEnv, env.badRows = [] → env.testsGood = true → env.imageGood = true → env.lostKeys = [] →
      s.sec.changes = s.sec.erasedCount → s.sec.imageValid = true →
      ∀ row ∈ (if s.hw.phase = .held ∧ s.hw.perst = true then [Instr.perstRelease env] else []) ++
          (if s.hw.p54 = false ∧ s.hw.pwrdis = false ∧ s.hw.coolant = false ∧ s.hw.perst = false then
            [.powerApply env] else []) ++
          (if s.hw.p54 = true ∧ s.hw.pwrdis = true ∧ s.hw.coolant = false ∧ s.hw.perst = false then
            [.pwrdisRelease env] else []),
        ∃ t, exec row s = .next t ∧ t.hw.phase = .running ∧ t.hw.started = true ∧ t.hw.startStep = 7 ∧
          t.link.linkUp = env.linkUp ∧ t.link.queues = [] ∧ t.jobs = [] ∧ (∀ n < 32, t.core n = {}) ∧
          t.objs = s.objs.map (fun o => { o with pod := 0 }) ∧ t.sec.lc = s.sec.lc ∧ t.sec.boot = 0 ∧
          t.sec.err = .none ∧
          ((∀ l ∈ s.media.lblocks, l.merge = none ∧ l.chains = l) →
            (∀ r ∈ s.media.runs, 4096 ≤ r.1 / 2097152 → (t.copy? (r.1 / 2097152 - 4096)).isSome = true) →
            t.media.lblocks = s.media.lblocks)) ∧
    exec .coolantFltRelease s = .next { s with hw := { s.hw with coolant := false } } ∧
    (s.hw.phase = .running →
      (∀ env : StartEnv, ∃ t, exec (.hostLinkReset env) s = .next t ∧ t.link.linkUp = env.linkUp ∧
        t.link.session = false ∧ t.link.ide = false ∧ t.sec.sessions = [] ∧ t.link.queues = s.link.queues ∧
        t.link.cmds = s.link.cmds ∧ t.cores = s.cores ∧ t.jobs = s.jobs ∧ t.objs = s.objs) ∧
      (∀ engine, (if engine then s.hw.limEngine else s.hw.limFlash) = true →
        exec (.powerThrottle engine) s = .next { s with hw := { s.hw with
          thrEngine := s.hw.thrEngine || engine, thrFlash := s.hw.thrFlash || !engine
          limEngine := s.hw.limEngine && !engine, limFlash := s.hw.limFlash && engine
          event := s.hw.event ||| 1 } }) ∧
      (∀ tt : Temps, 95 ≤ tt.kebex.toNat ∨ 70 ≤ tt.nand.toNat → exec (.thermalThrottle tt) s =
        .next { s with hw := { s.hw with
          temps := tt, thrEngine := s.hw.thrEngine || decide (95 ≤ tt.kebex.toNat)
          thrFlash := s.hw.thrFlash || decide (70 ≤ tt.nand.toNat), event := s.hw.event ||| 2 } }) ∧
      (∀ tt : Temps, 45 < tt.inlet.toNat → exec (.inletHigh tt) s =
        .next { s with hw := { s.hw with temps := tt, event := s.hw.event ||| 8 } }) ∧
      (∀ ms, ms < 20 → exec (.holdupMeasure ms) s = .next { s with
        hw := { s.hw with holdupWeak := true, event := s.hw.event ||| 4 }
        host := { s.host with vectors := s.host.vectors ++ [0] } }) ∧
      (∀ (n : Fin 32) (w : Nat) (k : EccMark), s.hw.started = true → n.val < s.cores.length →
        (s.core n.val).osEcc.find? (fun k => k.unit == w) = some k → Sparse.wf (s.core n.val).os = true →
        (s.flip (48 + n.val)).armed = false →
        (k.sram = .good → ∃ t, exec (.scrub (.operandStore n w)) s = .next t ∧
          (∀ e ∈ (t.core n.val).osEcc, e.unit ≠ w) ∧ (t.core n.val).sregs = (s.core n.val).sregs ∧
          ∀ i, Sparse.get (t.core n.val).os i = Sparse.get (s.core n.val).os i) ∧
        (k.sram = .lost → ∃ t, exec (.scrub (.operandStore n w)) s = .next t ∧ t.cores = s.cores ∧
          t.integ.event.getLsbD 3 = true)))

/-! ### The whole module (R14, R79, R142, R151, R341) -/

/-- Every step keeps the module's shape: its 32 engine cores, its 66 arbiters, and the ports, export entries and
inboxes of its Spool. -/
def Obligations.ShapeIsKept : Prop :=
  ∀ s t : State, shapeWf s = true → step s = .next t → shapeWf t = true

/-- Every step keeps every memory in its canonical form, so that equal contents stay equal data. -/
def Obligations.MemoryStaysCanonical : Prop :=
  ∀ s t : State, memoryWf s = true → step s = .next t → memoryWf t = true

/-- R14, R79, R142: the reset state meets both invariants; it holds the pool alone, with every core, 47 GiB of
T1 in granules of 256 MiB and 512 sequence slots, no job, no queue, no object, the arbiters' default hold limits,
an armed lock and empty memories. PERST# holds it (log 4). -/
def Obligations.ResetIsWellFormed : Prop :=
  shapeWf State.reset = true ∧ memoryWf State.reset = true ∧ State.reset.pending = [] ∧
  State.reset.pods = [{ id := 0, granules := 188, slots := 512 }] ∧
  (∀ n < 32, (State.reset.core n).pod = some 0 ∧ (State.reset.core n).job = none ∧ (State.reset.core n).os = [] ∧
    (State.reset.core n).sregs = []) ∧
  State.reset.jobs = [] ∧ State.reset.link.queues = [] ∧ State.reset.objs = [] ∧
  (∀ a < 66, (State.reset.arb a).cutEn = true ∧ (State.reset.arb a).ageLimit = 32 ∧
    (State.reset.arb a).overrun = 0 ∧ (State.reset.arb a).grant = none) ∧
  State.reset.link.guardOpen = false ∧ State.reset.link.regEvent = 0 ∧ State.reset.link.aperture = [] ∧
  State.reset.hw.phase = .held ∧ State.reset.hw.pstate = .active
end

