-- ==== Sys2Proof/Laws/Fields.lean ====
section
/-!
SUPPORT. One lemma per field per update of the state that leaves it alone, true by unfolding: a proof cites
them and never unfolds a record update.
-/

namespace Sys2Proof.Machine

/-! ### fresh -/

@[simp] theorem fresh_pending (s : State) : s.fresh.2.pending = s.pending := rfl
@[simp] theorem fresh_clock (s : State) : s.fresh.2.clock = s.clock := rfl
@[simp] theorem fresh_host (s : State) : s.fresh.2.host = s.host := rfl
@[simp] theorem fresh_link (s : State) : s.fresh.2.link = s.link := rfl
@[simp] theorem fresh_cores (s : State) : s.fresh.2.cores = s.cores := rfl
@[simp] theorem fresh_pods (s : State) : s.fresh.2.pods = s.pods := rfl
@[simp] theorem fresh_jobs (s : State) : s.fresh.2.jobs = s.jobs := rfl
@[simp] theorem fresh_gens (s : State) : s.fresh.2.gens = s.gens := rfl
@[simp] theorem fresh_objs (s : State) : s.fresh.2.objs = s.objs := rfl
@[simp] theorem fresh_copies (s : State) : s.fresh.2.copies = s.copies := rfl
@[simp] theorem fresh_nextCopy (s : State) : s.fresh.2.nextCopy = s.nextCopy := rfl
@[simp] theorem fresh_pages (s : State) : s.fresh.2.pages = s.pages := rfl
@[simp] theorem fresh_arbs (s : State) : s.fresh.2.arbs = s.arbs := rfl
@[simp] theorem fresh_media (s : State) : s.fresh.2.media = s.media := rfl
@[simp] theorem fresh_spool (s : State) : s.fresh.2.spool = s.spool := rfl
@[simp] theorem fresh_integ (s : State) : s.fresh.2.integ = s.integ := rfl
@[simp] theorem fresh_sec (s : State) : s.fresh.2.sec = s.sec := rfl
@[simp] theorem fresh_dailies (s : State) : s.fresh.2.dailies = s.dailies := rfl
@[simp] theorem fresh_hw (s : State) : s.fresh.2.hw = s.hw := rfl

/-! ### later -/

@[simp] theorem later_pending (s : State) : s.later.pending = s.pending := rfl
@[simp] theorem later_free (s : State) : s.later.free = s.free := rfl
@[simp] theorem later_host (s : State) : s.later.host = s.host := rfl
@[simp] theorem later_link (s : State) : s.later.link = s.link := rfl
@[simp] theorem later_cores (s : State) : s.later.cores = s.cores := rfl
@[simp] theorem later_pods (s : State) : s.later.pods = s.pods := rfl
@[simp] theorem later_jobs (s : State) : s.later.jobs = s.jobs := rfl
@[simp] theorem later_gens (s : State) : s.later.gens = s.gens := rfl
@[simp] theorem later_objs (s : State) : s.later.objs = s.objs := rfl
@[simp] theorem later_copies (s : State) : s.later.copies = s.copies := rfl
@[simp] theorem later_nextCopy (s : State) : s.later.nextCopy = s.nextCopy := rfl
@[simp] theorem later_pages (s : State) : s.later.pages = s.pages := rfl
@[simp] theorem later_arbs (s : State) : s.later.arbs = s.arbs := rfl
@[simp] theorem later_media (s : State) : s.later.media = s.media := rfl
@[simp] theorem later_spool (s : State) : s.later.spool = s.spool := rfl
@[simp] theorem later_integ (s : State) : s.later.integ = s.integ := rfl
@[simp] theorem later_sec (s : State) : s.later.sec = s.sec := rfl
@[simp] theorem later_dailies (s : State) : s.later.dailies = s.dailies := rfl
@[simp] theorem later_hw (s : State) : s.later.hw = s.hw := rfl

/-! ### setCore -/

@[simp] theorem setCore_pending (s : State) (i : Nat) (c : Core) : (s.setCore i c).pending = s.pending := rfl
@[simp] theorem setCore_free (s : State) (i : Nat) (c : Core) : (s.setCore i c).free = s.free := rfl
@[simp] theorem setCore_clock (s : State) (i : Nat) (c : Core) : (s.setCore i c).clock = s.clock := rfl
@[simp] theorem setCore_host (s : State) (i : Nat) (c : Core) : (s.setCore i c).host = s.host := rfl
@[simp] theorem setCore_link (s : State) (i : Nat) (c : Core) : (s.setCore i c).link = s.link := rfl
@[simp] theorem setCore_pods (s : State) (i : Nat) (c : Core) : (s.setCore i c).pods = s.pods := rfl
@[simp] theorem setCore_jobs (s : State) (i : Nat) (c : Core) : (s.setCore i c).jobs = s.jobs := rfl
@[simp] theorem setCore_gens (s : State) (i : Nat) (c : Core) : (s.setCore i c).gens = s.gens := rfl
@[simp] theorem setCore_objs (s : State) (i : Nat) (c : Core) : (s.setCore i c).objs = s.objs := rfl
@[simp] theorem setCore_copies (s : State) (i : Nat) (c : Core) : (s.setCore i c).copies = s.copies := rfl
@[simp] theorem setCore_nextCopy (s : State) (i : Nat) (c : Core) : (s.setCore i c).nextCopy = s.nextCopy := rfl
@[simp] theorem setCore_pages (s : State) (i : Nat) (c : Core) : (s.setCore i c).pages = s.pages := rfl
@[simp] theorem setCore_arbs (s : State) (i : Nat) (c : Core) : (s.setCore i c).arbs = s.arbs := rfl
@[simp] theorem setCore_media (s : State) (i : Nat) (c : Core) : (s.setCore i c).media = s.media := rfl
@[simp] theorem setCore_spool (s : State) (i : Nat) (c : Core) : (s.setCore i c).spool = s.spool := rfl
@[simp] theorem setCore_integ (s : State) (i : Nat) (c : Core) : (s.setCore i c).integ = s.integ := rfl
@[simp] theorem setCore_sec (s : State) (i : Nat) (c : Core) : (s.setCore i c).sec = s.sec := rfl
@[simp] theorem setCore_dailies (s : State) (i : Nat) (c : Core) : (s.setCore i c).dailies = s.dailies := rfl
@[simp] theorem setCore_hw (s : State) (i : Nat) (c : Core) : (s.setCore i c).hw = s.hw := rfl

/-! ### modCore -/

@[simp] theorem modCore_pending (s : State) (i : Nat) (f : Core → Core) : (s.modCore i f).pending = s.pending := rfl
@[simp] theorem modCore_free (s : State) (i : Nat) (f : Core → Core) : (s.modCore i f).free = s.free := rfl
@[simp] theorem modCore_clock (s : State) (i : Nat) (f : Core → Core) : (s.modCore i f).clock = s.clock := rfl
@[simp] theorem modCore_host (s : State) (i : Nat) (f : Core → Core) : (s.modCore i f).host = s.host := rfl
@[simp] theorem modCore_link (s : State) (i : Nat) (f : Core → Core) : (s.modCore i f).link = s.link := rfl
@[simp] theorem modCore_pods (s : State) (i : Nat) (f : Core → Core) : (s.modCore i f).pods = s.pods := rfl
@[simp] theorem modCore_jobs (s : State) (i : Nat) (f : Core → Core) : (s.modCore i f).jobs = s.jobs := rfl
@[simp] theorem modCore_gens (s : State) (i : Nat) (f : Core → Core) : (s.modCore i f).gens = s.gens := rfl
@[simp] theorem modCore_objs (s : State) (i : Nat) (f : Core → Core) : (s.modCore i f).objs = s.objs := rfl
@[simp] theorem modCore_copies (s : State) (i : Nat) (f : Core → Core) : (s.modCore i f).copies = s.copies := rfl
@[simp] theorem modCore_nextCopy (s : State) (i : Nat) (f : Core → Core) : (s.modCore i f).nextCopy = s.nextCopy := rfl
@[simp] theorem modCore_pages (s : State) (i : Nat) (f : Core → Core) : (s.modCore i f).pages = s.pages := rfl
@[simp] theorem modCore_arbs (s : State) (i : Nat) (f : Core → Core) : (s.modCore i f).arbs = s.arbs := rfl
@[simp] theorem modCore_media (s : State) (i : Nat) (f : Core → Core) : (s.modCore i f).media = s.media := rfl
@[simp] theorem modCore_spool (s : State) (i : Nat) (f : Core → Core) : (s.modCore i f).spool = s.spool := rfl
@[simp] theorem modCore_integ (s : State) (i : Nat) (f : Core → Core) : (s.modCore i f).integ = s.integ := rfl
@[simp] theorem modCore_sec (s : State) (i : Nat) (f : Core → Core) : (s.modCore i f).sec = s.sec := rfl
@[simp] theorem modCore_dailies (s : State) (i : Nat) (f : Core → Core) : (s.modCore i f).dailies = s.dailies := rfl
@[simp] theorem modCore_hw (s : State) (i : Nat) (f : Core → Core) : (s.modCore i f).hw = s.hw := rfl

/-! ### setQueue -/

@[simp] theorem setQueue_pending (s : State) (q : Queue) : (s.setQueue q).pending = s.pending := rfl
@[simp] theorem setQueue_free (s : State) (q : Queue) : (s.setQueue q).free = s.free := rfl
@[simp] theorem setQueue_clock (s : State) (q : Queue) : (s.setQueue q).clock = s.clock := rfl
@[simp] theorem setQueue_host (s : State) (q : Queue) : (s.setQueue q).host = s.host := rfl
@[simp] theorem setQueue_cores (s : State) (q : Queue) : (s.setQueue q).cores = s.cores := rfl
@[simp] theorem setQueue_pods (s : State) (q : Queue) : (s.setQueue q).pods = s.pods := rfl
@[simp] theorem setQueue_jobs (s : State) (q : Queue) : (s.setQueue q).jobs = s.jobs := rfl
@[simp] theorem setQueue_gens (s : State) (q : Queue) : (s.setQueue q).gens = s.gens := rfl
@[simp] theorem setQueue_objs (s : State) (q : Queue) : (s.setQueue q).objs = s.objs := rfl
@[simp] theorem setQueue_copies (s : State) (q : Queue) : (s.setQueue q).copies = s.copies := rfl
@[simp] theorem setQueue_nextCopy (s : State) (q : Queue) : (s.setQueue q).nextCopy = s.nextCopy := rfl
@[simp] theorem setQueue_pages (s : State) (q : Queue) : (s.setQueue q).pages = s.pages := rfl
@[simp] theorem setQueue_arbs (s : State) (q : Queue) : (s.setQueue q).arbs = s.arbs := rfl
@[simp] theorem setQueue_media (s : State) (q : Queue) : (s.setQueue q).media = s.media := rfl
@[simp] theorem setQueue_spool (s : State) (q : Queue) : (s.setQueue q).spool = s.spool := rfl
@[simp] theorem setQueue_integ (s : State) (q : Queue) : (s.setQueue q).integ = s.integ := rfl
@[simp] theorem setQueue_sec (s : State) (q : Queue) : (s.setQueue q).sec = s.sec := rfl
@[simp] theorem setQueue_dailies (s : State) (q : Queue) : (s.setQueue q).dailies = s.dailies := rfl
@[simp] theorem setQueue_hw (s : State) (q : Queue) : (s.setQueue q).hw = s.hw := rfl

/-! ### modCmd -/

@[simp] theorem modCmd_pending (s : State) (u : Nat) (f : Cmd → Cmd) : (s.modCmd u f).pending = s.pending := rfl
@[simp] theorem modCmd_free (s : State) (u : Nat) (f : Cmd → Cmd) : (s.modCmd u f).free = s.free := rfl
@[simp] theorem modCmd_clock (s : State) (u : Nat) (f : Cmd → Cmd) : (s.modCmd u f).clock = s.clock := rfl
@[simp] theorem modCmd_host (s : State) (u : Nat) (f : Cmd → Cmd) : (s.modCmd u f).host = s.host := rfl
@[simp] theorem modCmd_cores (s : State) (u : Nat) (f : Cmd → Cmd) : (s.modCmd u f).cores = s.cores := rfl
@[simp] theorem modCmd_pods (s : State) (u : Nat) (f : Cmd → Cmd) : (s.modCmd u f).pods = s.pods := rfl
@[simp] theorem modCmd_jobs (s : State) (u : Nat) (f : Cmd → Cmd) : (s.modCmd u f).jobs = s.jobs := rfl
@[simp] theorem modCmd_gens (s : State) (u : Nat) (f : Cmd → Cmd) : (s.modCmd u f).gens = s.gens := rfl
@[simp] theorem modCmd_objs (s : State) (u : Nat) (f : Cmd → Cmd) : (s.modCmd u f).objs = s.objs := rfl
@[simp] theorem modCmd_copies (s : State) (u : Nat) (f : Cmd → Cmd) : (s.modCmd u f).copies = s.copies := rfl
@[simp] theorem modCmd_nextCopy (s : State) (u : Nat) (f : Cmd → Cmd) : (s.modCmd u f).nextCopy = s.nextCopy := rfl
@[simp] theorem modCmd_pages (s : State) (u : Nat) (f : Cmd → Cmd) : (s.modCmd u f).pages = s.pages := rfl
@[simp] theorem modCmd_arbs (s : State) (u : Nat) (f : Cmd → Cmd) : (s.modCmd u f).arbs = s.arbs := rfl
@[simp] theorem modCmd_media (s : State) (u : Nat) (f : Cmd → Cmd) : (s.modCmd u f).media = s.media := rfl
@[simp] theorem modCmd_spool (s : State) (u : Nat) (f : Cmd → Cmd) : (s.modCmd u f).spool = s.spool := rfl
@[simp] theorem modCmd_integ (s : State) (u : Nat) (f : Cmd → Cmd) : (s.modCmd u f).integ = s.integ := rfl
@[simp] theorem modCmd_sec (s : State) (u : Nat) (f : Cmd → Cmd) : (s.modCmd u f).sec = s.sec := rfl
@[simp] theorem modCmd_dailies (s : State) (u : Nat) (f : Cmd → Cmd) : (s.modCmd u f).dailies = s.dailies := rfl
@[simp] theorem modCmd_hw (s : State) (u : Nat) (f : Cmd → Cmd) : (s.modCmd u f).hw = s.hw := rfl

/-! ### dropCmd -/

@[simp] theorem dropCmd_pending (s : State) (u : Nat) : (s.dropCmd u).pending = s.pending := rfl
@[simp] theorem dropCmd_free (s : State) (u : Nat) : (s.dropCmd u).free = s.free := rfl
@[simp] theorem dropCmd_clock (s : State) (u : Nat) : (s.dropCmd u).clock = s.clock := rfl
@[simp] theorem dropCmd_host (s : State) (u : Nat) : (s.dropCmd u).host = s.host := rfl
@[simp] theorem dropCmd_cores (s : State) (u : Nat) : (s.dropCmd u).cores = s.cores := rfl
@[simp] theorem dropCmd_pods (s : State) (u : Nat) : (s.dropCmd u).pods = s.pods := rfl
@[simp] theorem dropCmd_jobs (s : State) (u : Nat) : (s.dropCmd u).jobs = s.jobs := rfl
@[simp] theorem dropCmd_gens (s : State) (u : Nat) : (s.dropCmd u).gens = s.gens := rfl
@[simp] theorem dropCmd_objs (s : State) (u : Nat) : (s.dropCmd u).objs = s.objs := rfl
@[simp] theorem dropCmd_copies (s : State) (u : Nat) : (s.dropCmd u).copies = s.copies := rfl
@[simp] theorem dropCmd_nextCopy (s : State) (u : Nat) : (s.dropCmd u).nextCopy = s.nextCopy := rfl
@[simp] theorem dropCmd_pages (s : State) (u : Nat) : (s.dropCmd u).pages = s.pages := rfl
@[simp] theorem dropCmd_arbs (s : State) (u : Nat) : (s.dropCmd u).arbs = s.arbs := rfl
@[simp] theorem dropCmd_media (s : State) (u : Nat) : (s.dropCmd u).media = s.media := rfl
@[simp] theorem dropCmd_spool (s : State) (u : Nat) : (s.dropCmd u).spool = s.spool := rfl
@[simp] theorem dropCmd_integ (s : State) (u : Nat) : (s.dropCmd u).integ = s.integ := rfl
@[simp] theorem dropCmd_sec (s : State) (u : Nat) : (s.dropCmd u).sec = s.sec := rfl
@[simp] theorem dropCmd_dailies (s : State) (u : Nat) : (s.dropCmd u).dailies = s.dailies := rfl
@[simp] theorem dropCmd_hw (s : State) (u : Nat) : (s.dropCmd u).hw = s.hw := rfl

/-! ### modJob -/

@[simp] theorem modJob_pending (s : State) (c : Nat) (f : Job → Job) : (s.modJob c f).pending = s.pending := rfl
@[simp] theorem modJob_free (s : State) (c : Nat) (f : Job → Job) : (s.modJob c f).free = s.free := rfl
@[simp] theorem modJob_clock (s : State) (c : Nat) (f : Job → Job) : (s.modJob c f).clock = s.clock := rfl
@[simp] theorem modJob_host (s : State) (c : Nat) (f : Job → Job) : (s.modJob c f).host = s.host := rfl
@[simp] theorem modJob_link (s : State) (c : Nat) (f : Job → Job) : (s.modJob c f).link = s.link := rfl
@[simp] theorem modJob_cores (s : State) (c : Nat) (f : Job → Job) : (s.modJob c f).cores = s.cores := rfl
@[simp] theorem modJob_pods (s : State) (c : Nat) (f : Job → Job) : (s.modJob c f).pods = s.pods := rfl
@[simp] theorem modJob_gens (s : State) (c : Nat) (f : Job → Job) : (s.modJob c f).gens = s.gens := rfl
@[simp] theorem modJob_objs (s : State) (c : Nat) (f : Job → Job) : (s.modJob c f).objs = s.objs := rfl
@[simp] theorem modJob_copies (s : State) (c : Nat) (f : Job → Job) : (s.modJob c f).copies = s.copies := rfl
@[simp] theorem modJob_nextCopy (s : State) (c : Nat) (f : Job → Job) : (s.modJob c f).nextCopy = s.nextCopy := rfl
@[simp] theorem modJob_pages (s : State) (c : Nat) (f : Job → Job) : (s.modJob c f).pages = s.pages := rfl
@[simp] theorem modJob_arbs (s : State) (c : Nat) (f : Job → Job) : (s.modJob c f).arbs = s.arbs := rfl
@[simp] theorem modJob_media (s : State) (c : Nat) (f : Job → Job) : (s.modJob c f).media = s.media := rfl
@[simp] theorem modJob_spool (s : State) (c : Nat) (f : Job → Job) : (s.modJob c f).spool = s.spool := rfl
@[simp] theorem modJob_integ (s : State) (c : Nat) (f : Job → Job) : (s.modJob c f).integ = s.integ := rfl
@[simp] theorem modJob_sec (s : State) (c : Nat) (f : Job → Job) : (s.modJob c f).sec = s.sec := rfl
@[simp] theorem modJob_dailies (s : State) (c : Nat) (f : Job → Job) : (s.modJob c f).dailies = s.dailies := rfl
@[simp] theorem modJob_hw (s : State) (c : Nat) (f : Job → Job) : (s.modJob c f).hw = s.hw := rfl

/-! ### modPod -/

@[simp] theorem modPod_pending (s : State) (p : Nat) (f : Pod → Pod) : (s.modPod p f).pending = s.pending := rfl
@[simp] theorem modPod_free (s : State) (p : Nat) (f : Pod → Pod) : (s.modPod p f).free = s.free := rfl
@[simp] theorem modPod_clock (s : State) (p : Nat) (f : Pod → Pod) : (s.modPod p f).clock = s.clock := rfl
@[simp] theorem modPod_host (s : State) (p : Nat) (f : Pod → Pod) : (s.modPod p f).host = s.host := rfl
@[simp] theorem modPod_link (s : State) (p : Nat) (f : Pod → Pod) : (s.modPod p f).link = s.link := rfl
@[simp] theorem modPod_cores (s : State) (p : Nat) (f : Pod → Pod) : (s.modPod p f).cores = s.cores := rfl
@[simp] theorem modPod_jobs (s : State) (p : Nat) (f : Pod → Pod) : (s.modPod p f).jobs = s.jobs := rfl
@[simp] theorem modPod_gens (s : State) (p : Nat) (f : Pod → Pod) : (s.modPod p f).gens = s.gens := rfl
@[simp] theorem modPod_objs (s : State) (p : Nat) (f : Pod → Pod) : (s.modPod p f).objs = s.objs := rfl
@[simp] theorem modPod_copies (s : State) (p : Nat) (f : Pod → Pod) : (s.modPod p f).copies = s.copies := rfl
@[simp] theorem modPod_nextCopy (s : State) (p : Nat) (f : Pod → Pod) : (s.modPod p f).nextCopy = s.nextCopy := rfl
@[simp] theorem modPod_pages (s : State) (p : Nat) (f : Pod → Pod) : (s.modPod p f).pages = s.pages := rfl
@[simp] theorem modPod_arbs (s : State) (p : Nat) (f : Pod → Pod) : (s.modPod p f).arbs = s.arbs := rfl
@[simp] theorem modPod_media (s : State) (p : Nat) (f : Pod → Pod) : (s.modPod p f).media = s.media := rfl
@[simp] theorem modPod_spool (s : State) (p : Nat) (f : Pod → Pod) : (s.modPod p f).spool = s.spool := rfl
@[simp] theorem modPod_integ (s : State) (p : Nat) (f : Pod → Pod) : (s.modPod p f).integ = s.integ := rfl
@[simp] theorem modPod_sec (s : State) (p : Nat) (f : Pod → Pod) : (s.modPod p f).sec = s.sec := rfl
@[simp] theorem modPod_dailies (s : State) (p : Nat) (f : Pod → Pod) : (s.modPod p f).dailies = s.dailies := rfl
@[simp] theorem modPod_hw (s : State) (p : Nat) (f : Pod → Pod) : (s.modPod p f).hw = s.hw := rfl

/-! ### modObj -/

@[simp] theorem modObj_pending (s : State) (h : Nat) (f : Obj → Obj) : (s.modObj h f).pending = s.pending := rfl
@[simp] theorem modObj_free (s : State) (h : Nat) (f : Obj → Obj) : (s.modObj h f).free = s.free := rfl
@[simp] theorem modObj_clock (s : State) (h : Nat) (f : Obj → Obj) : (s.modObj h f).clock = s.clock := rfl
@[simp] theorem modObj_host (s : State) (h : Nat) (f : Obj → Obj) : (s.modObj h f).host = s.host := rfl
@[simp] theorem modObj_link (s : State) (h : Nat) (f : Obj → Obj) : (s.modObj h f).link = s.link := rfl
@[simp] theorem modObj_cores (s : State) (h : Nat) (f : Obj → Obj) : (s.modObj h f).cores = s.cores := rfl
@[simp] theorem modObj_pods (s : State) (h : Nat) (f : Obj → Obj) : (s.modObj h f).pods = s.pods := rfl
@[simp] theorem modObj_jobs (s : State) (h : Nat) (f : Obj → Obj) : (s.modObj h f).jobs = s.jobs := rfl
@[simp] theorem modObj_gens (s : State) (h : Nat) (f : Obj → Obj) : (s.modObj h f).gens = s.gens := rfl
@[simp] theorem modObj_copies (s : State) (h : Nat) (f : Obj → Obj) : (s.modObj h f).copies = s.copies := rfl
@[simp] theorem modObj_nextCopy (s : State) (h : Nat) (f : Obj → Obj) : (s.modObj h f).nextCopy = s.nextCopy := rfl
@[simp] theorem modObj_pages (s : State) (h : Nat) (f : Obj → Obj) : (s.modObj h f).pages = s.pages := rfl
@[simp] theorem modObj_arbs (s : State) (h : Nat) (f : Obj → Obj) : (s.modObj h f).arbs = s.arbs := rfl
@[simp] theorem modObj_media (s : State) (h : Nat) (f : Obj → Obj) : (s.modObj h f).media = s.media := rfl
@[simp] theorem modObj_spool (s : State) (h : Nat) (f : Obj → Obj) : (s.modObj h f).spool = s.spool := rfl
@[simp] theorem modObj_integ (s : State) (h : Nat) (f : Obj → Obj) : (s.modObj h f).integ = s.integ := rfl
@[simp] theorem modObj_sec (s : State) (h : Nat) (f : Obj → Obj) : (s.modObj h f).sec = s.sec := rfl
@[simp] theorem modObj_dailies (s : State) (h : Nat) (f : Obj → Obj) : (s.modObj h f).dailies = s.dailies := rfl
@[simp] theorem modObj_hw (s : State) (h : Nat) (f : Obj → Obj) : (s.modObj h f).hw = s.hw := rfl

/-! ### modCopy -/

@[simp] theorem modCopy_pending (s : State) (c : Nat) (f : Copy → Copy) : (s.modCopy c f).pending = s.pending := rfl
@[simp] theorem modCopy_free (s : State) (c : Nat) (f : Copy → Copy) : (s.modCopy c f).free = s.free := rfl
@[simp] theorem modCopy_clock (s : State) (c : Nat) (f : Copy → Copy) : (s.modCopy c f).clock = s.clock := rfl
@[simp] theorem modCopy_host (s : State) (c : Nat) (f : Copy → Copy) : (s.modCopy c f).host = s.host := rfl
@[simp] theorem modCopy_link (s : State) (c : Nat) (f : Copy → Copy) : (s.modCopy c f).link = s.link := rfl
@[simp] theorem modCopy_cores (s : State) (c : Nat) (f : Copy → Copy) : (s.modCopy c f).cores = s.cores := rfl
@[simp] theorem modCopy_pods (s : State) (c : Nat) (f : Copy → Copy) : (s.modCopy c f).pods = s.pods := rfl
@[simp] theorem modCopy_jobs (s : State) (c : Nat) (f : Copy → Copy) : (s.modCopy c f).jobs = s.jobs := rfl
@[simp] theorem modCopy_gens (s : State) (c : Nat) (f : Copy → Copy) : (s.modCopy c f).gens = s.gens := rfl
@[simp] theorem modCopy_objs (s : State) (c : Nat) (f : Copy → Copy) : (s.modCopy c f).objs = s.objs := rfl
@[simp] theorem modCopy_nextCopy (s : State) (c : Nat) (f : Copy → Copy) : (s.modCopy c f).nextCopy = s.nextCopy := rfl
@[simp] theorem modCopy_pages (s : State) (c : Nat) (f : Copy → Copy) : (s.modCopy c f).pages = s.pages := rfl
@[simp] theorem modCopy_arbs (s : State) (c : Nat) (f : Copy → Copy) : (s.modCopy c f).arbs = s.arbs := rfl
@[simp] theorem modCopy_media (s : State) (c : Nat) (f : Copy → Copy) : (s.modCopy c f).media = s.media := rfl
@[simp] theorem modCopy_spool (s : State) (c : Nat) (f : Copy → Copy) : (s.modCopy c f).spool = s.spool := rfl
@[simp] theorem modCopy_integ (s : State) (c : Nat) (f : Copy → Copy) : (s.modCopy c f).integ = s.integ := rfl
@[simp] theorem modCopy_sec (s : State) (c : Nat) (f : Copy → Copy) : (s.modCopy c f).sec = s.sec := rfl
@[simp] theorem modCopy_dailies (s : State) (c : Nat) (f : Copy → Copy) : (s.modCopy c f).dailies = s.dailies := rfl
@[simp] theorem modCopy_hw (s : State) (c : Nat) (f : Copy → Copy) : (s.modCopy c f).hw = s.hw := rfl

/-! ### modArb -/

@[simp] theorem modArb_pending (s : State) (i : Nat) (f : Arb → Arb) : (s.modArb i f).pending = s.pending := rfl
@[simp] theorem modArb_free (s : State) (i : Nat) (f : Arb → Arb) : (s.modArb i f).free = s.free := rfl
@[simp] theorem modArb_clock (s : State) (i : Nat) (f : Arb → Arb) : (s.modArb i f).clock = s.clock := rfl
@[simp] theorem modArb_host (s : State) (i : Nat) (f : Arb → Arb) : (s.modArb i f).host = s.host := rfl
@[simp] theorem modArb_link (s : State) (i : Nat) (f : Arb → Arb) : (s.modArb i f).link = s.link := rfl
@[simp] theorem modArb_cores (s : State) (i : Nat) (f : Arb → Arb) : (s.modArb i f).cores = s.cores := rfl
@[simp] theorem modArb_pods (s : State) (i : Nat) (f : Arb → Arb) : (s.modArb i f).pods = s.pods := rfl
@[simp] theorem modArb_jobs (s : State) (i : Nat) (f : Arb → Arb) : (s.modArb i f).jobs = s.jobs := rfl
@[simp] theorem modArb_gens (s : State) (i : Nat) (f : Arb → Arb) : (s.modArb i f).gens = s.gens := rfl
@[simp] theorem modArb_objs (s : State) (i : Nat) (f : Arb → Arb) : (s.modArb i f).objs = s.objs := rfl
@[simp] theorem modArb_copies (s : State) (i : Nat) (f : Arb → Arb) : (s.modArb i f).copies = s.copies := rfl
@[simp] theorem modArb_nextCopy (s : State) (i : Nat) (f : Arb → Arb) : (s.modArb i f).nextCopy = s.nextCopy := rfl
@[simp] theorem modArb_pages (s : State) (i : Nat) (f : Arb → Arb) : (s.modArb i f).pages = s.pages := rfl
@[simp] theorem modArb_media (s : State) (i : Nat) (f : Arb → Arb) : (s.modArb i f).media = s.media := rfl
@[simp] theorem modArb_spool (s : State) (i : Nat) (f : Arb → Arb) : (s.modArb i f).spool = s.spool := rfl
@[simp] theorem modArb_integ (s : State) (i : Nat) (f : Arb → Arb) : (s.modArb i f).integ = s.integ := rfl
@[simp] theorem modArb_sec (s : State) (i : Nat) (f : Arb → Arb) : (s.modArb i f).sec = s.sec := rfl
@[simp] theorem modArb_dailies (s : State) (i : Nat) (f : Arb → Arb) : (s.modArb i f).dailies = s.dailies := rfl
@[simp] theorem modArb_hw (s : State) (i : Nat) (f : Arb → Arb) : (s.modArb i f).hw = s.hw := rfl

/-! ### modPort -/

@[simp] theorem modPort_pending (s : State) (i : Nat) (f : Port → Port) : (s.modPort i f).pending = s.pending := rfl
@[simp] theorem modPort_free (s : State) (i : Nat) (f : Port → Port) : (s.modPort i f).free = s.free := rfl
@[simp] theorem modPort_clock (s : State) (i : Nat) (f : Port → Port) : (s.modPort i f).clock = s.clock := rfl
@[simp] theorem modPort_host (s : State) (i : Nat) (f : Port → Port) : (s.modPort i f).host = s.host := rfl
@[simp] theorem modPort_link (s : State) (i : Nat) (f : Port → Port) : (s.modPort i f).link = s.link := rfl
@[simp] theorem modPort_cores (s : State) (i : Nat) (f : Port → Port) : (s.modPort i f).cores = s.cores := rfl
@[simp] theorem modPort_pods (s : State) (i : Nat) (f : Port → Port) : (s.modPort i f).pods = s.pods := rfl
@[simp] theorem modPort_jobs (s : State) (i : Nat) (f : Port → Port) : (s.modPort i f).jobs = s.jobs := rfl
@[simp] theorem modPort_gens (s : State) (i : Nat) (f : Port → Port) : (s.modPort i f).gens = s.gens := rfl
@[simp] theorem modPort_objs (s : State) (i : Nat) (f : Port → Port) : (s.modPort i f).objs = s.objs := rfl
@[simp] theorem modPort_copies (s : State) (i : Nat) (f : Port → Port) : (s.modPort i f).copies = s.copies := rfl
@[simp] theorem modPort_nextCopy (s : State) (i : Nat) (f : Port → Port) : (s.modPort i f).nextCopy = s.nextCopy := rfl
@[simp] theorem modPort_pages (s : State) (i : Nat) (f : Port → Port) : (s.modPort i f).pages = s.pages := rfl
@[simp] theorem modPort_arbs (s : State) (i : Nat) (f : Port → Port) : (s.modPort i f).arbs = s.arbs := rfl
@[simp] theorem modPort_media (s : State) (i : Nat) (f : Port → Port) : (s.modPort i f).media = s.media := rfl
@[simp] theorem modPort_integ (s : State) (i : Nat) (f : Port → Port) : (s.modPort i f).integ = s.integ := rfl
@[simp] theorem modPort_sec (s : State) (i : Nat) (f : Port → Port) : (s.modPort i f).sec = s.sec := rfl
@[simp] theorem modPort_dailies (s : State) (i : Nat) (f : Port → Port) : (s.modPort i f).dailies = s.dailies := rfl
@[simp] theorem modPort_hw (s : State) (i : Nat) (f : Port → Port) : (s.modPort i f).hw = s.hw := rfl

/-! ### setFlip -/

@[simp] theorem setFlip_pending (s : State) (i : Nat) (f : Flip) : (s.setFlip i f).pending = s.pending := rfl
@[simp] theorem setFlip_free (s : State) (i : Nat) (f : Flip) : (s.setFlip i f).free = s.free := rfl
@[simp] theorem setFlip_clock (s : State) (i : Nat) (f : Flip) : (s.setFlip i f).clock = s.clock := rfl
@[simp] theorem setFlip_host (s : State) (i : Nat) (f : Flip) : (s.setFlip i f).host = s.host := rfl
@[simp] theorem setFlip_link (s : State) (i : Nat) (f : Flip) : (s.setFlip i f).link = s.link := rfl
@[simp] theorem setFlip_cores (s : State) (i : Nat) (f : Flip) : (s.setFlip i f).cores = s.cores := rfl
@[simp] theorem setFlip_pods (s : State) (i : Nat) (f : Flip) : (s.setFlip i f).pods = s.pods := rfl
@[simp] theorem setFlip_jobs (s : State) (i : Nat) (f : Flip) : (s.setFlip i f).jobs = s.jobs := rfl
@[simp] theorem setFlip_gens (s : State) (i : Nat) (f : Flip) : (s.setFlip i f).gens = s.gens := rfl
@[simp] theorem setFlip_objs (s : State) (i : Nat) (f : Flip) : (s.setFlip i f).objs = s.objs := rfl
@[simp] theorem setFlip_copies (s : State) (i : Nat) (f : Flip) : (s.setFlip i f).copies = s.copies := rfl
@[simp] theorem setFlip_nextCopy (s : State) (i : Nat) (f : Flip) : (s.setFlip i f).nextCopy = s.nextCopy := rfl
@[simp] theorem setFlip_pages (s : State) (i : Nat) (f : Flip) : (s.setFlip i f).pages = s.pages := rfl
@[simp] theorem setFlip_arbs (s : State) (i : Nat) (f : Flip) : (s.setFlip i f).arbs = s.arbs := rfl
@[simp] theorem setFlip_media (s : State) (i : Nat) (f : Flip) : (s.setFlip i f).media = s.media := rfl
@[simp] theorem setFlip_spool (s : State) (i : Nat) (f : Flip) : (s.setFlip i f).spool = s.spool := rfl
@[simp] theorem setFlip_sec (s : State) (i : Nat) (f : Flip) : (s.setFlip i f).sec = s.sec := rfl
@[simp] theorem setFlip_dailies (s : State) (i : Nat) (f : Flip) : (s.setFlip i f).dailies = s.dailies := rfl
@[simp] theorem setFlip_hw (s : State) (i : Nat) (f : Flip) : (s.setFlip i f).hw = s.hw := rfl

/-! ### count -/

@[simp] theorem count_pending (s : State) (b e n : Nat) : (s.count b e n).pending = s.pending := rfl
@[simp] theorem count_free (s : State) (b e n : Nat) : (s.count b e n).free = s.free := rfl
@[simp] theorem count_clock (s : State) (b e n : Nat) : (s.count b e n).clock = s.clock := rfl
@[simp] theorem count_host (s : State) (b e n : Nat) : (s.count b e n).host = s.host := rfl
@[simp] theorem count_link (s : State) (b e n : Nat) : (s.count b e n).link = s.link := rfl
@[simp] theorem count_cores (s : State) (b e n : Nat) : (s.count b e n).cores = s.cores := rfl
@[simp] theorem count_pods (s : State) (b e n : Nat) : (s.count b e n).pods = s.pods := rfl
@[simp] theorem count_jobs (s : State) (b e n : Nat) : (s.count b e n).jobs = s.jobs := rfl
@[simp] theorem count_gens (s : State) (b e n : Nat) : (s.count b e n).gens = s.gens := rfl
@[simp] theorem count_objs (s : State) (b e n : Nat) : (s.count b e n).objs = s.objs := rfl
@[simp] theorem count_copies (s : State) (b e n : Nat) : (s.count b e n).copies = s.copies := rfl
@[simp] theorem count_nextCopy (s : State) (b e n : Nat) : (s.count b e n).nextCopy = s.nextCopy := rfl
@[simp] theorem count_pages (s : State) (b e n : Nat) : (s.count b e n).pages = s.pages := rfl
@[simp] theorem count_arbs (s : State) (b e n : Nat) : (s.count b e n).arbs = s.arbs := rfl
@[simp] theorem count_media (s : State) (b e n : Nat) : (s.count b e n).media = s.media := rfl
@[simp] theorem count_spool (s : State) (b e n : Nat) : (s.count b e n).spool = s.spool := rfl
@[simp] theorem count_integ (s : State) (b e n : Nat) : (s.count b e n).integ = s.integ := rfl
@[simp] theorem count_sec (s : State) (b e n : Nat) : (s.count b e n).sec = s.sec := rfl
@[simp] theorem count_hw (s : State) (b e n : Nat) : (s.count b e n).hw = s.hw := rfl

/-! ### foldSlot -/

@[simp] theorem foldSlot_pending (s : State) (i : Nat) : (s.foldSlot i).pending = s.pending := rfl
@[simp] theorem foldSlot_clock (s : State) (i : Nat) : (s.foldSlot i).clock = s.clock := rfl
@[simp] theorem foldSlot_host (s : State) (i : Nat) : (s.foldSlot i).host = s.host := rfl
@[simp] theorem foldSlot_link (s : State) (i : Nat) : (s.foldSlot i).link = s.link := rfl
@[simp] theorem foldSlot_cores (s : State) (i : Nat) : (s.foldSlot i).cores = s.cores := rfl
@[simp] theorem foldSlot_pods (s : State) (i : Nat) : (s.foldSlot i).pods = s.pods := rfl
@[simp] theorem foldSlot_jobs (s : State) (i : Nat) : (s.foldSlot i).jobs = s.jobs := rfl
@[simp] theorem foldSlot_gens (s : State) (i : Nat) : (s.foldSlot i).gens = s.gens := rfl
@[simp] theorem foldSlot_objs (s : State) (i : Nat) : (s.foldSlot i).objs = s.objs := rfl
@[simp] theorem foldSlot_copies (s : State) (i : Nat) : (s.foldSlot i).copies = s.copies := rfl
@[simp] theorem foldSlot_nextCopy (s : State) (i : Nat) : (s.foldSlot i).nextCopy = s.nextCopy := rfl
@[simp] theorem foldSlot_pages (s : State) (i : Nat) : (s.foldSlot i).pages = s.pages := rfl
@[simp] theorem foldSlot_arbs (s : State) (i : Nat) : (s.foldSlot i).arbs = s.arbs := rfl
@[simp] theorem foldSlot_media (s : State) (i : Nat) : (s.foldSlot i).media = s.media := rfl
@[simp] theorem foldSlot_spool (s : State) (i : Nat) : (s.foldSlot i).spool = s.spool := rfl
@[simp] theorem foldSlot_integ (s : State) (i : Nat) : (s.foldSlot i).integ = s.integ := rfl
@[simp] theorem foldSlot_sec (s : State) (i : Nat) : (s.foldSlot i).sec = s.sec := rfl
@[simp] theorem foldSlot_hw (s : State) (i : Nat) : (s.foldSlot i).hw = s.hw := rfl

/-! ### setLb -/

@[simp] theorem setLb_pending (s : State) (l : LBlock) : (s.setLb l).pending = s.pending := rfl
@[simp] theorem setLb_free (s : State) (l : LBlock) : (s.setLb l).free = s.free := rfl
@[simp] theorem setLb_clock (s : State) (l : LBlock) : (s.setLb l).clock = s.clock := rfl
@[simp] theorem setLb_host (s : State) (l : LBlock) : (s.setLb l).host = s.host := rfl
@[simp] theorem setLb_link (s : State) (l : LBlock) : (s.setLb l).link = s.link := rfl
@[simp] theorem setLb_cores (s : State) (l : LBlock) : (s.setLb l).cores = s.cores := rfl
@[simp] theorem setLb_pods (s : State) (l : LBlock) : (s.setLb l).pods = s.pods := rfl
@[simp] theorem setLb_jobs (s : State) (l : LBlock) : (s.setLb l).jobs = s.jobs := rfl
@[simp] theorem setLb_gens (s : State) (l : LBlock) : (s.setLb l).gens = s.gens := rfl
@[simp] theorem setLb_objs (s : State) (l : LBlock) : (s.setLb l).objs = s.objs := rfl
@[simp] theorem setLb_copies (s : State) (l : LBlock) : (s.setLb l).copies = s.copies := rfl
@[simp] theorem setLb_nextCopy (s : State) (l : LBlock) : (s.setLb l).nextCopy = s.nextCopy := rfl
@[simp] theorem setLb_pages (s : State) (l : LBlock) : (s.setLb l).pages = s.pages := rfl
@[simp] theorem setLb_arbs (s : State) (l : LBlock) : (s.setLb l).arbs = s.arbs := rfl
@[simp] theorem setLb_spool (s : State) (l : LBlock) : (s.setLb l).spool = s.spool := rfl
@[simp] theorem setLb_integ (s : State) (l : LBlock) : (s.setLb l).integ = s.integ := rfl
@[simp] theorem setLb_sec (s : State) (l : LBlock) : (s.setLb l).sec = s.sec := rfl
@[simp] theorem setLb_dailies (s : State) (l : LBlock) : (s.setLb l).dailies = s.dailies := rfl
@[simp] theorem setLb_hw (s : State) (l : LBlock) : (s.setLb l).hw = s.hw := rfl

/-! ### setSb -/

@[simp] theorem setSb_pending (s : State) (b : SBlock) : (s.setSb b).pending = s.pending := rfl
@[simp] theorem setSb_free (s : State) (b : SBlock) : (s.setSb b).free = s.free := rfl
@[simp] theorem setSb_clock (s : State) (b : SBlock) : (s.setSb b).clock = s.clock := rfl
@[simp] theorem setSb_host (s : State) (b : SBlock) : (s.setSb b).host = s.host := rfl
@[simp] theorem setSb_link (s : State) (b : SBlock) : (s.setSb b).link = s.link := rfl
@[simp] theorem setSb_cores (s : State) (b : SBlock) : (s.setSb b).cores = s.cores := rfl
@[simp] theorem setSb_pods (s : State) (b : SBlock) : (s.setSb b).pods = s.pods := rfl
@[simp] theorem setSb_jobs (s : State) (b : SBlock) : (s.setSb b).jobs = s.jobs := rfl
@[simp] theorem setSb_gens (s : State) (b : SBlock) : (s.setSb b).gens = s.gens := rfl
@[simp] theorem setSb_objs (s : State) (b : SBlock) : (s.setSb b).objs = s.objs := rfl
@[simp] theorem setSb_copies (s : State) (b : SBlock) : (s.setSb b).copies = s.copies := rfl
@[simp] theorem setSb_nextCopy (s : State) (b : SBlock) : (s.setSb b).nextCopy = s.nextCopy := rfl
@[simp] theorem setSb_pages (s : State) (b : SBlock) : (s.setSb b).pages = s.pages := rfl
@[simp] theorem setSb_arbs (s : State) (b : SBlock) : (s.setSb b).arbs = s.arbs := rfl
@[simp] theorem setSb_spool (s : State) (b : SBlock) : (s.setSb b).spool = s.spool := rfl
@[simp] theorem setSb_integ (s : State) (b : SBlock) : (s.setSb b).integ = s.integ := rfl
@[simp] theorem setSb_sec (s : State) (b : SBlock) : (s.setSb b).sec = s.sec := rfl
@[simp] theorem setSb_dailies (s : State) (b : SBlock) : (s.setSb b).dailies = s.dailies := rfl
@[simp] theorem setSb_hw (s : State) (b : SBlock) : (s.setSb b).hw = s.hw := rfl

/-! ### regEvent -/

@[simp] theorem regEvent_pending (s : State) (n : Nat) : (s.regEvent n).pending = s.pending := rfl
@[simp] theorem regEvent_free (s : State) (n : Nat) : (s.regEvent n).free = s.free := rfl
@[simp] theorem regEvent_clock (s : State) (n : Nat) : (s.regEvent n).clock = s.clock := rfl
@[simp] theorem regEvent_host (s : State) (n : Nat) : (s.regEvent n).host = s.host := rfl
@[simp] theorem regEvent_cores (s : State) (n : Nat) : (s.regEvent n).cores = s.cores := rfl
@[simp] theorem regEvent_pods (s : State) (n : Nat) : (s.regEvent n).pods = s.pods := rfl
@[simp] theorem regEvent_jobs (s : State) (n : Nat) : (s.regEvent n).jobs = s.jobs := rfl
@[simp] theorem regEvent_gens (s : State) (n : Nat) : (s.regEvent n).gens = s.gens := rfl
@[simp] theorem regEvent_objs (s : State) (n : Nat) : (s.regEvent n).objs = s.objs := rfl
@[simp] theorem regEvent_copies (s : State) (n : Nat) : (s.regEvent n).copies = s.copies := rfl
@[simp] theorem regEvent_nextCopy (s : State) (n : Nat) : (s.regEvent n).nextCopy = s.nextCopy := rfl
@[simp] theorem regEvent_pages (s : State) (n : Nat) : (s.regEvent n).pages = s.pages := rfl
@[simp] theorem regEvent_arbs (s : State) (n : Nat) : (s.regEvent n).arbs = s.arbs := rfl
@[simp] theorem regEvent_media (s : State) (n : Nat) : (s.regEvent n).media = s.media := rfl
@[simp] theorem regEvent_spool (s : State) (n : Nat) : (s.regEvent n).spool = s.spool := rfl
@[simp] theorem regEvent_integ (s : State) (n : Nat) : (s.regEvent n).integ = s.integ := rfl
@[simp] theorem regEvent_sec (s : State) (n : Nat) : (s.regEvent n).sec = s.sec := rfl
@[simp] theorem regEvent_dailies (s : State) (n : Nat) : (s.regEvent n).dailies = s.dailies := rfl
@[simp] theorem regEvent_hw (s : State) (n : Nat) : (s.regEvent n).hw = s.hw := rfl

/-! ### integEvent -/

@[simp] theorem integEvent_pending (s : State) (n : Nat) : (s.integEvent n).pending = s.pending := rfl
@[simp] theorem integEvent_free (s : State) (n : Nat) : (s.integEvent n).free = s.free := rfl
@[simp] theorem integEvent_clock (s : State) (n : Nat) : (s.integEvent n).clock = s.clock := rfl
@[simp] theorem integEvent_host (s : State) (n : Nat) : (s.integEvent n).host = s.host := rfl
@[simp] theorem integEvent_link (s : State) (n : Nat) : (s.integEvent n).link = s.link := rfl
@[simp] theorem integEvent_cores (s : State) (n : Nat) : (s.integEvent n).cores = s.cores := rfl
@[simp] theorem integEvent_pods (s : State) (n : Nat) : (s.integEvent n).pods = s.pods := rfl
@[simp] theorem integEvent_jobs (s : State) (n : Nat) : (s.integEvent n).jobs = s.jobs := rfl
@[simp] theorem integEvent_gens (s : State) (n : Nat) : (s.integEvent n).gens = s.gens := rfl
@[simp] theorem integEvent_objs (s : State) (n : Nat) : (s.integEvent n).objs = s.objs := rfl
@[simp] theorem integEvent_copies (s : State) (n : Nat) : (s.integEvent n).copies = s.copies := rfl
@[simp] theorem integEvent_nextCopy (s : State) (n : Nat) : (s.integEvent n).nextCopy = s.nextCopy := rfl
@[simp] theorem integEvent_pages (s : State) (n : Nat) : (s.integEvent n).pages = s.pages := rfl
@[simp] theorem integEvent_arbs (s : State) (n : Nat) : (s.integEvent n).arbs = s.arbs := rfl
@[simp] theorem integEvent_media (s : State) (n : Nat) : (s.integEvent n).media = s.media := rfl
@[simp] theorem integEvent_spool (s : State) (n : Nat) : (s.integEvent n).spool = s.spool := rfl
@[simp] theorem integEvent_sec (s : State) (n : Nat) : (s.integEvent n).sec = s.sec := rfl
@[simp] theorem integEvent_dailies (s : State) (n : Nat) : (s.integEvent n).dailies = s.dailies := rfl
@[simp] theorem integEvent_hw (s : State) (n : Nat) : (s.integEvent n).hw = s.hw := rfl

/-! ### mediaEvent -/

@[simp] theorem mediaEvent_pending (s : State) (n : Nat) : (s.mediaEvent n).pending = s.pending := rfl
@[simp] theorem mediaEvent_free (s : State) (n : Nat) : (s.mediaEvent n).free = s.free := rfl
@[simp] theorem mediaEvent_clock (s : State) (n : Nat) : (s.mediaEvent n).clock = s.clock := rfl
@[simp] theorem mediaEvent_host (s : State) (n : Nat) : (s.mediaEvent n).host = s.host := rfl
@[simp] theorem mediaEvent_link (s : State) (n : Nat) : (s.mediaEvent n).link = s.link := rfl
@[simp] theorem mediaEvent_cores (s : State) (n : Nat) : (s.mediaEvent n).cores = s.cores := rfl
@[simp] theorem mediaEvent_pods (s : State) (n : Nat) : (s.mediaEvent n).pods = s.pods := rfl
@[simp] theorem mediaEvent_jobs (s : State) (n : Nat) : (s.mediaEvent n).jobs = s.jobs := rfl
@[simp] theorem mediaEvent_gens (s : State) (n : Nat) : (s.mediaEvent n).gens = s.gens := rfl
@[simp] theorem mediaEvent_objs (s : State) (n : Nat) : (s.mediaEvent n).objs = s.objs := rfl
@[simp] theorem mediaEvent_copies (s : State) (n : Nat) : (s.mediaEvent n).copies = s.copies := rfl
@[simp] theorem mediaEvent_nextCopy (s : State) (n : Nat) : (s.mediaEvent n).nextCopy = s.nextCopy := rfl
@[simp] theorem mediaEvent_pages (s : State) (n : Nat) : (s.mediaEvent n).pages = s.pages := rfl
@[simp] theorem mediaEvent_arbs (s : State) (n : Nat) : (s.mediaEvent n).arbs = s.arbs := rfl
@[simp] theorem mediaEvent_spool (s : State) (n : Nat) : (s.mediaEvent n).spool = s.spool := rfl
@[simp] theorem mediaEvent_integ (s : State) (n : Nat) : (s.mediaEvent n).integ = s.integ := rfl
@[simp] theorem mediaEvent_sec (s : State) (n : Nat) : (s.mediaEvent n).sec = s.sec := rfl
@[simp] theorem mediaEvent_dailies (s : State) (n : Nat) : (s.mediaEvent n).dailies = s.dailies := rfl
@[simp] theorem mediaEvent_hw (s : State) (n : Nat) : (s.mediaEvent n).hw = s.hw := rfl

/-! ### spoolEvent -/

@[simp] theorem spoolEvent_pending (s : State) (n : Nat) : (s.spoolEvent n).pending = s.pending := rfl
@[simp] theorem spoolEvent_free (s : State) (n : Nat) : (s.spoolEvent n).free = s.free := rfl
@[simp] theorem spoolEvent_clock (s : State) (n : Nat) : (s.spoolEvent n).clock = s.clock := rfl
@[simp] theorem spoolEvent_host (s : State) (n : Nat) : (s.spoolEvent n).host = s.host := rfl
@[simp] theorem spoolEvent_link (s : State) (n : Nat) : (s.spoolEvent n).link = s.link := rfl
@[simp] theorem spoolEvent_cores (s : State) (n : Nat) : (s.spoolEvent n).cores = s.cores := rfl
@[simp] theorem spoolEvent_pods (s : State) (n : Nat) : (s.spoolEvent n).pods = s.pods := rfl
@[simp] theorem spoolEvent_jobs (s : State) (n : Nat) : (s.spoolEvent n).jobs = s.jobs := rfl
@[simp] theorem spoolEvent_gens (s : State) (n : Nat) : (s.spoolEvent n).gens = s.gens := rfl
@[simp] theorem spoolEvent_objs (s : State) (n : Nat) : (s.spoolEvent n).objs = s.objs := rfl
@[simp] theorem spoolEvent_copies (s : State) (n : Nat) : (s.spoolEvent n).copies = s.copies := rfl
@[simp] theorem spoolEvent_nextCopy (s : State) (n : Nat) : (s.spoolEvent n).nextCopy = s.nextCopy := rfl
@[simp] theorem spoolEvent_pages (s : State) (n : Nat) : (s.spoolEvent n).pages = s.pages := rfl
@[simp] theorem spoolEvent_arbs (s : State) (n : Nat) : (s.spoolEvent n).arbs = s.arbs := rfl
@[simp] theorem spoolEvent_media (s : State) (n : Nat) : (s.spoolEvent n).media = s.media := rfl
@[simp] theorem spoolEvent_integ (s : State) (n : Nat) : (s.spoolEvent n).integ = s.integ := rfl
@[simp] theorem spoolEvent_sec (s : State) (n : Nat) : (s.spoolEvent n).sec = s.sec := rfl
@[simp] theorem spoolEvent_dailies (s : State) (n : Nat) : (s.spoolEvent n).dailies = s.dailies := rfl
@[simp] theorem spoolEvent_hw (s : State) (n : Nat) : (s.spoolEvent n).hw = s.hw := rfl

/-! ### hwEvent -/

@[simp] theorem hwEvent_pending (s : State) (n : Nat) : (s.hwEvent n).pending = s.pending := rfl
@[simp] theorem hwEvent_free (s : State) (n : Nat) : (s.hwEvent n).free = s.free := rfl
@[simp] theorem hwEvent_clock (s : State) (n : Nat) : (s.hwEvent n).clock = s.clock := rfl
@[simp] theorem hwEvent_host (s : State) (n : Nat) : (s.hwEvent n).host = s.host := rfl
@[simp] theorem hwEvent_link (s : State) (n : Nat) : (s.hwEvent n).link = s.link := rfl
@[simp] theorem hwEvent_cores (s : State) (n : Nat) : (s.hwEvent n).cores = s.cores := rfl
@[simp] theorem hwEvent_pods (s : State) (n : Nat) : (s.hwEvent n).pods = s.pods := rfl
@[simp] theorem hwEvent_jobs (s : State) (n : Nat) : (s.hwEvent n).jobs = s.jobs := rfl
@[simp] theorem hwEvent_gens (s : State) (n : Nat) : (s.hwEvent n).gens = s.gens := rfl
@[simp] theorem hwEvent_objs (s : State) (n : Nat) : (s.hwEvent n).objs = s.objs := rfl
@[simp] theorem hwEvent_copies (s : State) (n : Nat) : (s.hwEvent n).copies = s.copies := rfl
@[simp] theorem hwEvent_nextCopy (s : State) (n : Nat) : (s.hwEvent n).nextCopy = s.nextCopy := rfl
@[simp] theorem hwEvent_pages (s : State) (n : Nat) : (s.hwEvent n).pages = s.pages := rfl
@[simp] theorem hwEvent_arbs (s : State) (n : Nat) : (s.hwEvent n).arbs = s.arbs := rfl
@[simp] theorem hwEvent_media (s : State) (n : Nat) : (s.hwEvent n).media = s.media := rfl
@[simp] theorem hwEvent_spool (s : State) (n : Nat) : (s.hwEvent n).spool = s.spool := rfl
@[simp] theorem hwEvent_integ (s : State) (n : Nat) : (s.hwEvent n).integ = s.integ := rfl
@[simp] theorem hwEvent_sec (s : State) (n : Nat) : (s.hwEvent n).sec = s.sec := rfl
@[simp] theorem hwEvent_dailies (s : State) (n : Nat) : (s.hwEvent n).dailies = s.dailies := rfl

/-! ### raise -/

@[simp] theorem raise_pending (s : State) (v : Nat) : (s.raise v).pending = s.pending := rfl
@[simp] theorem raise_free (s : State) (v : Nat) : (s.raise v).free = s.free := rfl
@[simp] theorem raise_clock (s : State) (v : Nat) : (s.raise v).clock = s.clock := rfl
@[simp] theorem raise_link (s : State) (v : Nat) : (s.raise v).link = s.link := rfl
@[simp] theorem raise_cores (s : State) (v : Nat) : (s.raise v).cores = s.cores := rfl
@[simp] theorem raise_pods (s : State) (v : Nat) : (s.raise v).pods = s.pods := rfl
@[simp] theorem raise_jobs (s : State) (v : Nat) : (s.raise v).jobs = s.jobs := rfl
@[simp] theorem raise_gens (s : State) (v : Nat) : (s.raise v).gens = s.gens := rfl
@[simp] theorem raise_objs (s : State) (v : Nat) : (s.raise v).objs = s.objs := rfl
@[simp] theorem raise_copies (s : State) (v : Nat) : (s.raise v).copies = s.copies := rfl
@[simp] theorem raise_nextCopy (s : State) (v : Nat) : (s.raise v).nextCopy = s.nextCopy := rfl
@[simp] theorem raise_pages (s : State) (v : Nat) : (s.raise v).pages = s.pages := rfl
@[simp] theorem raise_arbs (s : State) (v : Nat) : (s.raise v).arbs = s.arbs := rfl
@[simp] theorem raise_media (s : State) (v : Nat) : (s.raise v).media = s.media := rfl
@[simp] theorem raise_spool (s : State) (v : Nat) : (s.raise v).spool = s.spool := rfl
@[simp] theorem raise_integ (s : State) (v : Nat) : (s.raise v).integ = s.integ := rfl
@[simp] theorem raise_sec (s : State) (v : Nat) : (s.raise v).sec = s.sec := rfl
@[simp] theorem raise_dailies (s : State) (v : Nat) : (s.raise v).dailies = s.dailies := rfl
@[simp] theorem raise_hw (s : State) (v : Nat) : (s.raise v).hw = s.hw := rfl

/-! ### addKey -/

@[simp] theorem addKey_pending (s : State) (h : Nat) (c : Option Nat) : (s.addKey h c).pending = s.pending := rfl
@[simp] theorem addKey_clock (s : State) (h : Nat) (c : Option Nat) : (s.addKey h c).clock = s.clock := rfl
@[simp] theorem addKey_host (s : State) (h : Nat) (c : Option Nat) : (s.addKey h c).host = s.host := rfl
@[simp] theorem addKey_link (s : State) (h : Nat) (c : Option Nat) : (s.addKey h c).link = s.link := rfl
@[simp] theorem addKey_cores (s : State) (h : Nat) (c : Option Nat) : (s.addKey h c).cores = s.cores := rfl
@[simp] theorem addKey_pods (s : State) (h : Nat) (c : Option Nat) : (s.addKey h c).pods = s.pods := rfl
@[simp] theorem addKey_jobs (s : State) (h : Nat) (c : Option Nat) : (s.addKey h c).jobs = s.jobs := rfl
@[simp] theorem addKey_gens (s : State) (h : Nat) (c : Option Nat) : (s.addKey h c).gens = s.gens := rfl
@[simp] theorem addKey_objs (s : State) (h : Nat) (c : Option Nat) : (s.addKey h c).objs = s.objs := rfl
@[simp] theorem addKey_copies (s : State) (h : Nat) (c : Option Nat) : (s.addKey h c).copies = s.copies := rfl
@[simp] theorem addKey_nextCopy (s : State) (h : Nat) (c : Option Nat) : (s.addKey h c).nextCopy = s.nextCopy := rfl
@[simp] theorem addKey_pages (s : State) (h : Nat) (c : Option Nat) : (s.addKey h c).pages = s.pages := rfl
@[simp] theorem addKey_arbs (s : State) (h : Nat) (c : Option Nat) : (s.addKey h c).arbs = s.arbs := rfl
@[simp] theorem addKey_media (s : State) (h : Nat) (c : Option Nat) : (s.addKey h c).media = s.media := rfl
@[simp] theorem addKey_spool (s : State) (h : Nat) (c : Option Nat) : (s.addKey h c).spool = s.spool := rfl
@[simp] theorem addKey_integ (s : State) (h : Nat) (c : Option Nat) : (s.addKey h c).integ = s.integ := rfl
@[simp] theorem addKey_dailies (s : State) (h : Nat) (c : Option Nat) : (s.addKey h c).dailies = s.dailies := rfl
@[simp] theorem addKey_hw (s : State) (h : Nat) (c : Option Nat) : (s.addKey h c).hw = s.hw := rfl
@[simp] theorem addKey_keyTable (s : State) (h : Nat) (c : Option Nat) : (s.addKey h c).sec.keyTable =
    s.sec.keyTable ++ [{ handle := h, copy := c, secret := BitVec.ofNat 256 s.fresh.1 }] := rfl

/-! ### dropObject -/

@[simp] theorem dropObject_free (s : State) (o : Obj) : (s.dropObject o).free = s.free := rfl
@[simp] theorem dropObject_pending (s : State) (o : Obj) : (s.dropObject o).pending = s.pending := rfl
@[simp] theorem dropObject_clock (s : State) (o : Obj) : (s.dropObject o).clock = s.clock := rfl
@[simp] theorem dropObject_host (s : State) (o : Obj) : (s.dropObject o).host = s.host := rfl
@[simp] theorem dropObject_link (s : State) (o : Obj) : (s.dropObject o).link = s.link := rfl
@[simp] theorem dropObject_cores (s : State) (o : Obj) : (s.dropObject o).cores = s.cores := rfl
@[simp] theorem dropObject_pods (s : State) (o : Obj) : (s.dropObject o).pods = s.pods := rfl
@[simp] theorem dropObject_jobs (s : State) (o : Obj) : (s.dropObject o).jobs = s.jobs := rfl
@[simp] theorem dropObject_gens (s : State) (o : Obj) : (s.dropObject o).gens = s.gens := rfl
@[simp] theorem dropObject_copies (s : State) (o : Obj) : (s.dropObject o).copies = s.copies := rfl
@[simp] theorem dropObject_nextCopy (s : State) (o : Obj) : (s.dropObject o).nextCopy = s.nextCopy := rfl
@[simp] theorem dropObject_pages (s : State) (o : Obj) : (s.dropObject o).pages = s.pages := rfl
@[simp] theorem dropObject_arbs (s : State) (o : Obj) : (s.dropObject o).arbs = s.arbs := rfl
@[simp] theorem dropObject_media (s : State) (o : Obj) : (s.dropObject o).media = s.media := rfl
@[simp] theorem dropObject_spool (s : State) (o : Obj) : (s.dropObject o).spool = s.spool := rfl
@[simp] theorem dropObject_integ (s : State) (o : Obj) : (s.dropObject o).integ = s.integ := rfl
@[simp] theorem dropObject_dailies (s : State) (o : Obj) : (s.dropObject o).dailies = s.dailies := rfl
@[simp] theorem dropObject_hw (s : State) (o : Obj) : (s.dropObject o).hw = s.hw := rfl
@[simp] theorem dropObject_objs (s : State) (o : Obj) :
    (s.dropObject o).objs = s.objs.filter (fun x => x.handle != o.handle) := rfl

end Sys2Proof.Machine
end

