-- ==== Sys2Proof/Laws/Lookup.lean ====
section
/-!
SUPPORT. What a lookup finds after an update: one lemma per kind of thing that the state holds by number.
-/

namespace Sys2Proof.Machine

/-! ### Lists searched by a key -/

theorem find_map_key {α : Type} (key : α → Nat) (f : α → α) (c : Nat)
    (hf : ∀ x, key x = c → key (f x) = c) (l : List α) (k : Nat) :
    (l.map (fun x => if key x == c then f x else x)).find? (fun x => key x == k) =
      if k = c then (l.find? (fun x => key x == k)).map f else l.find? (fun x => key x == k) := by
  induction l with
  | nil => simp
  | cons x t ih =>
    rw [List.map_cons, List.find?_cons, List.find?_cons]
    have hk : (key (if key x == c then f x else x) == k) = (key x == k) := by
      split
      · rename_i h
        have h : key x = c := by simpa using h
        rw [hf x h, h]
      · rfl
    rw [hk, ih]
    cases e : key x == k
    · rfl
    · have e1 : key x = k := by simpa using e
      by_cases e2 : k = c
      · simp [e1, e2]
      · simp [e1, e2]

@[simp] theorem job?_modJob (s : State) (c k : Nat) (f : Job → Job) (hf : ∀ j, (f j).ctx = j.ctx) :
    (s.modJob c f).job? k = if k = c then (s.job? k).map f else s.job? k :=
  find_map_key Job.ctx f c (fun x h => (hf x).trans h) s.jobs k

@[simp] theorem pod?_modPod (s : State) (c k : Nat) (f : Pod → Pod) (hf : ∀ p, (f p).id = p.id) :
    (s.modPod c f).pod? k = if k = c then (s.pod? k).map f else s.pod? k :=
  find_map_key Pod.id f c (fun x h => (hf x).trans h) s.pods k

@[simp] theorem obj?_modObj (s : State) (c k : Nat) (f : Obj → Obj) (hf : ∀ o, (f o).handle = o.handle) :
    (s.modObj c f).obj? k = if k = c then (s.obj? k).map f else s.obj? k :=
  find_map_key Obj.handle f c (fun x h => (hf x).trans h) s.objs k

@[simp] theorem copy?_modCopy (s : State) (c k : Nat) (f : Copy → Copy) (hf : ∀ x, (f x).id = x.id) :
    (s.modCopy c f).copy? k = if k = c then (s.copy? k).map f else s.copy? k :=
  find_map_key Copy.id f c (fun x h => (hf x).trans h) s.copies k

@[simp] theorem cmd?_modCmd (s : State) (c k : Nat) (f : Cmd → Cmd) (hf : ∀ x, (f x).uid = x.uid) :
    (s.modCmd c f).cmd? k = if k = c then (s.cmd? k).map f else s.cmd? k :=
  find_map_key Cmd.uid f c (fun x h => (hf x).trans h) s.link.cmds k

theorem cmd?_dropCmd (s : State) (u k : Nat) :
    (s.dropCmd u).cmd? k = if k = u then none else s.cmd? k := by
  simp only [State.cmd?, State.dropCmd, List.find?_filter]
  by_cases e : k = u
  · subst e
    simp
  · rw [if_neg e]
    congr 1
    funext c
    by_cases h : c.uid = k
    · simp [h, e]
    · simp [h]

theorem queue?_setQueue (s : State) (q : Queue) (k : Nat) :
    (s.setQueue q).queue? k = if k = q.id then (s.queue? k).map (fun _ => q) else s.queue? k := by
  exact find_map_key Queue.id (fun _ => q) q.id (fun _ _ => rfl) s.link.queues k

/-! ### Lists indexed by a number -/

theorem getD_set {α : Type} (l : List α) (i k : Nat) (x d : α) (h : i < l.length) :
    (l.set i x).getD k d = if k = i then x else l.getD k d := by
  simp only [List.getD_eq_getElem?_getD, List.getElem?_set]
  by_cases e : k = i
  · subst e; simp [h]
  · simp [e, Ne.symm e]

theorem port_modPort (s : State) (i k : Nat) (f : Port → Port) (h : i < s.spool.ports.length) :
    (s.modPort i f).port k = if k = i then f (s.port i) else s.port k := getD_set _ i k _ _ h

theorem arb_modArb (s : State) (i k : Nat) (f : Arb → Arb) (h : i < s.arbs.length) :
    (s.modArb i f).arb k = if k = i then f (s.arb i) else s.arb k := by
  simp only [State.arb, State.modArb, List.getD_eq_getElem?_getD, List.getElem?_set]
  by_cases e : k = i
  · subst e; simp [h]
  · simp [e, Ne.symm e]

theorem inbox_modInbox (s : State) (p k : Nat) (f : Inbox → Inbox) (hp : p ≠ 0)
    (h : p - 1 < s.spool.inboxes.length) :
    (s.modInbox p f).inbox k = if k = p then f (s.inbox p) else s.inbox k := by
  unfold State.inbox State.modInbox
  by_cases e0 : k = 0
  · subst e0; simp [Ne.symm hp]
  · simp only [e0, if_false, hp]
    rw [getD_set _ _ _ _ _ h]
    by_cases e : k = p
    · subst e; simp [State.inbox, hp]
    · have : k - 1 ≠ p - 1 := by omega
      simp [e, this]

/-! ### Lists of keys and values -/

@[simp] theorem lookupD_assocSet {α : Type} (l : List (Nat × α)) (k i : Nat) (v d : α) :
    lookupD (assocSet l k v) i d = if i = k then v else lookupD l i d := by
  induction l with
  | nil => simp [assocSet, lookupD, eq_comm]
  | cons x t ih =>
    obtain ⟨a, y⟩ := x
    simp only [assocSet]
    split
    · rename_i lt
      by_cases e : a = i
      · have : i ≠ k := by omega
        simp [lookupD, e, this]
      · simp [lookupD, e, ih]
    · split
      · rename_i e1
        by_cases e : i = k
        · simp [lookupD, e]
        · have h1 : k ≠ i := Ne.symm e
          have h2 : a ≠ i := by omega
          simp [lookupD, e, h1, h2]
      · by_cases e : i = k
        · simp [lookupD, e]
        · simp [lookupD, e, Ne.symm e]

theorem lookupD_assocDrop {α : Type} (l : List (Nat × α)) (k i : Nat) (d : α) :
    lookupD (assocDrop l k) i d = if i = k then d else lookupD l i d := by
  induction l with
  | nil => simp [assocDrop, lookupD]
  | cons x t ih =>
    obtain ⟨a, y⟩ := x
    unfold assocDrop at *
    by_cases e : a = k
    · subst e
      rw [List.filter_cons_of_neg (by simp), ih]
      by_cases e2 : i = a
      · simp [e2]
      · simp [e2, lookupD, Ne.symm e2]
    · rw [List.filter_cons_of_pos (by simpa using e)]
      by_cases e2 : a = i
      · subst e2; simp [lookupD, e]
      · rw [lookupD, if_neg e2, ih, lookupD, if_neg e2]

@[simp] theorem flip_setFlip (s : State) (i k : Nat) (f : Flip) :
    (s.setFlip i f).flip k = if k = i then f else s.flip k := lookupD_assocSet _ i k f _

/-! ### Logical blocks and superblocks -/

theorem find_set_key {α : Type} (p : α → Bool) (y : α) (q : α → Bool) (hp : p y = true)
    (l : List α) (h : ∀ x, p x = true → q x = true → False) :
    ((if (l.find? p).isSome then l.map (fun x => if p x then y else x) else l ++ [y]).find? q) =
      (if q y then some y else l.find? q) := by
  have hq : q y = false := by
    cases e : q y
    · rfl
    · exact (h y hp e).elim
  rw [hq]
  simp only [Bool.false_eq_true, if_false]
  split
  · induction l with
    | nil => rfl
    | cons x t ih =>
      rename_i hs
      simp only [List.map_cons, List.find?_cons]
      by_cases px : p x = true
      · have qx : q x = false := by
          cases e : q x
          · rfl
          · exact (h x px e).elim
        simp only [px, if_true, hq, qx]
        by_cases ht : (t.find? p).isSome = true
        · exact ih ht
        · have : t.map (fun x => if p x = true then y else x) = t := by
            conv => rhs; rw [← List.map_id t]
            apply List.map_congr_left
            intro z hz
            have : p z = false := by
              cases e : p z
              · rfl
              · exact (ht (List.find?_isSome.mpr ⟨z, hz, e⟩)).elim
            simp [this]
          rw [this]
      · simp only [Bool.not_eq_true] at px
        simp only [px, Bool.false_eq_true, if_false]
        cases q x
        · simp only
          apply ih
          simpa [List.find?_cons, px] using hs
        · rfl
  · rw [List.find?_append]
    simp [hq]

theorem find_set_same {α : Type} (p : α → Bool) (y : α) (hp : p y = true) (l : List α) :
    ((if (l.find? p).isSome then l.map (fun x => if p x then y else x) else l ++ [y]).find? p) = some y := by
  split
  · rename_i hs
    induction l with
    | nil => simp at hs
    | cons x t ih =>
      simp only [List.map_cons, List.find?_cons]
      by_cases px : p x = true
      · simp [px, hp]
      · simp only [Bool.not_eq_true] at px
        simp only [px, Bool.false_eq_true, if_false]
        apply ih
        simpa [List.find?_cons, px] using hs
  · rename_i hs
    have : l.find? p = none := by simpa using hs
    rw [List.find?_append, this]
    simp [hp]

theorem lblock?_setLb (s : State) (l : LBlock) (k : Nat) :
    (s.setLb l).lblock? k = if k = l.num then some l else s.lblock? k := by
  unfold State.setLb State.lblock?
  by_cases e : k = l.num
  · subst e
    rw [if_pos rfl]
    exact find_set_same (fun x => x.num == l.num) l (by simp) s.media.lblocks
  · rw [if_neg e]
    have := find_set_key (fun x : LBlock => x.num == l.num) l (fun x => x.num == k) (by simp) s.media.lblocks
      (by intro x h1 h2; simp only [beq_iff_eq] at h1 h2; exact e (h2.symm.trans h1))
    simpa [Ne.symm e] using this

theorem lblock_setLb (s : State) (l : LBlock) (k : Nat) :
    (s.setLb l).lblock k = if k = l.num then l else s.lblock k := by
  unfold State.lblock
  rw [lblock?_setLb]
  by_cases e : k = l.num <;> simp [e]

theorem sblock_setSb (s : State) (b : SBlock) (k : SbLoc) :
    (s.setSb b).sblock k = if k = b.loc then b else s.sblock k := by
  unfold State.sblock State.setSb State.sblock?
  by_cases e : k = b.loc
  · subst e
    rw [if_pos rfl]
    have := find_set_same (fun x => x.loc == b.loc) b (by simp) s.media.sblocks
    simp only [] at this ⊢
    rw [this]
    rfl
  · rw [if_neg e]
    have := find_set_key (fun x : SBlock => x.loc == b.loc) b (fun x => x.loc == k) (by simp) s.media.sblocks
      (by intro x h1 h2; simp only [beq_iff_eq] at h1 h2; exact e (h2.symm.trans h1))
    simp only [] at this ⊢
    rw [this]
    simp [Ne.symm e]

@[simp] theorem lblock_setSb (s : State) (b : SBlock) (k : Nat) : (s.setSb b).lblock k = s.lblock k := rfl
@[simp] theorem sblock_setLb (s : State) (l : LBlock) (k : SbLoc) : (s.setLb l).sblock k = s.sblock k := rfl

end Sys2Proof.Machine
end

