-- ==== Sys2Proof/Laws/Access.lean ====
section
/-!
SUPPORT. What an access of BAR0 and a frame of the Spool come to (R343 to R345, R408 to R416).
-/

namespace Sys2Proof.Machine

open Sys2Proof.Safety

/-! ### Register accesses -/

/-- An access with BAR0 away has no effect (R33). -/
theorem hostWrite_away {s : State} (h : s.bar0 = false) (off size v : Nat) (how : Course) :
    s.hostWrite off size v how = s := by
  unfold State.hostWrite; simp [h]

/-- A write of one register whole, in a form that R408 allows, outside a dormant domain: the register takes it
unless its mask is zero, or it is guarded and the lock armed, and an open lock is spent unless the register spends nothing. -/
theorem hostWrite_one {s : State} {off size v : Nat} {p : RegPlace} (how : Course) (h : s.bar0 = true)
    (hc : covered off size = [p]) (hg : accessGood off size = true) (hd : s.dormant off = false)
    (hs : p.split off size = false) (hk : p.reg.unmasked (p.part off (v % 2 ^ (8 * size))) = false) :
    s.hostWrite off size v how =
      (let t := s.accept p (p.part off (v % 2 ^ (8 * size))) how
       if p.reg.spendsNothing || !s.link.guardOpen then t else t.arm) := by
  unfold State.hostWrite
  simp [h, hc, hg, hd, hs, hk]

/-- A guarded register with the lock armed takes nothing; GUARD_ERR is set (R416). -/
theorem accept_guarded {s : State} {p : RegPlace} (hp : p.reg.guarded = true) (hl : s.link.guardOpen = false)
    {v : Nat} (hk : p.reg.unmasked v = false) (how : Course) : s.accept p v how = s.regEvent 0 := by
  unfold State.accept; simp [hp, hl, hk]

/-- Any other register takes the value. -/
theorem accept_open {s : State} {p : RegPlace} (h : p.reg.guarded = false ∨ s.link.guardOpen = true) {v : Nat}
    (hk : p.reg.unmasked v = false) (how : Course) : s.accept p v how = s.putReg p.reg v how := by
  unfold State.accept
  rcases h with h | h <;> simp [h, hk]

/-- Writing a mask register with a full mask stores its low half (R17). -/
theorem maskWrite_full (old v : Nat) (h : v / 65536 = 65535) : maskWrite old v = v % 65536 := by
  unfold maskWrite
  rw [h, show 65535 % 65536 = 65535 from rfl, Nat.sub_self, Nat.and_zero, Nat.zero_or]
  exact (Nat.and_two_pow_sub_one_eq_mod (v % 65536) 16).trans (by omega)

/-! ### Frames -/

/-- A port after it has accepted a frame. -/
def State.accepted (s : State) (port : Nat) (f : Frame) : State :=
  (s.modPort port (fun p => { p with rxSeq := (f.lseq.toNat + 1) % 2 ^ 32 })).count (90 + port) 2 1

/-- A frame that the port may take is passed on (R343 to R345). -/
theorem receive_takes {s : State} {p : Fin 8} {f : Frame} (h : Takes s p f) (pass : State → State) :
    s.receive p.val f pass = .next (pass (s.accepted p.val f)) := by
  obtain ⟨h1, h2, h3, h4, h5, h6, h7⟩ := h
  unfold State.receive
  dsimp only
  rw [if_neg (by simp [h1, h2]), if_neg (by simp [h3]), if_neg, if_neg (by simp [h5]), if_neg (by simp [h6]), if_pos h7]
  · rfl
  · rintro ⟨a, b, c⟩
    rcases h4 a with h | h
    · rw [h] at b; cases b
    · exact c h

/-- A frame of this module is consumed, any other forwarded (R352). -/
theorem take_here {s : State} {f : Frame} (h : f.dst.toNat = s.spool.moduleId.toNat) (port : Nat)
    (here : State → State) : s.take port f here = here s := by
  unfold State.take; rw [if_pos h]

theorem take_away {s : State} {f : Frame} (h : f.dst.toNat ≠ s.spool.moduleId.toNat) (port : Nat)
    (here : State → State) : s.take port f here = s.forward port f := by
  unfold State.take; rw [if_neg h]

theorem accepted_spool (s : State) (port : Nat) (f : Frame) :
    (s.accepted port f).spool = { s.spool with ports := (s.accepted port f).spool.ports } := rfl
@[simp] theorem accepted_cores (s : State) (port : Nat) (f : Frame) : (s.accepted port f).cores = s.cores := rfl
@[simp] theorem accepted_jobs (s : State) (port : Nat) (f : Frame) : (s.accepted port f).jobs = s.jobs := rfl
@[simp] theorem accepted_link (s : State) (port : Nat) (f : Frame) : (s.accepted port f).link = s.link := rfl

end Sys2Proof.Machine
end

