-- ==== Sys2Proof/Laws/State.lean ====
section
/-!
SUPPORT. One lemma per field per update of the state, and what the shared operations leave alone.
-/

namespace Sys2Proof.Machine

open Sys2Proof.Safety

/-! ### Cores -/

theorem core_setCore (s : State) (i k : Nat) (c : Core) (h : i < s.cores.length) :
    (s.setCore i c).core k = if k = i then c else s.core k := by
  simp only [State.core, State.setCore, List.getD_eq_getElem?_getD, List.getElem?_set]
  by_cases e : k = i
  · subst e; simp [h]
  · simp [e, Ne.symm e]

theorem core_modCore (s : State) (i k : Nat) (f : Core → Core) (h : i < s.cores.length) :
    (s.modCore i f).core k = if k = i then f (s.core i) else s.core k := core_setCore s i k _ h

/-- A core past the last one reads as a core without a job. -/
theorem core_past (s : State) (i : Nat) (h : s.cores.length ≤ i) : s.core i = {} := by
  simp [State.core, List.getD_eq_getElem?_getD, h]

@[simp] theorem setCore_length (s : State) (i : Nat) (c : Core) :
    (s.setCore i c).cores.length = s.cores.length := by simp [State.setCore]

theorem map_setCore (s : State) (i : Nat) (c : Core) (g : Core → Core) (h : g c = g (s.core i)) :
    (s.setCore i c).cores.map g = s.cores.map g := by
  simp only [State.setCore]
  rw [List.map_set, h]
  apply List.ext_getElem? 
  intro k
  rw [List.getElem?_set]
  by_cases e : i = k
  · subst e
    by_cases l : i < s.cores.length
    · simp [l, State.core, List.getD_eq_getElem?_getD]
    · simp [l]
  · simp [e]

/-! ### Views -/

@[simp] theorem body_body (s : State) : body (body s) = body s := by
  simp [body, coreBody, jobBody, Function.comp_def]

theorem body_free (s : State) (n : Nat) : body { s with free := n } = body s := rfl

theorem body_setCore (s : State) (i : Nat) (c : Core) (h : coreBody c = coreBody (s.core i)) :
    body (s.setCore i c) = body s := by
  have := map_setCore s i c coreBody h
  simp only [body, State.setCore] at *
  rw [this]

theorem body_modJob (s : State) (c : Nat) (f : Job → Job) (h : ∀ j, jobBody (f j) = jobBody j) :
    body (s.modJob c f) = body s := by
  simp only [body, State.modJob, List.map_map]
  congr 1
  apply List.map_congr_left
  intro j _
  simp only [Function.comp]
  split
  · exact h j
  · rfl

theorem body_spend (s : State) (n k : Nat) : body (s.spend n k) = body s := by
  unfold State.spend
  dsimp only
  split
  · rfl
  · exact (body_modJob _ _ _ (fun _ => by simp [jobBody, Function.comp_def])).trans (body_setCore _ _ _ (by rfl))

theorem body_tick (s : State) (n k : Nat) : body (s.tick n k) = body s := by
  unfold State.tick
  rw [body_spend]
  rfl

theorem body_count (s : State) (b e n : Nat) : body (s.count b e n) = body s := rfl

theorem body_lostSample (s : State) : body s.lostSample = body s := rfl

theorem body_sample (s : State) (n : Nat) (j : Job) (pc : Nat) : body (s.sample n j pc) = body s := by
  unfold State.sample State.modCore
  dsimp only
  split
  · split
    · rw [body_setCore _ _ _ (by rfl)]
    · split
      · rw [body_lostSample, body_setCore _ _ _ (by rfl), body_free]
      · rw [body_setCore _ _ _ (by rfl), body_free]
  · split <;> split <;> rw [body_setCore _ _ _ (by rfl)] <;> rfl
  · rfl

theorem body_retire (s : State) (n : Nat) (j : Job) (len : Nat) : body (s.retire n j len) = body s := by
  unfold State.retire State.modCore
  dsimp only
  rw [body_setCore _ _ _ (by rfl), body_sample, body_count, body_tick]

end Sys2Proof.Machine
end

