-- ==== Sys2Proof/Laws/Complete.lean ====
section
/-!
SUPPORT. Completing commands moves only the host link, the host's side and the counter slots (R46, R56 to
R58, R65, R73 to R75).
-/

namespace Sys2Proof.Machine

open Sys2Proof.Safety

theorem inside_foldl {α : Type} (f : State → α → State) (h : ∀ s a, inside (f s a) = inside s) (l : List α)
    (s : State) : inside (l.foldl f s) = inside s := by
  induction l generalizing s with
  | nil => rfl
  | cons a t ih => rw [List.foldl_cons, ih, h]

@[simp] theorem inside_setQueue (s : State) (q : Queue) : inside (s.setQueue q) = inside s := rfl
@[simp] theorem inside_modCmd (s : State) (u : Nat) (f : Cmd → Cmd) : inside (s.modCmd u f) = inside s := rfl
@[simp] theorem inside_dropCmd (s : State) (u : Nat) : inside (s.dropCmd u) = inside s := rfl
@[simp] theorem inside_raise (s : State) (v : Nat) : inside (s.raise v) = inside s := rfl
@[simp] theorem inside_count (s : State) (b e n : Nat) : inside (s.count b e n) = inside s := rfl
@[simp] theorem inside_regEvent (s : State) (n : Nat) : inside (s.regEvent n) = inside s := rfl

@[simp] theorem inside_modQueue (s : State) (q : Nat) (f : Queue → Queue) :
    inside (s.modQueue q f) = inside s := by
  unfold State.modQueue; split <;> rfl

@[simp] theorem inside_writeCpl (s : State) (q : Nat) (c : Cpl) : inside (s.writeCpl q c) = inside s := by
  unfold State.writeCpl
  dsimp only
  split
  · rfl
  · split
    · rfl
    · split <;> split <;> rfl

@[simp] theorem inside_emit (s : State) (u : Nat) (last : Bool) (v : Verdict) :
    inside (s.emit u last v) = inside s := by
  unfold State.emit
  split
  · rfl
  · split
    · rfl
    · dsimp only
      rw [inside_foldl _ (fun s p => inside_writeCpl s _ p)]
      rfl

@[simp] theorem inside_settleReset (s : State) (q : Nat) : inside (s.settleReset q) = inside s := by
  unfold State.settleReset
  split
  · rfl
  · split
    · rfl
    · dsimp only
      split
      · split <;> rfl
      · rfl

@[simp] theorem inside_settleAbort (s : State) : inside s.settleAbort = inside s := rfl

@[simp] theorem inside_settleAdmin (n : Nat) (s : State) : inside (s.settleAdmin n) = inside s := by
  induction n generalizing s with
  | zero => rfl
  | succ n ih =>
    unfold State.settleAdmin
    split
    · split
      · rw [ih, inside_emit]
      · rfl
    · rfl

@[simp] theorem inside_settleDown (s : State) : inside s.settleDown = inside s := by
  unfold State.settleDown; split <;> rfl

/-- What follows from completions moves nothing inside. -/
@[simp] theorem inside_settle (s : State) : inside s.settle = inside s := by
  unfold State.settle
  simp only [inside_settleDown, inside_settleAdmin, inside_settleAbort]
  rw [inside_foldl _ (fun s q => inside_settleReset s q)]

@[simp] theorem inside_countReset (s : State) (q : Nat) : inside (s.countReset q) = inside s :=
  inside_modQueue s q _

/-- Completing a command moves nothing inside. -/
@[simp] theorem inside_complete (s : State) (u : Nat) (v : Verdict) : inside (s.complete u v) = inside s := by
  unfold State.complete
  split
  · rfl
  · split
    · rfl
    · dsimp only
      rw [inside_settle]
      split <;> split <;> simp

@[simp] theorem inside_ok (s : State) (c : Cmd) : inside (s.ok c) = inside s := inside_complete s _ _
@[simp] theorem inside_fail (s : State) (c : Cmd) (st : Status) (a b : Nat) :
    inside (s.fail c st a b) = inside s := inside_complete s _ _
@[simp] theorem inside_refuse (s : State) (c : Cmd) (r : Nat) : inside (s.refuse c r) = inside s :=
  inside_complete s _ _
@[simp] theorem inside_completeAll (s : State) (us : List Nat) (v : Verdict) :
    inside (s.completeAll us v) = inside s := inside_foldl _ (fun s u => inside_complete s u v) us s

@[simp] theorem inside_release (n : Nat) (s : State) (q : Nat) : inside (s.release n q) = inside s := by
  induction n generalizing s with
  | zero => rfl
  | succ n ih =>
    unfold State.release
    split
    · rfl
    · split
      · rfl
      · split
        · rfl
        · dsimp only
          rw [ih, inside_modQueue, inside_writeCpl, inside_setQueue]

/-! ### Fields of a settled state -/

@[simp] theorem settle_pending (s : State) : s.settle.pending = s.pending := by
  change (inside s.settle).pending = (inside s).pending; rw [inside_settle]
@[simp] theorem settle_free (s : State) : s.settle.free = s.free := by
  change (inside s.settle).free = (inside s).free; rw [inside_settle]
@[simp] theorem settle_clock (s : State) : s.settle.clock = s.clock := by
  change (inside s.settle).clock = (inside s).clock; rw [inside_settle]
@[simp] theorem settle_cores (s : State) : s.settle.cores = s.cores := by
  change (inside s.settle).cores = (inside s).cores; rw [inside_settle]
@[simp] theorem settle_pods (s : State) : s.settle.pods = s.pods := by
  change (inside s.settle).pods = (inside s).pods; rw [inside_settle]
@[simp] theorem settle_jobs (s : State) : s.settle.jobs = s.jobs := by
  change (inside s.settle).jobs = (inside s).jobs; rw [inside_settle]
@[simp] theorem settle_gens (s : State) : s.settle.gens = s.gens := by
  change (inside s.settle).gens = (inside s).gens; rw [inside_settle]
@[simp] theorem settle_objs (s : State) : s.settle.objs = s.objs := by
  change (inside s.settle).objs = (inside s).objs; rw [inside_settle]
@[simp] theorem settle_copies (s : State) : s.settle.copies = s.copies := by
  change (inside s.settle).copies = (inside s).copies; rw [inside_settle]
@[simp] theorem settle_nextCopy (s : State) : s.settle.nextCopy = s.nextCopy := by
  change (inside s.settle).nextCopy = (inside s).nextCopy; rw [inside_settle]
@[simp] theorem settle_pages (s : State) : s.settle.pages = s.pages := by
  change (inside s.settle).pages = (inside s).pages; rw [inside_settle]
@[simp] theorem settle_arbs (s : State) : s.settle.arbs = s.arbs := by
  change (inside s.settle).arbs = (inside s).arbs; rw [inside_settle]
@[simp] theorem settle_media (s : State) : s.settle.media = s.media := by
  change (inside s.settle).media = (inside s).media; rw [inside_settle]
@[simp] theorem settle_spool (s : State) : s.settle.spool = s.spool := by
  change (inside s.settle).spool = (inside s).spool; rw [inside_settle]
@[simp] theorem settle_integ (s : State) : s.settle.integ = s.integ := by
  change (inside s.settle).integ = (inside s).integ; rw [inside_settle]
@[simp] theorem settle_sec (s : State) : s.settle.sec = s.sec := by
  change (inside s.settle).sec = (inside s).sec; rw [inside_settle]
@[simp] theorem settle_hw (s : State) : s.settle.hw = s.hw := by
  change (inside s.settle).hw = (inside s).hw; rw [inside_settle]
@[simp] theorem complete_pending (s : State) (u : Nat) (v : Verdict) : (s.complete u v).pending = s.pending := by
  change (inside (s.complete u v)).pending = (inside s).pending; rw [inside_complete]
@[simp] theorem complete_free (s : State) (u : Nat) (v : Verdict) : (s.complete u v).free = s.free := by
  change (inside (s.complete u v)).free = (inside s).free; rw [inside_complete]
@[simp] theorem complete_clock (s : State) (u : Nat) (v : Verdict) : (s.complete u v).clock = s.clock := by
  change (inside (s.complete u v)).clock = (inside s).clock; rw [inside_complete]
@[simp] theorem complete_cores (s : State) (u : Nat) (v : Verdict) : (s.complete u v).cores = s.cores := by
  change (inside (s.complete u v)).cores = (inside s).cores; rw [inside_complete]
@[simp] theorem complete_pods (s : State) (u : Nat) (v : Verdict) : (s.complete u v).pods = s.pods := by
  change (inside (s.complete u v)).pods = (inside s).pods; rw [inside_complete]
@[simp] theorem complete_jobs (s : State) (u : Nat) (v : Verdict) : (s.complete u v).jobs = s.jobs := by
  change (inside (s.complete u v)).jobs = (inside s).jobs; rw [inside_complete]
@[simp] theorem complete_gens (s : State) (u : Nat) (v : Verdict) : (s.complete u v).gens = s.gens := by
  change (inside (s.complete u v)).gens = (inside s).gens; rw [inside_complete]
@[simp] theorem complete_objs (s : State) (u : Nat) (v : Verdict) : (s.complete u v).objs = s.objs := by
  change (inside (s.complete u v)).objs = (inside s).objs; rw [inside_complete]
@[simp] theorem complete_copies (s : State) (u : Nat) (v : Verdict) : (s.complete u v).copies = s.copies := by
  change (inside (s.complete u v)).copies = (inside s).copies; rw [inside_complete]
@[simp] theorem complete_nextCopy (s : State) (u : Nat) (v : Verdict) : (s.complete u v).nextCopy = s.nextCopy := by
  change (inside (s.complete u v)).nextCopy = (inside s).nextCopy; rw [inside_complete]
@[simp] theorem complete_pages (s : State) (u : Nat) (v : Verdict) : (s.complete u v).pages = s.pages := by
  change (inside (s.complete u v)).pages = (inside s).pages; rw [inside_complete]
@[simp] theorem complete_arbs (s : State) (u : Nat) (v : Verdict) : (s.complete u v).arbs = s.arbs := by
  change (inside (s.complete u v)).arbs = (inside s).arbs; rw [inside_complete]
@[simp] theorem complete_media (s : State) (u : Nat) (v : Verdict) : (s.complete u v).media = s.media := by
  change (inside (s.complete u v)).media = (inside s).media; rw [inside_complete]
@[simp] theorem complete_spool (s : State) (u : Nat) (v : Verdict) : (s.complete u v).spool = s.spool := by
  change (inside (s.complete u v)).spool = (inside s).spool; rw [inside_complete]
@[simp] theorem complete_integ (s : State) (u : Nat) (v : Verdict) : (s.complete u v).integ = s.integ := by
  change (inside (s.complete u v)).integ = (inside s).integ; rw [inside_complete]
@[simp] theorem complete_sec (s : State) (u : Nat) (v : Verdict) : (s.complete u v).sec = s.sec := by
  change (inside (s.complete u v)).sec = (inside s).sec; rw [inside_complete]
@[simp] theorem complete_hw (s : State) (u : Nat) (v : Verdict) : (s.complete u v).hw = s.hw := by
  change (inside (s.complete u v)).hw = (inside s).hw; rw [inside_complete]
@[simp] theorem completeAll_pending (s : State) (us : List Nat) (v : Verdict) : (s.completeAll us v).pending = s.pending := by
  change (inside (s.completeAll us v)).pending = (inside s).pending; rw [inside_completeAll]
@[simp] theorem completeAll_free (s : State) (us : List Nat) (v : Verdict) : (s.completeAll us v).free = s.free := by
  change (inside (s.completeAll us v)).free = (inside s).free; rw [inside_completeAll]
@[simp] theorem completeAll_clock (s : State) (us : List Nat) (v : Verdict) : (s.completeAll us v).clock = s.clock := by
  change (inside (s.completeAll us v)).clock = (inside s).clock; rw [inside_completeAll]
@[simp] theorem completeAll_cores (s : State) (us : List Nat) (v : Verdict) : (s.completeAll us v).cores = s.cores := by
  change (inside (s.completeAll us v)).cores = (inside s).cores; rw [inside_completeAll]
@[simp] theorem completeAll_pods (s : State) (us : List Nat) (v : Verdict) : (s.completeAll us v).pods = s.pods := by
  change (inside (s.completeAll us v)).pods = (inside s).pods; rw [inside_completeAll]
@[simp] theorem completeAll_jobs (s : State) (us : List Nat) (v : Verdict) : (s.completeAll us v).jobs = s.jobs := by
  change (inside (s.completeAll us v)).jobs = (inside s).jobs; rw [inside_completeAll]
@[simp] theorem completeAll_gens (s : State) (us : List Nat) (v : Verdict) : (s.completeAll us v).gens = s.gens := by
  change (inside (s.completeAll us v)).gens = (inside s).gens; rw [inside_completeAll]
@[simp] theorem completeAll_objs (s : State) (us : List Nat) (v : Verdict) : (s.completeAll us v).objs = s.objs := by
  change (inside (s.completeAll us v)).objs = (inside s).objs; rw [inside_completeAll]
@[simp] theorem completeAll_copies (s : State) (us : List Nat) (v : Verdict) : (s.completeAll us v).copies = s.copies := by
  change (inside (s.completeAll us v)).copies = (inside s).copies; rw [inside_completeAll]
@[simp] theorem completeAll_nextCopy (s : State) (us : List Nat) (v : Verdict) : (s.completeAll us v).nextCopy = s.nextCopy := by
  change (inside (s.completeAll us v)).nextCopy = (inside s).nextCopy; rw [inside_completeAll]
@[simp] theorem completeAll_pages (s : State) (us : List Nat) (v : Verdict) : (s.completeAll us v).pages = s.pages := by
  change (inside (s.completeAll us v)).pages = (inside s).pages; rw [inside_completeAll]
@[simp] theorem completeAll_arbs (s : State) (us : List Nat) (v : Verdict) : (s.completeAll us v).arbs = s.arbs := by
  change (inside (s.completeAll us v)).arbs = (inside s).arbs; rw [inside_completeAll]
@[simp] theorem completeAll_media (s : State) (us : List Nat) (v : Verdict) : (s.completeAll us v).media = s.media := by
  change (inside (s.completeAll us v)).media = (inside s).media; rw [inside_completeAll]
@[simp] theorem completeAll_spool (s : State) (us : List Nat) (v : Verdict) : (s.completeAll us v).spool = s.spool := by
  change (inside (s.completeAll us v)).spool = (inside s).spool; rw [inside_completeAll]
@[simp] theorem completeAll_integ (s : State) (us : List Nat) (v : Verdict) : (s.completeAll us v).integ = s.integ := by
  change (inside (s.completeAll us v)).integ = (inside s).integ; rw [inside_completeAll]
@[simp] theorem completeAll_sec (s : State) (us : List Nat) (v : Verdict) : (s.completeAll us v).sec = s.sec := by
  change (inside (s.completeAll us v)).sec = (inside s).sec; rw [inside_completeAll]
@[simp] theorem completeAll_hw (s : State) (us : List Nat) (v : Verdict) : (s.completeAll us v).hw = s.hw := by
  change (inside (s.completeAll us v)).hw = (inside s).hw; rw [inside_completeAll]
@[simp] theorem emit_pending (s : State) (u : Nat) (last : Bool) (v : Verdict) : (s.emit u last v).pending = s.pending := by
  change (inside (s.emit u last v)).pending = (inside s).pending; rw [inside_emit]
@[simp] theorem emit_free (s : State) (u : Nat) (last : Bool) (v : Verdict) : (s.emit u last v).free = s.free := by
  change (inside (s.emit u last v)).free = (inside s).free; rw [inside_emit]
@[simp] theorem emit_clock (s : State) (u : Nat) (last : Bool) (v : Verdict) : (s.emit u last v).clock = s.clock := by
  change (inside (s.emit u last v)).clock = (inside s).clock; rw [inside_emit]
@[simp] theorem emit_cores (s : State) (u : Nat) (last : Bool) (v : Verdict) : (s.emit u last v).cores = s.cores := by
  change (inside (s.emit u last v)).cores = (inside s).cores; rw [inside_emit]
@[simp] theorem emit_pods (s : State) (u : Nat) (last : Bool) (v : Verdict) : (s.emit u last v).pods = s.pods := by
  change (inside (s.emit u last v)).pods = (inside s).pods; rw [inside_emit]
@[simp] theorem emit_jobs (s : State) (u : Nat) (last : Bool) (v : Verdict) : (s.emit u last v).jobs = s.jobs := by
  change (inside (s.emit u last v)).jobs = (inside s).jobs; rw [inside_emit]
@[simp] theorem emit_gens (s : State) (u : Nat) (last : Bool) (v : Verdict) : (s.emit u last v).gens = s.gens := by
  change (inside (s.emit u last v)).gens = (inside s).gens; rw [inside_emit]
@[simp] theorem emit_objs (s : State) (u : Nat) (last : Bool) (v : Verdict) : (s.emit u last v).objs = s.objs := by
  change (inside (s.emit u last v)).objs = (inside s).objs; rw [inside_emit]
@[simp] theorem emit_copies (s : State) (u : Nat) (last : Bool) (v : Verdict) : (s.emit u last v).copies = s.copies := by
  change (inside (s.emit u last v)).copies = (inside s).copies; rw [inside_emit]
@[simp] theorem emit_nextCopy (s : State) (u : Nat) (last : Bool) (v : Verdict) : (s.emit u last v).nextCopy = s.nextCopy := by
  change (inside (s.emit u last v)).nextCopy = (inside s).nextCopy; rw [inside_emit]
@[simp] theorem emit_pages (s : State) (u : Nat) (last : Bool) (v : Verdict) : (s.emit u last v).pages = s.pages := by
  change (inside (s.emit u last v)).pages = (inside s).pages; rw [inside_emit]
@[simp] theorem emit_arbs (s : State) (u : Nat) (last : Bool) (v : Verdict) : (s.emit u last v).arbs = s.arbs := by
  change (inside (s.emit u last v)).arbs = (inside s).arbs; rw [inside_emit]
@[simp] theorem emit_media (s : State) (u : Nat) (last : Bool) (v : Verdict) : (s.emit u last v).media = s.media := by
  change (inside (s.emit u last v)).media = (inside s).media; rw [inside_emit]
@[simp] theorem emit_spool (s : State) (u : Nat) (last : Bool) (v : Verdict) : (s.emit u last v).spool = s.spool := by
  change (inside (s.emit u last v)).spool = (inside s).spool; rw [inside_emit]
@[simp] theorem emit_integ (s : State) (u : Nat) (last : Bool) (v : Verdict) : (s.emit u last v).integ = s.integ := by
  change (inside (s.emit u last v)).integ = (inside s).integ; rw [inside_emit]
@[simp] theorem emit_sec (s : State) (u : Nat) (last : Bool) (v : Verdict) : (s.emit u last v).sec = s.sec := by
  change (inside (s.emit u last v)).sec = (inside s).sec; rw [inside_emit]
@[simp] theorem emit_hw (s : State) (u : Nat) (last : Bool) (v : Verdict) : (s.emit u last v).hw = s.hw := by
  change (inside (s.emit u last v)).hw = (inside s).hw; rw [inside_emit]

end Sys2Proof.Machine
end

