-- ==== Sys2Proof/Laws/Issue.lean ====
section
/-!
SUPPORT. What the issue of an instruction does (R154, R181, R207): one lemma says it for every instruction
whose whole effect is on its own core.
-/

namespace Sys2Proof.Machine

open Sys2Proof.Safety

/-- Equal views have equal cores up to what an issue moves. -/
theorem core_of_body {s t : State} (h : body t = body s) (k : Nat) :
    coreBody (t.core k) = coreBody (s.core k) := by
  have hc : t.cores.map coreBody = s.cores.map coreBody := congrArg State.cores h
  have hl : t.cores.length = s.cores.length := by simpa using congrArg List.length hc
  simp only [State.core, List.getD_eq_getElem?_getD]
  by_cases l : k < s.cores.length
  · have := congrArg (fun x => x[k]?) hc
    simp only [List.getElem?_map] at this
    rw [List.getElem?_eq_getElem l, List.getElem?_eq_getElem (hl ▸ l)] at this ⊢
    simpa using this
  · rw [List.getElem?_eq_none (by omega), List.getElem?_eq_none (by omega)]

theorem length_of_body {s t : State} (h : body t = body s) : t.cores.length = s.cores.length := by
  have hc : t.cores.map coreBody = s.cores.map coreBody := congrArg State.cores h
  simpa using congrArg List.length hc

@[simp] theorem retire_length (s : State) (n : Nat) (j : Job) (len : Nat) :
    (s.retire n j len).cores.length = s.cores.length := length_of_body (body_retire s n j len)

/-- A core that issues exists. -/
theorem issues_lt {s : State} {n : Fin 32} {j : Job} (h : Issues s n j) : n.val < s.cores.length := by
  by_contra l
  have := h.1
  rw [State.issuing, core_past s n.val (by omega)] at this
  simp at this

/-- The issue moves the sequencer of its core past the instruction. -/
theorem pc_retire {s : State} {n : Nat} (j : Job) (len : Nat) (h : n < s.cores.length) :
    ((s.retire n j len).core n).pc = (s.core n).pc + len := by
  have lt : n < ((((s.tick n (len / 8)).count n 1 (len / 8)).sample n j (s.core n).pc)).cores.length := by
    rw [length_of_body (body_sample _ _ _ _), length_of_body (body_count _ _ _ _),
      length_of_body (body_tick _ _ _)]
    exact h
  unfold State.retire
  dsimp only
  rw [core_modCore _ _ _ _ lt, if_pos rfl]

/-- An instruction that is legal and that nothing holds is issued with its effect. -/
theorem issue_next {s : State} {n : Fin 32} {j : Job} (h : Issues s n j) {len : Nat} {legal : Bool}
    {held : Core → Bool} (hw : (s.core n.val).pc + (len - 8) < j.programRegion) (hl : legal = true)
    (hh : held (s.core n.val) = false) (act : State → Job → Nat → State) :
    s.issue n len legal held act = .next (act (s.retire n.val j len) j (s.core n.val).pc) := by
  unfold State.issue
  rw [h.1]
  simp [hl, hh, Nat.not_le.mpr h.2, Nat.not_le.mpr hw]

/-- Fields that name nothing fail the job with ENGINE_FAULT, cause 3 (R181). -/
theorem issue_illegal {s : State} {n : Fin 32} {j : Job} (h : Issues s n j) {len : Nat} {legal : Bool}
    {held : Core → Bool} (hw : (s.core n.val).pc + (len - 8) < j.programRegion) (hl : legal = false) (act : State → Job → Nat → State) :
    s.issue n len legal held act = .next (s.failJob j.ctx .engineFault 3 (s.core n.val).pc).settle := by
  unfold State.issue
  rw [h.1]
  simp [hl, Nat.not_le.mpr h.2, Nat.not_le.mpr hw]

/-- An effect on the own core that neither reads nor moves what issuing moves. -/
def Local (f : Core → Core) : Prop :=
  (∀ c, coreBody (f c) = coreBody (f (coreBody c))) ∧ ∀ c, (f c).pc = c.pc

/-- The effect of a local instruction on the retired state. -/
theorem issued_modCore {s : State} {n : Fin 32} {j : Job} (h : Issues s n j) (len : Nat)
    {f : Core → Core} (hf : Local f) : Issued s n len f ((s.retire n.val j len).modCore n.val f) := by
  have lt := issues_lt h
  refine ⟨?_, ?_⟩
  · have hb := body_retire s n.val j len
    have hc := core_of_body hb n.val
    have e : coreBody (f ((s.retire n.val j len).core n.val)) = coreBody (f (s.core n.val)) := by
      rw [hf.1, hc, ← hf.1]
    have hs : ∀ (u : State), body (u.modCore n.val f) =
        { body u with cores := (body u).cores.set n.val (coreBody (f (u.core n.val))) } := by
      intro u
      simp [body, State.modCore, State.setCore, List.map_set]
    rw [hs, hs, hb, e]
  · rw [core_modCore _ _ _ _ (by simpa using lt), if_pos rfl, hf.2, pc_retire j len lt]

/-- An instruction of one word whose whole effect is on its own core. -/
theorem simple_issued {s : State} {n : Fin 32} {j : Job} (h : Issues s n j) {f : Core → Core}
    (hf : Local f) {legal : Bool} (hl : legal = true) :
    ∃ t, s.simple n legal f = .next t ∧ Issued s n 8 f t :=
  ⟨_, issue_next h (by simpa using h.2) hl rfl _, issued_modCore h 8 hf⟩

/-- The core of an issued instruction. -/
theorem issued_core {s t : State} {n : Fin 32} {j : Job} {len : Nat} {f : Core → Core}
    (h : Issues s n j) (i : Issued s n len f t) :
    coreBody (t.core n.val) = coreBody (f (s.core n.val)) := by
  rw [core_of_body i.1, core_modCore _ _ _ _ (issues_lt h), if_pos rfl]

end Sys2Proof.Machine
end

