-- ==== Sys2Proof/Laws/Jobs.lean ====
section
/-!
SUPPORT. The end and the failure of a job (R96, R112, R199), and when a command of the host acts (R60, R65,
R66).
-/

namespace Sys2Proof.Machine

open Sys2Proof.Safety

/-! ### Folds over the state -/

/-- What each step of a fold keeps, the fold keeps. -/
theorem foldl_keeps {α β : Type} (g : State → β) (f : State → α → State) (h : ∀ s a, g (f s a) = g s)
    (l : List α) (s : State) : g (l.foldl f s) = g s := by
  induction l generalizing s with
  | nil => rfl
  | cons a t ih => rw [List.foldl_cons, ih, h]

@[simp] theorem releaseIdents_jobs (s : State) : s.releaseIdents.jobs = s.jobs := rfl
@[simp] theorem releaseIdents_cores (s : State) : s.releaseIdents.cores = s.cores := rfl
@[simp] theorem settlePages_jobs (s : State) : s.settlePages.jobs = s.jobs := rfl
@[simp] theorem settlePages_cores (s : State) : s.settlePages.cores = s.cores := rfl
@[simp] theorem freeCore_jobs (s : State) (n : Nat) : (s.freeCore n).jobs = s.jobs := rfl
@[simp] theorem freeCore_length (s : State) (n : Nat) : (s.freeCore n).cores.length = s.cores.length := by
  simp [State.freeCore, State.dropRemote, State.forget, State.modCore, State.setCore]

/-- A job lookup depends on the jobs alone. -/
theorem job?_congr {s t : State} (h : t.jobs = s.jobs) (k : Nat) : t.job? k = s.job? k := by
  unfold State.job?; rw [h]

/-- Releasing the cores of a job leaves it without cores, and every other job as it was. -/
theorem job?_freeCores (s : State) (ctx k : Nat) :
    (s.freeCores ctx).job? k = if k = ctx then (s.job? k).map (fun j => { j with cores := [] }) else s.job? k := by
  unfold State.freeCores
  split
  · rename_i h
    by_cases e : k = ctx
    · subst e; simp [h]
    · simp [e]
  · rename_i j h
    rw [job?_congr (settlePages_jobs _)]
    refine (job?_modJob _ _ _ _ (fun _ => by rfl)).trans ?_
    rw [job?_congr (foldl_keeps State.jobs State.freeCore (fun s n => freeCore_jobs s n) j.cores s)]

@[simp] theorem job?_showJob (s : State) (ctx k : Nat) :
    (s.showJob ctx).job? k =
      if k = ctx then (s.job? k).map (fun j => { j with shown := j.acct.engineCycles }) else s.job? k :=
  job?_modJob s ctx k _ (fun _ => rfl)

/-! ### The end of a job -/

/-- A job without END_JOB commands is not collected. -/
theorem collect_none {s : State} {ctx : Nat} {j : Job} (h : s.job? ctx = some j) (e : j.endJobs = []) :
    s.collect ctx = s := by
  unfold State.collect
  rw [h]
  simp [e]

/-- The end of a job that no END_JOB waits for: it has ended with its cause, place and no core, and keeps no
request, Cut, program or writable area. -/
theorem job?_endJob {s : State} {ctx : Nat} {j : Job} (h : s.job? ctx = some j) (hs : j.state ≠ .ended)
    (he : j.endJobs = []) (e : JobEnd) (pc : Nat) :
    (s.endJob ctx e pc).job? ctx = some { j with
      cores := [], state := .ended, ended := e, faultPc := pc, pendingReqs := [], batch := [], detached := []
      leaving := [], reclaims := [], watches := [], submit := none, lastCut := none, prevCut := none, program := []
      writable := [], window := false, region := false, idleWait := false, shown := j.acct.engineCycles } := by
  unfold State.endJob
  rw [h]
  dsimp only
  rw [if_neg hs]
  set u : State := (((s.freeCores ctx).modJob ctx (fun j => { j with
        state := .ended, ended := e, faultPc := pc, pendingReqs := [], batch := [], detached := [],
        leaving := [], reclaims := [], watches := [], submit := none, lastCut := none, prevCut := none,
        program := [], writable := [], window := false, region := false, idleWait := false })).showJob ctx) with hu
  have hj : u.job? ctx = some { j with
      cores := [], state := .ended, ended := e, faultPc := pc, pendingReqs := [], batch := [], detached := []
      leaving := [], reclaims := [], watches := [], submit := none, lastCut := none, prevCut := none, program := []
      writable := [], window := false, region := false, idleWait := false, shown := j.acct.engineCycles } := by
    rw [hu, job?_showJob, if_pos rfl]
    refine (congrArg _ ((job?_modJob _ _ _ _ (fun _ => by rfl)).trans (if_pos rfl))).trans ?_
    rw [job?_freeCores, if_pos rfl, h]
    rfl
  clear_value u
  set w : State := { u with spool := { u.spool with answered := u.spool.answered.filter (fun a => a.2 != j.handle) } } with hw
  have hwu : w.jobs = u.jobs := by rw [hw]
  clear_value w
  rw [job?_congr (releaseIdents_jobs _)]
  have hk : ∀ v : State, v.jobs = u.jobs → (v.collect ctx).job? ctx = u.job? ctx := by
    intro v hv
    have hv' : v.job? ctx = _ := (job?_congr hv ctx).trans hj
    rw [collect_none hv' he, hv', hj]
  rw [hk _ ?_, hj]
  split
  · rw [complete_jobs, foldl_keeps State.jobs _ (fun s r => complete_jobs s _ _), completeAll_jobs, hwu]
  · rw [foldl_keeps State.jobs _ (fun s r => complete_jobs s _ _), completeAll_jobs, hwu]

/-- The failure of a job that no END_JOB waits for (R199). -/
theorem failed_failJob {s : State} {ctx : Nat} {j : Job} (h : s.job? ctx = some j) (hs : j.state ≠ .ended)
    (he : j.endJobs = []) (st : Status) (cause pc : Nat) : Failed (s.failJob ctx st cause pc) ctx st cause pc :=
  ⟨_, job?_endJob h hs he _ pc, rfl, rfl, rfl, rfl⟩

/-- What completions follow a failure leaves the failed job as it is. -/
theorem failed_settle {t : State} {ctx : Nat} {st : Status} {cause pc : Nat} (h : Failed t ctx st cause pc) :
    Failed t.settle ctx st cause pc := by
  obtain ⟨j, hj, rest⟩ := h
  exact ⟨j, (job?_congr (settle_jobs t) ctx).trans hj, rest⟩

/-- What happens to a job that an END_JOB waits for: its context is free. -/
theorem job?_collect {s : State} {ctx : Nat} {j : Job} (h : s.job? ctx = some j) (e : j.endJobs ≠ []) :
    (s.collect ctx).job? ctx = none := by
  unfold State.collect
  rw [h]
  dsimp only
  split
  · contradiction
  · rw [job?_congr (releaseIdents_jobs _), job?_congr (completeAll_jobs _ _ _), job?_congr (complete_jobs _ _ _)]
    simp [State.job?, List.find?_filter]

/-! ### Commands of the host -/

/-- A fetched command that may act has its effect, and completions that follow are written. -/
theorem onCmd_runs {s : State} {u op : Nat} {c : Cmd} (h : Runs s u op c) (f : Cmd → State) :
    s.onCmd u op f = .next (f c).settle := by
  obtain ⟨h1, h2, h3, h4⟩ := h
  unfold State.onCmd
  rw [h1]
  simp [h2, h3, h4]

/-- Any other occurrence of it leaves the state unchanged (log 1). -/
theorem onCmd_idle {s : State} {u op : Nat} (h : ∀ c, ¬ Runs s u op c) (f : Cmd → State) :
    s.onCmd u op f = .next s := by
  unfold State.onCmd
  split
  · rename_i c hc
    have := h c
    rw [if_neg]
    rintro ⟨a, b, d⟩
    exact this ⟨hc, a, b, d⟩
  · rfl

/-- Every occurrence of a host command answers a next state. -/
theorem onCmd_next (s : State) (u op : Nat) (f : Cmd → State) : ∃ t, s.onCmd u op f = .next t := by
  by_cases h : ∃ c, Runs s u op c
  · obtain ⟨c, hc⟩ := h
    exact ⟨_, onCmd_runs hc f⟩
  · exact ⟨_, onCmd_idle (fun c hc => h ⟨c, hc⟩) f⟩

end Sys2Proof.Machine
end

