-- ==== Sys2Proof/Laws/Sparse.lean ====
section
/-!
SUPPORT. The sparse stores: a read after a write, reads elsewhere, and that every operation keeps the
canonical form.
-/

namespace Sys2Proof.Sparse

variable {w : Nat}

@[simp] theorem get_nil (k : Nat) : Sparse.get ([] : Sparse w) k = 0 := rfl

theorem get_cons (a k : Nat) (v : BitVec w) (t : Sparse w) :
    Sparse.get ((a, v) :: t) k = if a = k then v else Sparse.get t k := rfl

theorem wfFrom_cons {lo a : Nat} {v : BitVec w} {t : Sparse w} :
    Sparse.wfFrom lo ((a, v) :: t) = true ↔ lo ≤ a ∧ v ≠ 0 ∧ Sparse.wfFrom (a + 1) t = true := by
  simp [Sparse.wfFrom, and_assoc]

theorem wfFrom_mono {lo hi : Nat} {m : Sparse w} (h : Sparse.wfFrom hi m = true) (le : lo ≤ hi) :
    Sparse.wfFrom lo m = true := by
  cases m with
  | nil => rfl
  | cons c t => obtain ⟨a, v⟩ := c; rw [wfFrom_cons] at *; exact ⟨by omega, h.2⟩

/-- A store reads 0 below its first listed cell. -/
theorem get_below {lo k : Nat} {m : Sparse w} (h : Sparse.wfFrom lo m = true) (lt : k < lo) :
    Sparse.get m k = 0 := by
  induction m generalizing lo with
  | nil => rfl
  | cons c t ih =>
    obtain ⟨a, v⟩ := c
    rw [wfFrom_cons] at h
    rw [get_cons, if_neg (by omega)]
    exact ih h.2.2 (by omega)

/-- A read after a write. -/
theorem get_set_from {lo : Nat} {m : Sparse w} (h : Sparse.wfFrom lo m = true) (k : Nat) (v : BitVec w)
    (i : Nat) : Sparse.get (Sparse.set m k v) i = if i = k then v else Sparse.get m i := by
  induction m generalizing lo with
  | nil =>
    by_cases hv : v = 0
    · simp [Sparse.set, hv]
    · simp only [Sparse.set, if_neg hv, get_cons, get_nil]
      by_cases e : k = i <;> simp [e, eq_comm]
  | cons c t ih =>
    obtain ⟨a, x⟩ := c
    rw [wfFrom_cons] at h
    obtain ⟨_, _, ht⟩ := h
    simp only [Sparse.set]
    split
    · rename_i lt
      simp only [get_cons, ih ht]
      by_cases e : a = i
      · subst e; rw [if_pos rfl, if_neg (by omega), if_pos rfl]
      · simp [e]
    · split
      · rename_i _ e
        subst e
        split
        · rename_i hv
          by_cases ei : i = a
          · subst ei; simp [hv, get_below ht (Nat.lt_succ_self _)]
          · simp only [get_cons, if_neg ei, if_neg (Ne.symm ei)]
        · simp only [get_cons]
          by_cases ei : i = a
          · subst ei; simp
          · simp [ei, Ne.symm ei]
      · split
        · rename_i hv
          by_cases ei : i = k
          · subst ei
            simp only [get_cons, if_pos, hv]
            rw [if_neg (by omega)]
            exact get_below ht (by omega)
          · simp [ei]
        · simp only [get_cons]
          by_cases ei : i = k
          · subst ei; simp
          · simp [ei, Ne.symm ei]

/-- A read after a write gives the value written, and a write leaves every other cell alone. -/
theorem get_set {m : Sparse w} (h : Sparse.wf m = true) (k : Nat) (v : BitVec w) (i : Nat) :
    Sparse.get (Sparse.set m k v) i = if i = k then v else Sparse.get m i := get_set_from h k v i

theorem wfFrom_set {lo : Nat} {m : Sparse w} (h : Sparse.wfFrom lo m = true) {k : Nat} (hk : lo ≤ k)
    (v : BitVec w) : Sparse.wfFrom lo (Sparse.set m k v) = true := by
  induction m generalizing lo with
  | nil =>
    by_cases hv : v = 0
    · simp [Sparse.set, hv, Sparse.wfFrom]
    · simp only [Sparse.set, if_neg hv]
      exact wfFrom_cons.mpr ⟨hk, hv, rfl⟩
  | cons c t ih =>
    obtain ⟨a, x⟩ := c
    rw [wfFrom_cons] at h
    obtain ⟨h1, h2, ht⟩ := h
    simp only [Sparse.set]
    split
    · exact wfFrom_cons.mpr ⟨h1, h2, ih ht (by omega)⟩
    · split
      · split
        · exact wfFrom_mono ht (by omega)
        · rename_i e hv; subst e; exact wfFrom_cons.mpr ⟨hk, hv, ht⟩
      · split
        · exact wfFrom_cons.mpr ⟨h1, h2, ht⟩
        · rename_i hv
          exact wfFrom_cons.mpr ⟨hk, hv, wfFrom_cons.mpr ⟨by omega, h2, ht⟩⟩

/-- A write keeps the canonical form. -/
theorem wf_set {m : Sparse w} (h : Sparse.wf m = true) (k : Nat) (v : BitVec w) :
    Sparse.wf (Sparse.set m k v) = true := wfFrom_set h (Nat.zero_le _) v

theorem wfFrom_filter {lo : Nat} {m : Sparse w} (h : Sparse.wfFrom lo m = true)
    (p : Nat × BitVec w → Bool) : Sparse.wfFrom lo (m.filter p) = true := by
  induction m generalizing lo with
  | nil => rfl
  | cons c t ih =>
    obtain ⟨a, x⟩ := c
    rw [wfFrom_cons] at h
    simp only [List.filter_cons]
    split
    · exact wfFrom_cons.mpr ⟨h.1, h.2.1, ih h.2.2⟩
    · exact wfFrom_mono (ih h.2.2) (by omega)

/-- Clearing a range keeps the canonical form. -/
theorem wf_clear {m : Sparse w} (h : Sparse.wf m = true) (base n : Nat) :
    Sparse.wf (Sparse.clear m base n) = true := wfFrom_filter h _

theorem get_ofList (base : Nat) (vs : List (BitVec w)) (i : Nat) :
    Sparse.get (Sparse.ofList base vs) i =
      if base ≤ i ∧ i < base + vs.length then vs.getD (i - base) 0 else 0 := by
  induction vs generalizing base with
  | nil => simp [Sparse.ofList]
  | cons v t ih =>
    simp only [Sparse.ofList]
    by_cases hi : base = i
    · subst hi
      split
      · rename_i hv; rw [ih]; simp [hv]
      · simp [get_cons]
    · have step : Sparse.get (Sparse.ofList (base + 1) t) i =
          if base ≤ i ∧ i < base + (v :: t).length then (v :: t).getD (i - base) 0 else 0 := by
        rw [ih]
        by_cases hb : base < i
        · have : i - base = (i - (base + 1)) + 1 := by omega
          rw [this]
          simp only [List.length_cons, List.getD_cons_succ]
          congr 1
          exact propext (by omega)
        · rw [if_neg (by omega), if_neg (by omega)]
      split
      · exact step
      · rw [get_cons, if_neg hi]; exact step

theorem wfFrom_ofList {lo base : Nat} (h : lo ≤ base) (vs : List (BitVec w)) :
    Sparse.wfFrom lo (Sparse.ofList base vs) = true := by
  induction vs generalizing base lo with
  | nil => rfl
  | cons v t ih =>
    simp only [Sparse.ofList]
    split
    · exact ih (by omega)
    · rename_i hv; exact wfFrom_cons.mpr ⟨h, hv, ih (Nat.le_refl _)⟩

/-- Every listed cell of a store lies below a bound. -/
def upTo (hi : Nat) (m : Sparse w) : Prop := ∀ c ∈ m, c.1 < hi

theorem ofList_upTo (base : Nat) (vs : List (BitVec w)) :
    upTo (base + vs.length) (Sparse.ofList base vs) := by
  induction vs generalizing base with
  | nil => simp [Sparse.ofList, upTo]
  | cons v t ih =>
    have := ih (base + 1)
    simp only [Sparse.ofList, List.length_cons]
    intro c hc
    split at hc
    · have := this c hc; omega
    · rcases List.mem_cons.mp hc with rfl | hc
      · simp
      · have := this c hc; omega

theorem wfFrom_append {lo mid : Nat} {a b : Sparse w} (ha : Sparse.wfFrom lo a = true)
    (hm : upTo mid a) (hb : Sparse.wfFrom mid b = true) (le : lo ≤ mid) :
    Sparse.wfFrom lo (a ++ b) = true := by
  induction a generalizing lo with
  | nil => exact wfFrom_mono hb le
  | cons c t ih =>
    obtain ⟨k, v⟩ := c
    rw [wfFrom_cons] at ha
    have hk : k < mid := hm (k, v) (by simp)
    exact wfFrom_cons.mpr ⟨ha.1, ha.2.1, ih ha.2.2 (fun c hc => hm c (by simp [hc])) (by omega)⟩

theorem wfFrom_drop {lo hi : Nat} {m : Sparse w} (h : Sparse.wfFrom lo m = true) :
    Sparse.wfFrom hi (m.filter (fun c => decide (hi ≤ c.1))) = true := by
  induction m generalizing lo with
  | nil => rfl
  | cons c t ih =>
    obtain ⟨a, x⟩ := c
    rw [wfFrom_cons] at h
    simp only [List.filter_cons]
    split
    · rename_i hk
      refine wfFrom_cons.mpr ⟨by simpa using hk, h.2.1, wfFrom_filter h.2.2 _⟩
    · exact ih h.2.2

theorem take_upTo (hi : Nat) (m : Sparse w) : upTo hi (m.filter (fun c => decide (c.1 < hi))) := by
  intro c hc
  simpa using (List.mem_filter.mp hc).2

/-- Writing a range keeps the canonical form. -/
theorem wf_splice {m : Sparse w} (h : Sparse.wf m = true) (base : Nat) (vs : List (BitVec w)) :
    Sparse.wf (Sparse.splice m base vs) = true := by
  unfold Sparse.splice Sparse.wf
  refine wfFrom_append (mid := base) (wfFrom_filter h _) (take_upTo _ _) ?_ (Nat.zero_le _)
  exact wfFrom_append (mid := base + vs.length) (wfFrom_ofList (Nat.le_refl _) vs)
    (ofList_upTo _ _) (wfFrom_drop h) (by omega)

theorem get_append {a b : Sparse w} {i mid : Nat} (ha : upTo mid a)
    (hb : Sparse.wfFrom mid b = true) :
    Sparse.get (a ++ b) i = if i < mid then Sparse.get a i else Sparse.get b i := by
  induction a with
  | nil =>
    by_cases h : i < mid
    · simp [h, get_below hb h]
    · simp [h]
  | cons c t ih =>
    obtain ⟨k, v⟩ := c
    have hk : k < mid := ha (k, v) (by simp)
    simp only [List.cons_append, get_cons, ih (fun c hc => ha c (by simp [hc]))]
    by_cases e : k = i
    · subst e; simp [hk]
    · simp [e]

theorem get_filter {lo : Nat} {m : Sparse w} (h : Sparse.wfFrom lo m = true) (p : Nat → Bool) (i : Nat) :
    Sparse.get (m.filter (fun c => p c.1)) i = if p i then Sparse.get m i else 0 := by
  induction m generalizing lo with
  | nil => simp
  | cons c t ih =>
    obtain ⟨a, x⟩ := c
    rw [wfFrom_cons] at h
    simp only [List.filter_cons]
    by_cases e : a = i
    · subst e
      by_cases hp : p a = true
      · simp [hp, get_cons]
      · rw [if_neg hp, ih h.2.2]; simp [hp]
    · split
      · simp only [get_cons, if_neg e]; exact ih h.2.2
      · rw [ih h.2.2, get_cons, if_neg e]

/-- A read after a range was written. -/
theorem get_splice {m : Sparse w} (h : Sparse.wf m = true) (base : Nat) (vs : List (BitVec w)) (i : Nat) :
    Sparse.get (Sparse.splice m base vs) i =
      if base ≤ i ∧ i < base + vs.length then vs.getD (i - base) 0 else Sparse.get m i := by
  unfold Sparse.splice
  have hd : Sparse.wfFrom (base + vs.length) (m.filter (fun c => decide (base + vs.length ≤ c.1))) = true :=
    wfFrom_drop h
  have hr : Sparse.wfFrom base (Sparse.ofList base vs ++
      m.filter (fun c => decide (base + vs.length ≤ c.1))) = true :=
    wfFrom_append (mid := base + vs.length) (wfFrom_ofList (Nat.le_refl _) vs) (ofList_upTo _ _) hd
      (by omega)
  rw [get_append (take_upTo _ _) hr, get_append (ofList_upTo _ _) hd,
    get_filter h (fun k => decide (k < base)), get_filter h (fun k => decide (base + vs.length ≤ k)),
    get_ofList]
  by_cases h1 : i < base
  · simp [h1]
  · by_cases h2 : i < base + vs.length
    · simp [h1, h2, Nat.le_of_not_lt h1]
    · simp [h1, h2]

/-- Bytes of memory after a write: the written bytes, elsewhere what was there. -/
theorem get_write {m : Mem} (h : Sparse.wf m = true) (base : Nat) (bs : List Byte) (i : Nat) :
    Sparse.get (Mem.write m base bs) i =
      if base ≤ i ∧ i < base + bs.length then bs.getD (i - base) 0 else Sparse.get m i :=
  get_splice h base bs i

/-- A write keeps the canonical form of memory. -/
theorem wf_write {m : Mem} (h : Sparse.wf m = true) (base : Nat) (bs : List Byte) :
    Sparse.wf (Mem.write m base bs) = true := wf_splice h base bs

end Sys2Proof.Sparse
end

