-- ==== Sys2Proof/Laws/Memory.lean ====
section
/-!
SUPPORT. Every operation on memories and register files keeps the canonical form (R152, R358 to R361), and
what a window of a memory reads.
-/

namespace Sys2Proof.Sparse

/-- Keeping only some cells keeps the canonical form. -/
theorem wf_filter {w : Nat} {m : Sparse w} (h : Sparse.wf m = true) (p : Nat × BitVec w → Bool) :
    Sparse.wf (m.filter p) = true := wfFrom_filter h p

theorem wf_ofList {w : Nat} (base : Nat) (vs : List (BitVec w)) : Sparse.wf (Sparse.ofList base vs) = true :=
  wfFrom_ofList (Nat.zero_le _) vs

/-- Folding steps that keep the canonical form keeps it. -/
theorem wf_foldl {w : Nat} {α : Type} (f : Sparse w → α → Sparse w)
    (hf : ∀ m a, Sparse.wf m = true → Sparse.wf (f m a) = true) (l : List α) {m : Sparse w}
    (h : Sparse.wf m = true) : Sparse.wf (l.foldl f m) = true := by
  induction l generalizing m with
  | nil => exact h
  | cons a t ih => exact ih (hf m a h)

@[simp] theorem window_length {w : Nat} (m : Sparse w) (base n : Nat) : (Sparse.window m base n).length = n := by
  simp [Sparse.window]

/-- A window reads the cells from its base on. -/
theorem window_getD {w : Nat} {m : Sparse w} (h : Sparse.wf m = true) (base n i : Nat) (lt : i < n) :
    (Sparse.window m base n).getD i 0 = Sparse.get m (base + i) := by
  simp only [Sparse.window, List.getD_eq_getElem?_getD, List.getElem?_map, List.getElem?_range lt, Option.map_some,
    Option.getD_some]
  have := get_filter h (fun a => decide (base ≤ a) && decide (a < base + n)) (base + i)
  rw [this, if_pos (by simp; omega)]

/-- Writing nothing changes nothing that is read. -/
theorem get_write_nil {m : Mem} (h : Sparse.wf m = true) (base i : Nat) :
    Sparse.get (Mem.write m base []) i = Sparse.get m i := by
  rw [get_write h]
  simp

/-- A store moved up by a number keeps the canonical form. -/
theorem wfFrom_shift {w : Nat} {lo : Nat} {m : Sparse w} (h : Sparse.wfFrom lo m = true) (d : Nat) :
    Sparse.wfFrom (lo + d) (m.map (fun c => (c.1 + d, c.2))) = true := by
  induction m generalizing lo with
  | nil => rfl
  | cons c t ih =>
    obtain ⟨a, x⟩ := c
    rw [wfFrom_cons] at h
    have := ih h.2.2
    rw [Nat.add_right_comm] at this
    exact wfFrom_cons.mpr ⟨Nat.add_le_add_right h.1 d, h.2.1, this⟩

/-- A part of a store renumbered from 0 keeps the canonical form. -/
theorem wf_extract {w : Nat} {m : Sparse w} (h : Sparse.wf m = true) (base n : Nat) :
    Sparse.wf (Sparse.extract m base n) = true := by
  have key : ∀ {lo : Nat} {l : Sparse w}, Sparse.wfFrom lo l = true → (∀ c ∈ l, base ≤ c.1) →
      Sparse.wfFrom (lo - base) (l.map (fun c => (c.1 - base, c.2))) = true := by
    intro lo l hl hb
    induction l generalizing lo with
    | nil => rfl
    | cons c t ih =>
      obtain ⟨a, x⟩ := c
      rw [wfFrom_cons] at hl
      have ha : base ≤ a := hb (a, x) (by simp)
      have := ih hl.2.2 (fun c hc => hb c (by simp [hc]))
      rw [show a + 1 - base = a - base + 1 by omega] at this
      exact wfFrom_cons.mpr ⟨by omega, hl.2.1, this⟩
  have := key (wf_filter h (fun c => decide (base ≤ c.1) && decide (c.1 < base + n)))
    (by intro c hc; simpa using (by simpa using (List.mem_filter.mp hc).2 : base ≤ c.1 ∧ c.1 < base + n).1)
  simpa [Sparse.extract, Sparse.wf] using this

/-- Pasting a store into another keeps the canonical form. -/
theorem wf_paste {w : Nat} {m x : Sparse w} (h : Sparse.wf m = true) (hx : Sparse.wf x = true) (base n : Nat) :
    Sparse.wf (Sparse.paste m base n x) = true := by
  unfold Sparse.paste
  refine wfFrom_append (wf_filter h _) (take_upTo base m) ?_ (Nat.zero_le _)
  refine wfFrom_append ?_ ?_ (wfFrom_drop h) (Nat.le_add_right base n)
  · have := wfFrom_shift (wf_filter hx (fun c => decide (c.1 < n))) base
    rwa [Nat.zero_add] at this
  · intro c hc
    obtain ⟨d, hd, rfl⟩ := List.mem_map.mp hc
    have : d.1 < n := by simpa using (List.mem_filter.mp hd).2
    simp only
    omega

end Sys2Proof.Sparse

namespace Sys2Proof.Machine

theorem wf_xorWord {m : Mem} (h : Sparse.wf m = true) (u : Nat) (x : BitVec 64) :
    Sparse.wf (Mem.xorWord m u x) = true := Sparse.wf_write h _ _

theorem wf_delivered {m : Mem} (h : Sparse.wf m = true) (e : List EccMark) : Sparse.wf (delivered m e) = true := by
  refine Sparse.wf_foldl _ ?_ e h
  intro m k hm
  split
  · exact wf_xorWord hm _ _
  · exact hm
  · exact hm

/-- A write to a coded store keeps the canonical form. -/
theorem wf_codedWrite {m : Mem} (h : Sparse.wf m = true) (e : List EccMark) (a : Nat) (bs : List Byte) :
    Sparse.wf (codedWrite m e a bs).1 = true := Sparse.wf_write (wf_delivered h _) _ _

/-- A write to a store without marks writes its bytes and nothing else. -/
theorem codedWrite_clean (m : Mem) (a : Nat) (bs : List Byte) : codedWrite m [] a bs = (Mem.write m a bs, []) := rfl

theorem wf_writeSlots {m : Mem} (h : Sparse.wf m = true) (base depth first : Nat) (slots : List (List Byte)) :
    Sparse.wf (writeSlots m base depth first slots) = true := by
  induction slots generalizing m first with
  | nil => exact h
  | cons x t ih => exact ih (Sparse.wf_write h _ _) _

end Sys2Proof.Machine
end

