-- ==== Sys2Proof/Tests/Slice0.lean ====
section
/-!
SUPPORT. The model's own tests: ill-formed commands, values of the manual's worked examples, and for every
statement a state and operands that meet its hypotheses.
-/

namespace Sys2Proof.Tests

open Sys2Proof.Machine Sys2Proof.Safety

set_option maxRecDepth 100000
set_option exponentiation.threshold 600

/-! ### Small states -/

/-- A started module in the life-cycle state SERVICE with a User's session. -/
def live : State := { State.reset with
  hw := { phase := .running, perst := false, started := true, startStep := 7 }
  link := { linkUp := true, session := true, ide := true }
  sec := { State.reset.sec with lc := .service } }

/-- A Slate of an inference job on one core with 64 KiB of writable area. -/
def slate : Slate :=
  { kind := 1, idleYield := false, carryTopk := false, carryAcc := false, cores := 1, minCores := 1, seqSlots := 4
    cls := 0, carryBytes := 0, budget := 0, overrunLimit := 0, cutGrace := 0, programLen := 4096, entry := 0
    clientId := 0, model := 0, index := 0, storyboard := 0, storyboardLen := 0, writableBytes := 65536 }

/-- A running job on core 0. -/
def job : Job :=
  { ctx := 5, handle := 0x0400000000001005, pod := 0, slate := slate, program := [], declared := 1
    resolved := some 1, state := .running, cores := [0] }

/-- The module with a job on core 0, whose registers and memories are those of `c`. -/
def on (j : Job) (c : Core) : State :=
  { live with jobs := [j], cores := { c with job := some j.ctx } :: List.replicate 31 {} }

/-- The guard that names no P register: every element is active. -/
def all : Guard := ⟨0, false, false⟩

/-- `n` bytes that are zero but for little-endian fields at (offset, size, value). -/
def fields (n : Nat) (fs : List (Nat × Nat × Nat)) : List Byte :=
  fs.foldl (fun bs f => bs.take f.1 ++ leBytes f.2.1 f.2.2 ++ bs.drop (f.1 + f.2.1)) (List.replicate n 0)

/-- A view of the next state of a command. -/
def after {α : Type} (i : Instr) (s : State) (f : State → α) : Option α :=
  match exec i s with
  | .next t => some (f t)
  | _ => none

/-! ### Ill-formed commands -/

theorem test_wf_cond : wellFormed (.b 0 9 0) = false ∧ wellFormed (.call 0 9 0) = false := by decide
theorem test_wf_shift : wellFormed (.shli 0 1 2 64) = false ∧ wellFormed (.shri 0 1 2 64) = false ∧
    wellFormed (.sari 0 1 2 64) = false := by decide
theorem test_wf_areg : wellFormed (.mova 0 16 0) = false ∧ wellFormed (.movs 0 0 16) = false ∧
    wellFormed (.adda 0 0 16 0) = false ∧ wellFormed (.adda 0 16 0 0) = false ∧
    wellFormed (.addai 0 0 16 0) = false ∧ wellFormed (.addai 0 16 0 0) = false ∧
    wellFormed (.take 0 0 16) = false := by decide
theorem test_wf_mover : wellFormed (.mvLoad 0 8 0 0 0 0 false) = false ∧
    wellFormed (.mvLoad 0 0 16 0 0 0 false) = false ∧ wellFormed (.mvStore 0 0 0 0 0 0 true) = false ∧
    wellFormed (.mvStore 0 8 0 0 0 0 false) = false ∧ wellFormed (.mvSpread 0 8 0 0 0 0 false) = false ∧
    wellFormed (.mvTload 0 0 16 0 0 0 false) = false ∧ wellFormed (.mvTstore 0 0 0 0 0 0 true) = false ∧
    wellFormed (.mvWait 0 8) = false ∧ wellFormed (.mvStat 0 0 8) = false := by decide
theorem test_wf_vector : wellFormed (.vld 0 0 (3 <<< 35)) = false ∧ wellFormed (.vst 0 0 (1 <<< 37)) = false ∧
    wellFormed (.vmov 0 all 0 0 4) = false ∧ wellFormed (.vcvt 0 all 0 0 3) = false ∧
    wellFormed (.vpack 0 all 0 0 8) = false ∧ wellFormed (.vunpk 0 all 0 0 3) = false ∧
    wellFormed (.vcmplt 0 all 8 0 0 0) = false ∧ wellFormed (.vcmpeq 0 all 0 0 0 2) = false ∧
    wellFormed (.vidx 0 all 0 4) = false ∧ wellFormed (.vtk 0 all 0 0 4) = false ∧
    wellFormed (.rstat 0 all 0 3) = false ∧ wellFormed (.venc 0 all 0 0 16) = false ∧
    wellFormed (.estore 0 0) = false ∧ wellFormed (.estore 0 16385) = false := by decide
theorem test_wf_tables : wellFormed (.cbload 0 0 4 0) = false ∧ wellFormed (.cbload 0 0 0 16) = false ∧
    wellFormed (.scset 0 4 0) = false ∧ wellFormed (.scget 0 4 0) = false ∧ wellFormed (.scadv 0 4) = false ∧
    wellFormed (.eload 0 4 0 0) = false ∧ wellFormed (.tkOn 0 2 1) = false ∧ wellFormed (.sysrd 0 0 64) = false := by
  decide
theorem test_wf_once : wellFormed (.jobStart 0 [1, 1]) = false ∧
    wellFormed (.arbiterGrant 0 [⟨0, 0, 0⟩, ⟨0, 1, 0⟩] 1) = false := by decide

/-! ### The queue and scalar instructions -/

theorem witness_queue : { live with pending := [.nop 3] }.pending = [.nop 3] ∧ live.pending = [] := by decide

/-- A core in the middle of its program with a few values in its registers. -/
def mid : Core :=
  { pc := 4088, sregs := [(1, 7), (2, 0xFFFFFFFFFFFFFFFE), (3, 64)], aregs := [(4, 0x1000)], z := true
    stack := [16], os := [(64, 0xAB), (71, 1)] }

theorem witness_issue : Issues (on job mid) 0 job ∧ coreWf ((on job mid).core 0) = true := by
  unfold Issues; decide
theorem witness_shift : (63 : BitVec 40).toNat ≤ 63 ∧ 63 < (64 : BitVec 40).toNat := by decide
theorem witness_areg : (15 : BitVec 5).toNat ≤ 15 ∧ 15 < (16 : BitVec 5).toNat := by decide

theorem test_add_wraps : after (.add 0 4 1 2) (on job mid) (fun t => (t.core 0).sreg 4) = some 5 := by decide
theorem test_compare : after (.cmp 0 1 2) (on job mid) (fun t =>
    ((t.core 0).slt, (t.core 0).ult, (t.core 0).z)) = some (false, true, false) := by decide

theorem witness_branch : Issues (on job mid) 0 job ∧
    (∃ row ∈ conditions ((on job mid).core 0), row.2 = true) ∧
    0 ≤ (((on job mid).core 0).pc : Int) + 8 * (0x7FFFFFFE01 : BitVec 39).toInt ∧
    (((on job mid).core 0).pc : Int) + 8 * (0x7FFFFFFE01 : BitVec 39).toInt < job.programRegion := by
  unfold Issues; decide
theorem witness_ret : ((on job mid).core 0).stack = [] ++ [16] ∧ (16 : W64).toNat < job.programRegion := by decide
theorem witness_control_refused :
    16 ≤ ((on job { mid with stack := List.replicate 16 0 }).core 0).stack.length ∧
    ((on job { mid with stack := [] }).core 0).stack = [] ∧
    (((on job mid).core 0).pc : Int) + 8 * (0x7FFFFFFE00 : BitVec 39).toInt < 0 ∧
    (job.programRegion : Int) ≤ ((on job mid).core 0).pc + 8 * (262145 : BitVec 39).toInt := by decide

theorem witness_scalar_memory :
    (((on job mid).core 0).sreg 3 + (0 : BitVec 40).signExtend 64).toNat = 64 ∧
    ((on job mid).core 0).holdRefused 64 8 = false ∧ ((on job mid).core 0).readHeld 64 8 = false ∧
    ((on job mid).core 0).writeHeld 64 8 = false ∧ ((on job mid).flip 48).armed = false ∧
    (((on job mid).core 0).sreg 3 + (0x7FFFB8 : BitVec 40).signExtend 64).toNat + 8 = 0x800000 ∧
    (((on job mid).core 0).sreg 3 + (1 : BitVec 40).signExtend 64).toNat % 8 ≠ 0 ∧
    0x800000 < (((on job mid).core 0).sreg 3 + (0x7FFFC0 : BitVec 40).signExtend 64).toNat + 8 := by decide
theorem test_load : after (.ld 0 5 3 0) (on job mid) (fun t => (t.core 0).sreg 5) = some 0x01000000000000AB := by
  decide

/-! ### Failures, the mover, passes -/

theorem witness_failure : (on job mid).job? job.ctx = some job ∧ job.state ≠ .ended ∧ job.endJobs = [] ∧
    (∀ n ∈ job.cores, n < (on job mid).cores.length) ∧ seqLegal 0 0 = false ∧ seqLegal (BitVec.ofNat 64 (2 ^ 63)) 0 = false := by
  decide
theorem witness_fields : wellFormed (.b 0 9 0) = false ∧ wellFormed (.tkOn 0 2 1) = false ∧
    (.b 0 9 0) ∈ fieldForms 0 8 16 0 0 9 0 64 0 true 2 ∧ (.tkOn 0 2 64) ∈ fieldForms 0 8 16 0 0 9 0 64 0 true 2 := by
  decide

/-- A core whose registers and operand store describe a transfer of `rows` rows of one beat between 0x2000 of its
local storage and the writable area, with the fields `fs` besides. -/
def moving (rows : Nat) (fs : List (Nat × Nat × Nat)) : Core :=
  { sregs := [(16, 0x2000), (17, 0x100)]
    os := Sparse.ofList 0x100 (fields 32 ([(0, 4, rows), (4, 4, 64), (8, 4, 64)] ++ fs)) }

/-- What the issue of a mover instruction of a mode asks. -/
def moverReady (k : Core) (m : XMode) (store : Bool) : Bool :=
  let desc := Mem.bytes k.os 0x100 32
  let x := shapeXfer m store false (k.areg 6).toNat (if m = .spread then 0x01002000 else 0x2000) desc
  k.osEcc.isEmpty && (k.sreg 17).toNat == 0x100 && (k.sreg 16).toNat == 0x2000 && k.xDone 7 && !k.estoreOpen &&
  !k.holdRefused 0x100 32 && !k.readHeld 0x100 32 && shapeGood x desc && localMapped x.laddr x.lSpan &&
  !k.holdRefused x.laddr x.lSpan

theorem witness_mover :
    Issues (on job (moving 1 [(12, 4, 64)])) 0 job ∧ moverReady (moving 1 [(12, 4, 64)]) .copy false = true ∧
    moverReady (moving 1 [(12, 4, 64)]) .copy true = true ∧ moverReady (moving 1 [(0x10, 2, 64)]) .spread false = true ∧
    moverReady (moving 16 [(12, 4, 64), (0x12, 1, 4)]) .transpose false = true ∧
    moverReady (moving 16 [(12, 4, 64), (0x12, 1, 4)]) .transpose true = true := by
  unfold Issues; decide

/-- A core with the descriptor of a pass at 0x100: one operand from 0x1000 into accumulator 0 of lane row 0, with
the fields `fs` besides. -/
def passing (fs : List (Nat × Nat × Nat)) : Core :=
  { sregs := [(16, 0x1000), (18, 0x100)]
    os := Sparse.ofList 0x100 (fields 64 ([(0, 4, 1), (4, 1, 1), (5, 1, 1), (8, 4, 32)] ++ fs))
    progs := [(0, [epiReg 3 all 1 1 0 0])]
    cbCtl := [(0, 4)] }

/-- What `PassReady` asks, and no prologue. -/
def readyNow (c : Core) (m : PassMode) : Bool :=
  let t := passTile c m c.pc 16 17 18
  c.osEcc.isEmpty && c.lwbEcc.isEmpty && (c.sreg 18).toNat == 0x100 && !c.holdRefused 0x100 64 &&
  !c.readHeld 0x100 64 && !passRefused c t && !passHeld c t

theorem witness_pass_bf16 : readyNow ((on job (passing [])).core 0) .bf16 = true ∧
    dPrologue (passTile (passing []) .bf16 0 16 17 18).desc = none ∧
    Issues (on job (passing [])) 0 job ∧ coreWf ((on job (passing [])).core 0) = true := by
  unfold Issues; decide
theorem witness_pass_prologue : readyNow ((on job (passing [(7, 1, 0x10)])).core 0) .bf16 = true ∧
    (dPrologue (passTile (passing [(7, 1, 0x10)]) .bf16 0 16 17 18).desc).isSome = true := by decide
/-- A coded pass with one scale block whose tag is 1. -/
def tagged : Core := passing [(0x16, 2, 1024), (0x18, 2, 2048), (0x1A, 1, 4), (0x1B, 1, 1)]
theorem witness_pass_skew : readyNow ((on job tagged).core 0) .fp8 = true ∧
    laneSkews tagged .fp8 (passTile tagged .fp8 0 16 17 18).desc 0 0
      (tagged.laneHalf (passTile tagged .fp8 0 16 17 18).desc 0) ≠ [] ∧
    (0, 0) ∈ enabledLanes (passTile tagged .fp8 0 16 17 18).desc := by decide
/-- A binary pass over one code of 64 bits. -/
def scanning : Core :=
  { passing [(4, 1, 0), (8, 4, 8), (0x38, 2, 64)] with topk := { on := true, kLane := 4 } }
theorem witness_pass_bin : readyNow ((on job scanning).core 0) .bin = true := by decide

/-! ### Epilogue instructions and runs -/

/-- A core with a few elements in V1 and V2, P1, and accumulators. -/
def lanes : Core :=
  { vregs := [(128, 0x3F800000), (129, 0xC0000000), (130, 0x7FC00000), (256, 0x40400000), (257, 0x40000000)]
    pregs := [(1, 5)], acc := [(0, 0x40A00000), (17, 7)], os := [(0x40, 9)]
    topk := { on := true, score := true, kLane := 2, counts := [(0, 1)] } }

/-- A tile that waits for its run; its pass names slot 0 for its prologue and its epilogue. -/
def plain : Tile :=
  { mode := .bf16, pc := 8, sd := 0, sa := 0
    desc := fields 64 [(0, 4, 1), (4, 1, 1), (5, 1, 1), (7, 1, 0x11), (8, 4, 32)] }
/-- A core in the midst of the phase-0 run of a pass without ROWSTAT, whose program is `w` twice. -/
def running (w : W64) : Core :=
  { lanes with tiles := [{ plain with desc := fields 64 [(0, 4, 1), (4, 1, 1), (5, 1, 1), (7, 1, 1), (8, 4, 32)] }]
               progs := [(0, [w, w])], run := some { kind := 1 } }
/-- What `InRun` asks, for the next word `w`. -/
def inRun (c : Core) (w : W64) : Bool :=
  let s := on job c
  decide (s.unitJob 0 = some job) && decide (0 ∈ job.cores) && decide ((s.core 0).hold = none) && coreWf (s.core 0) &&
  decide ((s.core 0).spilling = 0) &&
  match (s.core 0).run, (s.core 0).nextRun with
  | some r, some d => decide (d.words[r.pos]? = some w) && decide (r.pos + 1 < d.words.length)
  | _, _ => false

theorem witness_in_run :
    ([epiReg 4 all 0 1 2 0, epiReg 5 all 0 1 2 0, epiReg 6 all 0 1 2 0, epiReg 7 all 0 1 2 0, epiReg 8 all 0 1 2 0,
      epiReg 9 all 0 1 2 0, epiReg 10 all 0 1 0 0, epiReg 3 all 0 1 0 3, epiReg 15 all 0 1 0 2, epiReg 20 all 0 0 0 3,
      epiReg 17 all 0 1 0 13, epiReg 16 all 0 1 0 4, epiReg 11 all 0 1 0 0].all (fun w => inRun (running w) w)) = true ∧
    ([epiReg 12 all 0 1 0 0, epiReg 13 all 0 1 0 0, epiReg 14 all 0 1 0 0,
      epiReg 18 all 7 1 2 1, epiReg 19 all 0 1 2 0, epiReg 0 all 0 0 0 63, epiImm 1 0 (1 <<< 35), epiImm 2 0 (1 <<< 35),
      epiReg 21 all 0 1 2 3, epiReg 24 all 0 1 0 15, epiImm 25 0 16384].all (fun w => inRun (running w) w)) = true := by
  decide
theorem witness_vector_mod : partGood 4 = true ∧ partGood 13 = true ∧
    ((running 0).tiles.headD plain).sa + (63 : BitVec 6).toNat % 16 ≤ 15 ∧
    baseGood (1 <<< 35 : BitVec 40).toNat = true ∧ (running 0).epiBad (plain.vAddr (1 <<< 35)).1 64 = false ∧
    lanes.activeOf all 1 ≠ [] ∧ listsWf lanes.topk = true ∧ (scoreKey 0x3F80).isSome = true := by decide

/-- A tile that waits for its run; its pass has ROWSTAT set and names program slot 0. -/
def tile : Tile :=
  { mode := .bf16, pc := 8, sd := 0, sa := 0
    desc := fields 64 [(0, 4, 1), (4, 1, 1), (5, 1, 1), (6, 1, 0x20), (7, 1, 1), (8, 4, 32)] }
/-- A core in the midst of the phase-0 run of such a tile, or of its finish run once its sweep has ended. -/
def counting (kind : Nat) : Core :=
  { lanes with
    progs := [(0, [epiReg 22 all 0 1 0 2, epiReg 22 all 0 1 0 2, epiReg 23 all 3 0 0 0, epiReg 3 all 1 3 0 0])]
    tiles := if kind = 1 then [tile] else []
    sweeps := if kind = 1 then [] else [{ tiles := [{ tile := tile, done := 1 }], ended := true }]
    run := some { kind := kind } }
theorem witness_rowstat : dRowstat tile.desc = true ∧ inRun (counting 1) (epiReg 22 all 0 1 0 2) = true ∧
    inRun (counting 2) (epiReg 23 all 3 0 0 0) = true := by decide
theorem witness_estore :
    let c := (on job (running (epiImm 25 0 16384))).core 0
    c.epiBad plain.out 64 = false ∧ c.epiBad plain.out (64 * 16384) = false ∧
    (dUBase plain.desc + plain.row * dUStride plain.desc) % 2 ^ 64 % 64 = 0 ∧ c.xDone 7 = true := by decide

/-- A program of one VMOV. -/
def vmovs : List (Nat × List W64) := [(0, [epiReg 3 all 3 1 0 0])]
/-- Whether a run of a program goes through to its end. -/
def endsRun (s : State) (p : RunPlace) (kind : Nat) (ws : List W64) : Bool :=
  match s.runWords 0 job p { kind := kind } ws with
  | .ran _ r => decide (ws.length ≤ r.pos)
  | _ => false
theorem witness_prologue_run :
    endsRun (on job { lanes with opening := some plain, progs := vmovs })
      { tile := plain, slot := 0, phase := 0, kinds := [], stats := [] } 0 (vmovs.map (fun p => p.2)).flatten = true := by
  decide
theorem witness_epilogue_run :
    endsRun (on job { lanes with tiles := [plain], progs := vmovs })
      { tile := plain, slot := 0, phase := 0, kinds := [], stats := [] } 1 (vmovs.map (fun p => p.2)).flatten = true ∧
    dRowstat plain.desc = false := by decide
/-- A core with an ended sweep of one tile whose first phase has ended; its program has two phases. -/
def finishing : Core :=
  { lanes with
    progs := [(0, [epiReg 22 all 0 1 0 0, epiReg 23 all 3 0 0 0])]
    sweeps := [{ tiles := [{ tile := tile, done := 1 }], ended := true }] }
theorem witness_finish_run : ((on job finishing).core 0).finishPlace = some (0, 0, 1) ∧
    endsRun (on job finishing) { tile := tile, slot := 0, phase := 1, kinds := [0], stats := [] } 2
      [epiReg 23 all 3 0 0 0] = true := by decide
/-- A core whose unit has begun the phase-0 run of a pass with the program `ws` and stands before its last word. -/
def ending (ws : List W64) : Core :=
  { running 0 with progs := [(0, ws)], run := some { kind := 1, pos := ws.length - 1 } }
theorem witness_unit_rows :
    (match (ending [0, epiReg 3 all 1 1 0 0]).nextRun with
     | some u => decide (u.kind = 1 ∧ u.words[(ending [0, epiReg 3 all 1 1 0 0]).runPos]? = some (epiReg 3 all 1 1 0 0) ∧
         (ending [0, epiReg 3 all 1 1 0 0]).runPos + 1 = u.words.length)
     | none => false) = true ∧ lanes.nextRun.isNone = true := by decide

/-! ### Tables, scale states, programs, the top-k unit -/

/-- A core with a codebook record of 16 entries at 0x40, a scale state at 0x80 and a program word at 0xC0. -/
def tables : Core :=
  { sregs := [(1, 0x40), (2, 0x80), (3, 0xC0), (4, 0x200), (5, 512), (7, 1)]
    os := Sparse.ofList 0x40 (fields 64 [(0, 1, 4), (1, 1, 3), (32, 2, 0xBF80), (62, 2, 0x3F80)] ++
      fields 64 [(0, 1, 1), (2, 1, 4), (4, 2, 0x40A0), (6, 2, 0x3FA0)] ++
      leBytes 8 (epiReg 3 all 1 1 0 0).toNat)
    scale := [(64, 9)], topk := { on := true, kLane := 4, counts := [(5, 1)] } }

theorem witness_cbload :
    let c := (on job tables).core 0
    Issues (on job tables) 0 job ∧ coreWf c = true ∧ c.osEcc = [] ∧ (c.sreg 1).toNat % 64 = 0 ∧
    c.readHeld 0x40 64 = false ∧ (∀ r < 4, ∀ t < 2, c.tableOpen r t = false) ∧
    recordGood false (Mem.bytes c.os 0x40 64) = true ∧
    recordGood true (Mem.bytes [(0x40, 8)] 0x40 544) = true := by
  unfold Issues; decide
theorem witness_scale :
    let c := (on job tables).core 0
    (∀ e < 4, c.slotOpen e = false) ∧ c.readHeld 0x80 64 = false ∧ c.writeHeld 0x80 64 = false ∧
    scaleGood (Mem.bytes c.os 0x80 64) = true ∧ ((on job tables).flip 48).armed = false ∧
    c.scField 0 0 1 = 0 := by decide
theorem witness_eload :
    let c := (on job tables).core 0
    c.readHeld 0xC0 8 = false ∧ epiLegal (BitVec.ofNat 64 (Mem.field c.os 0xC0 8)) = true ∧
    (1 : BitVec 40).toNat ≤ 256 := by decide
theorem witness_topk :
    let c := (on job tables).core 0
    (on job tables).core 0 = c ∧ c.feeds = false ∧ c.topk.on = true ∧ (c.sreg 4).toNat % 64 = 0 ∧
    c.readHeld 0x200 512 = false ∧ (Mem.bytes c.os 0x200 512).all stripeGood = true ∧
    (c.sreg 6).toNat + (c.sreg 5).toNat = 512 ∧ c.writeHeld 0x200 8 = false ∧ 1 ≤ (c.sreg 7).toNat := by decide

/-- A scale state in mode `m`, window 4, with BF16 fields at the offsets given. -/
def scaleState (m : Nat) (fs : List (Nat × Nat × Nat)) : Core :=
  { tables with scale := Sparse.ofList 0 (fields 64 ([(0, 1, m), (2, 1, 4)] ++ fs)) }
/-- The RUNNING example of chapter 08: Take 21 and Take 25. -/
theorem test_scadv_running :
    after (.scadv 0 0) (on job (scaleState 1 [(4, 2, 0x40A0), (6, 2, 0x3FA0), (0x18, 4, 0x40D00000), (0x1C, 4, 3),
      (0x20, 2, 0x4050), (0x22, 2, 0x4070), (0x24, 2, 0x4080), (0x26, 2, 0x4060)])) (fun t =>
        ((t.core 0).scField 0 4 2, (t.core 0).scField 0 0x20 2, (t.core 0).scField 0 0x26 2,
          (t.core 0).scField 0 0x18 4, (t.core 0).scField 0 0x1C 4)) = some (0x4102, 0x40D0, 0x4080, 0, 0) ∧
    after (.scadv 0 0) (on job (scaleState 1 [(4, 2, 0x4102), (6, 2, 0x3FA0), (0x18, 4, 0x40700000),
      (0x20, 2, 0x4080), (0x22, 2, 0x4088), (0x24, 2, 0x4090), (0x26, 2, 0x40D0)])) (fun t =>
        (t.core 0).scField 0 4 2) = some 0x40B4 := by decide
/-- The LEARNED example of chapter 08: Takes 30, 31 and 32. -/
theorem test_scadv_learned :
    let st := fun (c o h : Nat) => scaleState 2
      [(1, 1, 4 * h), (8, 2, c), (0x0A, 2, 0x3E80), (0x0C, 2, 0x4100), (0x0E, 2, 0x4000), (0x1C, 4, o)]
    let go := fun (c : Core) => after (.scadv 0 0) (on job c) (fun t => (t.core 0).scField 0 8 2)
    go (st 0x3F80 1 1) = some 0x4000 ∧ go (st 0x4000 0 1) = some 0x4000 ∧ go (st 0x4000 0 0) = some 0x3F80 := by
  decide

/-! ### Synchronisation, Cuts, the end of a job -/

/-- A job on cores 0 and 1, of which core 1 waits for `h`. -/
def job2 : Job := { job with cores := [0, 1] }
/-- The module with `job2` on its cores. -/
def on2 (c : Core) (h : Option Hold) : State :=
  { live with jobs := [job2]
              cores := { c with job := some 5 } :: { job := some 5, hold := h, rank := 1 } :: List.replicate 30 {} }
theorem witness_fence : Issues (on job mid) 0 job ∧ 0 ∈ job.cores := by unfold Issues; decide
theorem witness_collective_holds : Issues (on2 mid none) 0 job2 ∧ 0 ∈ job2.cores ∧ 1 ∈ job2.cores ∧
    ((on2 mid none).core 1).hold = none ∧ (((on2 mid none).core 0).sreg 1).toNat ≤ 128 ∧
    (((on2 mid none).core 0).areg 4).toNat % 64 = 0 := by unfold Issues; decide
theorem witness_bar : Issues (on2 mid (some .bar)) 0 job2 ∧ job2.region = false ∧
    (∀ m ∈ job2.cores, m ≠ 0 → ((on2 mid (some .bar)).core m).hold = some .bar) ∧
    (∀ m ∈ job2.cores, m ≠ 0 → ((on2 mid (some .cut)).core m).hold = some .cut) ∧
    Issues (on2 mid (some .cut)) 0 job2 := by unfold Issues; decide
theorem witness_cut : GoesOn (on job mid) job 0 ∧ ((on job mid).core 0).xfers = [] ∧ ((on job mid).core 0).opening = none ∧
    ((on job mid).core 0).tiles = [] ∧ ((on job mid).core 0).sweeps = [] := by unfold GoesOn; decide
/-- A core with the operands of a TAKE: no free place, and its table at the start of the writable area. -/
def taking : Core := { aregs := [] }
theorem witness_take :
    let s := on job taking
    Issues s 0 job ∧ ((s.core 0).sreg 1).toNat ≤ 128 ∧ ((s.core 0).areg 2).toNat % 64 = 0 ∧ s.integ.t1Ecc = [] ∧
    job.slate.kind = 1 ∧ job.slate.idleYield = false ∧ job.pendingReqs = [] ∧ job.tableGood 0 0 = true ∧
    job.answers 0 = [] := by unfold Issues; decide
theorem witness_sysrd : (11 : BitVec 40).toNat < 12 ∧ 12 ≤ (12 : BitVec 40).toNat ∧ Issues (on job mid) 0 job := by
  unfold Issues; decide

/-! ### Search instructions -/

/-- A job of kind search whose Slate names the index `idx`. -/
def seeker : Job := { job with slate := { slate with kind := 2, index := 0x0300000000001001 } }
/-- A stored index of two lists of 64-bit codes and eight identifiers, its regions close together. -/
def stored : Copy :=
  { id := 0, kind := .index, size := 0x600000, metaPages := 1
    mem := Sparse.ofList 0 (fields 0x88 [(4, 2, 64), (8, 4, 2), (0x10, 8, 8), (0x28, 8, 0), (0x30, 8, 0x1000),
      (0x38, 8, 0x2000), (0x40, 8, 0x3000), (0x48, 8, 0x3100), (0x50, 8, 0x4000), (0x58, 8, 0x5000),
      (0x60, 8, 0x6000), (0x68, 8, 0x8000)]) ++ [(0x3000, 0x0E)] }
def idx : Obj := { handle := 0x0300000000001001, kind := .index, num := 1, pod := 0, copy := 0 }
/-- The module with that index and a search job on core 0. -/
def searching (c : Core) : State := { on seeker c with objs := [idx], copies := [stored] }
/-- A walk of one lane and one round from list 0, its words at 0x1000, its staging at 0x10000, its visits at
0x20000. -/
def walker : Core :=
  { sregs := [(9, 0x100)], topk := { on := true, kLane := 4 }
    os := Sparse.ofList 0x100 (fields 64 [(0, 8, 0x2000000000000000), (8, 2, 0), (0x0A, 2, 1), (0x0D, 1, 1),
      (0x10, 4, 0x1000), (0x14, 4, 0x10000), (0x18, 4, 0x20000)]) }
theorem witness_walk :
    let s := searching walker
    let c := s.core 0
    let d := Mem.bytes c.os 0x100 64
    let k : WalkCtx := { core := 0, ctx := 5, copy := stored, lanes := c.walkLanes stored d }
    Issues s 0 seeker ∧ (c.sreg 9).toNat = 0x100 ∧ c.feeds = false ∧ s.indexAt seeker (fieldAt d 0 8) = some stored ∧
    walkGood c stored d = true ∧ listsWf c.topk = true ∧ (walkFrom (s.retire 0 seeker 8) k 0 1).lost k = none := by unfold Issues; decide
/-- A filter step over two identifiers at 0x200, its list of at most one at 0x400, without a filter. -/
def filterer : Core :=
  { sregs := [(9, 0x100)]
    os := Sparse.ofList 0x100 (fields 32 [(0, 8, 0x2000000000000000), (8, 4, 0x200), (0x0C, 4, 2),
      (0x10, 4, 0xFFFFFFFF), (0x14, 4, 0x400), (0x18, 2, 1)]) ++ Sparse.ofList 0x200 (fields 16 [(0, 8, 1), (8, 8, 2)]) }
theorem witness_filter :
    let s := searching filterer
    let c := s.core 0
    let d := Mem.bytes c.os 0x100 32
    let entries := (pieces 8 (Mem.bytes c.os 0x200 16)).map (fun p => BitVec.ofNat 64 (le p))
    let f : FiltStep := entries.foldl (fun (f : FiltStep) e => f.entry 5 stored none 1 e)
      { st := s.retire 0 seeker 8 }
    Issues s 0 seeker ∧ s.indexAt seeker (fieldAt d 0 8) = some stored ∧ filtGood c d = true ∧ f.lost = none ∧
    f.outside = none ∧ f.out.length = 1 := by unfold Issues; decide

/-! ### Transfers, arbiters, promotions, faults -/

/-- A transfer of one beat between the operand store at 0x2000 and address 0x40. -/
def beat : Xfer := { state := .queued, uaddr := 0x40, laddr := 0x2000, rows := 1, rowBytes := 64 }
/-- The module with that transfer on core 0, in a state. -/
def carrying (x : Xfer) : State := on job { mid with xfers := [(2, x)] }
theorem witness_transfer_start :
    let c := (carrying beat).core 0
    (carrying beat).unitJob 0 = some job ∧ c.xfer 2 = beat ∧ c.startHeld beat = false ∧ beat.progress < beat.beats ∧
    (∀ a ∈ beat.uAddrs 0, a < job.slate.writableBytes) ∧ job.slate.writableBytes ≤ 0x000000C000000000 := by decide
/-- A load from the second page of the stored index, which is ABSENT. -/
def far : Xfer := { beat with uaddr := 0x2000000000200000 }
theorem witness_transfer_parks :
    let s : State := { searching { mid with xfers := [(2, far)] } with copies := [{ stored with metaPages := 0 }] }
    s.unitJob 0 = some seeker ∧ far.uAddrs 0 = [0x2000000000200000] ∧
    s.objectPage seeker 0x2000000000200000 = some (0, 1) ∧ s.page? 0 1 = none ∧ (s.core 0).startHeld far = false := by
  decide
theorem witness_grant :
    let x := { beat with state := .active }
    let s := carrying x
    s.requests 0 ⟨0, 0, 2⟩ = true ∧ s.requests 47 ⟨0, 0, 2⟩ = true ∧ (s.core 0).beatHeld x 0 = false ∧
    x.progress + 1 = x.beats ∧ x.asked ≤ x.progress ∧ s.integ.flips = [] ∧ s.integ.t1Ecc = [] ∧
    (s.core 0).spilling = 0 ∧ Sparse.wf job.writable = true ∧ (x.uAddrs 0).headD 0 + 64 ≤ 65536 ∧ (x.lAddrs 0).headD 0 + 64 ≤ 0x800000 := by
  decide
theorem witness_arbiter_age :
    let b : Arb := { hold := 0, waits := [(3, 33)] }
    b.ageLimit ≠ 0 ∧ (b.queue [⟨3, 2, 0⟩, ⟨1, 0, 0⟩])[0]? = some (3, 33) ∧ b.ageLimit.toNat < 33 ∧
    b.choose [⟨3, 2, 0⟩, ⟨1, 0, 0⟩] = some (⟨3, 2, 0⟩, true) := by decide
theorem witness_arbiter_round :
    let b : Arb := { hold := 0, last := [(0, 1)], waits := [(3, 32)] }
    (∀ w ∈ b.queue [⟨3, 2, 0⟩, ⟨1, 0, 0⟩, ⟨2, 0, 0⟩], w.2 ≤ b.ageLimit.toNat) ∧
    b.choose [⟨3, 2, 0⟩, ⟨1, 0, 0⟩, ⟨2, 0, 0⟩] = some (⟨2, 0, 0⟩, false) := by decide
/-- Arbiter 0 holds a grant of that transfer, which has been cut off `n` times. -/
def held (n : Nat) : State :=
  (carrying { beat with state := .active, cutOffs := n }).modArb 0 (fun b => { b with grant := some { req := ⟨0, 0, 2⟩ } })
theorem witness_cut_off :
    ((held 14).arb 0).grant = some { req := ⟨0, 0, 2⟩ } ∧ ((held 14).arb 0).cutEn = true ∧
    ((held 14).arb 0).limit 0 ≠ 0 ∧ ({ req := ⟨0, 0, 2⟩ } : Grant).spill = false ∧ 0 < (held 14).arbs.length ∧
    ((held 14).core 0).job.bind (held 14).job? = some job ∧
    (((held 14).core 0).xfer 2).cut.cutOffs = 15 ∧ (((held 15).core 0).xfer 2).cut.cutOffs = 16 := by decide

/-- The module with page 1 of the stored index in a state, claimed by Pod 0. -/
def paged (st : PageState) : State :=
  { searching {} with copies := [{ stored with metaPages := 0 }], pages := [{ copy := 0, page := 1, state := st, claims := [0] }]
                      sec := { live.sec with keyTable := [{ handle := 0x0300000000001001, copy := some 0 }] } }
theorem witness_promotion :
    (paged .queued).page? 0 1 = some { copy := 0, page := 1, state := .queued, claims := [0] } ∧
    (paged .queued).awake = true ∧ (paged .queued).freeQuota 0 = true ∧
    (paged .promoting).keyed 0 = true ∧ ((paged .promoting).copy? 0).any (fun c => c.unreadable.contains 1) = false ∧
    (∀ y ∈ (paged .promoting).pages, y.state ≠ .queued ∧ y.wants = []) ∧
    (((paged .queued).modArb 48 (fun b => { b with grant := some { req := ⟨32, 0, 0⟩ } })).promotionGrant? (0, 1)).isSome =
      true ∧
    (∀ n < 32, (paged .promoting).parkedOn n (0, 1) = []) ∧ (paged .promoting).integ.reported.contains 0 = false := by
  decide

theorem witness_tile_fault : ((on job { lanes with tiles := [plain] }).core 0).tiles = [plain] ∧
    ((on job { lanes with tiles := [plain] }).core 0).run.map (fun r => r.kind) ≠ some 2 ∧
    { plain with faults := 2 }.faults + 1 < 4 := by decide
/-- A job with a Cut of its core, and one in a recovery window. -/
def cutJob : Job := { job with lastCut := some { slot := 0, cuts := 1, n := 1, recs := [
  { cuts := 1, pc := 8, z := false, slt := false, ult := false, stack := [], sregs := [], aregs := [], vregs := []
    pregs := [], carry := [], acc := [], topk := {}, lists := [], xfers := [] }] } }
theorem witness_job_fault :
    (∀ j ∈ [job, cutJob, { job with window := true }], (on j {}).unitJob 0 = some j ∧ (on j {}).job? 5 = some j ∧
      j.cores = [0] ∧ (on j {}).cores.length = 32 ∧ j.slate.storyboard = 0 ∧ j.slate.minCores ≤ 1 ∧
      (on j {}).recordLost j 1 = false ∧ j.endJobs = []) ∧
    (∀ j ∈ [job, cutJob], ∀ x ∈ (on j {}).jobs, x.pod = j.pod → x.window = false) := by decide
theorem witness_fence_core : live.fenceable 0 = true ∧ live.fenceable 31 = true ∧ 31 < live.cores.length ∧
    (live.core 31).job = none ∧ 3 ≤ ({ faultCount := 3 } : Core).faultCount := by decide

/-! ### Commands of the host -/

def admin : Queue :=
  { id := 0, pod := 0, cls := 0, sqLog2 := 6, cqLog2 := 6, sqOffset := 0, cqAddr := 0x100000, vector := 0 }
def queue1 : Queue :=
  { id := 1, pod := 1, cls := 1, sqLog2 := 6, cqLog2 := 6, sqOffset := 4096, cqAddr := 0x200000, vector := 1 }
/-- The fetched command 7 of a queue. -/
def cmd (q op object p0 p1 p2 : Nat) (payload : List Byte) : Cmd :=
  { uid := 7, queue := q, opcode := op, tag := 3, fence := false, noIntr := false, hostTime := 0, object := object
    p0 := p0, p1 := p1, p2 := p2, payload := payload, whole := true, nextIndex := 1, begun := false, posted := 0
    seqNo := none, progress := 0, verdict := none, finished := false }
/-- The module with its admin queue, an I/O queue of Pod 1, Pods 1 and 2, and the commands `cs`. -/
def hosted (cs : List Cmd) : State :=
  { live with
    link := { live.link with queues := [admin, queue1], cmds := cs, nextUid := 8, admin := { ready := true, enable := true } }
    pods := [{ id := 0, granules := 170, slots := 480 }, { id := 1, granules := 10, slots := 20 },
      { id := 2, granules := 8, slots := 12 }] }
/-- Whether a command of an opcode may act. -/
def runs (s : State) (op : Nat) : Bool :=
  match s.cmd? 7 with
  | some c => c.opcode == op && s.mayBegin c && s.awake
  | none => false

theorem witness_aperture : live.link.linkUp = true ∧ Sparse.wf live.link.aperture = true ∧
    2 ^ 30 - 1 + [(1 : Byte)].length ≤ 2 ^ 30 ∧ 2 ^ 30 < 2 ^ 30 + [(1 : Byte)].length := by decide
theorem witness_doorbells :
    let s := hosted []
    let x := { queue1 with sqHead := 60, sqTail := 2 }
    let t := { s with link := { s.link with queues := [x] } }
    t.doorbellQueue 1 = some x ∧ x.sqHead < x.depth ∧ x.cqHead < x.cqDepth ∧ x.resetting = none ∧
    ((x.sqTail : Int) - x.sqHead) % x.depth ≤ ((59 : Int) - x.sqHead) % x.depth ∧
    ¬ ((x.sqTail : Int) - x.sqHead) % x.depth ≤ ((1 : Int) - x.sqHead) % x.depth ∧
    ((0 : Int) - x.cqHead) % x.cqDepth ≤ ((x.cqTail : Int) - x.cqHead) % x.cqDepth ∧
    ¬ ((1 : Int) - x.cqHead) % x.cqDepth ≤ ((x.cqTail : Int) - x.cqHead) % x.cqDepth ∧ ¬ 64 < x.depth := by decide
/-- A header of READ in the ring of queue 1, all fields as R49 places them. -/
def header : List Byte :=
  let body := fields 60 [(0, 1, 0x10), (2, 2, 9), (0x18, 8, 0x0100000000001001), (0x28, 8, 1)]
  body ++ leBytes 4 (crc32c body)
def volume : Obj := { handle := 0x0100000000001001, kind := .volume, num := 1, pod := 1, sectors := 1000 }
/-- The module with a packet published in queue 1. -/
def published (bs : List Byte) : State :=
  let s := hosted []
  { s with objs := [volume]
           link := { s.link with queues := [admin, { queue1 with sqTail := 1 }], aperture := Sparse.ofList 4096 bs } }
theorem witness_packet :
    let s := published header
    let q := { queue1 with sqTail := 1 }
    let h := s.headerOf q
    s.queue? 1 = some q ∧ s.fetches q = true ∧ s.accepts q h = true ∧ h.len ≤ packetLimit q.depth ∧
    packetSlots h.len ≤ (q.sqTail + q.depth - q.sqHead) % q.depth ∧ s.sec.err ≠ .hard ∧ s.sec.boot ≠ 1 ∧
    s.sec.lc = .service ∧ s.link.session = true ∧ s.badPacket (q.advance (packetSlots h.len)) h = false ∧
    s.notBound q h = false ∧ s.integ.t1Ecc = [] := by decide
theorem witness_packet_halts :
    let s := published []
    let q := { queue1 with sqTail := 1 }
    s.fetches q = true ∧ s.accepts q (s.headerOf q) = false := by decide
theorem witness_completion :
    let s := hosted [cmd 1 0x10 0 0 1 0 []]
    s.queue? 1 = some queue1 ∧ 1 ≤ queue1.cqRoom ∧ queue1.cqTail < queue1.cqDepth ∧ Sparse.wf s.host.mem = true ∧
    (∀ x ∈ s.link.cmds, x.uid = 7 → x.seqNo = none) := by decide

/-- A queue descriptor for queue 2 of Pod 1. -/
def descriptor : List Byte :=
  fields 64 [(0, 2, 2), (2, 2, 1), (4, 1, 2), (5, 1, 6), (6, 1, 16), (8, 8, 0x10000), (16, 8, 0x300000), (24, 2, 2047)]
theorem witness_create_queue : runs (hosted [cmd 0 1 0 0 0 0 descriptor]) 1 = true ∧
    (hosted [cmd 0 1 0 0 0 0 descriptor]).descriptorGood descriptor = true ∧
    (hosted [cmd 0 1 0 0 0 0 descriptor]).descriptorGood [] = false := by decide
theorem witness_reset_queue :
    let s := hosted [cmd 0 3 0 1 0 0 []]
    runs s 3 = true ∧ runs (hosted [cmd 0 2 0 1 0 0 []]) 2 = true ∧ s.namedQueue (cmd 0 3 0 1 0 0 []) = some queue1 ∧
    s.cmdsOf 1 = [] ∧ s.waitingRefusal queue1 = none := by decide
theorem witness_abort :
    let x := { cmd 1 0x10 0 0 1 0 [] with uid := 6, tag := 5 }
    let s := hosted [x, cmd 0 4 0 (1 + 65536 * 5) 0 0 []]
    runs s 4 = true ∧ queue1.depth ≤ 1024 ∧ s.isBegun x = false ∧ s.queue? 1 = some queue1 ∧
    runs (hosted [cmd 0 4 0 9 0 0 []]) 4 = true ∧ (hosted []).queue? 9 = none ∧
    1024 < { queue1 with sqLog2 := 11 }.depth := by decide
theorem witness_power : runs (hosted [cmd 0 5 0 2 0 0 []]) 5 = true ∧ (hosted [cmd 0 5 0 2 0 0 []]).idle 7 = true ∧
    (hosted [cmd 0 5 0 2 0 0 []]).exporting = false ∧ admin.cqRoom ≠ 0 ∧ (on job mid).idle 7 = false := by decide

/-- A BIND descriptor. -/
def binding (op src dst mask amount handle : Nat) : List Byte :=
  fields 64 [(0, 1, op), (2, 2, src), (4, 2, dst), (8, 4, mask), (16, 8, amount), (24, 8, handle)]
/-- The module with a BIND that waits. -/
def binder (op src dst mask amount handle : Nat) : State :=
  { hosted [cmd 0 6 0 0 0 0 (binding op src dst mask amount handle)] with objs := [volume] }
/-- Whether a BIND that waits is valid and of the operation. -/
def binds (s : State) (op : Nat) : Bool :=
  runs s 6 && (s.cmd? 7).any (fun c => (parseBind c.payload).valid && (parseBind c.payload).op == op)
theorem witness_bind_pods : binds (binder 1 0 64 0 0 0) 1 = true ∧ (binder 1 0 64 0 0 0).pod? 64 = none ∧
    runs (hosted [cmd 0 6 0 0 0 0 [1]]) 6 = true ∧ [(1 : Byte)].length ≠ 64 ∧
    runs (binder 1 0 65 0 0 0) 6 = true ∧ (parseBind (binding 1 0 65 0 0 0)).valid = false ∧
    (binder 2 0 2 0 0 0).pod? 0 = some { id := 0, granules := 170, slots := 480 } ∧
    binds (binder 2 0 2 0 0 0) 2 = true ∧ (binder 2 0 2 0 0 0).podInUse 2 = false := by decide
theorem witness_bind_moves : binds (binder 3 0 1 0x80000001 0 0) 3 = true ∧
    (binder 3 0 1 0x80000001 0 0).noPod (parseBind (binding 3 0 1 0x80000001 0 0)) = false ∧
    (∀ n ∈ (parseBind (binding 3 0 1 0x80000001 0 0)).cores, ((binder 3 0 1 0x80000001 0 0).core n).pod = some 0 ∧
      ((binder 3 0 1 0x80000001 0 0).core n).job = none ∧ (binder 3 0 1 0x80000001 0 0).coreFenced n = false) ∧
    binds (binder 4 1 2 0 0x10000000 0) 4 = true ∧ (binder 4 1 2 0 0x10000000 0).canGive 1 1 = true ∧
    binds (binder 7 1 2 0 20 0) 7 = true ∧ 20 ≤ (binder 7 1 2 0 20 0).unreserved 1 ∧
    binds (binder 6 1 2 0 0 1) 6 = true ∧ (binder 6 1 2 0 0 1).cmdsOf 1 = [] := by decide
theorem witness_bind_object :
    let s := binder 5 1 2 0 0 0x0100000000001001
    binds s 5 = true ∧ s.obj? 0x0100000000001001 = some volume ∧ volume.pod = 1 ∧
    s.noPod (parseBind (binding 5 1 2 0 0 0x0100000000001001)) = false ∧ s.canClaim 2 (s.metaOf volume) = true ∧
    s.slated 0x0100000000001001 = false ∧ s.addressed 0x0100000000001001 = false := by decide

/-! ### Volumes, models, indexes -/

/-- The module with the volume and one of its commands, and what is staged or on the media. -/
def disk (c : Cmd) (m : Media) : State := { hosted [c] with objs := [volume], media := m }
/-- A staged sector 5 of the volume's first logical block. -/
def staged5 : Media := { staging := [{ lb := 2097152, sector := 5, data := some { data := [(0, 7)] } }] }
/-- Sector 6 of that block, marked bad on the media. -/
def bad6 : Media := { staged5 with lblocks := [{ num := 2097152, owner := 1, part := 0
                                                 content := [(6, { data := [], bad := true })] }] }
def volumeCmd (op p0 p1 : Nat) (payload : List Byte) : Cmd := cmd 1 op 0x0100000000001001 p0 p1 0 payload
theorem witness_create_volume :
    let s := disk (cmd 0 7 0 1 70000 0 []) {}
    runs s 7 = true ∧ s.sec.err = .none ∧ s.media.wearState ≠ 3 ∧ (s.pod? 1).isSome = true ∧
    s.hasRoom (ceilDiv 70000 65536) (volumeShort 70000) = true ∧ s.volumeFree 2 = true := by decide
theorem witness_delete_volume :
    let s := disk (cmd 0 8 0x0100000000001001 0 0 0 []) staged5
    runs s 8 = true ∧ s.volume? 0x0100000000001001 = some volume := by decide
theorem witness_read :
    let s := disk (volumeCmd 0x10 5 2 []) bad6
    let t := disk (volumeCmd 0x10 998 2 []) staged5
    runs s 0x10 = true ∧ s.overtakes (volumeCmd 0x10 5 2 []) = false ∧ volume.degraded = false ∧
    (s.sectorOf 2097152 5).bad = false ∧ (s.sectorOf 2097152 6).bad = true ∧
    runs t 0x10 = true ∧ 998 + 2 ≤ volume.sectors ∧ (t.sectorOf 2097152 998).bad = false ∧
    (t.sectorOf 2097152 999).bad = false := by decide
theorem witness_out_of_range : runs (disk (volumeCmd 0x10 999 2 []) {}) 0x10 = true ∧
    runs (disk (volumeCmd 0x11 1000 1 []) {}) 0x11 = true ∧ volume.sectors < 1000 + 1 := by decide
theorem witness_write :
    let c := volumeCmd 0x11 5 1 (List.replicate 4096 1)
    let s := disk c {}
    runs s 0x11 = true ∧ s.overtakes c = false ∧ volume.readOnly = false ∧ c.progress + 1 = c.payload.length / 4096 ∧
    s.hw.holdupWeak = false ∧ (s.flip 80).armed = false ∧ s.wornOut 2097152 = false ∧ s.stageRoom 2097152 = true := by
  decide
theorem witness_discard :
    let c := volumeCmd 0x12 5 1 []
    let s := disk c staged5
    runs s 0x12 = true ∧ runs (disk (volumeCmd 0x13 5 1 []) staged5) 0x13 = true ∧ s.overtakes c = false ∧
    s.merging volume c = false ∧ s.logRoom 2097152 = true ∧ s.media.waiting = [] ∧
    runs (disk { c with begun := true, progress := 1 } {}) 0x12 = true := by decide
/-- A volume of two logical blocks, and the first of them mapped. -/
def wide : Obj := { volume with sectors := 131072 }
def mapped : Media := { lblocks := [{ num := 2097152, owner := 1, part := 0, mapped := [⟨0, 300⟩] }]
                        sblocks := [{ shippedSb ⟨0, 300⟩ with role := .mapped, lblock := 2097152 }] }
theorem witness_discard_block :
    let c := volumeCmd 0x12 0 65536 []
    let s := { disk c mapped with objs := [wide] }
    runs s 0x12 = true ∧ s.volume? 0x0100000000001001 = some wide ∧ 0 + 65536 ≤ wide.sectors ∧ s.overtakes c = false ∧
    s.merging wide c = false ∧ (s.lblock 2097152).locs ≠ [] := by decide
theorem witness_secure_discard :
    let c := { volumeCmd 0x13 5 1 [] with begun := true, progress := 1 }
    let s := disk c {}
    runs s 0x13 = true ∧ s.media.waiting = [] ∧ c.progress = (partSectors c.p0 c.p1).length ∧
    ∀ p ∈ partsOf c.p0 c.p1, s.residue (volume.num * 2097152 + p) = false := by decide

/-- A model image of one matrix of one chunk. -/
def image : List Byte :=
  let head := fields 60 [(0, 4, 0x4D490002), (4, 2, 64), (8, 8, 256), (0x10, 4, 1), (0x14, 4, 64)]
  head ++ leBytes 4 (crc32c head) ++
  fields 64 [(0, 4, 32), (4, 4, 1), (8, 4, 32), (0x10, 8, 128), (0x18, 4, 64), (0x1C, 4, 1)] ++
  (fields 32 [(0, 1, 4), (1, 1, 2)] ++ ((List.range 16).map (fun i => leBytes 2 (0x3F80 + i))).flatten) ++
  List.replicate 64 0
theorem witness_load_model :
    let s := hosted [cmd 1 0x20 0 256 0 0 image]
    runs s 0x20 = true ∧ s.queue? 1 = some queue1 ∧ s.sec.err = .none ∧ imageFlaw image 256 = none ∧
    imageFlaw [] 0 = some (0, 0x10) ∧ s.media.wearState ≠ 3 ∧ s.sharedCopy queue1.pod (Config.sha3 image) = none ∧
    (∀ x ∈ s.copies, x.id < s.nextCopy) ∧
    s.hasRoom (spanParts [(0, image.length)]).length (shortPart (spanParts [(0, image.length)])) = true ∧
    s.objectFree 1 = true := by decide
/-- The module with that image loaded in Pod 2, and its LOAD_MODEL in Pod 1. -/
def loaded : State :=
  { hosted [cmd 1 0x20 0 256 0 0 image] with
    objs := [{ handle := 0x0200000000001001, kind := .model, num := 1, pod := 2, copy := 0 }], nextCopy := 1
    copies := [{ id := 0, kind := .model, size := 256, mem := [], digest := Config.sha3 image }] }
theorem witness_load_shared : runs loaded 0x20 = true ∧ loaded.objectFree 2 = true ∧ loaded.media.wearState ≠ 3 ∧
    (∀ o ∈ loaded.objs, o.handle ≠ (loaded.newHandle 2 2).1) := by decide
theorem witness_shared_copy : (loaded.sharedCopy 1 (Config.sha3 image)).isSome = true := by
  simp [State.sharedCopy, loaded]

/-- The module with a stored model under one handle, or two, and a command on it. -/
def modelled (c : Cmd) : State :=
  { hosted [c] with
    objs := [{ handle := 0x0200000000001001, kind := .model, num := 1, pod := 1, copy := 0 }]
    copies := [{ id := 0, kind := .model, size := 256, mem := Sparse.ofList 0 image }] }
theorem witness_unload_model :
    let c := cmd 1 0x21 0x0200000000001001 0 0 0 []
    runs (modelled c) 0x21 = true ∧ ((modelled c).obj? 0x0200000000001001).isSome = true ∧
    (modelled c).objectInUse c = false ∧ (modelled c).promoting 0 = false ∧
    ∀ n < 32, ((modelled c).core n).xfers = [] := by decide
/-- A build stream of one list of one code of 64 bits. -/
def stream : List Byte :=
  let head := fields 124 [(0, 4, 0x49420002), (4, 2, 64), (8, 4, 1), (0x10, 8, 1), (0x18, 8, 8), (0x20, 8, 0x200000), (0x28, 4, 1)]
  head ++ leBytes 4 (crc32c head) ++ List.replicate 168 0 ++ leBytes 4 1 ++ List.replicate 16 0
theorem witness_build_index :
    let s := hosted [cmd 1 0x22 0 64 1 1 stream]
    let b := parseBuild stream
    runs s 0x22 = true ∧ streamFlaw stream 64 1 1 = none ∧ streamFlaw [] 64 1 1 = some (0, 0x20) ∧
    s.canClaim queue1.pod (b.regionAt 5 / pageBytes) = true ∧
    (let parts := spanParts (b.sizes.map (fun n => (0, n)))
     s.hasRoom parts.length (shortPart parts) = true) ∧ s.objectFree 1 = true := by decide
/-- The module with the stored index in Pod 1 and a command on it. -/
def indexed (x : Copy) (c : Cmd) : State := { hosted [c] with objs := [{ idx with pod := 1 }], copies := [x] }
def indexCmd (op p0 p1 : Nat) (payload : List Byte) : Cmd := cmd 1 op 0x0300000000001001 p0 p1 0 payload
/-- An INSERT_CODES record: identifier 0 into list 1. -/
def insertion : List Byte := fields 32 [(0x10, 4, 1)]
/-- The stored index with one side block, and no side entries in list 1. -/
def roomy : Copy :=
  { stored with mem := Mem.write (Mem.write stored.mem 0x20 (leBytes 4 1)) 0x1030 (leBytes 4 0xFFFFFFFF) }
theorem witness_insert :
    let s := indexed roomy (indexCmd 0x23 0 1 insertion)
    let y := (roomy.insertAll (parseInserts 8 insertion)).1
    (roomy.insertAll (parseInserts 8 insertion)).2 = none ∧ s.mediaHolds roomy y (roomy.grown y) = true ∧
    s.logsFit roomy y = true ∧
    s.mediaHolds roomy (roomy.deleteOne 1) [] = true ∧ s.logsFit roomy (roomy.deleteOne 1) = true := by decide
theorem witness_index_commands :
    let c := indexCmd 0x23 0 1 insertion
    let xs := parseInserts 8 insertion
    runs (indexed stored c) 0x23 = true ∧ (indexed stored c).changesFirst c = false ∧
    (indexed stored c).indexOf 0x0300000000001001 = some ({ idx with pod := 1 }, stored) ∧
    insertion.length = 1 * (24 + stored.codeBytes) ∧ (∀ e ∈ xs, e.zero = 0) ∧
    (∀ e ∈ xs, e.ident < stored.identCap ∧ stored.ident e.ident = .free) ∧ (xs.map (fun e => e.ident)).Nodup ∧
    (∀ e ∈ xs, e.list < stored.lists) ∧ (stored.insertAll xs).2 = some 1 ∧
    (let d := indexCmd 0x24 0 1 (leBytes 8 1)
     runs (indexed stored d) 0x24 = true ∧ (1 : Nat) < stored.identCap) ∧
    (let d := indexCmd 0x25 0 0 []
     runs (indexed stored d) 0x25 = true ∧ 7 ∉ stored.index.waiting ∧ (indexed stored d).compactFirst d = false) ∧
    (let d := indexCmd 0x26 0 0 []
     runs (indexed stored d) 0x26 = true ∧ (indexed stored d).objectInUse d = false ∧ stored.compacting = false ∧
      (indexed stored d).promoting 0 = false) := by decide

/-! ### Compaction and jobs -/

/-- The stored index during a full compaction, and with a list ready for its commit. -/
def compacting : Copy := { stored with index := { full := some (0, 0) } }
def ready : Copy := { stored with index := { ready := [{ list := 1, s0 := 0, extent := 0, codes := 0, runs := 0, first := 0, dropped := [] }] } }
theorem witness_compaction :
    (indexed compacting (cmd 1 0 0 0 0 0 [])).copy? 0 = some compacting ∧
    (indexed compacting (cmd 1 0 0 0 0 0 [])).mediaRuns = true ∧ 0 < compacting.lists ∧
    0 + 1 < ((indexed compacting (cmd 1 0 0 0 0 0 [])).compactList compacting 0).lists ∧ ready.index.ready ≠ [] ∧
    (∀ j ∈ (indexed ready (cmd 1 0 0 0 0 0 [])).jobs, j.slate.kind ≠ 2) ∧
    (let x : Copy := { stored with mem := Mem.write stored.mem 0x80 (leBytes 8 192) }
     x.compacting = false ∧ 3 * (x.field 0x20 4 * 128) ≤ 4 * x.field 0x80 8 ∧ x.field 0x80 8 ≠ 0) ∧
    (let x : Copy := { stored with mem := Mem.write (Mem.write stored.mem 0x70 (leBytes 8 16)) 0x78 (leBytes 8 1) }
     x.field 0x78 8 ≠ 0 ∧ x.field 0x70 8 ≤ 16 * x.field 0x78 8) := by decide

/-- A SUBMIT_JOB payload: a Slate of an inference job on one core, and a program of one instruction. -/
def submission : List Byte :=
  let head := fields 252 [(0, 4, 0x534C0002), (4, 2, 256), (6, 1, 1), (8, 1, 1), (9, 1, 1), (0xA, 1, 4), (0x28, 4, 8)]
  head ++ leBytes 4 (crc32c head) ++ List.replicate 8 0
/-- The module with core 0 in Pod 1 and a command. -/
def hosting (c : Cmd) : State := { hosted [c] with cores := { pod := some 1 } :: List.replicate 31 {} }
/-- The module with a job, a queue of the pool's Pod 1 and a command. -/
def jobbed (j : Job) (c : Cmd) : State :=
  { hosted [c] with jobs := [{ j with pod := 1 }]
                    cores := { pod := some 1, job := if j.state = .running then some 5 else none } :: List.replicate 31 {} }
theorem witness_submit :
    let c := cmd 1 0x30 0 0 0 0 []
    let d := cmd 1 0x30 0 0 0 0 submission
    let s := hosting c
    runs s 0x30 = true ∧ runs (hosting d) 0x30 = true ∧ s.job? 5 = none ∧ s.jobs.length < 4096 ∧
    s.queue? 1 = some queue1 ∧ s.submitReason 1 [] (s.jobOf 1 5 7 []) = some 0x0B ∧
    (hosting d).submitReason 1 submission ((hosting d).jobOf 1 5 7 submission) = none := by decide
theorem witness_requests :
    let c := cmd 1 0x31 job.handle 0 0 0 []
    (∀ op ∈ [0x31, 0x33, 0x34], runs (jobbed job { c with opcode := op }) op = true) ∧
    (jobbed job c).jobByHandle? job.handle = some { job with pod := 1 } ∧
    (jobbed { job with state := .ready, cores := [] } { c with opcode := 0x33 }).jobByHandle? job.handle =
      some { job with pod := 1, state := .ready, cores := [] } ∧
    (jobbed { job with state := .ended, cores := [] } c).jobByHandle? job.handle =
      some { job with pod := 1, state := .ended, cores := [] } ∧
    (jobbed { job with closing := true } c).jobByHandle? job.handle = some { job with pod := 1, closing := true } ∧
    (let j := { job with slate := { slate with index := 0x0300000000001001 } }
     let d := cmd 1 0x32 job.handle 0 0 0 (List.replicate 8 0)
     let s := { jobbed j d with objs := [{ idx with pod := 1 }], copies := [stored] }
     runs s 0x32 = true ∧ s.searchGood d.object d.payload = true) := by decide
/-- A READY job of Pod 1 and a free core there. -/
def waiting : Job := { job with pod := 1, state := .ready, cores := [], resolved := none }
def startable : State :=
  { hosted [] with jobs := [waiting], cores := { pod := some 1 } :: List.replicate 31 {} }
theorem witness_start : startable.job? 5 = some waiting ∧ startable.awake = true ∧
    (startable.nextJob 1).map (fun x => x.ctx) = some 5 ∧ (0 : Nat) ∈ startable.freeCoresOf 1 ∧
    (startable.freeCoresOf 1).length = 1 ∧ startable.recordLost waiting 1 = false ∧
    1 = min (waiting.resolved.getD (if waiting.slate.cores = 0 then (startable.podCores 1).length else waiting.slate.cores))
      (startable.freeCoresOf 1).length := by decide
/-- A job with a budget, and another job of its Pod that is READY. -/
def budgeted : Job := { job with slate := { slate with budget := 100 } }
theorem witness_budget :
    (on budgeted mid).job? 5 = some budgeted ∧ ((on budgeted mid).core 0).job = some 5 ∧ budgeted.slate.budget ≠ 0 ∧
    (∀ x ∈ (on budgeted mid).jobs, x.pod = budgeted.pod → x.ctx ≠ 5 → x.state ≠ .ready) ∧
    budgeted.budgetOut = false ∧
    (let w := { budgeted with state := .winding, reclaiming := true }
     (on w mid).job? 5 = some w ∧ ((on w mid).core 0).job = some 5 ∧ w.budgetOut = false) ∧
    (∃ x ∈ [budgeted, { waiting with ctx := 6, pod := 0 }], x.pod = 0 ∧ x.ctx ≠ 5 ∧ x.state = .ready) := by decide
theorem witness_grace :
    (∀ j ∈ [{ job with state := .winding }, { job with state := .winding, reclaiming := true }],
      (on j mid).job? 5 = some j ∧ j.region = false ∧ j.endJobs = []) := by decide
theorem witness_region :
    let j := { job with state := .winding, region := true, budgetOut := true, slate := { slate with overrunLimit := 10 } }
    let c : Core := { hold := some (.take 0 0) }
    (on j c).job? 5 = some j ∧ j.slate.overrunLimit < 11 ∧ (10 : Nat) ≤ j.slate.overrunLimit ∧
    j.cores.head? = some 0 ∧ ((on j c).core 0).hold = some (.take 0 0) ∧ j.pendingReqs = [] ∧
    (on j c).integ.t1Ecc = [] := by decide

/-! ### The Spool -/

/-- A frame of a type for a module and an offset, from module 9, as a peer's port sends it. -/
def frameOf (ftype : BitVec 8) (dst : BitVec 16) (offset : Nat) (arg : BitVec 32) (payload : List Byte) : Frame :=
  { ftype := ftype, flags := 0, hops := 5, resv := 0, dst := dst, src := 9, tenant := 3
    payloadLen := BitVec.ofNat 16 payload.length, reqId := 77, offset := BitVec.ofNat 64 offset, arg := arg
    lseq := 12, payload := payload, guarded := true, good := true }
/-- An ACTIVE port that expects the frame. -/
def activePort : Port := { state := .active, rxSeq := 12, keys := (true, true), credits := [2048, 2048, 2048, 2048] }
/-- Module 2 with port 0 in a state, a route by it to module 9, and an export and an inbox for tenant 3. -/
def spooled (x : Port) : State := { live with
  copies := [stored], objs := [{ handle := 0x0300000000001001, kind := .index, num := 1, pod := 1, copy := 0 }]
  spool := { valid := true, moduleId := 2, ports := x :: List.replicate 7 {}
             exports := { handle := 0x0300000000001001, tenant := 3, valid := true, length := 4096, base := 0 } :: List.replicate 63 {}
             inboxes := { tenant := 3, pages := 1 } :: List.replicate 63 {}
             routes := Sparse.set [] 9 0x80000001 } }
theorem witness_takes :
    let s := spooled activePort
    ∀ f ∈ [frameOf 1 2 64 64 [], frameOf 3 2 0xFFFF00000040 0 (List.replicate 64 1), frameOf 5 9 0 0x0305 []],
      s.spoolRuns = true ∧ (s.port 0).reads f = true ∧ f.good = true ∧ f.guarded = true ∧
      f.lseq.toNat = (s.port 0).rxSeq ∧ f.clean = true := by decide
theorem witness_requests_served :
    let s := spooled activePort
    let f := frameOf 1 2 64 64 []
    let g := frameOf 1 2 8192 64 []
    let w := frameOf 3 2 0xFFFF00000040 0 (List.replicate 64 1)
    (s.exportPlace 3 64 64).map (fun x => (x.1.id, x.2)) = some (0, 64) ∧ s.pageLost 0 0 = false ∧
    s.routePort (s.reply f 2 (List.replicate 64 0)) = some 0 ∧
    s.exportPlace 3 8192 64 = none ∧ s.routePort (s.nakFor g .pageFaultFatal) = some 0 ∧
    s.integ.t1Ecc = [] ∧ s.inboxPlace 4 0xFFFF00000040 64 false = none ∧
    s.routePort (s.nakFor { w with tenant := 4 } .pageFaultFatal) = some 0 ∧
    s.inboxPlace 3 0xFFFF00000040 64 false = some (1, 64) ∧ s.routePort (s.reply w 4 []) = some 0 ∧
    (frameOf 5 9 0 0x0305 []).dst.toNat ≠ s.spool.moduleId.toNat ∧
    s.routePort (frameOf 5 9 0 0x0305 []) = some 0 := by decide
/-- The request of the transfer in slot 1 of core 0, and its job on that core with the transfer ACTIVE. -/
def remote (ftype : BitVec 8) : RemoteReq :=
  { id := 77, core := 0, slot := 1, beat := 0, beats := 1, attempts := 1, port := 0
    frame := { frameOf ftype 9 64 (if ftype = 1 then 64 else 0) (if ftype = 1 then [] else List.replicate 64 1) with src := 2 } }
def asking (r : RemoteReq) : State :=
  let s := spooled activePort
  let x : Xfer := { state := .active, uaddr := 0x8009000000000040, laddr := 128, rows := 1, rowBytes := 64, asked := 1
                    store := r.frame.ftype == 3 }
  { s with jobs := [job], cores := { job := some 5, xfers := [(1, x)] } :: List.replicate 31 {}
           spool := { s.spool with requests := [r] } }
theorem witness_responses :
    ∀ row ∈ [(remote 1, frameOf 2 2 0 0 (List.replicate 64 1)), (remote 3, frameOf 4 2 0 0 []),
        (remote 1, frameOf 5 2 0 0x0305 [])],
      let s := asking row.1
      let c := s.core 0
      let x := c.xfer 1
      c.job = some job.ctx ∧ s.job? job.ctx = some job ∧ 0 ∈ job.cores ∧ job.endJobs = [] ∧ job.state ≠ .ended ∧
      s.requestOf row.2 = some row.1 ∧ (s.port 0).reads row.2 = true ∧ row.2.lseq.toNat = (s.port 0).rxSeq ∧
      row.2.clean = true ∧ s.spoolRuns = true ∧ (row.2.ftype = 5 → frameStatus row.2 = some .pageFaultFatal) ∧
      s.remoteOf 0 1 = [row.1] ∧ x.state = .active ∧ x.asked = x.beats ∧ row.1.beat + 1 = x.beats ∧ c.hold = none ∧
      (s.flip 48).armed = false ∧ (x.lAddrs 0).headD 0 + 64 ≤ 0x800000 ∧ s.nextPort row.1.frame 0 = some 0 ∧
      s.routeValid row.1.frame.dst.toNat = true ∧ s.spool.valid = true ∧ row.1.got = none ∧
      (s.spool.requests.find? (fun q => q.id == row.1.id) = some row.1) ∧ row.1.attempts < 3 ∧
      3 ≤ { row.1 with attempts := 3 }.attempts := by decide
theorem witness_ports :
    (∀ st ∈ [PortState.down, .train, .align, .hello, .secure, .active],
      (spooled { activePort with state := st }).spoolRuns = true ∧
      ((spooled { activePort with state := st }).port 0).state = st) ∧
    (∀ row ∈ [(PortState.hello, (8 : BitVec 8)), (.secure, 7), (.active, 7)],
      let f := { frameOf row.2 2 0 0 [] with guarded := false }
      ((spooled { activePort with state := row.1 }).port 0).reads f = true ∧ f.clean = true) ∧
    (frameOf 6 2 0 0 (List.replicate 64 0)).clean = true ∧ (frameOf 9 2 0 0 []).clean = false ∧
    (spooled activePort).spool.moduleId < 3 ∧ ¬ (spooled activePort).spool.moduleId < activePort.peer ∧
    (spooled activePort).sec.lc = .service := by decide
theorem test_id_clash : after (.hello 0 { frameOf 8 2 0 0 [] with guarded := false } ⟨2, 2, []⟩)
    (spooled { activePort with state := .hello }) (fun t => ((t.port 0).state, (t.port 0).fail)) = some (.down, 3) := by
  decide
theorem test_denied : after (.rdReq 0 (frameOf 1 2 8192 64 [])) (spooled activePort)
    (fun t => (t.spool.event.getLsbD 4, (t.port 0).out.map (fun x => (x.1, x.2.ftype, x.2.arg)))) =
      some (true, [(34, 5, 0x0305)]) := by decide
/-- R8, R343: the 32 header bytes of a clear KEY frame, each field at its offset. -/
theorem test_frame_header :
    Frame.header { ftype := 7, flags := 0xD0, hops := 3, resv := 0, dst := 0x201, src := 0x403, tenant := 0x605
                   payloadLen := 64, reqId := 0x0A090807, offset := 0x1817161514131211, arg := 0x1C1B1A19
                   lseq := 0x201F1E1D, payload := [], guarded := false, good := true } =
      [7, 0xD0, 3, 0, 1, 2, 3, 4, 5, 6, 64, 0, 7, 8, 9, 10, 0x11, 0x12, 0x13, 0x14, 0x15, 0x16, 0x17, 0x18,
       0x19, 0x1A, 0x1B, 0x1C, 0x1D, 0x1E, 0x1F, 0x20] := by decide

/-! ### Flash management -/

/-- A log block as shipped, and two superblocks in four-bit mode. -/
def locA : SbLoc := sbAt SbDuty.log.base
def locB : SbLoc := ⟨1, 300⟩
def locC : SbLoc := ⟨0, 300⟩
/-- A log block of the volume's first logical block, with sector 5, and another entry staged. -/
def logged : Media := { staged5 with
  lblocks := [{ num := 2097152, owner := 1, part := 0
                chain := [{ loc := locA, seq := 1, entries := [{ sector := 5, data := some { data := [(0, 9)] } }] }] }]
  sblocks := [{ shippedSb locA with role := .log, seq := 1, lblock := 2097152, owners := [2097152] }], nextSeq := 2 }
/-- A merge of that chain into `locB`. -/
def merging : Media := { logged with
  staging := []
  lblocks := logged.lblocks.map (fun l => { l with
    chain := [], merge := some { locs := [locB], seq := 2, jseq := 0, frozen := l.chain, kind := 2 } })
  sblocks := logged.sblocks ++ [{ shippedSb locB with role := .copying, seq := 2, owners := [2097152] }]
  nextJseq := 1 }
/-- A four-bit superblock in a role, worn and read. -/
def one (role : SbRole) (wear reads : Nat) : Media :=
  { sblocks := [{ shippedSb locC with role := role, wear := wear, reads := reads, owners := [2097152] }]
    lblocks := [{ num := 2097152, owner := 1, part := 0, mapped := if role = .mapped then [locC] else []
                  content := [(6, { data := [(0, 3)] })] }] }
def flash (m : Media) : State := disk (volumeCmd 0x10 5 1 []) m
theorem rests_of_no_merge {s : State} (hw : s.media.waiting = []) (hn : s.media.nextProg = s.media.nextJseq)
    (hm : s.media.lblocks.all (fun l => l.merge.isNone) = true) : Safety.JournalRests s := by
  refine ⟨hw, hn, fun l hl m h => ?_⟩
  have := List.all_eq_true.mp hm l hl
  simp [h] at this
theorem witness_journal_rests : Safety.JournalRests (flash staged5) ∧ Safety.JournalRests (flash (one .released 29990 0)) ∧
    Safety.JournalRests (flash (one .mapped 0 100000)) ∧
    Safety.JournalRests (flash { logged with journal := [⟨0, 2, 2097152, 1, 0, [], none⟩], nextProg := 1, nextJseq := 1 }) :=
  ⟨rests_of_no_merge rfl rfl (by decide), rests_of_no_merge rfl rfl (by decide),
   rests_of_no_merge rfl rfl (by decide), rests_of_no_merge rfl rfl (by decide)⟩
theorem witness_media : (flash logged).mediaRuns = true ∧ lblocksWf (flash logged) = true := by decide
theorem witness_staging_program :
    (∃ e ∈ (flash logged).media.staging, e.lb = 2097152) ∧
    ((flash logged).lblock 2097152).logFull = false ∧ ((flash staged5).lblock 2097152).chain.length < 4 ∧
    (flash staged5).logsUsed < 4096 ∧ (flash staged5).locFree locA true .log = true ∧
    ((flash staged5).lblock 2097152).logFull = true := by decide
theorem witness_merge_start :
    let m := { logged with staging := [] }
    let s := { flash m with link := { (flash m).link with cmds := [{ volumeCmd 0x13 5 1 [] with begun := true }] } }
    let l := s.lblock 2097152
    s.mergeable l [locB] = true ∧ s.mergeDue l = true ∧
    s.media.staging.any (fun e => e.lb == 2097152) = false := by decide
theorem witness_merge_commit :
    let s := flash merging
    (∃ m, (s.lblock 2097152).merge = some m ∧ s.media.nextProg = m.jseq) ∧ s.media.waiting = [] ∧
    ∀ l ∈ s.media.lblocks, ∀ m, l.merge = some m → m.closed = false := by
  refine ⟨⟨_, rfl, by decide⟩, by decide, ?_⟩
  intro l hl m hm
  rw [List.mem_singleton.mp hl] at hm
  cases hm
  decide
theorem witness_superblock_erase :
    let s := flash (one .released 29990 0)
    (s.sblock locC).role = .released ∧ (s.sblock locC).freed ≤ s.media.nextProg ∧
    ((flash (one .retired 0 0)).sblock locC).role = .retired ∧ (s.sblock locC).wear + 10 = 30000 := by decide
theorem witness_relocation :
    let s := flash (one .mapped 0 100000)
    s.movable locC = true ∧ s.relocDue (s.sblock locC) = true ∧ s.erased locB (s.sblock locC).oneBit = true ∧
    (s.lblock? 2097152).isSome = true ∧ locC ∈ (s.lblock 2097152).mapped ∧
    s.diesFailed locC.dieSet.val < 2 := by decide
/-- The stored index with its first logical block mapped. -/
def mappedIndex : State := { indexed stored (indexCmd 0x26 0 0 []) with
  media := { lblocks := [{ num := objectLb 0 0, owner := 4096, part := 0, mapped := [locC] }]
             sblocks := [{ shippedSb locC with role := .mapped }] } }
theorem witness_rebuild_object :
    mappedIndex.copy? stored.id = some stored ∧ mappedIndex.mediaRuns = true ∧ lblocksWf mappedIndex = true ∧
    mappedIndex.pageLoc stored 0 = some locC := by decide
theorem test_retires : after (.superblockErase locC true) (flash (one .released 29990 0))
    (fun t => ((t.sblock locC).role, (t.sblock locC).wear, t.media.retired)) = some (.retired, 30000, 1) := by decide
theorem test_folds : after (.mergeCommit ⟨2097152, true⟩) (flash merging)
    (fun t => ((t.lblock 2097152).content, (t.sblock locA).role, (t.sblock locB).role)) =
      some ([(5, { data := [(0, 9)] })], .released, .mapped) := by decide

/-! ### Registers -/

theorem witness_registers : live.bar0 = true ∧ live.hw.started = true ∧ Sparse.wf live.link.shadow = true ∧
    live.link.guardOpen = false ∧ bitOf 0x80000001 31 = true ∧ bits 1 1 0 = 1 ∧ bits 2 1 0 = 2 ∧
    bits (maskWrite 0 0x00030001) 1 0 = 1 ∧ bits (maskWrite 0 0x00030002) 1 0 = 2 ∧
    (0x10000 : BitVec 32) ≠ 0xFFFFC1A9 ∧ (0x10000 : BitVec 32).toNat / 65536 ≠ 0 := by decide
theorem witness_register_forms :
    regAt 0x400008 = some ⟨.arbHold 0, 0x400008, 8⟩ ∧ regAt 0x40000C = some ⟨.arbHold 0, 0x400008, 8⟩ ∧
    Reg.isDoorbell (.arbHold 0) = false ∧ accessGood 0x400008 16 = false ∧ covered 0x400008 16 ≠ [] ∧
    startsCourse 0x400008 16 0 = false := by decide
/-- The module with no admin queue, and with one that has nothing outstanding. -/
def bare : State := { live with link := { live.link with admin := { cqAddr := 0x100000 } } }
theorem witness_admin_enable :
    let v : BitVec 32 := 0xFFFF0631
    let s := bare
    s.bar0 = true ∧ bitOf v.toNat 16 = true ∧ bitOf v.toNat 0 = true ∧ v.toNat / 65536 = 65535 ∧
    bits v.toNat 7 3 = 6 ∧ bits v.toNat 12 8 = 6 ∧ s.link.admin.sqOffset + 64 * 2 ^ 6 ≤ 2 ^ 30 ∧
    s.claimed (s.link.admin.sqOffset, 64 * 2 ^ 6) = false ∧ s.queue? 0 = none ∧ bits 0xFFFF0001 7 3 = 0 := by decide
theorem witness_admin_disable : bitOf 0x10000 0 = false ∧ (hosted []).link.admin.ready = true ∧
    (hosted []).cmdsOf 0 = [] := by decide
/-- The lock is open. -/
def opened (s : State) : State := { s with link := { s.link with guardOpen := true } }
/-- An EXPORT entry of the stored index's first page. -/
def entryWord : BitVec 256 :=
  BitVec.ofNat 256 (0x0300000000001001 * 2 ^ 192 + 3 * 2 ^ 176 + 2 ^ 128 + 0x200000 * 2 ^ 64 + 0x200000)
theorem witness_open_lock :
    let s := opened (indexed stored (cmd 1 0 0 0 0 0 []))
    s.bar0 = true ∧ s.hw.started = true ∧ s.link.guardOpen = true ∧ s.spool.ports.length = 8 ∧
    s.spool.inboxes.length = 64 ∧ (7 : BitVec 12) ≠ s.spool.moduleId ∧
    s.exportGood 0 { handle := 0x0300000000001001, tenant := 3, valid := true, length := 0x200000, base := 0x200000 } = true ∧
    bits entryWord.toNat 255 192 = 0x0300000000001001 ∧ bits entryWord.toNat 111 64 = 0x200000 ∧
    s.exportGood 0 { valid := true } = false ∧ (s.pod? 1).isSome = true ∧ bits 0x00030001 5 0 ≤ 32 ∧
    s.canRelease 1 1 = true ∧ s.canRelease 1 32 = true ∧ (s.inbox 1).pages = 0 := by decide
/-- A Pod whose granules are all claimed by the inbox has no page for more. -/
theorem witness_inbox_full :
    let s := opened (indexed stored (cmd 1 0 0 0 0 0 []))
    let t := { s with pods := s.pods.map (fun (x : Pod) => { x with granules := 0 }) }
    (t.pod? 1).isSome = true ∧ t.canRelease 1 1 = false ∧ (s.pod? 64).isSome = false := by decide
theorem witness_split :
    let s := opened live
    let t := { s with cores := { pod := some 1 } :: List.replicate 31 {} }
    let v : BitVec 32 := 0xFFFF0001
    let word := maskWrite (pack [(8, s.integ.splitCore.toNat), (2, s.integ.splitTarget.toNat)]) v.toNat
    bits word 3 2 = 0 ∧ bits word 12 8 = 0 ∧ bits word 1 0 = 1 ∧
    bits (maskWrite (pack [(8, 0), (2, 0)]) 0xFFFF0002) 1 0 = 2 ∧ (s.core 0).pod = some 0 ∧
    (s.core 0).osEcc = [] ∧ (t.core 0).pod ≠ some 0 ∧ t.coreFenced 0 = false ∧ bits 0x80000026 5 0 ≤ 38 ∧
    38 < bits 0x80000027 5 0 := by decide
theorem test_guarded : after (.spoolIdWrite 0x80200007) live (fun t => (t.link.regEvent, t.spool.valid)) = some (1, false) := by
  decide
theorem test_open_write : after (.spoolIdWrite 0x80200007) (opened live)
    (fun t => (t.spool.moduleId, t.spool.hopLimit, t.spool.valid, t.link.guardOpen)) = some (7, 32, true, false) := by
  decide
theorem test_admin_up : after (.adminEnable 0xFFFF0631) bare
    (fun t => (t.link.admin.ready, (t.queue? 0).map (fun q => (q.sqLog2, q.cqAddr)))) = some (true, some (6, 0x100000)) := by
  decide

/-! ### Security, the Dailies, hardware -/

def goodStart : StartEnv := ⟨true, true, 2, [], true, true, [], 50⟩
/-- A session of a User under number 0. -/
def attested : State := { live with sec := { live.sec with sessions := [(0, true)], ideBy := some 0 } }
theorem witness_spdm :
    live.hw.phase = .running ∧ live.sec.err = .none ∧ live.sec.lc ≠ .blank ∧ (live.measurement 3).isSome = true ∧
    attested.sec.sessions.length < 4 ∧ (0, true) ∈ attested.sec.sessions ∧ attested.sec.ideBy = some 0 ∧
    { attested with sec := { attested.sec with ideBy := none } }.sec.ideBy ≠ some 0 ∧
    attested.sec.sessions.find? (fun x => x.1 == 0) = some (0, true) ∧ attested.link.linkUp = true := by decide
theorem witness_lc_go :
    let s := opened live
    s.bar0 = true ∧ s.hw.started = true ∧ s.link.guardOpen = true ∧ bitOf 1 0 = true ∧ s.sec.lcBusy = false ∧
    s.quiet = true ∧ s.tokenCause (s.apertureBytes 0 7283) (decide (0 + 7283 ≤ 2 ^ 30)) = some 0x46 := by decide
theorem witness_fw :
    let s := opened live
    s.sec.boot = 0 ∧ s.link.session = true ∧ s.sec.fwState ≠ 4 ∧ bits 0x100000000001 1 0 = 1 ∧
    bits 0x100000000001 31 14 * 4096 + bits 0x100000000001 55 32 ≤ 2 ^ 30 ∧
    ({ s with sec := { s.sec with fwState := 1 } }).imageCause [] = some 0x40 ∧
    s.sec.cfBusy = false ∧ (s.jobs.map (fun j => j.ctx)).Nodup ∧ s.spool.ports.length = 8 := by decide
/-- A Dailies ring of 1024 pages. -/
def ringed : State := { live with dailies := { enable := true, ringSize := 1024, ringOffset := 256, since := 10 } }
theorem witness_dailies :
    ringed.bar0 = true ∧ ringed.dailies.enable = true ∧ Nat.max 1 ringed.dailies.period.toNat ≤ ringed.dailies.since ∧
    ringed.dailies.fits [64] = true ∧ live.dailies.fits [64] = false ∧ bitOf 0x40000000 30 = true ∧
    (let v := 16 * 2 ^ 32; bits v 55 32 = 16 ∧ bits v 29 12 + 16 ≤ 262144) ∧ live.rings.any (regionsOverlap (0, 65536)) = false ∧
    (let s := hosted []
     s.rings.any (regionsOverlap (0, 65536)) = true) ∧ 0 % 8 < cntSlots (0 / 8) ∧
    (1 : BitVec 8) ≠ (live.cntSel 0).event ∧ live.stands 0 = false ∧
    2 ^ 47 ≤ (Sparse.get (Sparse.set ([] : Sparse 48) 1 (BitVec.ofNat 48 (2 ^ 47))) 1).toNat ∧
    cntTimed 0 (live.cntSel 1) = false := by decide
theorem witness_samples :
    ((on job { tag := some ⟨5, 0, 0⟩ }).core 0).tag = some ⟨5, 0, 0⟩ ∧
    ((on job { exact := [⟨0, 0, false, 9⟩] }).core 0).exact ≠ [] ∧ 0 < (on job {}).cores.length := by decide
def trip : Temps := ⟨0, 0, 105, 0, 0, 0⟩
theorem witness_stops : live.hw.p54 = true ∧ live.hw.perst = false ∧ live.hw.pwrdis = false ∧
    live.hw.coolant = false ∧ tripsAt trip = true ∧ live.sec.boot = 0 := by decide
theorem witness_starts :
    State.reset.sec.changes = State.reset.sec.erasedCount ∧ State.reset.sec.imageValid = true ∧
    State.reset.hw.phase = .held ∧ State.reset.hw.perst = true ∧
    (let s := { State.reset with hw := { phase := .off, p54 := false, perst := false } }
     s.hw.p54 = false ∧ s.hw.pwrdis = false ∧ s.hw.coolant = false ∧ s.hw.perst = false) ∧
    (let s := { State.reset with hw := { phase := .off, pwrdis := true, perst := false } }
     s.hw.p54 = true ∧ s.hw.pwrdis = true ∧ s.hw.coolant = false ∧ s.hw.perst = false) := by decide
/-- 10,000 uJ of a rail in an interval are 100 W. -/
def rails (engine t1 : Nat) : List Nat := List.replicate 32 0 ++ [engine, 0, 0, 0, 0, t1]
theorem witness_metering :
    let limited := { live with hw := { live.hw with limEngine := true, limFlash := true } }
    limited.hw.phase = .running ∧ Sparse.wf limited.hw.energy = true ∧ limited.hw.limEngine = true ∧
    limited.hw.limFlash = true ∧ drawable limited.drawLimit (rails 0 72000) = true ∧ drawable 720 (rails 0 72001) = false ∧
    atAllowance (rails 0 0) 0 = false ∧ atAllowance (rails 0 0) 1 = false ∧ hotEngine limited.hw.temps = false := by
  decide
theorem witness_heat : 95 ≤ trip.kebex.toNat ∧ 45 < (⟨46, 0, 0, 0, 0, 0⟩ : Temps).inlet.toNat ∧ (19 : Nat) < 20 := by decide
theorem witness_scrub :
    (∀ k ∈ [(⟨3, 1, 0, false⟩ : EccMark), ⟨3, 3, 0, false⟩],
      let s := on job { osEcc := [k], os := Sparse.ofList 24 [1, 2] }
      (s.core 0).osEcc.find? (fun k => k.unit == 3) = some k ∧ Sparse.wf (s.core 0).os = true ∧
      (s.flip 48).armed = false) ∧
    EccMark.sram ⟨3, 1, 0, false⟩ = .good ∧ EccMark.sram ⟨3, 3, 0, true⟩ = .lost := by decide
theorem test_starts : after (.perstRelease goodStart) State.reset
    (fun t => (t.hw.phase, t.hw.started, t.hw.startStep, t.link.linkUp, t.sec.lc)) =
      some (.running, true, 7, true, .seeded) := by decide
theorem test_tag_lost : after (.tagSampleDone 0 ⟨0, 0, 0, false, false⟩) (on job { tag := some ⟨5, 0, 0⟩ })
    (fun t => t.dailies.lostSamples) = some 1 := by decide
theorem test_led :
    State.reset.actLed = .off ∧ live.actLed = .lit ∧ { live with hw := { live.hw with pstate := .sleep } }.actLed = .slow ∧
    { live with sec := { live.sec with boot := 1 } }.actLed = .pulses ∧ live.drawLimit = 720 ∧ State.reset.drawLimit = 60 ∧
    { live with hw := { live.hw with identify := true } }.prsntLow 0 = false ∧ live.prsntLow 0 = true := by decide

/-! ### The whole module -/

theorem witness_invariants : shapeWf live = true ∧ memoryWf (on job mid) = true ∧
    (match step { live with pending := [.guardKeyWrite 0xFFFFC1A9] } with
     | .next t => t.link.guardOpen
     | _ => false) = true := by decide
theorem test_reset : shapeWf State.reset = true ∧ memoryWf State.reset = true ∧ (State.reset.arb 57).hold = 0x2000100008000800 ∧
    (State.reset.arb 48).hold = 0x8000400020002000 := by decide

/-- R52: a WRITE chain longer than its parameters say is refused, and its staged sector is taken back. -/
theorem test_write_chain_too_long :
    let c : Cmd := { volumeCmd 0x11 5 1 (List.replicate 4096 1) with whole := false, begun := true, progress := 1 }
    let h : Header := { opcode := 0x11, flags := 1, tag := 3, len := 1, index := 1, time := 0
                        object := 0x0100000000001001, p0 := 5, p1 := 1, p2 := 0, clean := true, good := true }
    let old : Staged := { lb := 2097152, sector := 5, data := some { data := [(0, 7)] } }
    let s := disk c { staging := [old, { old with data := some { data := [] }, uid := some 7 }] }
    let t := s.laterPacket queue1 queue1 c h [0] false
    t.media.staging = [old] ∧ t.cmd? 7 = none ∧ Mem.field t.host.mem queue1.cqAddr 2 = 0x0101 := by decide

/-! ### Words of the sequencer (R179, R180, R208), each written out from the tables of chapters 06 and 07 -/

theorem test_words_one :
    decodeSeq 0 ((1 <<< 59) ||| (3 <<< 53) ||| (20 <<< 48) ||| (21 <<< 43) ||| (22 <<< 38)) 0 = .add 0 20 21 22 ∧
    decodeSeq 0 ((1 <<< 59) ||| (1 <<< 53) ||| (9 <<< 48) ||| 0xFFFFFFFFFE) 0 = .movi 0 9 0xFFFFFFFFFE ∧
    decodeSeq 0 ((1 <<< 53) ||| (3 <<< 39) ||| 0x7FFFFFFFFE) 0 = .b 0 3 0x7FFFFFFFFE ∧
    decodeSeq 0 ((2 <<< 59) ||| (5 <<< 53) ||| (7 <<< 48)) 0 = .mvWait 0 7 ∧
    decodeSeq 0 ((3 <<< 59) ||| (3 <<< 53) ||| (1 <<< 48) ||| (2 <<< 43) ||| (3 <<< 38)) 0 = .passBin 0 1 2 3 ∧
    decodeSeq 0 ((5 <<< 59) ||| (4 <<< 43) ||| (2 <<< 40) ||| 15) 0 = .cbload 0 4 2 15 ∧
    decodeSeq 0 ((7 <<< 59) ||| (3 <<< 53) ||| (6 <<< 43) ||| (8 <<< 38)) 0 = .take 0 6 8 ∧
    decodeSeq 0 ((8 <<< 59) ||| (30 <<< 48) ||| 7) 0 = .sysrd 0 30 7 := by decide
theorem test_words_long :
    decodeSeq 0 ((1 <<< 63) ||| (2 <<< 59) ||| (2 <<< 48) ||| (5 <<< 43) ||| (6 <<< 38) ||| (1 <<< 32) ||| 64)
      ((0x7FF <<< 53) ||| 7) = .mvLoad 0 2 5 6 7 64 true ∧
    decodeSeq 0 ((1 <<< 63) ||| (1 <<< 59) ||| (2 <<< 53) ||| (3 <<< 48) ||| 1) ((0x7FF <<< 53) ||| 2) =
      .movl 0 3 1 2 ∧
    decodeSeq 0 ((1 <<< 63) ||| (6 <<< 59) ||| (4 <<< 53) ||| (1 <<< 48) ||| (2 <<< 43) ||| (3 <<< 38) ||| 100)
      ((0x7FF <<< 53) ||| 4) = .tkMerge 0 1 2 3 4 100 := by decide
/-- R181, R209: an epilogue word, a continuation word and a LONG bit that does not fit the operation. -/
theorem test_words_illegal :
    seqLegal ((4 <<< 59) ||| (3 <<< 53)) 0 = false ∧ seqLegal (0x7FF <<< 53) 0 = false ∧
    seqLegal ((1 <<< 63) ||| (1 <<< 59) ||| (3 <<< 53)) 0 = false := by decide

end Sys2Proof.Tests
end

section
/-!
SUPPORT. What the writing of completions leaves of the host link (R41, R46, R57, R74, R419): the error bits of the
doorbells, and of every queue all but where its completion ring stands.
-/

namespace Sys2Proof.Machine

open Sys2Proof.Safety

/-! ### The host link beside its queues and commands -/

/-- The host link without its queues and its commands. -/
def State.linkRest (s : State) : Transport := { s.link with queues := [], cmds := [] }

theorem dbErr_of_linkRest {s t : State} (h : t.linkRest = s.linkRest) : t.link.dbErr = s.link.dbErr :=
  (congrArg Transport.dbErr h :)

theorem admin_of_linkRest {s t : State} (h : t.linkRest = s.linkRest) : t.link.admin = s.link.admin :=
  (congrArg Transport.admin h :)

@[simp] theorem linkRest_setQueue (s : State) (x : Queue) : (s.setQueue x).linkRest = s.linkRest := rfl
@[simp] theorem linkRest_modCmd (s : State) (u : Nat) (f : Cmd → Cmd) : (s.modCmd u f).linkRest = s.linkRest := rfl

@[simp] theorem linkRest_modQueue (s : State) (q : Nat) (f : Queue → Queue) :
    (s.modQueue q f).linkRest = s.linkRest := by
  unfold State.modQueue; split <;> rfl

@[simp] theorem linkRest_writeCpl (s : State) (q : Nat) (c : Cpl) : (s.writeCpl q c).linkRest = s.linkRest := by
  unfold State.writeCpl
  dsimp only
  split
  · rfl
  · split
    · rfl
    · split <;> split <;> rfl

@[simp] theorem linkRest_emit (s : State) (u : Nat) (last : Bool) (v : Verdict) :
    (s.emit u last v).linkRest = s.linkRest := by
  unfold State.emit
  split
  · rfl
  · split
    · rfl
    · dsimp only
      rw [foldl_keeps State.linkRest _ (fun s p => linkRest_writeCpl s _ p), linkRest_modCmd]

@[simp] theorem linkRest_settleReset (s : State) (q : Nat) : (s.settleReset q).linkRest = s.linkRest := by
  unfold State.settleReset
  split
  · rfl
  · split
    · rfl
    · dsimp only
      split
      · split <;> rfl
      · rfl

@[simp] theorem linkRest_settleAbort (s : State) : s.settleAbort.linkRest = s.linkRest := rfl

@[simp] theorem linkRest_settleAdmin (n : Nat) (s : State) : (s.settleAdmin n).linkRest = s.linkRest := by
  induction n generalizing s with
  | zero => rfl
  | succ n ih =>
    unfold State.settleAdmin
    split
    · split
      · rw [ih, linkRest_emit]
      · rfl
    · rfl

@[simp] theorem linkRest_release (n : Nat) (s : State) (q : Nat) : (s.release n q).linkRest = s.linkRest := by
  induction n generalizing s with
  | zero => rfl
  | succ n ih =>
    unfold State.release
    split
    · rfl
    · split
      · rfl
      · split
        · rfl
        · dsimp only
          rw [ih, linkRest_modQueue, linkRest_writeCpl, linkRest_setQueue]

/-- `settle` up to the point where a drained admin queue is taken down (R419). -/
def State.settleQueues (s : State) : State :=
  let t := ((s.link.queues.map (fun q => q.id)).foldl State.settleReset s).settleAbort
  State.settleAdmin t.link.cmds.length t

theorem settle_eq (s : State) : s.settle = s.settleQueues.settleDown := rfl

@[simp] theorem linkRest_settleQueues (s : State) : s.settleQueues.linkRest = s.linkRest := by
  unfold State.settleQueues
  dsimp only
  rw [linkRest_settleAdmin, linkRest_settleAbort, foldl_keeps State.linkRest _ linkRest_settleReset]

/-- What follows from completions sets and clears no error bit of a doorbell. -/
@[simp] theorem settle_dbErr (s : State) : s.settle.link.dbErr = s.link.dbErr := by
  have down : ∀ t : State, t.settleDown.link.dbErr = t.link.dbErr := by
    intro t; unfold State.settleDown; split <;> rfl
  rw [settle_eq, down, dbErr_of_linkRest (linkRest_settleQueues s)]

@[simp] theorem release_dbErr (n : Nat) (s : State) (q : Nat) : (s.release n q).link.dbErr = s.link.dbErr :=
  dbErr_of_linkRest (linkRest_release n s q)

@[simp] theorem release_hw (n : Nat) (s : State) (q : Nat) : (s.release n q).hw = s.hw :=
  (congrArg State.hw (inside_release n s q) :)

/-! ### A queue beside its place in the completion ring -/

/-- A queue without what the writing of completions moves: their number, the ring's tail and phase, and the
completions held (R46, R57). -/
def Queue.steady (q : Queue) : Queue := { q with seq := 0, cqTail := 0, phase := false, held := [] }

/-- Queue `q`, if it exists, without what the writing of completions moves. -/
def State.steady? (s : State) (q : Nat) : Option Queue := (s.queue? q).map Queue.steady

theorem id_of_queue? {s : State} {q : Nat} {x : Queue} (h : s.queue? q = some x) : x.id = q := by
  simpa using List.find?_some h

theorem id_of_steady {x y : Queue} (h : y.steady = x.steady) : y.id = x.id := (congrArg Queue.id h :)

theorem steady?_of_queue? {s : State} {q : Nat} {x : Queue} (h : s.queue? q = some x) :
    s.steady? q = some x.steady := congrArg (Option.map Queue.steady) h

theorem queue?_of_steady? {s : State} {q : Nat} {x : Queue} (h : s.steady? q = some x) :
    ∃ y, s.queue? q = some y ∧ y.steady = x := Option.map_eq_some_iff.mp h

/-- Only the queues decide what a lookup of one finds. -/
theorem steady?_congr {s t : State} (h : t.link.queues = s.link.queues) (q : Nat) : t.steady? q = s.steady? q := by
  unfold State.steady? State.queue?; rw [h]

/-- Replacing a queue by one that differs in its place in the completion ring alone. -/
theorem steady?_setQueue {s : State} {q : Nat} {x y : Queue} (hx : s.queue? q = some x) (hy : y.steady = x.steady)
    (k : Nat) : (s.setQueue y).steady? k = s.steady? k := by
  have hid : y.id = q := (id_of_steady hy).trans (id_of_queue? hx)
  unfold State.steady?
  rw [queue?_setQueue]
  by_cases e : k = q
  · simp [e, hid, hx, hy]
  · rw [hid, if_neg e]

theorem steady?_modQueue (s : State) (q : Nat) {f : Queue → Queue} (hf : ∀ x, (f x).steady = x.steady) (k : Nat) :
    (s.modQueue q f).steady? k = s.steady? k := by
  unfold State.modQueue
  split
  · rename_i x hx
    exact steady?_setQueue hx (hf x) k
  · rfl

@[simp] theorem steady?_writeCpl (s : State) (q : Nat) (c : Cpl) (k : Nat) :
    (s.writeCpl q c).steady? k = s.steady? k := by
  unfold State.writeCpl
  split
  · rfl
  · rename_i x hx
    have moved : ∀ {w : State} {y : Queue}, w.link.queues = (s.setQueue y).link.queues → y.steady = x.steady →
        w.steady? k = s.steady? k := by
      intro w y hw hy
      rw [steady?_congr hw, steady?_setQueue hx hy]
    split
    · exact moved rfl rfl
    · dsimp only
      split <;> split <;> exact moved rfl rfl

@[simp] theorem steady?_emit (s : State) (u : Nat) (last : Bool) (v : Verdict) (k : Nat) :
    (s.emit u last v).steady? k = s.steady? k := by
  unfold State.emit
  split
  · rfl
  · split
    · rfl
    · dsimp only
      rw [foldl_keeps (fun s => s.steady? k) _ (fun s p => steady?_writeCpl s _ p k)]
      rfl

@[simp] theorem steady?_settleAdmin (n : Nat) (s : State) (k : Nat) : (s.settleAdmin n).steady? k = s.steady? k := by
  induction n generalizing s with
  | zero => rfl
  | succ n ih =>
    unfold State.settleAdmin
    split
    · split
      · rw [ih, steady?_emit]
      · rfl
    · rfl

/-- The completions that a ring held move nothing else of any queue (R46). -/
@[simp] theorem steady?_release (n : Nat) (s : State) (q k : Nat) : (s.release n q).steady? k = s.steady? k := by
  induction n generalizing s with
  | zero => rfl
  | succ n ih =>
    unfold State.release
    split
    · rfl
    · rename_i x hx
      split
      · rfl
      · split
        · rfl
        · rw [ih]
          refine (steady?_modQueue _ _ (fun _ => by rfl) k).trans ((steady?_writeCpl _ _ _ _).trans ?_)
          exact steady?_setQueue hx (by rfl) k

/-- Removing one queue leaves the lookup of every other. -/
theorem queue?_filter_ne (l : List Queue) {q k : Nat} (h : k ≠ q) :
    (l.filter (fun x => x.id != q)).find? (fun x => x.id == k) = l.find? (fun x => x.id == k) := by
  rw [List.find?_filter]
  congr 1
  funext x
  by_cases e : x.id = k <;> simp [e, h]

/-- The end of a reset or deletion leaves every queue that is not under one (R74, R75). -/
theorem steady?_settleReset {s : State} {k : Nat} {x : Queue} (h : s.steady? k = some x)
    (hr : x.resetting = none) (q : Nat) : (s.settleReset q).steady? k = some x := by
  unfold State.settleReset
  split
  · exact h
  · rename_i y hy
    split
    · exact h
    · rename_i r hyr
      have hne : k ≠ q := by
        rintro rfl
        have hxy : y.steady = x := Option.some.inj ((steady?_of_queue? hy).symm.trans h)
        have hyx : y.resetting = x.resetting := (congrArg Queue.resetting hxy :)
        simp [hyx, hr] at hyr
      have hid : y.id = q := id_of_queue? hy
      dsimp only
      split
      · split
        · exact (congrArg (Option.map Queue.steady) (queue?_filter_ne s.link.queues hne)).trans h
        · refine Eq.trans (congrArg (Option.map Queue.steady) ?_) h
          exact (queue?_setQueue s y.restart k).trans (if_neg (hid ▸ hne))
      · exact h

theorem steady?_settleResets {s : State} {k : Nat} {x : Queue} (h : s.steady? k = some x)
    (hr : x.resetting = none) (qs : List Nat) : (qs.foldl State.settleReset s).steady? k = some x := by
  induction qs generalizing s with
  | nil => exact h
  | cons q qs ih => exact ih (steady?_settleReset h hr q)

/-- Taking down the drained admin queue leaves the others, and one that does not drain stays (R419). -/
theorem steady?_settleDown {s : State} {k : Nat} (h : k = 0 → s.link.admin.draining = false) :
    s.settleDown.steady? k = s.steady? k := by
  unfold State.settleDown
  split
  · rename_i hd
    have hne : k ≠ 0 := by
      intro e
      simp [h e] at hd
    exact congrArg (Option.map Queue.steady) (queue?_filter_ne s.link.queues hne)
  · rfl

/-- What follows from completions leaves a queue that is neither under a reset nor the draining admin queue. -/
theorem steady?_settle {s : State} {k : Nat} {x : Queue} (h : s.steady? k = some x) (hr : x.resetting = none)
    (hd : k = 0 → s.link.admin.draining = false) : s.settle.steady? k = some x := by
  have hq : s.settleQueues.steady? k = some x := by
    unfold State.settleQueues
    dsimp only
    rw [steady?_settleAdmin]
    exact steady?_settleResets h hr _
  rw [settle_eq, steady?_settleDown (by rwa [admin_of_linkRest (linkRest_settleQueues s)]), hq]

end Sys2Proof.Machine
end

section
/-!
SUPPORT. The doorbells (R40, R41, R46, R77), and the three statements about the command transport: doorbell writes, ABORT
of a deep or missing queue, and READ and WRITE past the end of a volume.
-/

namespace Sys2Proof.Machine

open Sys2Proof.Safety

/-! ### The distance of an index from the head of its ring (R41) -/

/-- The model's distance in natural numbers is R41's difference modulo the ring's depth. -/
theorem ringDistance_eq {d h : Nat} (lt : h < d) (i : Nat) : (((i + d - h) % d : Nat) : Int) = ((i : Int) - h) % d := by
  rw [Int.natCast_emod, Int.natCast_sub (by omega), Int.natCast_add, add_sub_right_comm, Int.add_emod_right]

theorem sqValid_iff {x : Queue} (lt : x.sqHead < x.depth) (n : Nat) : sqValid x n = true ↔
    n < x.depth ∧ ((x.sqTail : Int) - x.sqHead) % x.depth ≤ ((n : Int) - x.sqHead) % x.depth := by
  rw [← ringDistance_eq lt, ← ringDistance_eq lt, Int.ofNat_le]
  simp [sqValid]

theorem cqValid_iff {x : Queue} (lt : x.cqHead < x.cqDepth) (n : Nat) : cqValid x n = true ↔
    n < x.cqDepth ∧ ((n : Int) - x.cqHead) % x.cqDepth ≤ ((x.cqTail : Int) - x.cqHead) % x.cqDepth := by
  rw [← ringDistance_eq lt, ← ringDistance_eq lt, Int.ofNat_le]
  simp [cqValid]

/-! ### Setting DB_ERR (R41, R420) -/

theorem getLsbD_setBits {w : Nat} (v : BitVec w) (n : Nat) {i : Nat} (lt : i < w) :
    (setBits v n).getLsbD i = (v.getLsbD i || decide (i = n)) := by
  rw [setBits, BitVec.getLsbD_or, BitVec.getLsbD_ofNat, Nat.testBit_two_pow]
  simp [lt, eq_comm]

/-- A refused doorbell write sets the queue's bit of DB_ERR, and no other. -/
theorem getLsbD_dbErr {s : State} (h : Sparse.wf s.link.dbErr = true) (q k : Nat) :
    (Sparse.get (s.dbErr q).link.dbErr (k / 64)).getLsbD (k % 64) =
      ((Sparse.get s.link.dbErr (k / 64)).getLsbD (k % 64) || decide (k = q)) := by
  change (Sparse.get (Sparse.set _ _ _) _).getLsbD _ = _
  rw [Sparse.get_set h]
  split
  · rename_i e
    have hk : k % 64 = q % 64 ↔ k = q := by omega
    rw [getLsbD_setBits _ _ (Nat.mod_lt _ (by decide)), e]
    simp only [hk]
  · rename_i e
    have hk : k ≠ q := fun hq => e (hq ▸ rfl)
    simp [hk]

/-! ### An accepted doorbell (R77) -/

@[simp] theorem wake_link (s : State) : s.wake.link = s.link := by
  unfold State.wake; split <;> rfl

theorem wake_active {s : State} (h : s.hw.pstate = .active) : s.wake = s := if_pos h

theorem wake_exiting {s : State} (h : s.hw.pstate ≠ .active) : s.wake.hw.exiting = true := by
  unfold State.wake; rw [if_neg h]

theorem queue?_of_doorbellQueue {s : State} {q : Nat} {x : Queue} (h : s.doorbellQueue q = some x) :
    s.queue? q = some x := by
  unfold State.doorbellQueue at h
  split at h
  · cases h
  · exact h

/-- What an accepted doorbell write has done before completions follow: the queue is `y`, and an exit from a power state
starts. -/
def State.rung (s : State) (y : Queue) : State := ((s.count 89 5 1).setQueue y).wake

theorem rung_link (s : State) (y : Queue) : (s.rung y).link = (s.setQueue y).link := wake_link _

theorem inside_rung {s : State} (h : s.hw.pstate = .active) (y : Queue) : inside (s.rung y) = inside s :=
  (congrArg inside (wake_active (s := (s.count 89 5 1).setQueue y) h) :)

theorem rung_exiting {s : State} (h : s.hw.pstate ≠ .active) (y : Queue) : (s.rung y).hw.exiting = true :=
  wake_exiting (s := (s.count 89 5 1).setQueue y) h

theorem queue?_rung {s : State} {q : Nat} {x y : Queue} (h : s.queue? q = some x) (hy : y.id = x.id) :
    (s.rung y).queue? q = some y := by
  have hq : y.id = q := hy.trans (id_of_queue? h)
  have hl : (s.rung y).queue? q = (s.setQueue y).queue? q := by
    unfold State.queue?; rw [rung_link]
  rw [hl, queue?_setQueue, if_pos hq.symm, h]
  rfl

/-! ### What a doorbell write comes to (R40, R41, R46) -/

section
variable {s : State} {q : Nat} {x : Queue} (v : Nat)

theorem ringSq_valid (h : s.doorbellQueue q = some x) (hv : sqValid x (v % 65536) = true) :
    s.ringSq q v = s.rung { x with sqTail := v % 65536 } := by
  have hc : (s.count 89 5 1).doorbellQueue q = some x := h
  unfold State.ringSq
  simp only [hc, hv, if_true]
  rfl

theorem ringSq_invalid (h : s.doorbellQueue q = some x) (hv : ¬ sqValid x (v % 65536) = true) :
    s.ringSq q v = (s.count 89 5 1).dbErr q := by
  have hc : (s.count 89 5 1).doorbellQueue q = some x := h
  unfold State.ringSq
  simp only [hc, hv]
  rfl

theorem ringCq_valid (h : s.doorbellQueue q = some x) (hv : cqValid x (v % 65536) = true) :
    s.ringCq q v = (State.release x.held.length (s.rung { x with cqHead := v % 65536 }) q).settle := by
  have hc : (s.count 89 5 1).doorbellQueue q = some x := h
  unfold State.ringCq
  simp only [hc, hv, if_true]
  rfl

theorem ringCq_invalid (h : s.doorbellQueue q = some x) (hv : ¬ cqValid x (v % 65536) = true) :
    s.ringCq q v = (s.count 89 5 1).dbErr q := by
  have hc : (s.count 89 5 1).doorbellQueue q = some x := h
  unfold State.ringCq
  simp only [hc, hv]
  rfl

end

theorem exec_sqTailDoorbell {s : State} {q : Nat} (v : BitVec 64) (hq : q < 4096) (hl : s.link.linkUp = true) :
    exec (.sqTailDoorbell q v) s = .next (s.ringSq q v.toNat) :=
  if_neg (by simp [hl]; omega)

theorem exec_cqHeadDoorbell {s : State} {q : Nat} (v : BitVec 64) (hq : q < 4096) (hl : s.link.linkUp = true) :
    exec (.cqHeadDoorbell q v) s = .next (s.ringCq q v.toNat) :=
  if_neg (by simp [hl]; omega)

/-- The completion head write of a queue without a reset moves the head of that queue alone (R46, R74). -/
theorem queue?_ringCq {s : State} {q v : Nat} {x : Queue} (h : s.doorbellQueue q = some x)
    (hv : cqValid x (v % 65536) = true) (hr : x.resetting = none) (hd : q = 0 → s.link.admin.draining = false) :
    ∃ y, (s.ringCq q v).queue? q = some y ∧ y.steady = { x with cqHead := v % 65536 }.steady := by
  rw [ringCq_valid v h hv]
  refine queue?_of_steady? (steady?_settle ?_ hr ?_)
  · rw [steady?_release]
    exact steady?_of_queue? (queue?_rung (queue?_of_doorbellQueue h) rfl)
  · rw [admin_of_linkRest (linkRest_release _ _ _), rung_link]
    exact hd

/-! ### Commands that end at once (R61, R71) -/

theorem uid_of_cmd? {s : State} {u : Nat} {c : Cmd} (h : s.cmd? u = some c) : c.uid = u := by
  simpa using List.find?_some h

/-- A failure without results is the end of its command with that status. -/
theorem fail_of_cmd? {s : State} {u : Nat} {c : Cmd} (h : s.cmd? u = some c) (w : State) (st : Status) :
    w.fail c st 0 0 = w.complete u { status := st } := by
  unfold State.fail; rw [uid_of_cmd? h]

/-- A command that may act and fails at once without results ends with that status. -/
theorem ends_of_runs {s : State} {u op : Nat} {c : Cmd} (h : Runs s u op c) {f : Cmd → State} {st : Status}
    (hf : f c = s.fail c st 0 0) : ∃ t, s.onCmd u op f = .next t ∧ Ends s u { status := st } t :=
  ⟨_, onCmd_runs h f, by rw [hf, fail_of_cmd? h.1]; rfl⟩

/-- What is left of a chain that will not be answered is dropped: only the queues change (R73). -/
theorem skipRest_eq (s : State) (c : Cmd) :
    s.skipRest c = { s with link := { s.link with queues := (s.skipRest c).link.queues } } := by
  unfold State.skipRest State.modQueue
  split <;> rfl

/-- A WRITE past the end of its volume fails, the rest of its chain dropped (R61). -/
theorem write_beyond {s : State} {c : Cmd} {o : Obj} (h : s.volume? c.object = some o) (hb : o.beyond c = true) :
    s.write c = (s.skipRest c).fail c .outOfRange 0 0 := by
  unfold State.write
  simp only [h, hb, if_true]

theorem exec_write {s : State} {u : Nat} {c : Cmd} (h : Runs s u 0x11 c) :
    exec (.write u) s = .next (s.write c).settle := by
  obtain ⟨hc, hop, hbegin, hawake⟩ := h
  simp only [State.mayBegin, Bool.and_eq_true, Bool.not_eq_true'] at hbegin
  obtain ⟨⟨⟨hfin, _⟩, _⟩, hfence⟩ := hbegin
  change execWrite u s = _
  unfold execWrite
  simp only [hc]
  rw [if_pos ⟨hop, hfin, hfence, hawake⟩]

/-! ### The statements -/

/-- Settles O36, by the two ways in which the queue's lookup can go. -/
theorem abortNeedsShallowQueue : Obligations.AbortNeedsShallowQueue := by
  intro s u c h hp hdeep
  refine ends_of_runs h ?_
  dsimp only
  rw [if_neg (not_not.mpr hp)]
  cases hq : s.queue? (bits c.p0 15 0) with
  | none => rfl
  | some q => exact if_pos (hdeep q hq)

/-- Settles O40: a READ fails at once, a WRITE after dropping the rest of its chain. -/
theorem outOfRangeRefused : Obligations.OutOfRangeRefused := by
  intro s u c o hv hlt
  have hb : o.beyond c = true := decide_eq_true hlt
  refine ⟨fun h => ends_of_runs h ?_, fun h => ⟨_, s.skipRest c, exec_write h, ?_, skipRest_eq s c⟩⟩
  · simp only [hv, hb, if_true]
  · rw [write_beyond hv hb, fail_of_cmd? h.1]
    rfl

/-- Settles O34: R41's differences are the model's distances, an accepted write replaces the queue's own index, what
completions follow it leaves that index alone, and a refused write sets one bit. -/
theorem doorbellsMoveForward : Obligations.DoorbellsMoveForward := by
  intro s q x v hl hwf hq hx n
  have refused : inside ((s.count 89 5 1).dbErr q) = inside s ∧
      ((s.count 89 5 1).dbErr q).link.queues = s.link.queues ∧
      ∀ k < 4096, (Sparse.get ((s.count 89 5 1).dbErr q).link.dbErr (k / 64)).getLsbD (k % 64) =
        ((Sparse.get s.link.dbErr (k / 64)).getLsbD (k % 64) || decide (k = q)) :=
    ⟨rfl, rfl, fun k _ => getLsbD_dbErr (s := s.count 89 5 1) hwf q k⟩
  refine ⟨fun lt => ⟨fun valid => ?_, fun invalid => ?_⟩, fun lt => ⟨fun valid => ?_, fun invalid => ?_⟩⟩
  · refine ⟨_, exec_sqTailDoorbell v hq hl, ?_⟩
    rw [ringSq_valid _ hx ((sqValid_iff lt n).mpr valid)]
    refine ⟨queue?_rung (queue?_of_doorbellQueue hx) rfl, ?_, fun h => inside_rung h _, fun h => rung_exiting h _⟩
    rw [rung_link]
    rfl
  · refine ⟨_, exec_sqTailDoorbell v hq hl, ?_⟩
    rwa [ringSq_invalid _ hx (fun h => invalid ((sqValid_iff lt n).mp h))]
  · have hv : cqValid x n = true := (cqValid_iff lt n).mpr valid
    refine ⟨_, exec_cqHeadDoorbell v hq hl, ?_, fun h => ?_, fun h => ?_, fun hr hd => ?_⟩
    · rw [ringCq_valid _ hx hv, settle_dbErr, release_dbErr, rung_link]
      rfl
    · rw [ringCq_valid _ hx hv, inside_settle, inside_release, inside_rung h]
    · have hw : (s.ringCq q v.toNat).hw = (s.rung { x with cqHead := n }).hw := by
        rw [ringCq_valid _ hx hv, settle_hw, release_hw]
      rw [hw, rung_exiting h]
    · obtain ⟨y, hy, same⟩ := queue?_ringCq hx hv hr hd
      exact ⟨y, hy, (congrArg Queue.cqHead same :), (congrArg Queue.sqTail same :), (congrArg Queue.sqHead same :)⟩
  · refine ⟨_, exec_cqHeadDoorbell v hq hl, ?_⟩
    rwa [ringCq_invalid _ hx (fun h => invalid ((cqValid_iff lt n).mp h))]

end Sys2Proof.Machine
end

section
/-!
SUPPORT. BIND taking effect (R83, R87), the view of a state beside its page table, and the statement about
MOVE_OBJECT (R86): what a Pod gives up with an object are claims on pages, and a parked transfer alone can notice.
-/

namespace Sys2Proof.Machine

open Sys2Proof.Safety

/-! ### The state beside its pages (R126, R135) -/

/-- The state without its page table. -/
def State.offPages (s : State) : State := { s with pages := [] }

@[simp] theorem offPages_modPage (s : State) (c p : Nat) (f : Page → Page) :
    (s.modPage c p f).offPages = s.offPages := by
  unfold State.modPage; split <;> rfl

@[simp] theorem offPages_leaveFrame (s : State) (pg : Nat × Nat) : (s.leaveFrame pg).offPages = s.offPages := rfl

@[simp] theorem offPages_unclaim (s : State) (p : Nat) (pg : Nat × Nat) :
    (s.unclaim p pg).offPages = s.offPages := by
  unfold State.unclaim
  dsimp only
  split
  · split
    · rw [offPages_leaveFrame, offPages_modPage]
    · exact offPages_modPage s _ _ _
  · exact offPages_modPage s _ _ _

@[simp] theorem offPages_dropClaims (s : State) (p copy : Nat) : (s.dropClaims p copy).offPages = s.offPages := by
  unfold State.dropClaims
  split
  · rfl
  · exact foldl_keeps State.offPages _ (fun s _ => offPages_unclaim s p _) _ s

@[simp] theorem offPages_fitShare (n : Nat) (s : State) (p : Nat) : (s.fitShare n p).offPages = s.offPages := by
  induction n generalizing s with
  | zero => rfl
  | succ n ih =>
    unfold State.fitShare
    split
    · rfl
    · split
      · rw [ih, offPages_unclaim]
      · rfl

theorem core_of_offPages {s t : State} (h : t.offPages = s.offPages) (n : Nat) : t.core n = s.core n :=
  (congrArg (fun w => w.core n) h :)

/-! ### Giving an object to another Pod (R86, R126) -/

/-- Without a parked transfer no transfer meets the fault of an object that is gone. -/
theorem failGone_of_unparked {s : State} (h : ∀ n < 32, ∀ p ∈ (s.core n).xfers, p.2.state ≠ .parked) :
    s.failGone = s := by
  unfold State.failGone
  refine List.foldlRecOn (motive := (· = s)) _ _ rfl fun t ht n hn => ?_
  subst ht
  split
  · rfl
  · have unparked : ∀ j, (t.core n).xfers.find? (fun p => p.2.state == .parked &&
        (p.2.uAddrs p.2.progress).any (fun a => !t.mayTouch j p.2.store a)) = none := by
      intro j
      refine List.find?_eq_none.mpr fun p hp => ?_
      simp [h n (List.mem_range.mp hn) p hp]
    simp only [unparked]

/-- Beside pages, an object given to a Pod changes its owner alone, unless a transfer is parked that could lose it. -/
theorem offPages_giveObject {s : State} {o : Obj}
    (h : o.kind = .volume ∨ ∀ n < 32, ∀ p ∈ (s.core n).xfers, p.2.state ≠ .parked) (p : Nat) :
    (s.giveObject o p).offPages = (s.modObj o.handle (fun x => { x with pod := p })).offPages := by
  unfold State.giveObject
  dsimp only
  rw [offPages_fitShare]
  split
  · rfl
  · rename_i notVolume
    have unparked := h.resolve_left notVolume
    rw [failGone_of_unparked, offPages_dropClaims]
    intro n hn
    rw [core_of_offPages (offPages_dropClaims _ _ _)]
    exact unparked n hn

/-! ### BIND (R82, R83, R87) -/

/-- A valid BIND that no reason of R87 refuses takes its effect, within its bound. -/
theorem bound_of_binds {i : Instr} {s : State} {u op : Nat} {c : Cmd} {b : Bind} (h : Binds s u op c b)
    {reasons : Bind → List (Nat × Bool)} {bound : Bind → Nat} {effect : Bind → State → State}
    (hi : exec i s = s.bind u op reasons bound effect) (hr : firstReason (reasons b) = none) {f : State → Prop}
    (hf : f (effect b s).fresh.2) : Bound i s u (bound b) f := by
  obtain ⟨hruns, hlen, rfl, hvalid, hop⟩ := h
  refine ⟨_, _, (effect (parseBind c.payload) s).fresh.1 % (bound (parseBind c.payload) + 1),
    hi.trans (onCmd_runs hruns _), ?_, Nat.le_of_lt_succ (Nat.mod_lt _ (Nat.succ_pos _)), hf⟩
  simp only [hlen, hvalid, hop, hr, ne_eq, not_true_eq_false, Bool.true_eq_false, or_self, if_false]
  unfold State.fail
  rw [uid_of_cmd? hruns.1]
  rfl

theorem handle_of_obj? {s : State} {h : Nat} {o : Obj} (ho : s.obj? h = some o) : o.handle = h := by
  simpa using List.find?_some ho

/-- The object that a MOVE_OBJECT finds in its source Pod is the one it moves. -/
theorem objectMoved_of_obj? {s : State} {b : Bind} {o : Obj} (ho : s.obj? b.handle = some o) (hp : o.pod = b.src) :
    s.objectMoved b = some o := by
  unfold State.objectMoved
  rw [ho, Option.bind_some, if_pos hp]

/-! ### The statement -/

/-- Settles O38: no reason of R87 refuses the move, and what it does beside pages is to set the object's Pod. -/
theorem objectsMoveWhole : Obligations.ObjectsMoveWhole := by
  intro s u c b o hb hpod ho hsrc hne hclaim hslated haddressed hkind
  have moved : s.objectMoved b = some o := objectMoved_of_obj? ho hsrc
  have hexec : exec (.moveObject u) s = execMoveObject u s := rfl
  unfold execMoveObject at hexec
  refine bound_of_binds hb hexec ?_ ?_
  · simp [firstReason, hpod, moved, hclaim, hslated, haddressed]
  · simp only [moved, if_neg hne]
    have same := offPages_giveObject hkind b.dst
    rw [handle_of_obj? ho] at same
    exact ⟨(congrArg State.objs same :), (congrArg State.copies same :), (congrArg State.nextCopy same :),
      (congrArg State.media same :), (congrArg State.sec same :), (congrArg State.cores same :),
      (congrArg State.pods same :), (congrArg State.jobs same :), (congrArg State.link same :)⟩

end Sys2Proof.Machine
end

section
/-!
SUPPORT. The arbiter's choice (R144): the queue of those present, the least requester and the lowest class as one kind
of fold, round robin after the requester last granted, and the statement about the choice and what a grant leaves.
-/

namespace Sys2Proof.Machine

/-! ### A fold that keeps the smaller of two -/

/-- A fold that at each element keeps one of two, with the smaller key, ends with a least one of all it met. -/
theorem foldl_least {α : Type} (key : α → Nat) (pick : α → α → α) (hpick : ∀ a x, pick a x = a ∨ pick a x = x)
    (hle : ∀ a x, key (pick a x) ≤ key a ∧ key (pick a x) ≤ key x) (l : List α) (a : α) :
    l.foldl pick a ∈ a :: l ∧ ∀ x ∈ a :: l, key (l.foldl pick a) ≤ key x := by
  induction l generalizing a with
  | nil => simp
  | cons y t ih =>
    obtain ⟨hmem, hleast⟩ := ih (pick a y)
    have hfirst : key (t.foldl pick (pick a y)) ≤ key (pick a y) := hleast _ List.mem_cons_self
    refine ⟨?_, fun x hx => ?_⟩
    · rw [List.foldl_cons]
      rcases List.mem_cons.mp hmem with hkept | hlater
      · rw [hkept]
        rcases hpick a y with e | e <;> simp [e]
      · exact List.mem_cons_of_mem _ (List.mem_cons_of_mem _ hlater)
    · rw [List.foldl_cons]
      rcases List.mem_cons.mp hx with rfl | hx
      · exact hfirst.trans (hle x y).1
      · rcases List.mem_cons.mp hx with rfl | hx
        · exact hfirst.trans (hle a x).2
        · exact hleast x (List.mem_cons_of_mem _ hx)

/-! ### Round robin (R144 rule 3) -/

/-- Whether a request's requester comes after the one last granted, where there is one. -/
def ComesAfter (last : Option Nat) (r : GrantReq) : Prop := ∀ l, last = some l → l < r.requester.val

theorem comesAfter_none (r : GrantReq) : ComesAfter none r := fun _ h => by cases h

theorem comesAfter_some {l : Nat} {r : GrantReq} : ComesAfter (some l) r ↔ l < r.requester.val := by
  simp [ComesAfter]

/-- With no requester last granted, round robin takes the least requester. -/
theorem roundRobin_none {rs : List GrantReq} (h : rs ≠ []) :
    ∃ r ∈ rs, roundRobin none rs = some r ∧ ∀ q ∈ rs, r.requester.val ≤ q.requester.val := by
  obtain ⟨r, t, rfl⟩ := List.exists_cons_of_ne_nil h
  obtain ⟨hmem, hleast⟩ := foldl_least (fun r : GrantReq => r.requester.val)
    (fun b x => if x.requester.val < b.requester.val then x else b)
    (fun a x => by split <;> simp) (fun a x => by split <;> omega) t r
  exact ⟨_, hmem, rfl, hleast⟩

theorem roundRobin_some (l : Nat) (rs : List GrantReq) :
    roundRobin (some l) rs = (roundRobin none (rs.filter (fun r => decide (l < r.requester.val)))).orElse
      (fun _ => roundRobin none rs) := rfl

/-- Round robin takes the least of the requesters after the one last granted, or the least of all where none is. -/
theorem roundRobin_spec (last : Option Nat) {rs : List GrantReq} (h : rs ≠ []) :
    ∃ r ∈ rs, roundRobin last rs = some r ∧ ∀ q ∈ rs,
      (ComesAfter last r ∧ ComesAfter last q → r.requester.val ≤ q.requester.val) ∧
      (¬ ComesAfter last r → ¬ ComesAfter last q ∧ r.requester.val ≤ q.requester.val) := by
  obtain ⟨r, hr, hsome, hleast⟩ := roundRobin_none h
  cases last with
  | none => exact ⟨r, hr, hsome, fun q hq => ⟨fun _ => hleast q hq, fun hn => absurd (comesAfter_none r) hn⟩⟩
  | some l =>
    simp only [comesAfter_some]
    by_cases hafter : rs.filter (fun r => decide (l < r.requester.val)) = []
    · have hnone : ∀ q ∈ rs, ¬ l < q.requester.val := by simpa using hafter
      exact ⟨r, hr, by rw [roundRobin_some, hafter]; exact hsome,
        fun q hq => ⟨fun _ => hleast q hq, fun _ => ⟨hnone q hq, hleast q hq⟩⟩⟩
    · obtain ⟨x, hx, hxsome, hxleast⟩ := roundRobin_none hafter
      obtain ⟨hxrs, hlx⟩ : x ∈ rs ∧ l < x.requester.val := by simpa using hx
      exact ⟨x, hxrs, by rw [roundRobin_some, hxsome]; rfl, fun q hq =>
        ⟨fun hq' => hxleast q (by simpa [hq] using hq'.2), fun hn => absurd hlx hn⟩⟩

/-! ### The queue and the lowest class (R144 rules 1 and 2) -/

/-- Everyone in an arbiter's queue has a request present. -/
theorem present_of_mem_queue {b : Arb} {present : List GrantReq} {w : Nat × Nat} (h : w ∈ b.queue present) :
    ∃ r ∈ present, r.requester.val = w.1 := by
  rcases List.mem_append.mp h with hold | hnew
  · simpa using (List.mem_filter.mp hold).2
  · obtain ⟨r, hr, rfl⟩ := List.mem_map.mp hnew
    exact ⟨r, List.mem_of_mem_filter hr, rfl⟩

/-- The lowest class number of the requests present, as the model's choice finds it. -/
def lowestClass (present : List GrantReq) : Nat := (present.map (fun r => r.cls.val)).foldl Nat.min 4

theorem lowestClass_spec {present : List GrantReq} (h : present ≠ []) :
    (∃ r ∈ present, r.cls.val = lowestClass present) ∧ ∀ q ∈ present, lowestClass present ≤ q.cls.val := by
  obtain ⟨hmem, hleast⟩ := foldl_least id Nat.min (fun a x => by simpa using min_choice a x)
    (fun a x => ⟨Nat.min_le_left a x, Nat.min_le_right a x⟩) (present.map (fun r => r.cls.val)) 4
  have hle : ∀ q ∈ present, lowestClass present ≤ q.cls.val := fun q hq =>
    hleast q.cls.val (List.mem_cons_of_mem _ (List.mem_map_of_mem hq))
  refine ⟨?_, hle⟩
  rcases List.mem_cons.mp hmem with (hfour : lowestClass present = 4) | hin
  · obtain ⟨q, hq⟩ := List.exists_mem_of_ne_nil _ h
    have := hle q hq
    omega
  · exact List.mem_map.mp hin

/-! ### The choice -/

/-- The first requester of the queue that has waited past the age limit is the choice. -/
theorem choose_of_aged {b : Arb} {present : List GrantReq} {w : Nat × Nat} (hlim : b.ageLimit ≠ 0)
    (hw : (b.queue present).find? (fun w => decide (b.ageLimit.toNat < w.2)) = some w) :
    ∃ r ∈ present, r.requester.val = w.1 ∧ b.choose present = some (r, true) := by
  obtain ⟨q, hq, hqw⟩ := present_of_mem_queue (List.mem_of_find?_eq_some hw)
  have hfound : (present.find? (fun r => r.requester.val == w.1)).isSome :=
    List.find?_isSome.mpr ⟨q, hq, by simpa using hqw⟩
  obtain ⟨r, hr⟩ := Option.isSome_iff_exists.mp hfound
  refine ⟨r, List.mem_of_find?_eq_some hr, by simpa using List.find?_some hr, ?_⟩
  simp only [Arb.choose, if_neg hlim, hw, Option.bind_some, hr]

/-- Where no one has waited past the age limit, the choice is round robin within the lowest class present. -/
theorem choose_of_none_aged {b : Arb} {present : List GrantReq}
    (h : b.ageLimit = 0 ∨ ∀ w ∈ b.queue present, w.2 ≤ b.ageLimit.toNat) :
    b.choose present = (roundRobin ((b.last.find? (fun x => x.1 == lowestClass present)).map (fun x => x.2))
      (present.filter (fun r => r.cls.val == lowestClass present))).map (fun r => (r, false)) := by
  have hnone : (if b.ageLimit = 0 then none
      else (b.queue present).find? (fun w => decide (b.ageLimit.toNat < w.2))) = none := by
    split
    · rfl
    · rename_i hlim
      simpa using h.resolve_left hlim
  simp only [Arb.choose, hnone, Option.bind_none]
  rfl

/-! ### A grant -/

theorem find?_assocSet_self {α : Type} (l : List (Nat × α)) (k : Nat) (v : α) :
    (assocSet l k v).find? (fun x => x.1 == k) = some (k, v) := by
  induction l with
  | nil => simp [assocSet]
  | cons x t ih =>
    unfold assocSet
    split
    · rename_i lt
      rw [List.find?_cons_of_neg (by simpa using lt.ne), ih]
    · split <;> simp

/-- After a grant, those of the queue but the one granted wait, each through one more grant. -/
theorem mem_waits_granted {b : Arb} {present : List GrantReq} {r : GrantReq} {v : Nat × Nat} :
    v ∈ (b.granted present r).waits ↔ ∃ w ∈ b.queue present, w.1 ≠ r.requester.val ∧ (w.1, w.2 + 1) = v := by
  simp only [Arb.granted, List.mem_map, List.mem_filter, bne_iff_ne, and_assoc]

/-! ### The statement -/

/-- Settles O29, by whether the queue holds one that has waited past the age limit; where none does, round robin
decides among the requests of the lowest class. -/
theorem arbitersTakeBestClass : Obligations.ArbitersTakeBestClass := by
  intro b present hpresent
  refine ⟨fun i w hlim hi hw hbefore => ?_, fun hnone => ?_, fun r _ => ⟨find?_assocSet_self _ _ _, ?_, ?_⟩⟩
  · refine choose_of_aged hlim (List.find?_eq_some_iff_getElem.mpr ⟨by simpa using hw, i, ?_⟩)
    obtain ⟨hlt, hget⟩ := List.getElem?_eq_some_iff.mp hi
    exact ⟨hlt, hget, fun k hk => by simpa using hbefore k _ hk (List.getElem?_eq_getElem (hk.trans hlt))⟩
  · obtain ⟨⟨x, hx, hxk⟩, hlowest⟩ := lowestClass_spec hpresent
    have hclass : present.filter (fun r => r.cls.val == lowestClass present) ≠ [] :=
      List.ne_nil_of_mem (List.mem_filter.mpr ⟨hx, by simpa using hxk⟩)
    obtain ⟨r, hr, hrobin, hturn⟩ := roundRobin_spec
      ((b.last.find? (fun x => x.1 == lowestClass present)).map (fun x => x.2)) hclass
    obtain ⟨hmem, hk⟩ : r ∈ present ∧ r.cls.val = lowestClass present := by simpa using hr
    refine ⟨r, hmem, by rw [choose_of_none_aged hnone, hrobin]; rfl, fun q hq => hk ▸ hlowest q hq, ?_⟩
    rw [hk]
    exact fun q hq hqr => hturn q (List.mem_filter.mpr ⟨hq, by simp [hqr, hk]⟩)
  · exact fun w hw hne => mem_waits_granted.mpr ⟨w, hw, hne, rfl⟩
  · intro v hv
    obtain ⟨w, _, hne, rfl⟩ := mem_waits_granted.mp hv
    exact hne

end Sys2Proof.Machine
end

section
/-!
SUPPORT. The two invariants that every step keeps, memory by memory (R14, R79, R142, R151, R341 and log 5): a state
    meets
an invariant when each of its parts does, and an update that leaves a part alone leaves the invariant of that part
    alone.
-/

namespace Sys2Proof.Machine

open Sys2Proof.Safety

/-- The two invariants: the module's shape, and the canonical form of its memories. -/
inductive Invariant where
  | shape | memory

variable {v : Invariant}

/-! ### What meets an invariant -/

/-- Where memories are meant, a store is in canonical form. -/
def MemOk (v : Invariant) {w : Nat} (m : Sparse w) : Prop := v = .memory → Sparse.wf m = true

structure RunOk (v : Invariant) (r : Run) : Prop where
  vregs : MemOk v r.vregs
  pregs : MemOk v r.pregs

structure TopKOk (v : Invariant) (t : TopK) : Prop where
  stripes : MemOk v t.stripes
  counts : MemOk v t.counts
  lists : v = .memory → listsWf t = true

structure CoreOk (v : Invariant) (c : Core) : Prop where
  sregs : MemOk v c.sregs
  aregs : MemOk v c.aregs
  vregs : MemOk v c.vregs
  pregs : MemOk v c.pregs
  acc : MemOk v c.acc
  os : MemOk v c.os
  lwb : MemOk v c.lwb
  cb : MemOk v c.cb
  cbCtl : MemOk v c.cbCtl
  scale : MemOk v c.scale
  topk : TopKOk v c.topk
  spill : MemOk v c.spill
  run : ∀ r ∈ c.run, RunOk v r

structure SavedCoreOk (v : Invariant) (r : SavedCore) : Prop where
  sregs : MemOk v r.sregs
  aregs : MemOk v r.aregs
  vregs : MemOk v r.vregs
  pregs : MemOk v r.pregs
  carry : MemOk v r.carry
  acc : MemOk v r.acc
  lists : MemOk v r.lists
  topk : TopKOk v r.topk

def CutOk (v : Invariant) (k : Cut) : Prop := ∀ r ∈ k.recs, SavedCoreOk v r

structure JobOk (v : Invariant) (j : Job) : Prop where
  program : MemOk v j.program
  writable : MemOk v j.writable
  lastCut : ∀ k ∈ j.lastCut, CutOk v k
  prevCut : ∀ k ∈ j.prevCut, CutOk v k

def SectorOk (v : Invariant) (x : Sector) : Prop := MemOk v x.data

def EntryOk (v : Invariant) (e : LogEntry) : Prop := ∀ x ∈ e.data, SectorOk v x

def BlockOk (v : Invariant) (b : LogBlock) : Prop := ∀ e ∈ b.entries, EntryOk v e

def MergeOk (v : Invariant) (m : Merge) : Prop := ∀ b ∈ m.frozen, BlockOk v b

structure LBlockOk (v : Invariant) (l : LBlock) : Prop where
  chain : ∀ b ∈ l.chain, BlockOk v b
  merge : ∀ m ∈ l.merge, MergeOk v m
  content : ∀ x ∈ l.content, SectorOk v x.2

def StagedOk (v : Invariant) (e : Staged) : Prop := ∀ x ∈ e.data, SectorOk v x

def CmdOk (v : Invariant) (c : Cmd) : Prop := ∀ x ∈ c.undo, SectorOk v x.2.2

def CopyOk (v : Invariant) (c : Copy) : Prop := MemOk v c.mem

def InboxOk (v : Invariant) (b : Inbox) : Prop := MemOk v b.mem

structure LinkOk (v : Invariant) (l : Transport) : Prop where
  aperture : MemOk v l.aperture
  dbErr : MemOk v l.dbErr
  shadow : MemOk v l.shadow
  cmds : ∀ c ∈ l.cmds, CmdOk v c

structure HostOk (v : Invariant) (x : HostSide) : Prop where
  mem : MemOk v x.mem
  msix : MemOk v x.msix

structure CoresOk (v : Invariant) (cs : List Core) : Prop where
  each : ∀ c ∈ cs, CoreOk v c
  length : v = .shape → cs.length = 32

structure MediaOk (v : Invariant) (m : Media) : Prop where
  lblocks : ∀ l ∈ m.lblocks, LBlockOk v l
  once : v = .memory → (m.lblocks.map (fun l => l.num)).Nodup
  staging : ∀ e ∈ m.staging, StagedOk v e

structure SpoolOk (v : Invariant) (p : Spool) : Prop where
  routes : MemOk v p.routes
  inboxes : ∀ b ∈ p.inboxes, InboxOk v b
  ports : v = .shape → p.ports.length = 8
  exports : v = .shape → p.exports.length = 64
  inboxCount : v = .shape → p.inboxes.length = 64

structure DailiesOk (v : Invariant) (d : Dailies) : Prop where
  sample : MemOk v d.sample
  slots : MemOk v d.slots
  totals : MemOk v d.totals
  overhead : MemOk v d.overhead

/-- A state meets an invariant when its parts do. -/
structure Ok (v : Invariant) (s : State) : Prop where
  host : HostOk v s.host
  link : LinkOk v s.link
  cores : CoresOk v s.cores
  jobs : ∀ j ∈ s.jobs, JobOk v j
  copies : ∀ c ∈ s.copies, CopyOk v c
  arbs : v = .shape → s.arbs.length = 66
  media : MediaOk v s.media
  spool : SpoolOk v s.spool
  dailies : DailiesOk v s.dailies
  energy : MemOk v s.hw.energy

/-! ### The invariants of the statements -/

theorem topKOk_memory {t : TopK} :
    TopKOk .memory t ↔ Sparse.wf t.stripes = true ∧ Sparse.wf t.counts = true ∧ listsWf t = true :=
  ⟨fun h => ⟨h.stripes rfl, h.counts rfl, h.lists rfl⟩, fun ⟨h1, h2, h3⟩ => ⟨fun _ => h1, fun _ => h2, fun _ => h3⟩⟩

theorem runOk_memory {r : Run} : RunOk .memory r ↔ Sparse.wf r.vregs = true ∧ Sparse.wf r.pregs = true :=
  ⟨fun h => ⟨h.vregs rfl, h.pregs rfl⟩, fun ⟨h1, h2⟩ => ⟨fun _ => h1, fun _ => h2⟩⟩

theorem memOk_memory {w : Nat} {m : Sparse w} : MemOk .memory m ↔ Sparse.wf m = true := by simp [MemOk]

theorem coreOk_memory {c : Core} : CoreOk .memory c ↔ coreMemoryWf c = true := by
  have parts : CoreOk .memory c ↔ MemOk .memory c.sregs ∧ MemOk .memory c.aregs ∧ MemOk .memory c.vregs ∧
      MemOk .memory c.pregs ∧ MemOk .memory c.acc ∧ MemOk .memory c.os ∧ MemOk .memory c.lwb ∧ MemOk .memory c.cb ∧
      MemOk .memory c.cbCtl ∧ MemOk .memory c.scale ∧ TopKOk .memory c.topk ∧ MemOk .memory c.spill ∧
      ∀ r ∈ c.run, RunOk .memory r :=
    ⟨fun ⟨a, b, c, d, e, f, g, h, i, j, k, l, m⟩ => ⟨a, b, c, d, e, f, g, h, i, j, k, l, m⟩,
      fun ⟨a, b, c, d, e, f, g, h, i, j, k, l, m⟩ => ⟨a, b, c, d, e, f, g, h, i, j, k, l, m⟩⟩
  rw [parts]
  simp only [memOk_memory, topKOk_memory, runOk_memory, coreMemoryWf, coreWf, Bool.and_eq_true, Option.all_eq_true,
    and_assoc, Option.mem_def]

theorem savedCoreOk_memory {r : SavedCore} :
    SavedCoreOk .memory r ↔ Sparse.wf r.sregs = true ∧ Sparse.wf r.aregs = true ∧
    Sparse.wf r.vregs = true ∧ Sparse.wf r.pregs = true ∧ Sparse.wf r.carry = true ∧ Sparse.wf r.acc = true ∧
    Sparse.wf r.lists = true ∧ Sparse.wf r.topk.stripes = true ∧ Sparse.wf r.topk.counts = true ∧
    listsWf r.topk = true := by
  rw [← topKOk_memory]
  simp only [← memOk_memory]
  exact ⟨fun ⟨a, b, c, d, e, f, g, h⟩ => ⟨a, b, c, d, e, f, g, h⟩, fun ⟨a, b, c, d, e, f, g, h⟩ =>
      ⟨a, b, c, d, e, f, g, h⟩⟩

theorem cutOk_memory {k : Cut} : CutOk .memory k ↔ cutWf k = true := by
  simp only [CutOk, cutWf, savedCoreOk_memory, List.all_eq_true, Bool.and_eq_true, and_assoc]

theorem jobOk_memory {j : Job} : JobOk .memory j ↔ Sparse.wf j.program = true ∧ Sparse.wf j.writable = true ∧
    j.lastCut.all cutWf = true ∧ j.prevCut.all cutWf = true := by
  simp only [Option.all_eq_true, ← cutOk_memory, ← memOk_memory]
  exact ⟨fun ⟨a, b, c, d⟩ => ⟨a, b, c, d⟩, fun ⟨a, b, c, d⟩ => ⟨a, b, c, d⟩⟩

theorem chainOk_memory {c : List LogBlock} : (∀ b ∈ c, BlockOk .memory b) ↔ chainWf c = true := by
  simp only [BlockOk, EntryOk, SectorOk, chainWf, contentWf, memOk_memory, List.all_eq_true, Option.all_eq_true,
    Option.mem_def]

theorem lblockOk_memory {l : LBlock} : LBlockOk .memory l ↔ lblockWf l = true := by
  simp only [lblockWf, Bool.and_eq_true, Option.all_eq_true, List.all_eq_true (l := LBlock.content _), ← chainOk_memory,
    ← memOk_memory, and_assoc]
  exact ⟨fun ⟨a, b, c⟩ => ⟨a, b, c⟩, fun ⟨a, b, c⟩ => ⟨a, b, c⟩⟩

theorem ok_memory {s : State} : Ok .memory s ↔ memoryWf s = true := by
  have each : memoryWf s = true ↔ (s.media.lblocks.map (fun l => l.num)).Nodup ∧ MemOk .memory s.link.aperture ∧
      MemOk .memory s.link.dbErr ∧ MemOk .memory s.link.shadow ∧ (∀ c ∈ s.link.cmds, CmdOk .memory c) ∧
      MemOk .memory s.host.mem ∧ MemOk .memory s.host.msix ∧ (∀ c ∈ s.cores, CoreOk .memory c) ∧
      (∀ j ∈ s.jobs, JobOk .memory j) ∧ (∀ c ∈ s.copies, CopyOk .memory c) ∧
      (∀ l ∈ s.media.lblocks, LBlockOk .memory l) ∧ (∀ e ∈ s.media.staging, StagedOk .memory e) ∧
      MemOk .memory s.spool.routes ∧ (∀ b ∈ s.spool.inboxes, InboxOk .memory b) ∧ MemOk .memory s.dailies.sample ∧
      MemOk .memory s.dailies.slots ∧ MemOk .memory s.dailies.totals ∧ MemOk .memory s.dailies.overhead ∧
      MemOk .memory s.hw.energy := by
    simp only [memoryWf, lblocksWf, contentWf, CmdOk, StagedOk, SectorOk, CopyOk, InboxOk, memOk_memory,
        coreOk_memory, jobOk_memory,
      lblockOk_memory, Bool.and_eq_true, List.all_eq_true, Option.all_eq_true, Option.mem_def, decide_eq_true_eq,
      and_assoc]
  rw [each]
  constructor
  · rintro ⟨⟨hm, hx⟩, ⟨la, ld, ls, lc⟩, ⟨hc, -⟩, hj, hcp, -, ⟨ml, mo, ms⟩, ⟨sr, si, -, -, -⟩, ⟨d1, d2, d3, d4⟩, he⟩
    exact ⟨mo rfl, la, ld, ls, lc, hm, hx, hc, hj, hcp, ml, ms, sr, si, d1, d2, d3, d4, he⟩
  · rintro ⟨mo, la, ld, ls, lc, hm, hx, hc, hj, hcp, ml, ms, sr, si, d1, d2, d3, d4, he⟩
    exact ⟨⟨hm, hx⟩, ⟨la, ld, ls, lc⟩, ⟨hc, nofun⟩, hj, hcp, nofun, ⟨ml, fun _ => mo, ms⟩,
        ⟨sr, si, nofun, nofun, nofun⟩,
      ⟨d1, d2, d3, d4⟩, he⟩

theorem coreOk_shape (c : Core) : CoreOk .shape c :=
  ⟨nofun, nofun, nofun, nofun, nofun, nofun, nofun, nofun, nofun, nofun, ⟨nofun, nofun, nofun⟩, nofun, fun _ _ =>
      ⟨nofun, nofun⟩⟩

theorem cutOk_shape (k : Cut) : CutOk .shape k := fun _ _ =>
  ⟨nofun, nofun, nofun, nofun, nofun, nofun, nofun, ⟨nofun, nofun, nofun⟩⟩

theorem ok_shape {s : State} : Ok .shape s ↔ shapeWf s = true := by
  simp only [shapeWf, Bool.and_eq_true, decide_eq_true_eq, and_assoc]
  constructor
  · intro h
    exact ⟨h.cores.length rfl, h.arbs rfl, h.spool.ports rfl, h.spool.exports rfl, h.spool.inboxCount rfl⟩
  · rintro ⟨hc, ha, hp, he, hi⟩
    exact {
      host := ⟨nofun, nofun⟩
      link := ⟨nofun, nofun, nofun, fun _ _ _ _ => nofun⟩
      cores := ⟨fun c _ => coreOk_shape c, fun _ => hc⟩
      jobs := fun _ _ => ⟨nofun, nofun, fun k _ => cutOk_shape k, fun k _ => cutOk_shape k⟩
      copies := fun _ _ => nofun
      arbs := fun _ => ha
      media := ⟨fun _ _ => ⟨fun _ _ _ _ _ _ => nofun, fun _ _ _ _ _ _ _ _ => nofun, fun _ _ => nofun⟩, nofun, fun
          _ _ _ _ => nofun⟩
      spool := ⟨nofun, fun _ _ => nofun, fun _ => hp, fun _ => he, fun _ => hi⟩
      dailies := ⟨nofun, nofun, nofun, nofun⟩
      energy := nofun }

/-- Whatever state a command answers meets the invariant. -/
def OkR (v : Invariant) (r : Result) : Prop := ∀ t, r = .next t → Ok v t

theorem okR_next {s : State} (h : Ok v s) : OkR v (.next s) := fun _ e => Host.Outcome.next.inj e ▸ h

theorem okR_fault {r : Fault} : OkR v (.fault r) := by
  intro t e
  exact nomatch (congrArg (fun (o : Result) => match o with | .next _ => true | _ => false) e : false = true)

theorem okR_ite {c : Prop} [Decidable c] {r r' : Result} (h : OkR v r) (h' : OkR v r') :
    OkR v (if c then r else r') := by
  split
  · exact h
  · exact h'

/-- A stage of a run meets the invariant when the state and the run that it leaves do. -/
def RunStepOk (v : Invariant) (x : RunStep) : Prop :=
  match x with
  | .ran s r => Ok v s ∧ RunOk v r
  | .waits => True
  | .ended s => Ok v s

theorem runStepOk_ran {s : State} {r : Run} (h : Ok v s) (hr : RunOk v r) : RunStepOk v (.ran s r) := ⟨h, hr⟩

theorem runStepOk_waits : RunStepOk v .waits := trivial

theorem runStepOk_ended {s : State} (h : Ok v s) : RunStepOk v (.ended s) := h

theorem ok_of_ran {x : RunStep} {s : State} {r : Run} (h : RunStepOk v x) (e : x = .ran s r) : Ok v s := by
  subst e
  exact h.1

theorem runOk_of_ran {x : RunStep} {s : State} {r : Run} (h : RunStepOk v x) (e : x = .ran s r) : RunOk v r := by
  subst e
  exact h.2

theorem ok_of_ended {x : RunStep} {s : State} (h : RunStepOk v x) (e : x = .ended s) : Ok v s := by
  subst e
  exact h

theorem runStepOk_ite {c : Prop} [Decidable c] {x y : RunStep} (h : RunStepOk v x) (h' : RunStepOk v y) :
    RunStepOk v (if c then x else y) := by
  split
  · exact h
  · exact h'

/-- A walk meets the invariant when its state does. -/
def WalkOk (v : Invariant) (w : Walk) : Prop := Ok v w.st

/-- As `WalkOk`, of the core and the image of a VENC. -/
structure VencOk (v : Invariant) (x : VencStep) : Prop where
  core : CoreOk v x.core
  image : MemOk v x.image

/-! ### Lists and options of parts -/

section
variable {α β : Type} {P : α → Prop} {Q : β → Prop}

theorem each_map {l : List α} {f : α → β} (h : ∀ x ∈ l, P x) (hf : ∀ x, P x → Q (f x)) : ∀ y ∈ l.map f, Q y := by
  simpa using fun x hx => hf x (h x hx)

theorem each_filter {l : List α} {p : α → Bool} (h : ∀ x ∈ l, P x) : ∀ y ∈ l.filter p, P y :=
  fun y hy => h y (List.mem_of_mem_filter hy)

theorem each_append {l m : List α} (h : ∀ x ∈ l, P x) (h' : ∀ x ∈ m, P x) : ∀ y ∈ l ++ m, P y :=
  fun y hy => (List.mem_append.mp hy).elim (h y) (h' y)

theorem each_cons {a : α} {l : List α} (ha : P a) (h : ∀ x ∈ l, P x) : ∀ y ∈ a :: l, P y :=
  List.forall_mem_cons.mpr ⟨ha, h⟩

theorem each_nil : ∀ y ∈ ([] : List α), P y := by simp

theorem each_set {l : List α} {i : Nat} {a : α} (h : ∀ x ∈ l, P x) (ha : P a) : ∀ y ∈ l.set i a, P y := fun y hy =>
  (List.mem_or_eq_of_mem_set hy).elim (h y) (fun e => e ▸ ha)

theorem each_getD {l : List α} {i : Nat} {d : α} (h : ∀ x ∈ l, P x) (hd : P d) : P (l.getD i d) := by
  rw [List.getD_eq_getElem?_getD]
  cases e : l[i]? with
  | none => exact hd
  | some a => exact h a (List.mem_of_getElem? e)

theorem of_fst {p : α × β} {a : α} {b : β} (h : P p.1) (e : p = (a, b)) : P a := by rwa [e] at h

theorem of_snd {p : α × β} {a : α} {b : β} (h : Q p.2) (e : p = (a, b)) : Q b := by rwa [e] at h

theorem each_take {l : List α} {n : Nat} (h : ∀ x ∈ l, P x) :
    ∀ y ∈ l.take n, P y := fun y hy => h y (List.mem_of_mem_take hy)

theorem each_drop {l : List α} {n : Nat} (h : ∀ x ∈ l, P x) :
    ∀ y ∈ l.drop n, P y := fun y hy => h y (List.mem_of_mem_drop hy)

theorem each_dropLast {l : List α} (h : ∀ x ∈ l, P x) :
    ∀ y ∈ l.dropLast, P y := fun y hy => h y (List.mem_of_mem_dropLast hy)

theorem each_replicate {n : Nat} {a : α} (h : P a) :
    ∀ y ∈ List.replicate n a, P y := fun _ hy => List.eq_of_mem_replicate hy ▸ h

theorem each_ite {c : Prop} [Decidable c] {l m : List α} (h : ∀ x ∈ l, P x) (h' : ∀ x ∈ m, P x) :
    ∀ y ∈ (if c then l else m), P y := by
  split
  · exact h
  · exact h'

theorem opt_find? {l : List α} {p : α → Bool} (h : ∀ x ∈ l, P x) : ∀ y ∈ l.find? p, P y :=
  fun y e => h y (List.mem_of_find?_eq_some e)

theorem opt_getLast? {l : List α} (h : ∀ x ∈ l, P x) : ∀ y ∈ l.getLast?, P y := fun y e => h y (List.mem_of_getLast? e)

theorem opt_getElem? {l : List α} {i : Nat} (h : ∀ x ∈ l, P x) :
    ∀ y ∈ l[i]?, P y := fun y e => h y (List.mem_of_getElem? e)

theorem opt_ite {c : Prop} [Decidable c] {o p : Option α} (h : ∀ x ∈ o, P x) (h' : ∀ x ∈ p, P x) :
    ∀ y ∈ (if c then o else p), P y := by
  split
  · exact h
  · exact h'

theorem opt_bind {o : Option α} {f : α → Option β} (h : ∀ a, ∀ y ∈ f a, Q y) : ∀ y ∈ o.bind f, Q y := by
  intro y e
  obtain ⟨a, _, ha⟩ := Option.bind_eq_some_iff.mp e
  exact h a y ha

theorem opt_some {a : α} (ha : P a) : ∀ y ∈ some a, P y := by simpa

theorem opt_none : ∀ y ∈ (none : Option α), P y := by simp

theorem opt_map {o : Option α} {f : α → β} (h : ∀ x ∈ o, P x) (hf : ∀ x, P x → Q (f x)) : ∀ y ∈ o.map f, Q y := by
  simpa using fun x hx => hf x (h x hx)

end

theorem memOk_nil {w : Nat} : MemOk v ([] : Sparse w) := fun _ => rfl

theorem topkOk_reset : TopKOk v {} := ⟨memOk_nil, memOk_nil, fun _ => rfl⟩

theorem coreOk_reset : CoreOk v {} :=
  ⟨memOk_nil, memOk_nil, memOk_nil, memOk_nil, memOk_nil, memOk_nil, memOk_nil, memOk_nil, memOk_nil, memOk_nil,
    topkOk_reset, memOk_nil, opt_none⟩

/-- What a fold does step by step it does as a whole. -/
theorem ok_foldl {α : Type} {f : State → α → State} {l : List α} {s : State} (hf : ∀ t a, Ok v t → Ok v (f t a))
    (h : Ok v s) : Ok v (l.foldl f s) :=
  List.foldlRecOn l f h (fun t ht a _ => hf t a ht)

theorem ok_ite {c : Prop} [Decidable c] {s t : State} (h : Ok v s) (h' : Ok v t) : Ok v (if c then s else t) := by
  split
  · exact h
  · exact h'

theorem coreOk_foldl {α : Type} {f : Core → α → Core} {l : List α} {c : Core}
    (hf : ∀ c a, CoreOk v c → CoreOk v (f c a))
    (h : CoreOk v c) : CoreOk v (l.foldl f c) :=
  List.foldlRecOn l f h (fun t ht a _ => hf t a ht)

theorem copyOk_foldl {α : Type} {f : Copy → α → Copy} {l : List α} {c : Copy}
    (hf : ∀ c a, CopyOk v c → CopyOk v (f c a))
    (h : CopyOk v c) : CopyOk v (l.foldl f c) :=
  List.foldlRecOn l f h (fun t ht a _ => hf t a ht)

theorem ok_getD {o : Option State} {s : State} (ho : ∀ t ∈ o, Ok v t) (h : Ok v s) : Ok v (o.getD s) := by
  cases o with
  | none => exact h
  | some t => exact ho t rfl

theorem length_set {α : Type} {l : List α} {i n : Nat} {a : α} (h : v = .shape → l.length = n) :
    v = .shape → (l.set i a).length = n := fun e => List.length_set.trans (h e)

theorem length_map {α β : Type} {l : List α} {f : α → β} {n : Nat} (h : v = .shape → l.length = n) :
    v = .shape → (l.map f).length = n := fun e => List.length_map f |>.trans (h e)

theorem coresOk_replicate : CoresOk v (List.replicate 32 {}) :=
  ⟨each_replicate coreOk_reset, fun _ => List.length_replicate⟩

theorem vencOk_foldl {α : Type} {f : VencStep → α → VencStep} {l : List α} {x : VencStep}
    (hf : ∀ x a, VencOk v x → VencOk v (f x a)) (h : VencOk v x) : VencOk v (l.foldl f x) :=
  List.foldlRecOn l f h (fun t ht a _ => hf t a ht)

theorem walkOk_foldl {α : Type} {f : Walk → α → Walk} {l : List α} {x : Walk}
    (hf : ∀ x a, WalkOk v x → WalkOk v (f x a)) (h : WalkOk v x) : WalkOk v (l.foldl f x) :=
  List.foldlRecOn l f h (fun t ht a _ => hf t a ht)

theorem lblockOk_foldl {α : Type} {f : LBlock → α → LBlock} {l : List α} {b : LBlock}
    (hf : ∀ b a, LBlockOk v b → LBlockOk v (f b a)) (h : LBlockOk v b) : LBlockOk v (l.foldl f b) :=
  List.foldlRecOn l f h (fun t ht a _ => hf t a ht)

/-! ### Sparse stores -/

section
variable {w : Nat} {m m' : Sparse w}

theorem memOk_ite {c : Prop} [Decidable c] (h : MemOk v m) (h' : MemOk v m') : MemOk v (if c then m else m') := by
  split
  · exact h
  · exact h'

theorem memOk_set {k : Nat} {x : BitVec w} (h : MemOk v m) :
    MemOk v (Sparse.set m k x) := fun e => Sparse.wf_set (h e) k x

theorem memOk_splice {b : Nat} {xs : List (BitVec w)} (h : MemOk v m) : MemOk v (Sparse.splice m b xs) :=
  fun e => Sparse.wf_splice (h e) b xs

theorem memOk_clear {b n : Nat} (h : MemOk v m) : MemOk v (Sparse.clear m b n) := fun e => Sparse.wf_clear (h e) b n

theorem memOk_ofList {b : Nat} {xs : List (BitVec w)} : MemOk v (Sparse.ofList b xs) := fun _ => Sparse.wf_ofList b xs

theorem memOk_extract {b n : Nat} (h : MemOk v m) :
    MemOk v (Sparse.extract m b n) := fun e => Sparse.wf_extract (h e) b n

theorem memOk_filter {p : Nat × BitVec w → Bool} (h : MemOk v m) :
    MemOk v (m.filter p) := fun e => Sparse.wf_filter (h e) p

theorem memOk_foldl {α : Type} {f : Sparse w → α → Sparse w} {l : List α} (hf : ∀ m a, MemOk v m → MemOk v (f m a))
    (h : MemOk v m) : MemOk v (l.foldl f m) :=
  List.foldlRecOn l f h (fun t ht a _ => hf t a ht)

end

section
variable {m : Mem}

theorem memOk_write {b : Nat} {bs : List Byte} (h : MemOk v m) :
    MemOk v (Mem.write m b bs) := fun e => Sparse.wf_write (h e) b bs

theorem memOk_xorWord {u : Nat} {x : BitVec 64} (h : MemOk v m) :
    MemOk v (Mem.xorWord m u x) := fun e => wf_xorWord (h e) u x

theorem memOk_delivered {e : List EccMark} (h : MemOk v m) : MemOk v (delivered m e) := fun hv => wf_delivered (h hv) e

theorem memOk_codedWrite {e : List EccMark} {a : Nat} {bs : List Byte} (h : MemOk v m) :
    MemOk v (codedWrite m e a bs).1 :=
  fun hv => wf_codedWrite (h hv) e a bs

theorem memOk_writeSlots {b d f : Nat} {xs : List (List Byte)} (h : MemOk v m) : MemOk v (writeSlots m b d f xs) :=
  fun hv => wf_writeSlots (h hv) b d f xs

end

/-- A fold over parts that meet the invariant, which each of its steps may use. -/
theorem ok_foldl_mem {α : Type} {P : α → Prop} {f : State → α → State} {l : List α} {s : State} (hl : ∀ a ∈ l, P a)
    (hf : ∀ t a, P a → Ok v t → Ok v (f t a)) (h : Ok v s) : Ok v (l.foldl f s) :=
  List.foldlRecOn l f h (fun t ht a ha => hf t a (hl a ha) ht)

/-! ### Access to parts -/

section
variable {s : State}

theorem coreOk_core {n : Nat} (h : Ok v s) : CoreOk v (s.core n) := each_getD h.cores.each coreOk_reset

theorem opt_job? {c : Nat} (h : Ok v s) : ∀ j ∈ s.job? c, JobOk v j := opt_find? h.jobs

theorem opt_jobByHandle? {c : Nat} (h : Ok v s) : ∀ j ∈ s.jobByHandle? c, JobOk v j := opt_find? h.jobs

theorem opt_copy? {c : Nat} (h : Ok v s) : ∀ x ∈ s.copy? c, CopyOk v x := opt_find? h.copies

theorem opt_cmd? {u : Nat} (h : Ok v s) : ∀ x ∈ s.cmd? u, CmdOk v x := opt_find? h.link.cmds

theorem opt_lblock? {n : Nat} (h : Ok v s) : ∀ l ∈ s.lblock? n, LBlockOk v l := opt_find? h.media.lblocks

theorem lblockOk_lblock {n : Nat} (h : Ok v s) : LBlockOk v (s.lblock n) := by
  unfold State.lblock
  cases e : s.lblock? n with
  | some l => exact opt_lblock? h l e
  | none => exact ⟨each_nil, opt_none, each_nil⟩

/-! ### Changes of one part -/

theorem ok_setCore {n : Nat} {c : Core} (h : Ok v s) (hc : CoreOk v c) : Ok v (s.setCore n c) :=
  { h with cores := ⟨each_set h.cores.each hc, fun e => List.length_set.trans (h.cores.length e)⟩ }

theorem ok_modCore {n : Nat} {f : Core → Core} (h : Ok v s) (hf : ∀ c, CoreOk v c → CoreOk v (f c)) :
    Ok v (s.modCore n f) :=
  ok_setCore h (hf _ (coreOk_core h))

theorem each_mod {α : Type} {P : α → Prop} {l : List α} {p : α → Bool} {f : α → α} (h : ∀ x ∈ l, P x)
    (hf : ∀ x, P x → P (f x)) : ∀ y ∈ l.map (fun x => if p x then f x else x), P y :=
  each_map h (fun x hx => by split; exacts [hf x hx, hx])

theorem ok_modJob {n : Nat} {f : Job → Job} (h : Ok v s) (hf : ∀ j, JobOk v j → JobOk v (f j)) : Ok v (s.modJob n f) :=
  { h with jobs := each_mod h.jobs hf }

theorem ok_modCopy {n : Nat} {f : Copy → Copy} (h : Ok v s) (hf : ∀ x, CopyOk v x → CopyOk v (f x)) :
    Ok v (s.modCopy n f) :=
  { h with copies := each_mod h.copies hf }

theorem ok_modCmd {u : Nat} {f : Cmd → Cmd} (h : Ok v s) (hf : ∀ x, CmdOk v x → CmdOk v (f x)) : Ok v (s.modCmd u f) :=
  { h with link := { h.link with cmds := each_mod h.link.cmds hf } }

theorem ok_modArb {i : Nat} {f : Arb → Arb} (h : Ok v s) : Ok v (s.modArb i f) :=
  { h with arbs := fun e => List.length_set.trans (h.arbs e) }

theorem ok_modPort {i : Nat} {f : Port → Port} (h : Ok v s) : Ok v (s.modPort i f) :=
  { h with spool := { h.spool with ports := fun e => List.length_set.trans (h.spool.ports e) } }

theorem ok_setLb {l : LBlock} (h : Ok v s) (hl : LBlockOk v l) : Ok v (s.setLb l) := by
  unfold State.setLb
  dsimp only
  split
  · refine { h with media := { h.media with lblocks := each_mod h.media.lblocks fun _ _ => hl, once := fun e => ?_ } }
    have same : (s.media.lblocks.map (fun x => if x.num == l.num then l else x)).map (fun l => l.num) =
        s.media.lblocks.map (fun l => l.num) := by
      rw [List.map_map]
      refine List.map_congr_left fun x _ => ?_
      dsimp only [Function.comp]
      split
      · rename_i same
        exact (beq_iff_eq.mp same).symm
      · rfl
    exact same ▸ h.media.once e
  · rename_i absent
    refine { h with media := { h.media with
        lblocks := each_append h.media.lblocks (each_cons hl each_nil), once := fun e => ?_ } }
    have fresh : ∀ x ∈ s.media.lblocks, x.num ≠ l.num := by simpa [State.lblock?] using absent
    rw [List.map_append, List.nodup_append]
    exact ⟨h.media.once e, by simp, by simpa using fresh⟩

/-- Listing fewer logical blocks keeps the invariant. -/
theorem ok_filterLblocks {p : LBlock → Bool} (h : Ok v s) :
    Ok v { s with media := { s.media with lblocks := s.media.lblocks.filter p } } :=
  { h with media := { h.media with
    lblocks := each_filter h.media.lblocks, once := fun e => (h.media.once e).sublist (List.filter_sublist.map _) } }

/-- Logical blocks that keep their numbers stay listed once. -/
theorem once_map {ls : List LBlock} {f : LBlock → LBlock} (h : v = .memory → (ls.map (fun l => l.num)).Nodup)
    (hf : ∀ l, (f l).num = l.num) : v = .memory → ((ls.map f).map (fun l => l.num)).Nodup := by
  have same : (ls.map f).map (fun l => l.num) = ls.map (fun l => l.num) := by simp [hf]
  rwa [same]

theorem ok_count {b e n : Nat} (h : Ok v s) : Ok v (s.count b e n) :=
  { h with dailies := { h.dailies with
      slots := memOk_foldl (fun _ _ hm => memOk_ite (memOk_set hm) hm) h.dailies.slots } }

end

/-! ### Writes, errors and completions -/

theorem ok_fresh {s : State} (h : Ok v s) : Ok v (s.fresh).2 :=
  { h with }

theorem ok_later {s : State} (h : Ok v s) : Ok v s.later :=
  { h with }

theorem ok_setQueue {s : State} {x : Queue} (h : Ok v s) : Ok v (s.setQueue x) :=
  { h with link := { h.link with } }

theorem ok_modQueue {s : State} {q : Nat} {f : Queue → Queue} (h : Ok v s) : Ok v (s.modQueue q f) := by
  unfold State.modQueue
  split
  · exact ok_setQueue h
  · exact h

theorem ok_dropCmd {s : State} {u : Nat} (h : Ok v s) : Ok v (s.dropCmd u) :=
  { h with link := { h.link with cmds := each_filter h.link.cmds } }

theorem ok_modPod {s : State} {p : Nat} {f : Pod → Pod} (h : Ok v s) : Ok v (s.modPod p f) :=
  { h with }

theorem ok_modObj {s : State} {handle : Nat} {f : Obj → Obj} (h : Ok v s) : Ok v (s.modObj handle f) :=
  { h with }

theorem ok_modPage {s : State} {c p : Nat} {f : Page → Page} (h : Ok v s) : Ok v (s.modPage c p f) := by
  unfold State.modPage
  split
  · exact { h with }
  · exact { h with }

theorem ok_regEvent {s : State} {n : Nat} (h : Ok v s) : Ok v (s.regEvent n) :=
  { h with link := { h.link with } }

theorem ok_integEvent {s : State} {n : Nat} (h : Ok v s) : Ok v (s.integEvent n) :=
  { h with }

theorem ok_mediaEvent {s : State} {n : Nat} (h : Ok v s) : Ok v (s.mediaEvent n) :=
  { h with media := { h.media with } }

theorem ok_spoolEvent {s : State} {n : Nat} (h : Ok v s) : Ok v (s.spoolEvent n) :=
  { h with spool := { h.spool with } }

theorem ok_hwEvent {s : State} {n : Nat} (h : Ok v s) : Ok v (s.hwEvent n) :=
  { h with }

theorem ok_raise {s : State} {val : Nat} (h : Ok v s) : Ok v (s.raise val) :=
  { h with host := { h.host with } }

theorem ok_foldSlot {s : State} {i : Nat} (h : Ok v s) : Ok v (s.foldSlot i) :=
  { h with dailies := { h.dailies with slots := memOk_set h.dailies.slots, totals := memOk_set h.dailies.totals } }

theorem ok_foldBlock {s : State} {b : Nat} (h : Ok v s) : Ok v (s.foldBlock b) :=
  ok_foldl (fun _ _ hs => ok_foldSlot hs) h

theorem ok_setFlip {s : State} {i : Nat} {f : Flip} (h : Ok v s) : Ok v (s.setFlip i f) :=
  { h with }

theorem ok_t1Write {s : State} {port req w : Nat} (h : Ok v s) : Ok v (s.t1Write port req w) := by
  unfold State.t1Write
  dsimp only
  split
  · have ht : Ok v (s.setFlip port { s.flip port with armed := false }) := ok_setFlip h
    exact { ht with }
  · exact ok_ite h { h with }

theorem ok_t1Forget {s : State} {owner : Nat} (h : Ok v s) : Ok v (s.t1Forget owner) :=
  ok_ite h { h with }

theorem ok_t1Renew {s : State} {owner off n : Nat} (h : Ok v s) : Ok v (s.t1Renew owner off n) :=
  ok_ite h { h with }

theorem ok_t1Range {s : State} {req owner off n : Nat} (h : Ok v s) : Ok v (s.t1Range req owner off n) :=
  ok_ite h (ok_foldl (fun _ _ hs => ok_t1Write hs) h)

theorem memOk_t1Merge {s : State} {m : Mem} {owner off : Nat} {bs : List Byte} (hmem : MemOk v m) :
    MemOk v (s.t1Merge m owner off bs) := by
  refine memOk_write ?_
  refine memOk_foldl ?_ hmem
  intro t a ht
  split
  · exact memOk_xorWord ht
  · exact ht
  · exact ht

theorem ok_t1Encode {s : State} {req owner off n : Nat} (h : Ok v s) : Ok v (s.t1Encode req owner off n) :=
  { (ok_t1Range h) with }

theorem ok_recordRow {s : State} {u : ScrubUnit} (h : Ok v s) : Ok v (s.recordRow u) :=
  ok_ite (ok_integEvent h) (ok_integEvent { h with })

theorem ok_rowError {s : State} {u : ScrubUnit} (h : Ok v s) : Ok v (s.rowError u) :=
  ok_ite (ok_recordRow { (ok_ite h (ok_fresh h)) with }) { (ok_ite h (ok_fresh h)) with }

theorem ok_noteError {s : State} {u : ScrubUnit} {k : EccMark} {d : Delivery} (h : Ok v s) :
    Ok v (s.noteError u k d) := by
  unfold State.noteError
  split
  · exact ok_recordRow h
  · exact ok_ite h (ok_rowError h)
  · exact ok_ite (ok_rowError h) h

theorem ok_noteT1 {s : State} {owner off n : Nat} (h : Ok v s) : Ok v (s.noteT1 owner off n) :=
  ok_foldl (fun _ _ hs => ok_noteError hs) h

theorem ok_writeCpl {s : State} {qid : Nat} {c : Cpl} (h : Ok v s) : Ok v (s.writeCpl qid c) := by
  unfold State.writeCpl
  split
  · exact h
  · extract_lets seq newSeq data slots m m' wraps q' _ t u w x
    have ht : Ok v t := { h with host := { h.host with mem := memOk_writeSlots (memOk_writeSlots h.host.mem) } }
    have hw : Ok v w := ok_count (ok_modCmd (ok_setQueue ht) fun _ hm => hm)
    have hx : Ok v x := ok_ite hw (ok_raise hw)
    exact ok_ite (ok_setQueue h) (ok_ite hx (ok_dropCmd hx))

theorem ok_emit {s : State} {u : Nat} {last : Bool} {val : Verdict} (h : Ok v s) : Ok v (s.emit u last val) := by
  unfold State.emit
  split
  · exact h
  · split
    · exact h
    · exact ok_foldl (fun _ _ hs => ok_writeCpl hs) (ok_modCmd h (fun _ hm => hm))

theorem ok_settleReset {s : State} {qid : Nat} (h : Ok v s) : Ok v (s.settleReset qid) := by
  unfold State.settleReset
  split
  · exact h
  · split
    · exact h
    · exact ok_ite (ok_modCmd (ok_ite { h with link := { h.link with } } (ok_setQueue h)) (fun _ hm => hm)) h

theorem ok_settleAbort {s : State} (h : Ok v s) : Ok v s.settleAbort := by
  refine { h with link := ?_ }
  refine { h.link with cmds := ?_ }
  refine each_map h.link.cmds ?_
  intro x hx
  split
  · exact hx
  · exact hx

theorem ok_settleAdmin {fuel : Nat} {s : State} (h : Ok v s) : Ok v (s.settleAdmin fuel) := by
  induction fuel generalizing s with
  | zero =>
    unfold State.settleAdmin
    exact h
  | succ n ih =>
    unfold State.settleAdmin
    split
    · split
      · exact ih (ok_emit h)
      · exact h
    · exact h

theorem ok_settleDown {s : State} (h : Ok v s) : Ok v s.settleDown :=
  ok_ite { h with link := { h.link with } } h

theorem ok_settle {s : State} (h : Ok v s) : Ok v s.settle :=
  ok_settleDown (ok_settleAdmin (ok_settleAbort (ok_foldl (fun _ _ hs => ok_settleReset hs) h)))

theorem ok_countReset {s : State} {q : Nat} (h : Ok v s) : Ok v (s.countReset q) :=
  ok_modQueue h

theorem ok_complete {s : State} {u : Nat} {val : Verdict} (h : Ok v s) : Ok v (s.complete u val) := by
  unfold State.complete
  split
  · exact h
  · exact ok_ite h (ok_settle (ok_ite (ok_ite (ok_countReset (ok_modCmd h (fun _ hm => hm)))
      (ok_modCmd h (fun _ hm => hm))) (ok_emit (ok_ite (ok_countReset (ok_modCmd h (fun _ hm => hm)))
      (ok_modCmd h (fun _ hm => hm))))))

theorem ok_release {fuel : Nat} {s : State} {qid : Nat} (h : Ok v s) : Ok v (s.release fuel qid) := by
  induction fuel generalizing s qid with
  | zero =>
    unfold State.release
    exact h
  | succ n ih =>
    unfold State.release
    split
    · exact h
    · split
      · exact h
      · exact ok_ite h (ih (ok_modQueue (ok_writeCpl (ok_setQueue h))))

theorem okR_onCmd {s : State} {u opcode : Nat} {f : Cmd → State} (h : Ok v s) (hf : ∀ x, CmdOk v x → Ok v (f x)) :
    OkR v (s.onCmd u opcode f) := by
  unfold State.onCmd
  split
  · rename_i found
    exact okR_ite (okR_next (ok_settle (hf _ ((opt_cmd? h) _ found)))) (okR_next h)
  · exact okR_next h

theorem ok_ok {s : State} {c : Cmd} (h : Ok v s) : Ok v (s.ok c) :=
  ok_complete h

theorem ok_fail {s : State} {c : Cmd} {st : Status} {r0 r1 : Nat} (h : Ok v s) : Ok v (s.fail c st r0 r1) :=
  ok_complete h

theorem ok_refuse {s : State} {c : Cmd} {reason : Nat} (h : Ok v s) : Ok v (s.refuse c reason) :=
  ok_fail h

/-! ### Flash -/

theorem ok_setSb {s : State} {b : SBlock} (h : Ok v s) : Ok v (s.setSb b) :=
  { h with media := { h.media with } }

theorem ok_newSeq {s : State} (h : Ok v s) : Ok v (s.newSeq).2 :=
  { h with media := { h.media with } }

theorem ok_newJseq {s : State} (h : Ok v s) : Ok v (s.newJseq).2 :=
  { h with media := { h.media with } }

theorem ok_takeDuty {s : State} {loc : SbLoc} {d : SbDuty} (h : Ok v s) : Ok v (s.takeDuty loc d) := by
  unfold State.takeDuty
  split
  · exact h
  · split
    · exact h
    · exact ok_setSb (ok_setSb h)

theorem ok_openSb {s : State} {loc : SbLoc} {d : SbDuty} {role : SbRole} {lb : Nat} {jseq : Option Nat} (h : Ok v s)
    : Ok v (s.openSb loc d role lb jseq).2 :=
  ok_setSb { (ok_takeDuty h) with media := { ((ok_takeDuty h).media) with } }

theorem ok_allocate {s : State} {lb n : Nat} {short : Option Nat} (h : Ok v s) : Ok v (s.allocate lb n short) :=
  { h with media := { h.media with } }

theorem ok_deallocate {s : State} {owner : Nat} (h : Ok v s) : Ok v (s.deallocate owner) :=
  { h with media := { h.media with } }

theorem ok_notePage {s : State} {copy page : Nat} (h : Ok v s) : Ok v (s.notePage copy page) := by
  unfold State.notePage
  split
  · exact ok_setSb h
  · exact h

/-! ### The journal -/

theorem sectorOk_zeroSector : SectorOk v zeroSector :=
  memOk_nil

theorem sectorOk_over {e : LogEntry} {old : Sector} (he : EntryOk v e) : SectorOk v (e.over old) := by
  unfold LogEntry.over
  split
  · rename_i d hd
    exact he d hd
  · exact memOk_nil

theorem sectorOk_newest {es : List LogEntry} {sec : Nat} {old : Sector} (hes : ∀ x ∈ es, EntryOk v x)
    (hold : SectorOk v old) : SectorOk v (newest es sec old) :=
  List.foldlRecOn _ _ hold (fun _ _ e he => sectorOk_over (each_filter hes e he))

theorem sectorOk_lookupD {l : List (Nat × Sector)} {k : Nat} {d : Sector} (h : ∀ x ∈ l, SectorOk v x.2)
    (hd : SectorOk v d) : SectorOk v (lookupD l k d) := by
  induction l with
  | nil => exact hd
  | cons x t ih =>
    rw [lookupD]
    split
    · exact h x List.mem_cons_self
    · exact ih (fun y hy => h y (List.mem_cons_of_mem _ hy))

theorem each_entriesOf {es : List Staged} (h : ∀ e ∈ es, StagedOk v e) : ∀ e ∈ entriesOf es, EntryOk v e :=
  each_map h (fun _ hx => hx)

theorem each_chainEntries {c : List LogBlock} (h : ∀ b ∈ c, BlockOk v b) : ∀ e ∈ chainEntries c, EntryOk v e := by
  intro e he
  obtain ⟨es, hes, hin⟩ := List.mem_flatten.mp he
  obtain ⟨b, hb, rfl⟩ := List.mem_map.mp hes
  exact h b hb e hin

theorem each_frozen {l : LBlock} (hl : LBlockOk v l) : ∀ b ∈ l.frozen, BlockOk v b := by
  unfold LBlock.frozen
  split
  · rename_i m hm
    exact hl.merge m hm
  · exact each_nil

theorem sectorOk_onMedia {l : LBlock} {sec : Nat} (hl : LBlockOk v l) : SectorOk v (l.onMedia sec) :=
  sectorOk_newest (each_chainEntries (each_append (each_frozen hl) hl.chain))
    (sectorOk_lookupD hl.content sectorOk_zeroSector)

theorem sectorOk_sectorOf {s : State} {lb sec : Nat} (h : Ok v s) : SectorOk v (s.sectorOf lb sec) :=
  sectorOk_newest (each_entriesOf (each_filter h.media.staging)) (sectorOk_onMedia (lblockOk_lblock h))

theorem each_assocSet {α : Type} {P : α → Prop} {l : List (Nat × α)} {k : Nat} {x : α} (h : ∀ y ∈ l, P y.2)
    (hx : P x) :
    ∀ y ∈ assocSet l k x, P y.2 := by
  induction l with
  | nil => simpa [assocSet] using hx
  | cons a t ih =>
    have ht := ih (fun y hy => h y (List.mem_cons_of_mem _ hy))
    have ha := h a List.mem_cons_self
    rw [assocSet]
    split
    · exact each_cons ha ht
    · split
      · exact each_cons hx (fun y hy => h y (List.mem_cons_of_mem _ hy))
      · exact each_cons hx (each_cons ha (fun y hy => h y (List.mem_cons_of_mem _ hy)))

theorem each_foldContent {c : List (Nat × Sector)} {es : List LogEntry} (h : ∀ x ∈ c, SectorOk v x.2)
    (hes : ∀ e ∈ es, EntryOk v e) : ∀ x ∈ foldContent c es, SectorOk v x.2 := by
  refine List.foldlRecOn (motive := fun (c : List (Nat × Sector)) => ∀ x ∈ c, SectorOk v x.2) es _ h fun c hc e he =>
      ?_
  dsimp only
  split
  · exact each_filter hc
  · exact each_assocSet hc (sectorOk_over (hes e he))

theorem ok_queueRec {s : State} {r : JRec} (h : Ok v s) : Ok v (s.queueRec r) :=
  { h with media := { h.media with } }

theorem ok_jrec {s : State} {type lb new old : Nat} {newLocs : List SbLoc} {oldLoc : Option SbLoc} (h : Ok v s) :
    Ok v (s.jrec type lb new old newLocs oldLoc) :=
  ok_queueRec (ok_newJseq h)

theorem ok_mapWrite {s : State} {req : Nat} (h : Ok v s) : Ok v (s.mapWrite req) :=
  ok_ite (ok_setFlip h) h

theorem ok_release_ {s : State} {locs : List SbLoc} {jseq : Nat} (h : Ok v s) : Ok v (s.release_ locs jseq) :=
  ok_foldl (fun _ _ hs => ok_setSb hs) h

theorem ok_finishMerge {s : State} {l : LBlock} {m : Merge} (h : Ok v s) (hl : LBlockOk v l) (hm : MergeOk v m) :
    Ok v (s.finishMerge l m) := by
  unfold State.finishMerge
  exact ok_foldl (fun _ _ ht => ok_count (ok_count ht)) (ok_setLb
      (ok_foldl (fun _ _ ht => ok_setSb ht) (ok_release_ h))
    { hl with merge := opt_none, content := each_foldContent hl.content (each_chainEntries hm) })

theorem ok_takeEffect {s : State} {r : JRec} (h : Ok v s) : Ok v (s.takeEffect r) := by
  unfold State.takeEffect
  split
  · rename_i found
    split
    · rename_i found'
      exact ok_finishMerge h ((opt_find? h.media.lblocks) _ found)
          ((((opt_find? h.media.lblocks) _ found).merge) _ found')
    · exact h
  · exact h

theorem ok_program {s : State} {r : JRec} (h : Ok v s) : Ok v (s.program r) :=
  ok_takeEffect (ok_count { (ok_ite h (ok_mapWrite h)) with media := { ((ok_ite h (ok_mapWrite h)).media) with } })

theorem ok_programNext {fuel : Nat} {s : State} (h : Ok v s) : Ok v (s.programNext fuel) := by
  induction fuel generalizing s with
  | zero =>
    unfold State.programNext
    exact h
  | succ n ih =>
    unfold State.programNext
    split
    · exact ih (ok_program h)
    · exact h

theorem ok_sync {s : State} (h : Ok v s) : Ok v s.sync :=
  ok_programNext h

theorem ok_abandonMerge {s : State} {l : LBlock} (h : Ok v s) (hl : LBlockOk v l) : Ok v (s.abandonMerge l) := by
  unfold State.abandonMerge
  split
  · exact h
  · rename_i m hm
    have hfrozen : MergeOk v m := hl.merge m hm
    have ht : Ok v ((s.setLb { l with chain := m.frozen ++ l.chain, merge := none }).release_ m.locs m.jseq) :=
      ok_release_ (ok_setLb h { hl with chain := each_append hfrozen hl.chain, merge := opt_none })
    exact ok_queueRec { ht with media := { ht.media with } }

theorem ok_wearOn {s : State} (h : Ok v s) : Ok v s.wearOn :=
  ok_ite h (ok_raise (ok_ite (ok_mediaEvent (ok_ite (ok_mediaEvent { h with media := { h.media with } })
      { h with media := { h.media with } })) (ok_ite (ok_mediaEvent { h with media := { h.media with } })
      { h with media := { h.media with } })))

theorem ok_giveRole {s : State} {b : SBlock} (h : Ok v s) : Ok v (s.giveRole b) := by
  unfold State.giveRole
  split
  · exact h
  · exact ok_setSb h

theorem ok_retireSb {s : State} {loc : SbLoc} (h : Ok v s) : Ok v (s.retireSb loc) :=
  ok_wearOn { (ok_ite (ok_giveRole (ok_setSb (ok_jrec h))) (ok_setSb (ok_jrec h))) with
      media := { ((ok_ite (ok_giveRole (ok_setSb (ok_jrec h))) (ok_setSb (ok_jrec h))).media) with } }

theorem ok_eraseSb {s : State} {loc : SbLoc} (h : Ok v s) : Ok v (s.eraseSb loc) := by
  unfold State.eraseSb
  extract_lets old b t _ u
  have ht : Ok v t := ok_count (ok_setSb h)
  have hu : Ok v u := { ht with media := { ht.media with } }
  exact ok_ite (ok_retireSb hu) (ok_ite (ok_setSb (ok_giveRole hu)) hu)

theorem ok_openLog {s : State} {lb : Nat} {loc : SbLoc} (h : Ok v s) : Ok v (s.openLog lb loc) :=
  ok_jrec (ok_setLb (ok_openSb h) { (lblockOk_lblock (ok_openSb h)) with
      chain := each_append ((lblockOk_lblock (ok_openSb h)).chain) (each_cons each_nil each_nil) })

theorem ok_appendLog {s : State} {lb : Nat} {es : List LogEntry} (h : Ok v s) (hes : ∀ x ∈ es, EntryOk v x) :
    Ok v (s.appendLog lb es) := by
  have hl : LBlockOk v (s.lblock lb) := lblockOk_lblock h
  unfold State.appendLog
  dsimp only
  split
  · exact h
  · rename_i b hb
    have hold : BlockOk v b := opt_getLast? hl.chain b hb
    have hnew : BlockOk v { b with entries := b.entries ++ es.take (logEntries - b.entries.length) } :=
      each_append hold (each_take hes)
    have ht : Ok v (s.later.setLb { s.lblock lb with
        chain := (s.lblock lb).chain.dropLast ++
            [{ b with entries := b.entries ++ es.take (logEntries - b.entries.length) }]
        lastAt := s.later.clock }) :=
      ok_setLb (ok_later h) { hl with chain := each_append (each_dropLast hl.chain) (each_cons hnew each_nil) }
    exact ok_count (ok_ite (ok_setSb ht) ht)

theorem ok_programLog {s : State} {lb : Nat} {loc : SbLoc} (h : Ok v s) : Ok v (s.programLog lb loc) := by
  unfold State.programLog
  extract_lets mine t room rest u _
  have hmine : ∀ e ∈ mine, StagedOk v e := each_filter h.media.staging
  have ht : Ok v t := ok_ite (ok_openLog h) h
  have hrest : ∀ e ∈ rest, StagedOk v e := each_filter ht.media.staging
  have hu : Ok v u := ok_appendLog ht (each_entriesOf hmine)
  exact { hu with media := { hu.media with staging := each_append hrest (each_drop hmine) } }

/-! ### Objects and pages -/

theorem ok_openTier {s : State} {lb : Nat} {t2 : Bool} (h : Ok v s) : Ok v (s.openTier lb t2) := by
  unfold State.openTier
  extract_lets j opened u l locs seq
  have hopened : Ok v u := List.foldlRecOn (motive := fun (x : State × List SbLoc) => Ok v x.1) _ _ (ok_newJseq h)
    (fun _ hx _ _ => ok_setSb (ok_openSb hx))
  refine ok_queueRec (ok_setLb hopened ?_)
  exact { lblockOk_lblock (n := lb) hopened with }

theorem ok_placePart {s : State} {copy first n : Nat} (h : Ok v s) : Ok v (s.placePart copy first n) := by
  unfold State.placePart
  split
  · exact h
  · exact ok_modCopy (ok_ite (ok_openTier (ok_ite (ok_openTier h) h)) (ok_ite (ok_openTier h) h)) (fun _ hx => hx)

theorem ok_placeRun {fuel : Nat} {s : State} {copy first n : Nat} (h : Ok v s) :
    Ok v (s.placeRun fuel copy first n) := by
  induction fuel generalizing s copy first n with
  | zero =>
    unfold State.placeRun
    exact h
  | succ n ih =>
    unfold State.placeRun
    split
    · exact h
    · exact ok_ite h (ih (ok_placePart h))

theorem ok_placePages {s : State} {copy : Nat} {r : Nat × Nat} (h : Ok v s) : Ok v (s.placePages copy r) :=
  ok_placeRun h

theorem ok_logAll {fuel : Nat} {s : State} {lb : Nat} {es : List LogEntry} (h : Ok v s) (hes : ∀ x ∈ es, EntryOk v x)
    : Ok v (s.logAll fuel lb es) := by
  induction fuel generalizing s lb es with
  | zero =>
    unfold State.logAll
    exact h
  | succ n ih =>
    unfold State.logAll
    exact ok_ite h (ih (ok_appendLog (ok_ite (ok_openLog h) h) hes) (each_drop hes))

theorem each_entriesFor {s : State} {new : Copy} {secs : List Nat} (hx : CopyOk v new) :
    ∀ x ∈ s.entriesFor new secs, ∀ e ∈ x.2, EntryOk v e := by
  intro x hx' e he
  obtain ⟨lb, _, rfl⟩ := List.mem_map.mp hx'
  obtain ⟨y, hy, rfl⟩ := List.mem_map.mp he
  obtain ⟨sec, _, rfl⟩ := List.mem_map.mp (List.mem_of_mem_filter hy)
  exact opt_some (memOk_extract hx)

theorem ok_storeCopy {s : State} {old new : Copy} {fresh : List (Nat × Nat)} (h : Ok v s) (hx : CopyOk v new) :
    Ok v (s.storeCopy old new fresh) := by
  refine ok_sync (List.foldlRecOn _ _ (ok_foldl (fun _ _ ht => ok_placePart ht) (ok_modCopy h fun _ _ => hx)) ?_)
  exact fun _ ht x hx' => ok_logAll ht (each_entriesFor hx x hx')

theorem ok_addCopy {s : State} {c : Copy} {order : List (Nat × Nat)} (h : Ok v s) (hx : CopyOk v c) :
    Ok v (s.addCopy c order) := by
  unfold State.addCopy
  extract_lets id d parts t u metaParts w
  have ht : Ok v t := ok_allocate h
  have hd : CopyOk v d := hx
  have hu : Ok v u := { ht with copies := each_append ht.copies (each_cons hd each_nil) }
  exact ok_sync (ok_foldl (fun _ _ hs => ok_placePages hs) (ok_foldl (fun _ _ hs => ok_openTier hs) hu))

theorem ok_unmap {s : State} {lb : Nat} (h : Ok v s) : Ok v (s.unmap lb) := by
  unfold State.unmap
  split
  · exact h
  · rename_i l hl
    exact ok_ite h (ok_filterLblocks (ok_jrec (ok_release_ (ok_abandonMerge h (opt_lblock? h l hl)))))

theorem ok_unmapOwner {s : State} {owner : Nat} (h : Ok v s) : Ok v (s.unmapOwner owner) :=
  ok_sync (ok_deallocate (ok_foldl (fun _ _ hs => ok_unmap hs) h))

/-! ### Command transport -/

theorem ok_writeAperture {s : State} {req off : Nat} {bytes : List Byte} (h : Ok v s) :
    Ok v (s.writeAperture req off bytes) :=
  ok_ite h (ok_t1Encode { h with link := { h.link with aperture := memOk_t1Merge h.link.aperture } })

theorem okR_execApertureWrite {off : Nat} {bytes : List Byte} {s : State} (h : Ok v s) :
    OkR v (execApertureWrite off bytes s) :=
  okR_ite okR_fault (okR_ite (okR_next h) (okR_next (ok_writeAperture h)))

theorem ok_dbErr {s : State} {q : Nat} (h : Ok v s) : Ok v (s.dbErr q) :=
  { h with link := { h.link with dbErr := memOk_set h.link.dbErr } }

theorem ok_wake {s : State} (h : Ok v s) : Ok v s.wake :=
  ok_ite h { h with }

theorem ok_ringSq {s : State} {q val : Nat} (h : Ok v s) : Ok v (s.ringSq q val) := by
  unfold State.ringSq
  dsimp only
  split
  · exact ok_dbErr (ok_count h)
  · exact ok_ite (ok_wake (ok_setQueue (ok_count h))) (ok_dbErr (ok_count h))

theorem ok_ringCq {s : State} {q val : Nat} (h : Ok v s) : Ok v (s.ringCq q val) := by
  unfold State.ringCq
  dsimp only
  split
  · exact ok_dbErr (ok_count h)
  · exact ok_ite (ok_settle (ok_release (ok_wake (ok_setQueue (ok_count h))))) (ok_dbErr (ok_count h))

theorem okR_execSqTailDoorbell {q : Nat} {val : BitVec 64} {s : State} (h : Ok v s) :
    OkR v (execSqTailDoorbell q val s) :=
  okR_ite (okR_next h) (okR_next (ok_ringSq h))

theorem okR_execCqHeadDoorbell {q : Nat} {val : BitVec 64} {s : State} (h : Ok v s) :
    OkR v (execCqHeadDoorbell q val s) :=
  okR_ite (okR_next h) (okR_next (ok_ringCq h))

theorem ok_noteSlots {s : State} {q : Queue} {n : Nat} (h : Ok v s) : Ok v (s.noteSlots q n) :=
  ok_ite h (ok_foldl (fun _ _ hs => ok_noteT1 hs) h)

theorem cmdOk_cmdOf {u : Nat} {q : Queue} {handle : Header} {payload : List Byte} :
    CmdOk v (cmdOf u q handle payload) :=
  each_nil

theorem ok_addCmd {s : State} {c : Cmd} (h : Ok v s) (hm : CmdOk v c) : Ok v (s.addCmd c) :=
  { h with link := { h.link with cmds := each_append h.link.cmds (each_cons hm each_nil) } }

theorem ok_refuseFetched {s : State} {q : Queue} {handle : Header} {st : Status} (h : Ok v s) :
    Ok v (s.refuseFetched q handle st) :=
  ok_complete (ok_addCmd h (cmdOk_cmdOf (u := s.link.nextUid) (q := q) (handle := handle) (payload := [])))

theorem ok_breakChain {s : State} {qid u : Nat} {st : Status} (h : Ok v s) : Ok v (s.breakChain qid u st) := by
  unfold State.breakChain
  extract_lets t
  have ht : Ok v t := ok_modQueue h
  split
  · exact ht
  · exact ok_ite (ok_modCmd ht fun _ hm => hm) (ok_complete ht)

theorem ok_watch {s : State} {c : Cmd} (h : Ok v s) : Ok v (s.watch c) := by
  unfold State.watch
  split
  · exact h
  · split
    · exact h
    · exact ok_modJob h (fun _ hj => { hj with })

theorem ok_firstPacket {s : State} {read q : Queue} {handle : Header} {payload : List Byte} {lost : Bool}
    (h : Ok v s) :
    Ok v (s.firstPacket read q handle payload lost) := by
  unfold State.firstPacket
  extract_lets skip c t
  have hskip : Ok v (skip s) := ok_ite (ok_modQueue h) h
  split
  · exact ok_refuseFetched hskip
  · have ht : Ok v t := ok_watch (ok_addCmd (ok_noteSlots h) cmdOk_cmdOf)
    exact ok_ite (ok_refuseFetched h) (ok_ite (ok_refuseFetched hskip) (ok_ite (ok_refuseFetched (ok_noteSlots hskip))
      (ok_ite (ok_refuseFetched (ok_noteSlots h)) (ok_ite (ok_modQueue ht) ht))))

theorem ok_takeBack {s : State} {u : Nat} (h : Ok v s) : Ok v (s.takeBack u) := by
  have hout : Ok v { s with
      media := { s.media with staging := s.media.staging.filter (fun e => e.uid != some u) } } :=
    { h with media := { h.media with staging := each_filter h.media.staging } }
  unfold State.takeBack
  dsimp only
  split
  · exact hout
  · rename_i c hc
    refine { hout with media := { hout.media with staging := each_append hout.media.staging ?_ } }
    intro e he
    obtain ⟨x, hx, rfl⟩ := List.mem_map.mp he
    exact opt_some (opt_cmd? h c hc x.1 (List.fst_mem_of_mem_zipIdx (List.mem_of_mem_filter hx)))

theorem ok_laterPacket {s : State} {read q : Queue} {c : Cmd} {handle : Header} {payload : List Byte} {lost : Bool}
    (h : Ok v s) : Ok v (s.laterPacket read q c handle payload lost) :=
  ok_ite (ok_ite (ok_modQueue (ok_breakChain (ok_noteSlots h))) (ok_breakChain (ok_noteSlots h)))
      (ok_ite (ok_complete (ok_takeBack (ok_modQueue h))) (ok_ite (ok_modCmd (ok_noteSlots h) (fun _ hm => hm))
      (ok_modQueue (ok_modCmd (ok_noteSlots h) (fun _ hm => hm)))))

theorem ok_packet {s : State} {read q : Queue} {handle : Header} {payload : List Byte} {lost : Bool} (h : Ok v s) :
    Ok v (s.packet read q handle payload lost) := by
  unfold State.packet
  dsimp only
  split
  · exact ok_ite (ok_laterPacket h) (ok_firstPacket (ok_breakChain h))
  · split
    · exact ok_ite (ok_modQueue h) (ok_firstPacket (ok_modQueue h))
    · exact ok_firstPacket h

theorem okR_execPacketFetch {qid : Nat} {s : State} (h : Ok v s) : OkR v (execPacketFetch qid s) := by
  unfold execPacketFetch
  split
  · exact okR_next h
  · exact okR_ite (okR_next h) (okR_ite (okR_next h) (okR_ite
      (okR_next (ok_settle (ok_packet (ok_setQueue (ok_noteSlots h)))))
      (okR_ite (okR_next h) (okR_next (ok_settle (ok_count (ok_packet (ok_setQueue (ok_noteSlots h)))))))))

theorem okR_execHeaderRetryTimeout {qid : Nat} {s : State} (h : Ok v s) : OkR v (execHeaderRetryTimeout qid s) := by
  unfold execHeaderRetryTimeout
  split
  · exact okR_next h
  · exact okR_ite (okR_next (ok_settle (ok_complete (ok_addCmd (ok_setQueue (ok_noteSlots h)) each_nil))))
      (okR_next h)

theorem okR_execChainTimeout {qid : Nat} {s : State} (h : Ok v s) : OkR v (execChainTimeout qid s) := by
  unfold execChainTimeout
  split
  · exact okR_next h
  · split
    · exact okR_next (ok_settle (ok_breakChain h))
    · exact okR_next h

theorem okR_execGlobalPersistentFlush {s : State} (h : Ok v s) : OkR v (execGlobalPersistentFlush s) :=
  okR_ite (okR_next h) (okR_next { h with host := { h.host with } })

/-! ### Pages and claims -/

theorem ok_leaveFrame {s : State} {pg : Nat × Nat} (h : Ok v s) : Ok v (s.leaveFrame pg) :=
  { h with }

theorem ok_unclaim {s : State} {p : Nat} {pg : Nat × Nat} (h : Ok v s) : Ok v (s.unclaim p pg) := by
  unfold State.unclaim
  extract_lets t
  have ht : Ok v t := ok_modPage h
  split
  · exact ok_ite (ok_leaveFrame ht) ht
  · exact ht

theorem opt_makeRoom {s : State} {p : Nat} (h : Ok v s) : ∀ y ∈ s.makeRoom p, Ok v y := by
  refine opt_ite (opt_some h) ?_
  split
  · exact opt_some (ok_unclaim h)
  · exact opt_none

theorem ok_giveClaims {s : State} {pg : Nat × Nat} (h : Ok v s) : Ok v (s.giveClaims pg) := by
  unfold State.giveClaims
  split
  · exact h
  · refine ok_foldl (fun t p ht => ?_) h
    split
    · exact ht
    · rename_i u hu
      exact ok_modPage (opt_makeRoom ht u hu)

theorem ok_claimPage {s : State} {p ctx : Nat} {pg : Nat × Nat} (h : Ok v s) : Ok v (s.claimPage p ctx pg) := by
  unfold State.claimPage
  split
  · exact ok_modPage h
  · exact ok_ite (ok_modPage h) (ok_ite h (ok_ite (ok_modPage h) (ok_giveClaims (ok_modPage h))))

theorem ok_settlePages {s : State} (h : Ok v s) : Ok v s.settlePages :=
  { h with }

theorem ok_openWindow {s : State} {ctx : Nat} {before : List (Nat × Nat)} (h : Ok v s) :
    Ok v (s.openWindow ctx before) := by
  unfold State.openWindow
  split
  · exact h
  · exact ok_settlePages (ok_foldl (fun _ _ hs => ok_claimPage hs) { (ok_later h) with })

theorem ok_moveCursor {s : State} {ctx : Nat} {pg : Nat × Nat} (h : Ok v s) : Ok v (s.moveCursor ctx pg) := by
  unfold State.moveCursor
  split
  · exact h
  · split
    · exact h
    · exact ok_ite h (ok_openWindow (ok_modJob h (fun _ hj => { hj with })))

theorem ok_usePage {s : State} {p : Nat} {pg : Nat × Nat} (h : Ok v s) : Ok v (s.usePage p pg) := by
  unfold State.usePage
  split
  · exact ok_modPage (ok_later h)
  · exact h

/-! ### Indexes -/

theorem copyOk_setField {c : Copy} {off n val : Nat} (hx : CopyOk v c) : CopyOk v (c.setField off n val) :=
  memOk_write hx

theorem copyOk_setIdentBit {c : Copy} {r n : Nat} {b : Bool} (hx : CopyOk v c) : CopyOk v (c.setIdentBit r n b) :=
  memOk_set hx

theorem copyOk_setIdent {c : Copy} {n : Nat} {st : Ident} (hx : CopyOk v c) : CopyOk v (c.setIdent n st) := by
  unfold Copy.setIdent
  split
  · exact copyOk_setIdentBit (copyOk_setIdentBit hx)
  · exact copyOk_setIdentBit (copyOk_setIdentBit hx)
  · exact copyOk_setIdentBit (copyOk_setIdentBit hx)
  · exact copyOk_setIdentBit (copyOk_setIdentBit hx)

theorem ok_releaseIdents {s : State} (h : Ok v s) : Ok v s.releaseIdents := by
  refine { h with copies := ?_ }
  refine each_map h.copies ?_
  intro x hx'
  split
  · exact copyOk_foldl (fun _ _ hx => copyOk_setIdent hx) hx'
  · exact hx'

/-! ### Local memories -/

theorem ok_osWrite {s : State} {n a : Nat} {bs : List Byte} (h : Ok v s) : Ok v (s.osWrite n a bs) :=
  ok_ite h (ok_ite (ok_setFlip (ok_setCore h { (coreOk_core h) with os := memOk_codedWrite ((coreOk_core h).os) }))
      (ok_setCore h { (coreOk_core h) with os := memOk_codedWrite ((coreOk_core h).os) }))

theorem ok_lwbWrite {s : State} {n a : Nat} {bs : List Byte} (h : Ok v s) : Ok v (s.lwbWrite n a bs) :=
  ok_setCore h { (coreOk_core h) with lwb := memOk_codedWrite ((coreOk_core h).lwb) }

theorem listsWf_iff {t : TopK} : listsWf t = true ↔ t.kLane ≤ 256 ∧ ∀ p ∈ t.counts, p.2.toNat ≤ t.kLane := by
  simp [listsWf]

/-- Lists that are emptied leave the rest of the unit in form. -/
theorem topkOk_filter {t : TopK} {p : Nat × BitVec 16 → Bool} (ht : TopKOk v t) :
    TopKOk v { t with counts := t.counts.filter p } :=
  { ht with
    counts := memOk_filter ht.counts
    lists := fun hv => listsWf_iff.mpr ⟨(listsWf_iff.mp (ht.lists hv)).1, each_filter
        (listsWf_iff.mp (ht.lists hv)).2⟩ }

theorem mem_set {w : Nat} {m : Sparse w} {k : Nat} {x : BitVec w} {p : Nat × BitVec w} (h : p ∈ Sparse.set m k x) :
    p ∈ m ∨ p = (k, x) := by
  induction m with
  | nil =>
    rw [Sparse.set] at h
    split at h
    · cases h
    · exact .inr (List.mem_singleton.mp h)
  | cons a t ih =>
    rw [Sparse.set] at h
    grind

theorem topk_lwbWrite (s : State) (n a : Nat) (bs : List Byte) :
    ((s.lwbWrite n a bs).core n).topk = (s.core n).topk := by
  by_cases hn : n < s.cores.length
  · rw [State.lwbWrite, core_setCore _ _ _ _ hn, if_pos rfl]
  · rw [core_past _ _ (by simpa [State.lwbWrite] using hn), core_past _ _ (by omega)]

theorem ok_setList {s : State} {n lane : Nat} {l : List (BitVec 64)} (h : Ok v s)
    (hl : v = .memory → l.length ≤ (s.core n).topk.kLane) : Ok v (s.setList n lane l) := by
  have hw : Ok v (s.lwbWrite n (listAt lane) ((l.map (fun e => leBytes 8 e.toNat)).flatten)) := ok_lwbWrite h
  have hc := coreOk_core (n := n) hw
  refine ok_setCore hw { hc with topk := { hc.topk with counts := memOk_set hc.topk.counts, lists := fun hv => ?_ } }
  obtain ⟨hk, hcounts⟩ := listsWf_iff.mp (hc.topk.lists hv)
  refine listsWf_iff.mpr ⟨hk, fun p hp => ?_⟩
  rcases mem_set hp with hold | rfl
  · exact hcounts p hold
  · dsimp only
    rw [topk_lwbWrite]
    exact (BitVec.toNat_ofNat ..).trans_le ((Nat.mod_le _ _).trans (hl hv))

theorem memOk_listBytes {c : Core} : MemOk v c.listBytes :=
  memOk_foldl (fun _ _ hm => memOk_write hm) memOk_nil

theorem ok_noteLocal {s : State} {n a len : Nat} (h : Ok v s) : Ok v (s.noteLocal n a len) :=
  ok_ite (ok_foldl (fun _ _ hs => ok_noteError hs) h) (ok_foldl (fun _ _ hs => ok_noteError hs) h)

theorem ok_localWrite {s : State} {n a : Nat} {bs : List Byte} (h : Ok v s) : Ok v (s.localWrite n a bs) :=
  ok_ite (ok_osWrite h) (ok_lwbWrite h)

/-! ### Jobs -/

theorem ok_spend {s : State} {core k : Nat} (h : Ok v s) : Ok v (s.spend core k) := by
  unfold State.spend
  dsimp only
  split
  · exact h
  · exact ok_modJob (ok_setCore h { (coreOk_core h) with }) (fun _ hj => { hj with })

theorem ok_tick {s : State} {core n : Nat} (h : Ok v s) : Ok v (s.tick core n) :=
  ok_spend (ok_fresh h)

theorem ok_showJob {s : State} {ctx : Nat} (h : Ok v s) : Ok v (s.showJob ctx) :=
  ok_modJob h (fun _ hj => { hj with })

theorem ok_charge {s : State} {ctx : Nat} {f : Acct → Acct} (h : Ok v s) : Ok v (s.charge ctx f) :=
  ok_modJob h (fun _ hj => { hj with })

theorem ok_forget {s : State} {core : Nat} {gone : RemoteReq → Bool} (h : Ok v s) : Ok v (s.forget core gone) :=
  { h with spool := { h.spool with } }

theorem ok_dropRemote {s : State} {core : Nat} (h : Ok v s) : Ok v (s.dropRemote core) :=
  have ht : Ok v (s.forget core (fun r => r.core == core)) := ok_forget h
  { ht with spool := { ht.spool with ports := length_map ht.spool.ports } }

theorem ok_dropSlot {s : State} {core slot : Nat} (h : Ok v s) : Ok v (s.dropSlot core slot) :=
  ok_forget h

theorem ok_wipeCore {s : State} {n : Nat} (h : Ok v s) : Ok v (s.wipeCore n) :=
  ok_t1Forget (ok_setCore (ok_dropRemote (ok_foldBlock h)) { coreOk_reset with })

theorem ok_freeCore {s : State} {n : Nat} (h : Ok v s) : Ok v (s.freeCore n) :=
  ok_modCore (ok_dropRemote h) (fun _ hc => { hc with run := opt_none })

theorem ok_freeCores {s : State} {ctx : Nat} (h : Ok v s) : Ok v (s.freeCores ctx) := by
  unfold State.freeCores
  split
  · exact h
  · exact ok_settlePages (ok_modJob (ok_foldl (fun _ _ hs => ok_freeCore hs) h) (fun _ hj => { hj with }))

theorem ok_completeAll {s : State} {us : List Nat} {val : Verdict} (h : Ok v s) : Ok v (s.completeAll us val) :=
  ok_foldl (fun _ _ hs => ok_complete hs) h

theorem ok_collect {s : State} {ctx : Nat} (h : Ok v s) : Ok v (s.collect ctx) := by
  unfold State.collect
  split
  · exact h
  · split
    · exact h
    · exact ok_releaseIdents (ok_completeAll (ok_complete { h with jobs := each_filter h.jobs }))

theorem ok_endJob {s : State} {ctx : Nat} {e : JobEnd} {pc : Nat} (h : Ok v s) : Ok v (s.endJob ctx e pc) := by
  unfold State.endJob
  split
  · exact h
  · split
    · exact h
    · extract_lets forced t u w _ x y z a
      have ht : Ok v t := ok_freeCores h
      have hu : Ok v u := ok_modJob ht fun _ _ =>
        { program := memOk_nil, writable := memOk_nil, lastCut := opt_none, prevCut := opt_none }
      have hw : Ok v w := ok_showJob hu
      have hx : Ok v x := { hw with spool := { hw.spool with } }
      have hz : Ok v z := ok_foldl (fun _ _ hs => ok_complete hs) (ok_completeAll hx)
      refine ok_releaseIdents (ok_collect ?_)
      dsimp only [a]
      split
      · exact ok_complete hz
      · exact hz

theorem ok_failJob {s : State} {ctx : Nat} {st : Status} {cause pc : Nat} (h : Ok v s) :
    Ok v (s.failJob ctx st cause pc) :=
  ok_endJob h

theorem ok_accessFault {s : State} {ctx addr pc : Nat} (h : Ok v s) : Ok v (s.accessFault ctx addr pc) :=
  ok_failJob (ok_modJob h (fun _ hj => { hj with }))

theorem savedOk_saveCore {sl : Slate} {cuts : Nat} {c : Core} (hc : CoreOk v c) :
    SavedCoreOk v (saveCore sl cuts c) where
  sregs := hc.sregs
  aregs := hc.aregs
  vregs := hc.vregs
  pregs := hc.pregs
  carry := memOk_extract (memOk_delivered hc.os)
  acc := memOk_ite hc.acc memOk_nil
  lists := memOk_ite memOk_listBytes memOk_nil
  topk := by
    dsimp only [saveCore]
    split
    · exact hc.topk
    · exact topkOk_reset

theorem coreOk_restoredCore {j : Job} {cut : Cut} {n rank kind : Nat} {old : Core} {r : SavedCore}
    (hs : SavedCoreOk v r) :
    CoreOk v (restoredCore j cut n rank kind old r) :=
  { coreOk_reset with
    sregs := memOk_set hs.sregs, aregs := memOk_ite hs.aregs (memOk_set hs.aregs)
    vregs := hs.vregs, pregs := hs.pregs, acc := hs.acc, os := hs.carry, lwb := hs.lists, topk := hs.topk }

theorem coreOk_freshCore {j : Job} {n rank resolved kind pc : Nat} {a15 : Nat} {old : Core} :
    CoreOk v (freshCore j n rank resolved kind pc a15 old) :=
  { coreOk_reset with sregs := memOk_ofList, aregs := memOk_set memOk_nil }

theorem coreOk_placedCore {j : Job} {n rank kind : Nat} {old : Core} (hj : JobOk v j) :
    CoreOk v (placedCore j n rank kind old) := by
  unfold placedCore
  split
  · exact coreOk_freshCore
  · rename_i cut hcut
    have hrecs : CutOk v cut := hj.lastCut cut hcut
    split
    · rename_i r hr
      exact coreOk_restoredCore (opt_ite (opt_getElem? hrecs) opt_none r hr)
    · exact coreOk_freshCore

theorem ok_placeJob {s : State} {j : Job} {cores : List Nat} {kind : Nat} (h : Ok v s) (hj : JobOk v j) :
    Ok v (s.placeJob j cores kind) :=
  ok_modJob (ok_foldl (fun _ _ hs => ok_modCore (ok_wipeCore hs) fun _ _ => coreOk_placedCore hj) h) fun _ hj =>
      { hj with }

theorem ok_secondFault {s : State} {ctx : Nat} (h : Ok v s) : Ok v (s.secondFault ctx) :=
  ok_integEvent (ok_failJob h)

theorem ok_startJob {s : State} {ctx : Nat} {cores : List Nat} (h : Ok v s) : Ok v (s.startJob ctx cores) := by
  unfold State.startJob
  split
  · exact h
  · rename_i j hfound
    have hj : JobOk v j := opt_job? h j hfound
    split
    · exact ok_secondFault (ok_foldl (fun _ _ hs => ok_noteT1 hs) h)
    · extract_lets resolved _ j' t u w
      have hj' : JobOk v j' := { hj with }
      have hw : Ok v w := ok_openWindow (ok_placeJob (ok_modJob h fun _ _ => hj') hj')
      split
      · exact ok_complete hw
      · exact hw

theorem ok_takeCut {s : State} {ctx : Nat} (h : Ok v s) : Ok v (s.takeCut ctx) := by
  unfold State.takeCut
  split
  · exact h
  · rename_i j hj
    extract_lets slot cuts t recs older cut
    have ht : Ok v t := ok_foldl (fun _ _ ht => ok_modCore (ok_dropRemote ht) (fun _ hc => { hc with })) h
    have holder : ∀ r ∈ older, SavedCoreOk v r := by
      dsimp only [older]
      split
      · rename_i c hc
        exact each_drop ((opt_job? h j hj).prevCut c hc)
      · exact each_nil
    have hcut : CutOk v cut := by
      refine each_append (fun r hr => ?_) holder
      obtain ⟨n, _, rfl⟩ := List.mem_map.mp hr
      exact savedOk_saveCore (coreOk_core ht)
    exact ok_foldl (fun _ _ ht => ok_t1Encode ht)
      (ok_modJob ht (fun _ hj => { hj with lastCut := opt_some hcut, prevCut := hj.lastCut }))

theorem ok_yieldJob {s : State} {ctx : Nat} {idle : Bool} (h : Ok v s) : Ok v (s.yieldJob ctx idle) :=
  ok_modJob (ok_later (ok_freeCores h)) (fun _ hj => { hj with })

theorem ok_setAdmitted {s : State} {ctx table k : Nat} (h : Ok v s) : Ok v (s.setAdmitted ctx table k) := by
  unfold State.setAdmitted
  split
  · exact h
  · exact ok_t1Encode (ok_modJob h (fun _ hj => { hj with writable := memOk_t1Merge hj.writable }))

theorem ok_replay {s : State} {ctx : Nat} {cores : List Nat} (h : Ok v s) : Ok v (s.replay ctx cores) := by
  unfold State.replay
  split
  · exact h
  · rename_i j hfound
    have hj : JobOk v j := opt_job? h j hfound
    dsimp only
    have ht : Ok v (s.freeCores ctx) := ok_freeCores h
    split
    · exact ok_secondFault (ok_foldl (fun _ _ hs => ok_noteT1 hs) ht)
    · split
      · refine ok_modJob ?_ fun _ hj => { hj with }
        split
        · exact ok_setAdmitted (ok_later ht)
        · exact ok_later ht
      · refine ok_openWindow (ok_foldl (fun u n hu => ?_) (ok_placeJob (ok_modJob ht fun _ _ => { hj with })
          { hj with }))
        split
        · exact ok_modCore hu fun _ hc => { hc with }
        · exact ok_modCore hu fun _ hc => { hc with }

theorem ok_jobFault {s : State} {ctx : Nat} {keep : List Nat} (h : Ok v s) : Ok v (s.jobFault ctx keep) := by
  unfold State.jobFault
  split
  · exact h
  · exact ok_ite (ok_secondFault h) (ok_replay (ok_modJob h (fun _ hj => { hj with })))

theorem ok_lossFault {s : State} {ctx n : Nat} {same : Bool} (h : Ok v s) : Ok v (s.lossFault ctx n same) := by
  unfold State.lossFault
  split
  · exact h
  · exact ok_ite (ok_replay h) (ok_jobFault h)

theorem ok_fenceCore {s : State} {n cause : Nat} {same : Bool} (h : Ok v s) : Ok v (s.fenceCore n cause same) := by
  unfold State.fenceCore
  extract_lets c t u _ w x y
  have hu : Ok v u := ok_dropRemote (ok_modCore (ok_foldBlock h) fun _ hc => { hc with })
  clear_value u
  have hw : Ok v w := { hu with }
  have hx : Ok v x := ok_raise (ok_integEvent hw)
  refine ok_freeCore ?_
  dsimp only [y]
  split
  · exact ok_lossFault hx
  · exact hx

/-! ### Changes of an index -/

theorem copyOk_setDir {c : Copy} {j extent codes runs flags start first count ident : Nat} (hx : CopyOk v c) :
    CopyOk v (c.setDir j extent codes runs flags start first count ident) :=
  memOk_write hx

theorem copyOk_bump8 {c : Copy} {off : Nat} {d : Int} (hx : CopyOk v c) : CopyOk v (c.bump8 off d) :=
  copyOk_setField hx

theorem copyOk_bump4 {c : Copy} {off : Nat} {d : Int} (hx : CopyOk v c) : CopyOk v (c.bump4 off d) :=
  copyOk_setField hx

theorem ok_keepCopy {s : State} {new : Copy} (h : Ok v s) (hx : CopyOk v new) : Ok v (s.keepCopy new) := by
  unfold State.keepCopy
  split
  · exact ok_storeCopy h hx
  · exact h

theorem copyOk_freed {s : State} {c : Copy} (hx : CopyOk v c) : CopyOk v (s.freed c) :=
  hx

theorem ok_freeSpace {s : State} {copy : Nat} (h : Ok v s) : Ok v (s.freeSpace copy) :=
  ok_modCopy h (fun _ hx => copyOk_freed hx)

theorem copyOk_retire {c : Copy} {j : Nat} (hx : CopyOk v c) : CopyOk v (c.retire j) := by
  unfold Copy.retire
  dsimp only
  split
  · exact hx
  · split
    · exact copyOk_setField (copyOk_bump4 (copyOk_setField (copyOk_setField (copyOk_setField hx))))
    · exact copyOk_bump4 (copyOk_setField (copyOk_setField (copyOk_setField hx)))

theorem copyOk_commit {c : Copy} {r : ReadyList} {waits : List Nat} (hx : CopyOk v c) :
    CopyOk v (c.commit r waits) := by
  unfold Copy.commit
  extract_lets j side rest usedBefore usedAfter wasDeferred old head deleted d e k f g gone _ p
  have he : CopyOk v e := copyOk_foldl (fun _ _ hc => copyOk_setIdent hc) (copyOk_setDir hx)
  have hf : CopyOk v f := copyOk_bump8 (copyOk_bump8 (copyOk_bump8 he))
  have hp : CopyOk v p := by
    show CopyOk v g
    dsimp only [g]
    split
    · exact copyOk_bump4 hf
    · exact hf
  split
  · exact copyOk_retire hp
  · exact hp

theorem ok_endCompaction {s : State} {copy : Nat} (h : Ok v s) : Ok v (s.endCompaction copy) := by
  unfold State.endCompaction
  split
  · exact h
  · rename_i c hc
    split
    · exact h
    · split
      · exact h
      · extract_lets d e t
        have hd : CopyOk v d := copyOk_foldl (fun _ _ hx => by split; exacts [copyOk_setField hx, hx])
            (opt_copy? h c hc)
        have he : CopyOk v e := copyOk_bump8 hd
        exact ok_completeAll (ok_keepCopy h he)

theorem ok_commitReady {s : State} {copy : Nat} (h : Ok v s) : Ok v (s.commitReady copy).1 := by
  unfold State.commitReady
  split
  · exact h
  · rename_i found
    exact ok_endCompaction (ok_freeSpace (ok_releaseIdents (ok_keepCopy h
        (copyOk_foldl (fun _ _ hx => copyOk_commit hx) ((opt_copy? h) _ found)))))

/-! ### Flags -/

theorem coreOk_compare {c : Core} {a b : W64} (hc : CoreOk v c) : CoreOk v (c.compare a b) :=
  { hc with }

/-! ### Operands -/

theorem coreOk_setS {c : Core} {r : BitVec 5} {val : W64} (hc : CoreOk v c) : CoreOk v (c.setS r val) :=
  { hc with sregs := memOk_set hc.sregs }

theorem coreOk_setA {c : Core} {r : BitVec 5} {val : W64} (hc : CoreOk v c) : CoreOk v (c.setA r val) :=
  { hc with aregs := memOk_set hc.aregs }

theorem coreOk_setXfer {c : Core} {x : Nat} {t : Xfer} (hc : CoreOk v c) : CoreOk v (c.setXfer x t) :=
  { hc with }

/-! ### Tiles -/

theorem coreOk_endSweep {c : Core} (hc : CoreOk v c) : CoreOk v c.endSweep :=
  { hc with }

/-! ### Issue of instructions -/

theorem ok_lostSample {s : State} (h : Ok v s) : Ok v s.lostSample :=
  { h with dailies := { h.dailies with } }

theorem ok_sample {s : State} {n : Nat} {j : Job} {pc : Nat} (h : Ok v s) : Ok v (s.sample n j pc) := by
  unfold State.sample
  dsimp only
  split
  · exact ok_ite (ok_modCore h (fun _ hc => { hc with })) (ok_ite
      (ok_lostSample (ok_modCore { h with } (fun _ hc => { hc with })))
      (ok_modCore { h with } (fun _ hc => { hc with })))
  · exact ok_ite (ok_modCore (ok_ite { h with } h) (fun _ hc => { hc with }))
      (ok_modCore (ok_ite { h with } h) (fun _ hc => { hc with }))
  · exact h

theorem opt_issuing {s : State} {n : Nat} (h : Ok v s) : ∀ y ∈ s.issuing n, JobOk v y := by
  unfold State.issuing
  split
  · rename_i found
    exact opt_ite (opt_some ((opt_bind (fun _ => opt_job? h)) _ found)) opt_none
  · exact opt_none

theorem ok_retire {s : State} {n : Nat} {j : Job} {len : Nat} (h : Ok v s) : Ok v (s.retire n j len) := by
  unfold State.retire
  exact ok_modCore (ok_sample (ok_count (ok_tick h))) (fun _ hc => { hc with })

theorem okR_issue {s : State} {n : Fin 32} {len : Nat} {legal : Bool} {held : Core → Bool}
    {act : State → Job → Nat → State} (h : Ok v s) (hact : ∀ x y z, Ok v x → JobOk v y → Ok v (act x y z)) :
    OkR v (s.issue n len legal held act) := by
  unfold State.issue
  split
  · exact okR_next h
  · rename_i found
    exact okR_ite (okR_next (ok_settle (ok_accessFault h))) (okR_ite (okR_next (ok_settle (ok_accessFault h)))
        (okR_ite (okR_next (ok_settle (ok_failJob h))) (okR_ite (okR_next h)
        (okR_next (hact _ _ _ (ok_retire h) ((opt_issuing h) _ found))))))

theorem okR_issueEnding {s : State} {n : Fin 32} {len : Nat} {legal : Bool} {held ends : Core → Bool}
    {act : State → Job → Nat → State} (h : Ok v s) (hact : ∀ x y z, Ok v x → JobOk v y → Ok v (act x y z)) :
    OkR v (s.issueEnding n len legal held ends act) := by
  unfold State.issueEnding
  split
  · exact okR_next h
  · exact okR_ite (okR_next (ok_setCore h (coreOk_endSweep (coreOk_core h)))) (okR_issue h hact)

theorem ok_issueRefused {s : State} {j : Job} {pc : Nat} (h : Ok v s) : Ok v (s.issueRefused j pc) :=
  ok_settle (ok_failJob h)

theorem okR_simple {s : State} {n : Fin 32} {legal : Bool} {f : Core → Core} (h : Ok v s)
    (hf : ∀ x, CoreOk v x → CoreOk v (f x)) : OkR v (s.simple n legal f) :=
  okR_issue h (fun _ _ _ hs _ => ok_modCore hs hf)

theorem coreOk_unhold {c : Core} (hc : CoreOk v c) : CoreOk v c.unhold := by
  unfold Core.unhold
  split
  · split
    · exact { hc with }
    · exact hc
  · split
    · exact hc
    · exact { hc with }
  · exact hc

/-! ### Scalar instructions -/

theorem ok_branchTo {s : State} {n : Nat} {j : Job} {pc : Nat} {target : Int} (h : Ok v s) :
    Ok v (s.branchTo n j pc target) :=
  ok_ite (ok_modCore h (fun _ hc => { hc with })) (ok_settle (ok_accessFault h))

theorem okR_execNop {n : Fin 32} {s : State} (h : Ok v s) : OkR v (execNop n s) :=
  okR_simple h (fun _ hs => hs)

theorem okR_execB {n : Fin 32} {cond : BitVec 4} {off : BitVec 39} {s : State} (h : Ok v s) :
    OkR v (execB n cond off s) :=
  okR_issue h (fun _ _ _ hs _ => ok_ite (ok_branchTo hs) hs)

theorem okR_execCall {n : Fin 32} {cond : BitVec 4} {off : BitVec 39} {s : State} (h : Ok v s) :
    OkR v (execCall n cond off s) :=
  okR_issue h (fun _ _ _ hs _ => ok_ite (ok_ite (ok_issueRefused hs)
      (ok_branchTo (ok_setCore hs { (coreOk_core hs) with }))) hs)

theorem okR_execRet {n : Fin 32} {s : State} (h : Ok v s) : OkR v (execRet n s) := by
  refine okR_issue h ?_
  intro t j pc ht hj
  dsimp only
  split
  · exact ok_issueRefused ht
  · exact ok_branchTo (ok_setCore ht { (coreOk_core ht) with })

theorem okR_execMov {n : Fin 32} {d a : BitVec 5} {s : State} (h : Ok v s) : OkR v (execMov n d a s) :=
  okR_simple h (fun _ hs => coreOk_setS hs)

theorem okR_execMovi {n : Fin 32} {d : BitVec 5} {imm : BitVec 40} {s : State} (h : Ok v s) :
    OkR v (execMovi n d imm s) :=
  okR_simple h (fun _ hs => coreOk_setS hs)

theorem okR_execMovl {n : Fin 32} {d : BitVec 5} {imm ext : BitVec 32} {s : State} (h : Ok v s) :
    OkR v (execMovl n d imm ext s) :=
  okR_issue h (fun _ _ _ hs _ => ok_modCore hs (fun _ hy => coreOk_setS hy))

theorem okR_alu {s : State} {n : Fin 32} {d a b : BitVec 5} {f : W64 → W64 → W64} (h : Ok v s) :
    OkR v (s.alu n d a b f) :=
  okR_simple h (fun _ hs => coreOk_setS hs)

theorem okR_alui {s : State} {n : Fin 32} {d a : BitVec 5} {imm : BitVec 40} {legal : Bool} {f : W64 → W64 → W64}
    (h : Ok v s) : OkR v (s.alui n d a imm legal f) :=
  okR_simple h (fun _ hs => coreOk_setS hs)

theorem okR_execAdd {n : Fin 32} {d a b : BitVec 5} {s : State} (h : Ok v s) : OkR v (execAdd n d a b s) :=
  okR_alu h

theorem okR_execSub {n : Fin 32} {d a b : BitVec 5} {s : State} (h : Ok v s) : OkR v (execSub n d a b s) :=
  okR_alu h

theorem okR_execMul {n : Fin 32} {d a b : BitVec 5} {s : State} (h : Ok v s) : OkR v (execMul n d a b s) :=
  okR_alu h

theorem okR_execAnd {n : Fin 32} {d a b : BitVec 5} {s : State} (h : Ok v s) : OkR v (execAnd n d a b s) :=
  okR_alu h

theorem okR_execOr {n : Fin 32} {d a b : BitVec 5} {s : State} (h : Ok v s) : OkR v (execOr n d a b s) :=
  okR_alu h

theorem okR_execXor {n : Fin 32} {d a b : BitVec 5} {s : State} (h : Ok v s) : OkR v (execXor n d a b s) :=
  okR_alu h

theorem okR_execShl {n : Fin 32} {d a b : BitVec 5} {s : State} (h : Ok v s) : OkR v (execShl n d a b s) :=
  okR_alu h

theorem okR_execShr {n : Fin 32} {d a b : BitVec 5} {s : State} (h : Ok v s) : OkR v (execShr n d a b s) :=
  okR_alu h

theorem okR_execSar {n : Fin 32} {d a b : BitVec 5} {s : State} (h : Ok v s) : OkR v (execSar n d a b s) :=
  okR_alu h

theorem okR_execMin {n : Fin 32} {d a b : BitVec 5} {s : State} (h : Ok v s) : OkR v (execMin n d a b s) :=
  okR_alu h

theorem okR_execMax {n : Fin 32} {d a b : BitVec 5} {s : State} (h : Ok v s) : OkR v (execMax n d a b s) :=
  okR_alu h

theorem okR_execMinu {n : Fin 32} {d a b : BitVec 5} {s : State} (h : Ok v s) : OkR v (execMinu n d a b s) :=
  okR_alu h

theorem okR_execMaxu {n : Fin 32} {d a b : BitVec 5} {s : State} (h : Ok v s) : OkR v (execMaxu n d a b s) :=
  okR_alu h

theorem okR_execCmp {n : Fin 32} {a b : BitVec 5} {s : State} (h : Ok v s) : OkR v (execCmp n a b s) :=
  okR_simple h (fun _ hs => coreOk_compare hs)

theorem okR_execAddi {n : Fin 32} {d a : BitVec 5} {imm : BitVec 40} {s : State} (h : Ok v s) :
    OkR v (execAddi n d a imm s) :=
  okR_alui h

theorem okR_execSubi {n : Fin 32} {d a : BitVec 5} {imm : BitVec 40} {s : State} (h : Ok v s) :
    OkR v (execSubi n d a imm s) :=
  okR_alui h

theorem okR_execAndi {n : Fin 32} {d a : BitVec 5} {imm : BitVec 40} {s : State} (h : Ok v s) :
    OkR v (execAndi n d a imm s) :=
  okR_alui h

theorem okR_execOri {n : Fin 32} {d a : BitVec 5} {imm : BitVec 40} {s : State} (h : Ok v s) :
    OkR v (execOri n d a imm s) :=
  okR_alui h

theorem okR_execXori {n : Fin 32} {d a : BitVec 5} {imm : BitVec 40} {s : State} (h : Ok v s) :
    OkR v (execXori n d a imm s) :=
  okR_alui h

theorem okR_execShli {n : Fin 32} {d a : BitVec 5} {imm : BitVec 40} {s : State} (h : Ok v s) :
    OkR v (execShli n d a imm s) :=
  okR_alui h

theorem okR_execShri {n : Fin 32} {d a : BitVec 5} {imm : BitVec 40} {s : State} (h : Ok v s) :
    OkR v (execShri n d a imm s) :=
  okR_alui h

theorem okR_execSari {n : Fin 32} {d a : BitVec 5} {imm : BitVec 40} {s : State} (h : Ok v s) :
    OkR v (execSari n d a imm s) :=
  okR_alui h

theorem okR_execCmpi {n : Fin 32} {a : BitVec 5} {imm : BitVec 40} {s : State} (h : Ok v s) :
    OkR v (execCmpi n a imm s) :=
  okR_simple h (fun _ hs => coreOk_compare hs)

theorem okR_execMuli {n : Fin 32} {d a : BitVec 5} {imm : BitVec 40} {s : State} (h : Ok v s) :
    OkR v (execMuli n d a imm s) :=
  okR_alui h

theorem okR_execMova {n : Fin 32} {d a : BitVec 5} {s : State} (h : Ok v s) : OkR v (execMova n d a s) :=
  okR_simple h (fun _ hs => coreOk_setA hs)

theorem okR_execMovs {n : Fin 32} {d a : BitVec 5} {s : State} (h : Ok v s) : OkR v (execMovs n d a s) :=
  okR_simple h (fun _ hs => coreOk_setS hs)

theorem okR_execAdda {n : Fin 32} {d a b : BitVec 5} {s : State} (h : Ok v s) : OkR v (execAdda n d a b s) :=
  okR_simple h (fun _ hs => coreOk_setA hs)

theorem okR_execAddai {n : Fin 32} {d a : BitVec 5} {imm : BitVec 40} {s : State} (h : Ok v s) :
    OkR v (execAddai n d a imm s) :=
  okR_simple h (fun _ hs => coreOk_setA hs)

theorem okR_execLd {n : Fin 32} {d a : BitVec 5} {imm : BitVec 40} {s : State} (h : Ok v s) :
    OkR v (execLd n d a imm s) :=
  okR_issue h (fun _ _ _ hs _ => ok_ite (ok_issueRefused hs) (ok_ite (ok_settle (ok_jobFault (ok_noteLocal hs)))
      (ok_setCore (ok_noteLocal hs) (coreOk_setS (coreOk_core hs)))))

theorem okR_execSt {n : Fin 32} {d a : BitVec 5} {imm : BitVec 40} {s : State} (h : Ok v s) :
    OkR v (execSt n d a imm s) :=
  okR_issue h (fun _ _ _ hs _ => ok_ite (ok_issueRefused hs) (ok_osWrite hs))

/-! ### Synchronisation and takes -/

theorem ok_noteTable {s : State} {j : Job} {table : Nat} (h : Ok v s) : Ok v (s.noteTable j table) :=
  ok_foldl (fun _ _ hs => ok_ite (ok_noteT1 hs) hs) (ok_noteT1 (ok_noteT1 h))

theorem ok_postAnswer {s : State} {ctx : Nat} {a : Answer} (h : Ok v s) : Ok v (s.postAnswer ctx a) := by
  unfold State.postAnswer
  split
  · exact h
  · exact ok_ite (ok_modJob (ok_complete (ok_modJob h (fun _ hj => { hj with }))) (fun _ hj => { hj with }))
      (ok_emit (ok_modJob h (fun _ hj => { hj with })))

theorem ok_detachLeaving {s : State} {ctx : Nat} (h : Ok v s) : Ok v (s.detachLeaving ctx) := by
  unfold State.detachLeaving
  split
  · exact h
  · exact ok_completeAll (ok_modJob h (fun _ hj => { hj with }))

theorem ok_admitFrom {n : Nat} {s : State} {ctx table k at_ : Nat} {reqs : List Nat} (h : Ok v s) :
    Ok v (s.admitFrom n ctx table k at_ reqs).1 := by
  induction reqs generalizing n s k at_ with
  | nil => exact h
  | cons u rest ih =>
    unfold State.admitFrom
    split
    · dsimp only
      split
      · refine ih (ok_complete (ok_modJob h ?_))
        exact fun _ hj => { hj with }
      · split
        · exact h
        · refine ih (ok_modCmd (ok_modJob (ok_t1Encode (ok_modJob (ok_t1Encode (ok_modJob h ?_)) ?_)) ?_) fun _ hc =>
            hc)
          · exact fun _ hj => { hj with writable := memOk_t1Merge hj.writable }
          · exact fun _ hj => { hj with writable := memOk_t1Merge hj.writable }
          · exact fun _ hj => { hj with }
    · exact h

theorem ok_resumeCores {s : State} {ctx : Nat} (h : Ok v s) : Ok v (s.resumeCores ctx) := by
  unfold State.resumeCores
  split
  · exact h
  · exact ok_modJob (ok_foldl (fun _ _ hs => ok_modCore hs (fun _ hy => { hy with })) h) (fun _ hj => { hj with })

theorem ok_admitAll {s : State} {ctx places table : Nat} (h : Ok v s) : Ok v (s.admitAll ctx places table) := by
  unfold State.admitAll
  split
  · exact h
  · exact ok_releaseIdents (ok_resumeCores (ok_setAdmitted (ok_admitFrom h)))

theorem ok_noteSave {s : State} {j : Job} (h : Ok v s) : Ok v (s.noteSave j) :=
  ok_foldl (fun _ _ hs => ok_noteLocal hs) h

theorem ok_doCut {s : State} {ctx : Nat} (h : Ok v s) : Ok v (s.doCut ctx) := by
  unfold State.doCut
  split
  · exact h
  · dsimp only
    split
    · exact ok_jobFault (ok_noteSave h)
    · split
      · exact ok_takeCut (ok_noteSave h)
      · split
        · exact ok_endJob (ok_takeCut (ok_noteSave h))
        · exact ok_yieldJob (ok_takeCut (ok_noteSave h))
        · exact ok_resumeCores (ok_takeCut (ok_noteSave h))

theorem ok_doTake {s : State} {ctx places table : Nat} (h : Ok v s) : Ok v (s.doTake ctx places table) := by
  unfold State.doTake
  split
  · exact h
  · extract_lets lost t answers read u w x y
    have ht : Ok v t := ok_noteSave (ok_ite h (ok_noteTable h))
    have hy : Ok v y := ok_releaseIdents (ok_detachLeaving (ok_foldl (fun _ _ hs => ok_postAnswer hs)
      (ok_takeCut (ok_modJob ht fun _ hj => { hj with }))))
    refine ok_ite (ok_jobFault ht) (ok_ite (ok_failJob ht) ?_)
    split
    · exact hy
    · split
      · exact ok_endJob (ok_setAdmitted hy)
      · exact ok_yieldJob (ok_setAdmitted hy)
      · dsimp only
        split
        · exact ok_admitAll hy
        · exact ok_ite (ok_admitAll hy) (ok_modJob (ok_commitReady hy) fun _ hj => { hj with })

theorem ok_collective {s : State} {ctx : Nat} (h : Ok v s) : Ok v (s.collective ctx) := by
  unfold State.collective
  split
  · exact h
  · refine ok_ite h ?_
    split
    · exact h
    · refine ok_ite (ok_failJob h) (ok_ite h ?_)
      split
      · exact ok_foldl (fun _ _ ht => ok_modCore ht fun _ hc => { hc with }) h
      · exact ok_doCut h
      · exact ok_doTake h
      · exact ok_endJob h
      · exact h
      · exact h

theorem ok_settleCore {s : State} {n : Nat} (h : Ok v s) : Ok v (s.settleCore n) := by
  unfold State.settleCore
  dsimp only
  split
  · exact ok_settle (ok_collective (ok_modCore h (fun _ hc => coreOk_unhold hc)))
  · exact ok_settle (ok_modCore h (fun _ hc => coreOk_unhold hc))

theorem ok_holdAt {s : State} {n : Nat} {handle : Hold} (h : Ok v s) : Ok v (s.holdAt n handle) :=
  ok_settleCore (ok_modCore h (fun _ hc => { (coreOk_endSweep hc) with }))

theorem okR_execFenceU {n : Fin 32} {s : State} (h : Ok v s) : OkR v (execFenceU n s) :=
  okR_issue h (fun _ _ _ hs _ => ok_holdAt hs)

theorem okR_execBar {n : Fin 32} {s : State} (h : Ok v s) : OkR v (execBar n s) :=
  okR_issue h (fun _ _ _ hs _ => ok_holdAt hs)

theorem okR_execCut {n : Fin 32} {s : State} (h : Ok v s) : OkR v (execCut n s) :=
  okR_issue h (fun _ _ _ hs _ => ok_holdAt hs)

theorem okR_execTake {n : Fin 32} {a b : BitVec 5} {s : State} (h : Ok v s) : OkR v (execTake n a b s) :=
  okR_issue h (fun _ _ _ hs _ => ok_ite (ok_settle (ok_failJob hs)) (ok_holdAt hs))

theorem okR_execEndI {n : Fin 32} {s : State} (h : Ok v s) : OkR v (execEndI n s) :=
  okR_issue h (fun _ _ _ hs _ => ok_holdAt hs)

theorem okR_execSysrd {n : Fin 32} {d : BitVec 5} {imm : BitVec 40} {s : State} (h : Ok v s) :
    OkR v (execSysrd n d imm s) := by
  refine okR_issue h ?_
  intro t j pc ht hj
  split
  · exact ok_modCore ht (fun _ hc => coreOk_setS hc)
  · exact ok_issueRefused ht

theorem okR_execRegionEnd {ctx overrun : Nat} {s : State} (h : Ok v s) : OkR v (execRegionEnd ctx overrun s) := by
  unfold execRegionEnd
  split
  · exact okR_next h
  · split
    · exact okR_next h
    · extract_lets excess t
      have ht : Ok v t := ok_modJob h fun _ hj => { hj with }
      refine okR_ite (okR_next (ok_settle (ok_failJob ht))) ?_
      split
      · exact okR_next (ok_settle (ok_admitAll ht))
      · exact okR_next ht

theorem okR_execBudgetExpiry {n : Fin 32} {s : State} (h : Ok v s) : OkR v (execBudgetExpiry n s) := by
  unfold execBudgetExpiry
  split
  · exact okR_next h
  · extract_lets t u w
    have ht : Ok v t := ok_spend h
    have hu : Ok v u := ok_foldl (fun _ _ hs => ok_modCore hs fun _ hc => { hc with }) ht
    have hw : Ok v w := ok_foldl (fun _ _ hs => ok_modCore hs fun _ hc => { hc with }) ht
    exact okR_ite (okR_next h) (okR_ite (okR_next (ok_modJob ht fun _ hj => { hj with }))
      (okR_ite (okR_next (ok_showJob (ok_modJob hu fun _ hj => { hj with })))
          (okR_next (ok_modJob hw fun _ hj => { hj with }))))

theorem okR_execCutGraceExpiry {n : Fin 32} {s : State} (h : Ok v s) : OkR v (execCutGraceExpiry n s) := by
  unfold execCutGraceExpiry
  split
  · exact okR_next h
  · exact okR_ite (okR_next h) (okR_ite (okR_next (ok_settle (ok_endJob (ok_spend h))))
      (okR_next (ok_settle (ok_failJob (ok_spend h)))))

/-! ### Job commands -/

theorem ok_newHandle {s : State} {kind num : Nat} (h : Ok v s) : Ok v (s.newHandle kind num).2 :=
  { h with }

theorem ok_fitShare {fuel : Nat} {s : State} {p : Nat} (h : Ok v s) : Ok v (s.fitShare fuel p) := by
  induction fuel generalizing s p with
  | zero =>
    unfold State.fitShare
    exact h
  | succ n ih =>
    unfold State.fitShare
    split
    · exact h
    · split
      · exact ih (ok_unclaim h)
      · exact h

theorem jobOk_jobOf {s : State} {pod ctx uid : Nat} {payload : List Byte} : JobOk v (s.jobOf pod ctx uid payload) :=
  { program := memOk_ofList, writable := memOk_nil, lastCut := opt_none, prevCut := opt_none }

theorem ok_loadJob {s : State} {c : Cmd} {ctx : Nat} (h : Ok v s) : Ok v (s.loadJob c ctx) := by
  unfold State.loadJob
  split
  · exact h
  · rename_i q _
    dsimp only
    split
    · exact ok_refuse h
    · have ht : Ok v (s.newHandle 4 ctx).2.later := ok_later (ok_newHandle h)
      have hj : JobOk v (s.jobOf q.pod ctx c.uid c.payload) := jobOk_jobOf
      exact ok_fitShare (ok_modCmd { ht with
        jobs := each_append ht.jobs (each_cons { hj with } each_nil) } fun _ hm => hm)

theorem okR_execSubmitJob {cmd ctx : Nat} {s : State} (h : Ok v s) : OkR v (execSubmitJob cmd ctx s) :=
  okR_onCmd h (fun _ _ => ok_ite h (ok_ite h (ok_loadJob h)))

theorem ok_request {s : State} {c : Cmd} {j : Job} (h : Ok v s) : Ok v (s.request c j) :=
  ok_ite (ok_complete h) (ok_ite (ok_fail h) (ok_ite h (ok_modJob h (fun _ hj => { hj with }))))

theorem okR_execInvoke {cmd : Nat} {s : State} (h : Ok v s) : OkR v (execInvoke cmd s) := by
  refine okR_onCmd h ?_
  intro x hx
  split
  · exact ok_request h
  · exact ok_fail h

theorem okR_execSearch {cmd : Nat} {s : State} (h : Ok v s) : OkR v (execSearch cmd s) := by
  refine okR_onCmd h ?_
  intro x hx
  split
  · exact ok_request h
  · exact ok_fail h

theorem ok_reclaim {s : State} {c : Cmd} (h : Ok v s) : Ok v (s.reclaim c) := by
  unfold State.reclaim
  split
  · exact ok_fail h
  · extract_lets since t u w
    have hu : Ok v u := ok_modJob (ok_modCmd h fun _ hm => hm) fun _ hj => { hj with }
    have hw : Ok v w := ok_ite hu (ok_foldl (fun _ _ hs => ok_modCore hs fun _ hc => { hc with }) hu)
    exact ok_ite (ok_fail h) (ok_ite h (ok_ite (ok_endJob hu) (ok_showJob (ok_modJob hw fun _ hj => { hj with }))))

theorem okR_execReclaim {cmd : Nat} {s : State} (h : Ok v s) : OkR v (execReclaim cmd s) :=
  okR_onCmd h (fun _ _ => ok_reclaim h)

theorem ok_stopJob {s : State} {c : Cmd} (h : Ok v s) : Ok v (s.stopJob c) := by
  unfold State.stopJob
  split
  · exact ok_fail h
  · exact ok_ite h (ok_ite (ok_collect (ok_completeAll (ok_modJob (ok_modCmd h (fun _ hm => hm))
      (fun _ hj => { hj with })))) (ok_releaseIdents (ok_completeAll
      (ok_modJob (ok_modCmd h (fun _ hm => hm)) (fun _ hj => { hj with })))))

theorem okR_execEndJob {cmd : Nat} {s : State} (h : Ok v s) : OkR v (execEndJob cmd s) :=
  okR_onCmd h (fun _ _ => ok_stopJob h)

theorem okR_execJobStart {ctx : Nat} {cores : List (Fin 32)} {s : State} (h : Ok v s) :
    OkR v (execJobStart ctx cores s) := by
  unfold execJobStart
  split
  · exact okR_next h
  · exact okR_ite (okR_next (ok_settle (ok_startJob h))) (okR_next h)

/-! ### Ports and frames -/

theorem ok_sendKey {s : State} {port : Nat} (h : Ok v s) : Ok v (s.sendKey port) := by
  unfold State.sendKey
  exact ok_modPort (ok_fresh h)

theorem ok_startKey {s : State} {port : Nat} (h : Ok v s) : Ok v (s.startKey port) :=
  ok_ite (ok_sendKey h) h

theorem ok_putFrame {s : State} {port : Nat} {f : Frame} (h : Ok v s) : Ok v (s.putFrame port f) := by
  unfold State.putFrame
  extract_lets n t g due u w _ x
  have hu : Ok v u := ok_modPort (ok_modPort (ok_fresh h))
  have hw : Ok v w := ok_ite (ok_startKey hu) hu
  have hx : Ok v x := { hw with spool := { hw.spool with } }
  exact ok_count hx

theorem ok_sendFrame {s : State} {port req : Nat} {f : Frame} (h : Ok v s) : Ok v (s.sendFrame port req f) :=
  ok_modPort h

theorem ok_sendNext {s : State} {port req cls : Nat} (h : Ok v s) : Ok v (s.sendNext port req cls) := by
  unfold State.sendNext
  split
  · exact h
  · exact ok_modArb (ok_putFrame (ok_modPort h))

theorem ok_abortFrame {s : State} {port req : Nat} {f : Frame} (h : Ok v s) : Ok v (s.abortFrame port req f) := by
  unfold State.abortFrame
  extract_lets same t
  have ht : Ok v t := ok_modPort h
  exact { ht with spool := { ht.spool with } }

theorem opt_routeOut {s : State} {f : Frame} (h : Ok v s) : ∀ y ∈ s.routeOut f, Ok v y :=
  opt_map (fun _ _ => h) (fun _ _ => ok_sendFrame h)

theorem ok_respond {s : State} {f : Frame} (h : Ok v s) : Ok v (s.respond f) :=
  ok_getD (opt_routeOut h) (ok_spoolEvent h)

theorem ok_service {s : State} {n : Nat} (h : Ok v s) : Ok v (s.service n) :=
  { h with spool := { h.spool with } }

theorem inboxOk_inbox {s : State} {p : Nat} (h : Ok v s) : InboxOk v (s.inbox p) := by
  unfold State.inbox
  split
  · exact memOk_nil
  · exact each_getD h.spool.inboxes memOk_nil

theorem ok_modInbox {s : State} {p : Nat} {f : Inbox → Inbox} (h : Ok v s) (hf : ∀ x, InboxOk v x → InboxOk v (f x))
    : Ok v (s.modInbox p f) :=
  { h with spool := { h.spool with
      inboxes := each_set h.spool.inboxes (hf _ (inboxOk_inbox h)), inboxCount := length_set h.spool.inboxCount } }

theorem ok_repairFrame {s : State} {copy off n : Nat} (h : Ok v s) : Ok v (s.repairFrame copy off n) :=
  ok_ite (ok_t1Renew (ok_noteT1 h)) (ok_noteT1 h)

theorem ok_serveWrite {s : State} {tenant off : Nat} {bs : List Byte} (h : Ok v s) :
    Ok v (s.serveWrite tenant off bs).2 := by
  unfold State.serveWrite
  split
  · exact h
  · exact ok_t1Encode (ok_modInbox h (fun _ hb => memOk_t1Merge hb))

/-! ### The mover -/

theorem okR_mvIssue {s : State} {n : Fin 32} {d a b c : BitVec 5} {imm : BitVec 32} {direct : Bool} {mode : XMode}
    {store : Bool} (h : Ok v s) : OkR v (s.mvIssue n d a b c imm direct mode store) := by
  refine okR_issue h fun t j pc ht _ => ok_ite (ok_issueRefused ht) ?_
  have hu : Ok v (t.noteLocal n.val ((t.core n.val).sreg c).toNat 32) := ok_noteLocal ht
  refine ok_ite (ok_settle (ok_jobFault hu)) (ok_ite (ok_issueRefused hu) (ok_setCore hu ?_))
  have hc : CoreOk v (t.core n.val) := coreOk_core ht
  exact { hc with }

theorem okR_execMvLoad {n : Fin 32} {d a b c : BitVec 5} {imm : BitVec 32} {direct : Bool} {s : State} (h : Ok v s) :
    OkR v (execMvLoad n d a b c imm direct s) :=
  okR_mvIssue h

theorem okR_execMvStore {n : Fin 32} {d a b c : BitVec 5} {imm : BitVec 32} {direct : Bool} {s : State} (h : Ok v s)
    : OkR v (execMvStore n d a b c imm direct s) :=
  okR_mvIssue h

theorem okR_execMvSpread {n : Fin 32} {d a b c : BitVec 5} {imm : BitVec 32} {direct : Bool} {s : State} (h : Ok v s)
    : OkR v (execMvSpread n d a b c imm direct s) :=
  okR_mvIssue h

theorem okR_execMvTload {n : Fin 32} {d a b c : BitVec 5} {imm : BitVec 32} {direct : Bool} {s : State} (h : Ok v s)
    : OkR v (execMvTload n d a b c imm direct s) :=
  okR_mvIssue h

theorem okR_execMvTstore {n : Fin 32} {d a b c : BitVec 5} {imm : BitVec 32} {direct : Bool} {s : State} (h : Ok v s)
    : OkR v (execMvTstore n d a b c imm direct s) :=
  okR_mvIssue h

theorem okR_execMvWait {n : Fin 32} {d : BitVec 5} {s : State} (h : Ok v s) : OkR v (execMvWait n d s) :=
  okR_issue h (fun _ _ _ hs _ => ok_settleCore (ok_modCore hs (fun _ hc => { hc with })))

theorem okR_execMvStat {n : Fin 32} {d a : BitVec 5} {s : State} (h : Ok v s) : OkR v (execMvStat n d a s) :=
  okR_issue h (fun _ _ _ hs _ => ok_modCore hs (fun _ hy => coreOk_setS hy))

theorem ok_modXfer {s : State} {n slot : Nat} {f : Xfer → Xfer} (h : Ok v s) : Ok v (s.modXfer n slot f) :=
  ok_modCore h (fun _ hc => coreOk_setXfer hc)

theorem ok_failXfer {s : State} {n slot : Nat} (h : Ok v s) : Ok v (s.failXfer n slot) :=
  ok_modXfer h

theorem opt_barred {s : State} {n slot : Nat} {j : Job} {x : Xfer} (h : Ok v s) :
    ∀ y ∈ s.barred n slot j x, Ok v y := by
  unfold State.barred
  dsimp only
  split
  · exact opt_some (ok_accessFault (ok_failXfer h))
  · split
    · exact opt_none
    · exact opt_some (ok_failJob (ok_modJob (ok_ite (ok_spoolEvent h) h) fun _ hj => { hj with }))

theorem ok_reach {s : State} {n slot : Nat} {begun : List (Nat × Nat)} (h : Ok v s) :
    Ok v (s.reach n slot begun) := by
  unfold State.reach
  split
  · exact h
  · dsimp only
    split
    · exact h
    · split
      · rename_i found
        exact (opt_barred h) _ found
      · exact ok_ite (ok_failJob (ok_failXfer h)) (ok_ite (ok_foldl (fun _ _ hs => ok_claimPage hs)
          (ok_foldl (fun _ _ hs => ok_usePage (ok_moveCursor hs)) h))
          (ok_modXfer (ok_foldl (fun _ _ hs => ok_claimPage hs)
          (ok_foldl (fun _ _ hs => ok_usePage (ok_moveCursor hs)) h))))

theorem okR_execTransferStart {n : Fin 32} {x : Fin 8} {s : State} (h : Ok v s) :
    OkR v (execTransferStart n x s) := by
  unfold execTransferStart
  dsimp only
  split
  · exact okR_next h
  · exact okR_ite (okR_next h) (okR_next (ok_settleCore (ok_settlePages (ok_reach (ok_modXfer h)))))

theorem ok_notePiece {s : State} {j : Job} {a : Nat} (h : Ok v s) : Ok v (s.notePiece j a) := by
  unfold State.notePiece
  split
  · exact ok_noteT1 h
  · exact ok_noteT1 h
  · exact ok_repairFrame h
  · split
    · exact ok_noteT1 h
    · exact h
  · exact h

theorem ok_nakFail {s : State} {n slot ctx addr : Nat} {st : Status} (h : Ok v s) :
    Ok v (s.nakFail n slot ctx addr st) := by
  unfold State.nakFail
  split
  · exact ok_accessFault (ok_failXfer h)
  · exact ok_failJob (ok_failXfer h)
  · exact ok_failJob h

theorem ok_chargeBeat {s : State} {n : Nat} {j : Job} {x : Xfer} (h : Ok v s) : Ok v (s.chargeBeat n j x) :=
  ok_modJob (ok_count h) (fun _ hj => { hj with })

theorem ok_loadBeat {s : State} {n slot : Nat} {j : Job} {x : Xfer} (h : Ok v s) : Ok v (s.loadBeat n slot j x) := by
  unfold State.loadBeat
  dsimp only
  split
  · exact ok_nakFail (ok_ite (ok_spoolEvent (ok_foldl (fun _ _ hs => ok_notePiece hs) h))
      (ok_foldl (fun _ _ hs => ok_notePiece hs) h))
  · exact ok_jobFault (ok_foldl (fun _ _ hs => ok_notePiece hs) h)
  · exact ok_reach (ok_modXfer (ok_localWrite (ok_chargeBeat (ok_foldl (fun _ _ hs => ok_notePiece hs) h))))

theorem ok_noteBeat {s : State} {n : Nat} {x : Xfer} {m : Nat} (h : Ok v s) : Ok v (s.noteBeat n x m) :=
  ok_foldl (fun _ _ hs => ok_noteLocal hs) h

theorem ok_storeBeat {s : State} {n slot port : Nat} {j : Job} {x : Xfer} (h : Ok v s) :
    Ok v (s.storeBeat n slot port j x) := by
  unfold State.storeBeat
  dsimp only
  split
  · exact ok_jobFault (ok_noteBeat h)
  · split
    · split
      · rename_i found
        exact ok_nakFail (ok_spoolEvent (of_snd (ok_serveWrite (ok_noteBeat h)) found))
      · rename_i found'
        exact ok_reach (ok_modXfer (ok_chargeBeat (of_snd (ok_serveWrite (ok_noteBeat h)) found')))
      · rename_i found''
        exact of_snd (ok_serveWrite (ok_noteBeat h)) found''
      · rename_i found'''
        exact of_snd (ok_serveWrite (ok_noteBeat h)) found'''
    · exact ok_reach (ok_modXfer (ok_t1Write (ok_modJob (ok_chargeBeat (ok_noteBeat h))
        (fun _ hj => { hj with writable := memOk_write hj.writable }))))

theorem ok_remoteProgress {s : State} {n slot : Nat} (h : Ok v s) : Ok v (s.remoteProgress n slot) := by
  unfold State.remoteProgress
  exact ok_modXfer h

theorem ok_chargeFrame {s : State} {ctx n : Nat} (h : Ok v s) : Ok v (s.chargeFrame ctx n) :=
  ok_modJob h (fun _ hj => { hj with })

theorem ok_ask {s : State} {j : Job} {x : Xfer} {r : RemoteReq} {asked : Nat} (h : Ok v s) :
    Ok v (s.ask j x r asked) := by
  unfold State.ask
  split
  · exact ok_failJob (ok_spoolEvent h)
  · extract_lets f t _ u w
    have ht : Ok v t := ok_putFrame h
    have hu : Ok v u := { ht with spool := { ht.spool with } }
    exact ok_ite h (ok_modXfer (ok_chargeFrame (ok_modArb hu)))

theorem ok_sendRemote {s : State} {n slot : Nat} {j : Job} {x : Xfer} (h : Ok v s) : Ok v (s.sendRemote n slot j x) :=
  ok_ite h (ok_ite (ok_ite h (ok_ask h)) (ok_ite h (ok_ite (ok_jobFault
      (ok_ite (ok_foldl (fun _ _ hs => ok_noteBeat hs) h) h))
      (ok_ask (ok_ite (ok_foldl (fun _ _ hs => ok_noteBeat hs) h) h)))))

theorem ok_spillBeats {s : State} {n k a : Nat} (h : Ok v s) : Ok v (s.spillBeats n k a) := by
  unfold State.spillBeats
  dsimp only
  split
  · exact ok_modArb (ok_count (ok_modCore h (fun _ hc => { hc with })))
  · exact ok_modJob (ok_modArb (ok_count (ok_modCore h (fun _ hc => { hc with })))) (fun _ hj => { hj with })

theorem ok_moveBeats {k : Nat} {s : State} {n slot a : Nat} (h : Ok v s) : Ok v (s.moveBeats k n slot a) := by
  induction k generalizing s with
  | zero => exact h
  | succ k ih =>
    unfold State.moveBeats
    split
    · exact h
    · dsimp only
      split
      · exact h
      · split
        · exact ok_sendRemote h
        · rename_i t ht _
          exact opt_barred h t ht
        · exact ih (ok_ite (ok_storeBeat (ok_count h)) (ok_loadBeat (ok_count h)))
        · exact ih (ok_loadBeat h)

theorem okR_execArbiterGrant {arb : Fin 66} {reqs : List GrantReq} {beats : Nat} {s : State} (h : Ok v s) :
    OkR v (execArbiterGrant arb reqs beats s) := by
  unfold execArbiterGrant
  extract_lets present
  split
  · exact okR_next h
  · extract_lets t u w n x y z a
    have hu : Ok v u := ok_count (ok_modArb h)
    have hw : Ok v w := ok_ite (ok_count hu) hu
    have hx : Ok v x := ok_sendNext hw
    have hz : Ok v z := ok_modCore (ok_modXfer hw) fun _ hc => { hc with }
    exact okR_ite (okR_next (ok_ite (ok_modXfer hx) hx)) (okR_ite (okR_next (ok_spillBeats hw))
      (okR_ite (okR_next (ok_settleCore (ok_settlePages (ok_moveBeats hz)))) (okR_next hw)))

theorem okR_execHoldCutOff {arb : Fin 66} {s : State} (h : Ok v s) : OkR v (execHoldCutOff arb s) := by
  unfold execHoldCutOff
  extract_lets b
  split
  · exact okR_next h
  · extract_lets n t u w x y
    have hu : Ok v u := ok_count (ok_modArb h)
    have hw : Ok v w := by
      dsimp only [w]
      split
      · exact ok_abortFrame hu
      · exact hu
    have hy : Ok v y := ok_count (ok_modXfer hw)
    refine okR_ite (okR_next h) (okR_ite ?_ (okR_next hw))
    split
    · exact okR_next hw
    · exact okR_ite (okR_next hw) (okR_ite (okR_next (ok_settle (ok_failJob hy))) (okR_next hy))

/-! ### The top-k unit -/

theorem length_tkInsert (score : Bool) (e : W64) (l : List W64) : (tkInsert score e l).length = l.length + 1 := by
  induction l with
  | nil => rfl
  | cons x t ih =>
    rw [tkInsert]
    split
    · rfl
    · exact congrArg (· + 1) ih

/-- An offer never makes a list longer than the unit's limit (R173). -/
theorem length_tkOffer {score : Bool} {k : Nat} {e : W64} {l : List W64} (h : l.length ≤ k) :
    (tkOffer score k e l).1.length ≤ k := by
  unfold tkOffer
  split
  · exact h
  · split
    · rw [length_tkInsert]
      omega
    · split
      · split
        · rename_i worst hlast _
          have : l ≠ [] := by rintro rfl; cases hlast
          rw [length_tkInsert, List.length_dropLast]
          have := List.length_pos_iff.mpr this
          omega
        · exact h
      · exact h

/-- The count of a lane is within the unit's limit (R173). -/
theorem count_le {t : TopK} {lane : Nat} (h : listsWf t = true) : t.count lane ≤ t.kLane := by
  have each := (listsWf_iff.mp h).2
  have : ∀ m : Sparse 16, (∀ p ∈ m, p.2.toNat ≤ t.kLane) → (Sparse.get m lane).toNat ≤ t.kLane := by
    intro m hm
    induction m with
    | nil => exact Nat.zero_le _
    | cons a m ih =>
      rw [Sparse.get_cons]
      split
      · exact hm a List.mem_cons_self
      · exact ih (fun p hp => hm p (List.mem_cons_of_mem _ hp))
  exact this _ each

theorem length_tkList (c : Core) (lane : Nat) : (c.tkList lane).length = c.topk.count lane := by
  simp [Core.tkList]

theorem ok_offer {s : State} {n lane : Nat} {e : W64} (h : Ok v s) : Ok v (s.offer n lane e) := by
  unfold State.offer
  refine ok_ite (ok_count (ok_setList h fun hv => length_tkOffer ?_)) h
  rw [length_tkList]
  exact count_le ((coreOk_core h).topk.lists hv)

theorem okR_execTkOn {n : Fin 32} {mod : BitVec 3} {imm : BitVec 40} {s : State} (h : Ok v s) :
    OkR v (execTkOn n mod imm s) := by
  refine okR_issue h fun t j pc ht hj => ?_
  split
  · exact ok_issueRefused ht
  · rename_i hk
    exact ok_modCore ht fun c hc => { hc with
      topk := ⟨memOk_nil, memOk_nil, fun _ => listsWf_iff.mpr ⟨by dsimp only; omega, fun _ hp => nomatch hp⟩⟩ }

theorem okR_execTkOff {n : Fin 32} {s : State} (h : Ok v s) : OkR v (execTkOff n s) :=
  okR_issue h (fun _ _ _ hs _ => ok_ite (ok_modCore hs (fun _ hc => { hc with topk := topkOk_reset }))
      (ok_issueRefused hs))

theorem coreOk_stripes {c : Core} {m : Mem} (hc : CoreOk v c) (hm : MemOk v m) :
    CoreOk v { c with topk := { c.topk with stripes := m } } :=
  { hc with topk := { hc.topk with stripes := hm } }

theorem okR_execTkStripe {n : Fin 32} {a : BitVec 5} {s : State} (h : Ok v s) : OkR v (execTkStripe n a s) := by
  refine okR_issue h fun t j pc ht _ => ok_ite (ok_issueRefused ht) ?_
  have hu : Ok v (t.noteLocal n.val ((t.core n.val).sreg a).toNat 512) := ok_noteLocal ht
  exact ok_ite (ok_settle (ok_jobFault hu))
    (ok_ite (ok_setCore hu (coreOk_stripes (coreOk_core ht) memOk_ofList)) (ok_issueRefused hu))

theorem okR_execTkClr {n : Fin 32} {a b : BitVec 5} {s : State} (h : Ok v s) : OkR v (execTkClr n a b s) := by
  refine okR_issue h fun t j pc ht hj => ?_
  dsimp only
  split
  · exact ok_issueRefused ht
  · have hc := coreOk_core (n := n.val) ht
    exact ok_setCore ht { hc with topk := topkOk_filter hc.topk }

theorem okR_execTkMerge {n : Fin 32} {d a b sc : BitVec 5} {imm : BitVec 32} {s : State} (h : Ok v s) :
    OkR v (execTkMerge n d a b sc imm s) :=
  okR_issue h (fun _ _ _ hy _ => ok_ite (ok_issueRefused hy) (ok_ite
      (ok_settle (ok_jobFault (ok_foldl (fun _ _ hs => ok_noteLocal hs) hy)))
      (ok_modCore (ok_osWrite (ok_foldl (fun _ _ hs => ok_noteLocal hs) hy)) (fun _ hc => coreOk_setS hc))))

/-! ### Epilogue instructions -/

theorem coreOk_setV {c : Core} {g : Guard} {val : BitVec 5} {vals : List W32} (hc : CoreOk v c) :
    CoreOk v (c.setV g val vals) :=
  { hc with vregs := memOk_splice hc.vregs }

theorem ok_fill {s : State} {vs : List (Option W32)} (h : Ok v s) : Ok v (s.fill vs).1 := by
  refine List.foldlRecOn (motive := fun (r : State × List W32) => Ok v r.1) _ _ h fun r hr x _ => ?_
  split
  · exact hr
  · exact ok_fresh hr

theorem coreOk_setSc {c : Core} {e off n val : Nat} (hc : CoreOk v c) : CoreOk v (c.setSc e off n val) :=
  { hc with scale := memOk_write hc.scale }

theorem memOk_putCode {image : Mem} {wide : Bool} {i code : Nat} (hmem : MemOk v image) :
    MemOk v (putCode image wide i code) :=
  memOk_ite (memOk_write hmem) (memOk_write hmem)

theorem vencOk_ite {c : Prop} [Decidable c] {x y : VencStep} (h : VencOk v x) (h' : VencOk v y) :
    VencOk v (if c then x else y) := by
  split
  · exact h
  · exact h'

theorem vencOk_vencElement {slot r t : Nat} {second act : Bool} {l : Nat} {x : W32} {val : VencStep}
    (hv : VencOk v val) :
    VencOk v (vencElement slot r t second act l x val) := by
  unfold vencElement
  extract_lets c size i sc tag b image image' c' e r' code
  have he : VencOk v e := vencOk_ite { hv with
    core := coreOk_setSc (coreOk_setSc hv.core), image := memOk_write (memOk_write hv.image) } hv
  exact vencOk_ite { he with image := memOk_putCode he.image } he

theorem coreOk_venc {c : Core} {slot : Nat} {g : Guard} {d a : BitVec 5} {mod : Nat} (hc : CoreOk v c) :
    CoreOk v (c.venc slot g d a mod) :=
  coreOk_setV (coreOk_setSc (coreOk_setSc (coreOk_setSc ((vencOk_foldl (fun _ _ hv => vencOk_vencElement hv)
      { core := hc, image := memOk_ite memOk_ofList memOk_nil }).core))))

theorem runStepOk_epiRefused {s : State} {j : Job} {t : Tile} (h : Ok v s) : RunStepOk v (s.epiRefused j t) :=
  runStepOk_ended (ok_issueRefused h)

theorem runStepOk_vmap {s : State} {n : Nat} {r : Run} {g : Guard} {d : BitVec 5} {vals : List W32} (h : Ok v s)
    (hr : RunOk v r) : RunStepOk v (s.vmap n r g d vals) :=
  runStepOk_ran (ok_modCore h (fun _ hc => coreOk_setV hc)) hr

theorem runStepOk_vmapFree {s : State} {n : Nat} {r : Run} {g : Guard} {d : BitVec 5} {vals : List (Option W32)}
    (h : Ok v s) (hr : RunOk v r) : RunStepOk v (s.vmapFree n r g d vals) :=
  runStepOk_vmap (ok_fill h) hr

theorem runStepOk_pset {s : State} {n : Nat} {r : Run} {g : Guard} {d : BitVec 5} {f : Nat → Bool} (h : Ok v s)
    (hr : RunOk v r) : RunStepOk v (s.pset n r g d f) :=
  runStepOk_ran (ok_setCore h { (coreOk_core h) with pregs := memOk_set ((coreOk_core h).pregs) }) hr

theorem coreOk_vpack {c : Core} {g : Guard} {d a : BitVec 5} {mod : Nat} (hc : CoreOk v c) :
    CoreOk v (c.vpack g d a mod) :=
  coreOk_setV hc

theorem runStepOk_runVracc {s : State} {n : Nat} {t : Tile} {r : Run} {g : Guard} {d : BitVec 5} {mod : Nat}
    (h : Ok v s) (hr : RunOk v r) : RunStepOk v (s.runVracc n t r g d mod) :=
  runStepOk_ite (runStepOk_vmapFree h hr) (runStepOk_vmap h hr)

theorem runStepOk_runVld {s : State} {n : Nat} {j : Job} {t : Tile} {r : Run} {d : BitVec 5} {imm : BitVec 40}
    (h : Ok v s) (hr : RunOk v r) : RunStepOk v (s.runVld n j t r d imm) :=
  runStepOk_ite (runStepOk_epiRefused h) (runStepOk_ite runStepOk_waits
      (runStepOk_ite (runStepOk_ended (ok_settle (ok_jobFault (ok_noteLocal h))))
      (runStepOk_vmap (ok_noteLocal h) hr)))

theorem runStepOk_runVst {s : State} {n : Nat} {j : Job} {t : Tile} {r : Run} {d : BitVec 5} {imm : BitVec 40}
    (h : Ok v s) (hr : RunOk v r) : RunStepOk v (s.runVst n j t r d imm) :=
  runStepOk_ite (runStepOk_epiRefused h) (runStepOk_ite runStepOk_waits (runStepOk_ran (ok_osWrite h) hr))

theorem runStepOk_runVtk {s : State} {n : Nat} {j : Job} {t : Tile} {r : Run} {g : Guard} {a b : BitVec 5}
    {mod : Nat} (h : Ok v s) (hr : RunOk v r) : RunStepOk v (s.runVtk n j t r g a b mod) := by
  unfold State.runVtk
  dsimp only
  split
  · exact runStepOk_epiRefused h
  · split
    · exact runStepOk_ended (ok_settle (ok_jobFault h))
    · refine runStepOk_ran ?_ hr
      refine ok_foldl ?_ h
      intro t' a' ht
      split
      · split
        · exact ok_offer ht
        · exact ht
      · exact ht

theorem runStepOk_runRstat {s : State} {n : Nat} {j : Job} {p : RunPlace} {r : Run} {g : Guard} {a : BitVec 5}
    {mod : Nat} (h : Ok v s) (hr : RunOk v r) : RunStepOk v (s.runRstat n j p r g a mod) :=
  runStepOk_ite (runStepOk_epiRefused h) (runStepOk_ran h { hr with })

theorem runStepOk_runRsget {s : State} {n : Nat} {j : Job} {p : RunPlace} {r : Run} {d : BitVec 5} (h : Ok v s)
    (hr : RunOk v r) : RunStepOk v (s.runRsget n j p r d) :=
  runStepOk_ite (runStepOk_epiRefused h) (runStepOk_vmap h { hr with })

theorem runStepOk_runEstore {s : State} {n : Nat} {j : Job} {t : Tile} {r : Run} {imm : BitVec 40} (h : Ok v s)
    (hr : RunOk v r) : RunStepOk v (s.runEstore n j t r imm) := by
  have hc : CoreOk v (s.core n) := coreOk_core h
  exact runStepOk_ite (runStepOk_epiRefused h) (runStepOk_ite runStepOk_waits
    (runStepOk_ran (ok_setCore h { hc with }) hr))

theorem runStepOk_runWord {s : State} {n : Nat} {j : Job} {p : RunPlace} {r : Run} {w : W64} (h : Ok v s)
    (hr : RunOk v r) : RunStepOk v (s.runWord n j p r w) := by
  unfold State.runWord
  split
  · exact runStepOk_runVracc h hr
  · exact runStepOk_runVld h hr
  · exact runStepOk_runVst h hr
  · exact runStepOk_vmap h hr
  · exact runStepOk_vmap h hr
  · exact runStepOk_vmap h hr
  · exact runStepOk_vmap h hr
  · exact runStepOk_vmap h hr
  · exact runStepOk_vmap h hr
  · exact runStepOk_vmap h hr
  · exact runStepOk_vmap h hr
  · exact runStepOk_vmapFree h hr
  · exact runStepOk_vmapFree h hr
  · dsimp only
    split
    · exact runStepOk_vmapFree h hr
    · exact runStepOk_vmap h hr
  · exact runStepOk_vmap h hr
  · exact runStepOk_vmap h hr
  · exact runStepOk_ran (ok_modCore h (fun _ hc => coreOk_vpack hc)) hr
  · exact runStepOk_vmap h hr
  · exact runStepOk_pset h hr
  · exact runStepOk_pset h hr
  · exact runStepOk_vmap h hr
  · exact runStepOk_runVtk h hr
  · exact runStepOk_runRstat h hr
  · exact runStepOk_runRsget h hr
  · exact runStepOk_ran (ok_modCore h (fun _ hc => coreOk_venc hc)) hr
  · exact runStepOk_runEstore h hr
  · exact runStepOk_ran h hr

theorem runStepOk_runWords {s : State} {n : Nat} {j : Job} {p : RunPlace} {r : Run} {ws : List W64} (h : Ok v s)
    (hr : RunOk v r) : RunStepOk v (s.runWords n j p r ws) := by
  induction ws generalizing s r with
  | nil => exact runStepOk_ran h hr
  | cons w t ih =>
    unfold State.runWords
    split
    · rename_i e
      exact ih (ok_of_ran (runStepOk_runWord h hr) e) { runOk_of_ran (runStepOk_runWord h hr) e with }
    · exact runStepOk_ran h hr
    · rename_i e
      exact runStepOk_ended (ok_of_ended (runStepOk_runWord h hr) e)

/-! ### Lane row passes -/

theorem memOk_accAfter {c : Core} {t : Tile} (hc : CoreOk v c) : MemOk v (c.accAfter t) :=
  memOk_foldl (fun _ _ hm => memOk_foldl (fun _ _ hy => memOk_set hy) hm) hc.acc

theorem ok_offerCodes {s : State} {n : Nat} {t : Tile} (h : Ok v s) : Ok v (s.offerCodes n t) :=
  ok_foldl (fun _ _ hs => ok_foldl (fun _ _ hy => ok_ite (ok_offer hy) hy) hs) h

theorem ok_feed {s : State} {n : Nat} {j : Job} {t : Tile} (h : Ok v s) : Ok v (s.feed n j t) := by
  have hc : CoreOk v (s.core n) := coreOk_core h
  unfold State.feed
  extract_lets c u skews skew w
  have hu : Ok v u := ok_ite h (ok_foldl (fun _ _ hs => ok_noteLocal hs) h)
  have hw : Ok v w := ok_ite (ok_offerCodes hu) (ok_setCore hu { hc with acc := memOk_accAfter hc })
  refine ok_ite (ok_jobFault hu) ?_
  clear_value skew
  split
  · exact ok_failJob (ok_modJob hu fun _ hj => { hj with })
  · exact ok_ite (ok_modCore hw fun _ hc => { hc with }) hw

theorem coreOk_sweepPass {c : Core} {t : Tile} (hc : CoreOk v c) : CoreOk v (c.sweepPass t) := by
  unfold Core.sweepPass
  split
  · exact coreOk_endSweep { hc with }
  · dsimp only
    split
    · exact { { hc with } with }
    · exact { (coreOk_endSweep { hc with }) with }

theorem okR_passIssue {s : State} {n : Fin 32} {m : PassMode} {d a b : BitVec 5} (h : Ok v s) :
    OkR v (s.passIssue n m d a b) := by
  refine okR_issueEnding h fun s' j pc hs _ => ?_
  extract_lets c at_ t t' u
  have hc : CoreOk v c := coreOk_core hs
  have ht : Ok v t := ok_noteLocal hs
  have hu : Ok v u := ok_setCore ht (coreOk_sweepPass hc)
  exact ok_ite (ok_issueRefused hs) (ok_ite (ok_settle (ok_jobFault ht)) (ok_ite (ok_issueRefused ht)
    (ok_ite (ok_modCore hu fun _ hc => { hc with }) (ok_settleCore (ok_feed hu)))))

theorem okR_execPassFp8 {n : Fin 32} {d a b : BitVec 5} {s : State} (h : Ok v s) : OkR v (execPassFp8 n d a b s) :=
  okR_passIssue h

theorem okR_execPassBf16c {n : Fin 32} {d a b : BitVec 5} {s : State} (h : Ok v s) :
    OkR v (execPassBf16c n d a b s) :=
  okR_passIssue h

theorem okR_execPassBf16 {n : Fin 32} {d a b : BitVec 5} {s : State} (h : Ok v s) : OkR v (execPassBf16 n d a b s) :=
  okR_passIssue h

theorem okR_execPassBin {n : Fin 32} {d a b : BitVec 5} {s : State} (h : Ok v s) : OkR v (execPassBin n d a b s) :=
  okR_passIssue h

theorem ok_saveSlot {s : State} {n k i : Nat} (h : Ok v s) : Ok v (s.saveSlot n k i) := by
  unfold State.saveSlot
  dsimp only
  split
  · exact ok_osWrite h
  · exact ok_t1Encode (ok_setCore h { (coreOk_core h) with spill := memOk_write ((coreOk_core h).spill) })

theorem coreOk_vregs {c : Core} {m : Sparse 32} {k : Nat} (hc : CoreOk v c) (hm : MemOk v m) :
    CoreOk v { c with vregs := m, spilling := k } :=
  { hc with vregs := hm }

theorem runStepOk_restoreSlot {s : State} {n : Nat} {j : Job} {k i : Nat} {r : Run} (h : Ok v s) (hr : RunOk v r) :
    RunStepOk v (s.restoreSlot n j k i r) := by
  unfold State.restoreSlot
  dsimp only
  split
  · exact runStepOk_ite (runStepOk_ended (ok_settle (ok_jobFault (ok_noteLocal h))))
      (runStepOk_ran (ok_modCore (ok_noteLocal h) fun c hc => coreOk_vregs hc memOk_ofList) hr)
  · exact runStepOk_ite (runStepOk_ended (ok_settle (ok_jobFault (ok_noteT1 h))))
      (runStepOk_ran (ok_modCore (ok_noteT1 h) fun c hc => coreOk_vregs hc memOk_ofList) hr)

theorem coreOk_dropSweeps {c : Core} (hc : CoreOk v c) : CoreOk v c.dropSweeps :=
  { hc with }

theorem ok_endRun {s : State} {n k i : Nat} {r : Run} (h : Ok v s) : Ok v (s.endRun n k i r) := by
  unfold State.endRun
  split
  · exact h
  · exact ok_modCore (ok_ite (ok_saveSlot (ok_modCore h (fun _ hc => { hc with })))
      (ok_modCore h (fun _ hc => { hc with }))) (fun _ hc => coreOk_dropSweeps hc)

theorem runOk_newRun {c : Core} {d : DueRun} (hc : CoreOk v c) : RunOk v (c.newRun d) :=
  { vregs := hc.vregs, pregs := hc.pregs }

theorem runStepOk_beginRun {s : State} {n : Nat} {j : Job} {d : DueRun} (h : Ok v s) :
    RunStepOk v (s.beginRun n j d) := by
  have hc : CoreOk v (s.core n) := coreOk_core h
  unfold State.beginRun
  dsimp only
  split
  · rename_i r hr
    exact runStepOk_ran h (hc.run r hr)
  · exact runStepOk_ran h (runOk_newRun hc)
  · exact runStepOk_ite (runStepOk_restoreSlot h (runOk_newRun hc)) (runStepOk_ran h (runOk_newRun hc))

theorem ok_finishedRun {s : State} {n : Nat} {j : Job} {d : DueRun} {r : Run} (h : Ok v s) :
    Ok v (s.finishedRun n j d r) := by
  unfold State.finishedRun
  extract_lets t u
  have ht : Ok v t := ok_modCore h fun _ hc => { hc with run := opt_none }
  have hu : Ok v u := ok_ite (ok_modCore ht fun _ hc => { hc with }) ht
  refine ok_ite (ok_feed (ok_modCore ht fun _ hc => { hc with })) ?_
  split
  · exact ok_endRun hu
  · exact hu

theorem okR_carryRun {s : State} {n : Nat} {j : Job} {d : DueRun} {k : Nat} (h : Ok v s) :
    OkR v (s.carryRun n j d k) := by
  unfold State.carryRun
  refine okR_ite (okR_next h) ?_
  have hb : RunStepOk v (s.beginRun n j d) := runStepOk_beginRun h
  split
  · rename_i ht
    exact okR_next (ok_of_ended hb ht)
  · exact okR_next h
  · rename_i t r hran
    have ht : Ok v t := ok_of_ran hb hran
    have hr : RunOk v r := runOk_of_ran hb hran
    have hw : RunStepOk v (if 0 < (t.core n).spilling then .ran t r
        else t.runWords n j d.place r ((d.words.drop r.pos).take k)) :=
      runStepOk_ite (runStepOk_ran ht hr) (runStepOk_runWords ht hr)
    split
    · rename_i hu
      exact okR_next (ok_of_ended hw hu)
    · exact okR_next ht
    · rename_i u q hu
      have hs : Ok v u := ok_of_ran hw hu
      have hq : RunOk v q := runOk_of_ran hw hu
      exact okR_ite (okR_next (ok_settleCore (ok_modCore hs fun _ hc => { hc with run := opt_some hq })))
        (okR_next (ok_settleCore (ok_finishedRun hs)))

theorem okR_runRow {s : State} {n : Nat} {due : Core → Option DueRun} (h : Ok v s) : OkR v (s.runRow n due) := by
  unfold State.runRow
  split
  · exact okR_carryRun h
  · exact okR_next h

theorem okR_execPrologueRun {n : Fin 32} {s : State} (h : Ok v s) : OkR v (execPrologueRun n s) :=
  okR_runRow h

theorem okR_execEpilogueRun {n : Fin 32} {s : State} (h : Ok v s) : OkR v (execEpilogueRun n s) :=
  okR_runRow h

theorem okR_execFinishRun {n : Fin 32} {s : State} (h : Ok v s) : OkR v (execFinishRun n s) :=
  okR_runRow h

/-! ### Decoding -/

theorem okR_execIllegalInstruction {n : Fin 32} {w0 w1 : BitVec 64} {s : State} (h : Ok v s) :
    OkR v (execIllegalInstruction n w0 w1 s) := by
  unfold execIllegalInstruction
  split
  · exact okR_next h
  · exact okR_ite (okR_next (ok_settle (ok_accessFault h))) (okR_ite (okR_next (ok_settle (ok_accessFault h)))
      (okR_ite (okR_next h) (okR_next (ok_settle (ok_failJob h)))))

/-! ### Codebooks and scale states -/

theorem coreOk_loadTable {c : Core} {r t : Nat} {wide : Bool} {cbr : List Byte} (hc : CoreOk v c) :
    CoreOk v (c.loadTable r t wide cbr) :=
  { hc with cb := memOk_splice hc.cb, cbCtl := memOk_set hc.cbCtl }

theorem okR_execCbload {n : Fin 32} {a : BitVec 5} {mod : BitVec 3} {imm : BitVec 40} {s : State} (h : Ok v s) :
    OkR v (execCbload n a mod imm s) := by
  unfold execCbload
  exact okR_issue h (fun _ _ _ hs _ => ok_ite (ok_issueRefused hs)
      (ok_ite (ok_settle (ok_jobFault (ok_noteLocal hs))) (ok_ite
      (ok_setCore (ok_noteLocal hs) (coreOk_foldl (fun _ _ hc => coreOk_loadTable hc) (coreOk_core hs)))
      (ok_issueRefused (ok_noteLocal hs)))))

theorem okR_execScset {n : Fin 32} {d a : BitVec 5} {s : State} (h : Ok v s) : OkR v (execScset n d a s) := by
  refine okR_issueEnding h fun s' j pc hs _ => ?_
  extract_lets c t at_ u b
  have hc : CoreOk v c := coreOk_endSweep (coreOk_core hs)
  have ht : Ok v t := ok_setCore hs hc
  have hu : Ok v u := ok_noteLocal ht
  exact ok_ite (ok_issueRefused ht) (ok_ite (ok_settle (ok_jobFault hu))
    (ok_ite (ok_setCore hu { hc with scale := memOk_write hc.scale }) (ok_issueRefused hu)))

theorem okR_execScget {n : Fin 32} {d a : BitVec 5} {s : State} (h : Ok v s) : OkR v (execScget n d a s) :=
  okR_issueEnding h (fun _ _ _ hs _ => ok_ite (ok_issueRefused (ok_setCore hs (coreOk_endSweep (coreOk_core hs))))
      (ok_osWrite (ok_setCore hs (coreOk_endSweep (coreOk_core hs)))))

theorem coreOk_scClear {c : Core} {e : Nat} (hc : CoreOk v c) : CoreOk v (c.scClear e) :=
  coreOk_setSc (coreOk_setSc (coreOk_setSc (coreOk_setSc hc)))

theorem coreOk_advRunning {c : Core} {e : Nat} (hc : CoreOk v c) : CoreOk v (c.advRunning e) := by
  unfold Core.advRunning
  dsimp only
  split
  · exact coreOk_setSc { hc with scale := memOk_write hc.scale }
  · exact { hc with scale := memOk_write hc.scale }

theorem coreOk_advLearned {c : Core} {e : Nat} (hc : CoreOk v c) : CoreOk v (c.advLearned e) := by
  unfold Core.advLearned
  split
  · exact coreOk_setSc hc
  · split
    · exact hc
    · exact coreOk_setSc hc

theorem coreOk_scAdvance {c : Core} {e : Nat} (hc : CoreOk v c) : CoreOk v (c.scAdvance e) := by
  refine coreOk_scClear ?_
  split
  · exact coreOk_advRunning hc
  · exact coreOk_advLearned hc
  · exact hc

theorem okR_execScadv {n : Fin 32} {d : BitVec 5} {s : State} (h : Ok v s) : OkR v (execScadv n d s) :=
  okR_issueEnding h (fun _ _ _ hs _ => ok_modCore hs (fun _ hy => coreOk_scAdvance (coreOk_endSweep hy)))

theorem okR_execEload {n : Fin 32} {d a : BitVec 5} {imm : BitVec 40} {s : State} (h : Ok v s) :
    OkR v (execEload n d a imm s) := by
  refine okR_issueEnding h fun s' j pc hs _ => ?_
  extract_lets c t at_ u words
  have hc : CoreOk v c := coreOk_endSweep (coreOk_core hs)
  have ht : Ok v t := ok_setCore hs hc
  have hu : Ok v u := ok_noteLocal ht
  exact ok_ite (ok_issueRefused ht) (ok_ite (ok_settle (ok_jobFault hu))
    (ok_ite (ok_setCore hu { hc with }) (ok_issueRefused hu)))

/-! ### Promotion -/

theorem ok_unpark {s : State} {pg : Nat × Nat} (h : Ok v s) : Ok v (s.unpark pg) :=
  ok_foldl (fun _ _ hy => ok_ite hy (ok_settleCore (ok_foldl (fun _ _ hs => ok_reach (ok_modXfer hs)) hy))) h

theorem ok_failGone {s : State} (h : Ok v s) : Ok v s.failGone := by
  refine ok_foldl ?_ h
  intro t a ht
  split
  · exact ht
  · split
    · exact ht
    · exact ok_settleCore (ok_getD (opt_barred ht) ht)

theorem okR_execPromotionGrant {copy page : Nat} {s : State} (h : Ok v s) :
    OkR v (execPromotionGrant copy page s) := by
  unfold execPromotionGrant
  split
  · exact okR_next h
  · split
    · exact okR_next h
    · split
      · exact okR_next (ok_giveClaims h)
      · split
        · exact okR_next (ok_settle (ok_settlePages (ok_unpark (ok_giveClaims h))))
        · split
          · exact okR_next h
          · split
            · exact okR_next h
            · exact okR_ite (okR_next h) (okR_next (ok_modArb (ok_giveClaims (ok_modPage h))))

theorem ok_chargePromotion {s : State} {ctx : Nat} {pg : Nat × Nat} (h : Ok v s) : Ok v (s.chargePromotion ctx pg) :=
  ok_modJob h (fun _ hj => { hj with })

theorem ok_poison {s : State} {copy page ctx : Nat} (h : Ok v s) : Ok v (s.poison copy page ctx) := by
  unfold State.poison
  dsimp only
  split
  · exact ok_raise (ok_integEvent { { h with } with })
  · split
    · exact ok_ite { { h with } with } { h with }
    · exact { h with }

theorem ok_yieldClaims {s : State} {pg : Nat × Nat} {waited : List Nat} (h : Ok v s) :
    Ok v (s.yieldClaims pg waited) :=
  ok_foldl (fun _ _ hs => ok_ite (ok_unclaim hs) hs) h

theorem ok_writeFrame {s : State} {copy page : Nat} (h : Ok v s) : Ok v (s.writeFrame copy page) :=
  ok_foldl (fun _ _ hs => ok_t1Write hs) (ok_t1Renew h)

theorem okR_execPromotionEnd {copy page : Nat} {good : Bool} {s : State} (h : Ok v s) :
    OkR v (execPromotionEnd copy page good s) := by
  unfold execPromotionEnd
  split
  · exact okR_next h
  · extract_lets t u w claims waited x y z a
    have hw : Ok v w := ok_giveClaims (ok_writeFrame (ok_notePage (ok_chargePromotion h)))
    have hz : Ok v z := ok_unpark (ok_foldl (fun _ _ hs => ok_usePage hs) (ok_modPage hw))
    have ha : Ok v a := ok_modPage hw
    exact okR_ite (okR_next h) (okR_ite (okR_next (ok_leaveFrame hw)) (okR_ite
      (okR_next (ok_settle (ok_settlePages (ok_yieldClaims hz)))) (okR_next (ok_settle (ok_unpark (ok_poison ha))))))

/-! ### Search -/

theorem ok_chargeDirect {s : State} {ctx : Nat} {c : Copy} {off beats flash : Nat} (h : Ok v s) :
    Ok v (s.chargeDirect ctx c off beats flash) :=
  ok_modJob h (fun _ hj => { hj with })

theorem walkOk_resolve {w : Walk} {k : WalkCtx} {j : Nat} (hw : WalkOk v w) : WalkOk v (w.resolve k j).2 := by
  unfold Walk.resolve
  dsimp only
  split
  · exact hw
  · exact hw

theorem walkOk_broadcast {w : Walk} {k : WalkCtx} {j : Nat} (hw : WalkOk v w) : WalkOk v (w.broadcast k j) :=
  ok_foldl (fun _ _ hs => ok_offer hs) (ok_chargeDirect hw)

theorem walkOk_expand {w : Walk} {k : WalkCtx} {front : List Nat} {lane : Nat} (hw : WalkOk v w) :
    WalkOk v (w.expand k front lane).1 := by
  unfold Walk.expand
  split
  · exact hw
  · exact List.foldlRecOn (motive := fun (r : Walk × List Nat) => WalkOk v r.1) _ _ hw fun _ hr _ _ => walkOk_resolve
      hr

theorem walkOk_round {w : Walk} {k : WalkCtx} (hw : WalkOk v w) : WalkOk v (w.round k) := by
  have hr : WalkOk v (k.lanes.foldl (fun r l => r.1.expand k r.2 l.1) (w, [])).1 :=
    List.foldlRecOn (motive := fun (r : Walk × List Nat) => WalkOk v r.1) _ _ hw fun _ hr _ _ => walkOk_expand hr
  refine walkOk_foldl (fun x j hx => ?_) hr
  split
  · exact hx
  · exact walkOk_broadcast hx

theorem walkOk_run {n : Nat} {w : Walk} {k : WalkCtx} (hw : WalkOk v w) : WalkOk v (w.run n k) := by
  induction n generalizing w with
  | zero => exact hw
  | succ n ih =>
    unfold Walk.run
    split
    · exact ih (walkOk_round hw)
    · exact hw

theorem walkOk_walkFrom {s : State} {k : WalkCtx} {entry rounds : Nat} (h : Ok v s) :
    WalkOk v (walkFrom s k entry rounds) := by
  have hs : Ok v (s.modCore k.core (fun c => { c with topk := { c.topk with
      counts := c.topk.counts.filter (fun l => !(k.lanes.any (fun q => q.1 == l.1))) } })) :=
    ok_modCore h fun c hc => { hc with topk := topkOk_filter hc.topk }
  exact walkOk_run (walkOk_broadcast (walkOk_resolve (w := { st := _ }) hs))

theorem ok_finish {w : Walk} {k : WalkCtx} {d : List Byte} (hw : WalkOk v w) : Ok v (w.finish k d) :=
  ok_osWrite (ok_fresh (ok_osWrite (ok_osWrite (ok_chargeDirect hw))))

theorem ok_seekPage {s : State} {n : Nat} {j : Job} {pg : Nat × Nat} {pc : Nat} (h : Ok v s) :
    Ok v (s.seekPage n j pg pc) :=
  ok_ite (ok_settle (ok_failJob h)) (ok_modCore (ok_claimPage h) (fun _ hc => { hc with }))

theorem okR_execSrWalk {n : Fin 32} {a : BitVec 5} {s : State} (h : Ok v s) : OkR v (execSrWalk n a s) := by
  refine okR_issue h ?_
  intro t j pc ht hj
  dsimp only
  split
  · exact ok_issueRefused ht
  · split
    · exact ok_settle (ok_jobFault (ok_noteLocal ht))
    · split
      · exact ok_issueRefused (ok_noteLocal ht)
      · split
        · exact ok_issueRefused (ok_noteLocal ht)
        · split
          · exact ok_settle (ok_jobFault (ok_foldl (fun _ _ hs => ok_noteLocal hs) (ok_noteLocal ht)))
          · split
            · exact ok_seekPage h
            · exact ok_finish (walkOk_walkFrom (ok_foldl (fun _ _ hs => ok_noteLocal hs) (ok_noteLocal ht)))

theorem ok_filtIdent {f : FiltStep} {ctx : Nat} {x : Copy} {tag : Nat} (h : Ok v f.st) :
    Ok v (f.ident ctx x tag).1.st := by
  unfold FiltStep.ident
  split
  · exact h
  · dsimp only
    split
    · exact h
    · split
      · exact h
      · exact ok_chargeDirect h

theorem ok_filtEntry {f : FiltStep} {ctx : Nat} {x : Copy} {filter : Option (List Byte)} {k : Nat} {e : W64}
    (h : Ok v f.st) : Ok v (f.entry ctx x filter k e).st := by
  unfold FiltStep.entry
  split
  · exact h
  · dsimp only
    have hi := ok_filtIdent (f := { f with examined := f.examined + 1 }) h (ctx := ctx) (x := x) (tag := tkTag e)
    split
    · rename_i g hf
      rwa [hf] at hi
    · rename_i g m hf
      rw [hf] at hi
      have hg : Ok v (g.st.chargeDirect ctx x (x.region 3 + m / 8) 1 0) := ok_chargeDirect hi
      split
      · exact hg
      · split
        · exact hg
        · split
          · exact hg
          · split
            · exact ok_chargeDirect hg
            · exact ok_chargeDirect hg

theorem okR_execSrFilt {n : Fin 32} {a : BitVec 5} {s : State} (h : Ok v s) : OkR v (execSrFilt n a s) := by
  refine okR_issue h fun t j pc ht hj => ?_
  dsimp only
  split
  · exact ok_issueRefused ht
  · have each : ∀ {es : List W64} {f : FiltStep} {ctx k : Nat} {x : Copy} {filter : Option (List Byte)},
        Ok v f.st → Ok v (es.foldl (fun f e => f.entry ctx x filter k e) f).st :=
      fun hf => List.foldlRecOn (motive := fun (f : FiltStep) => Ok v f.st) _ _ hf fun _ hg _ _ => ok_filtEntry hg
    have hu := ok_noteLocal (n := n.val) (a := ((t.core n.val).sreg a).toNat) (len := 32) ht
    split
    · exact ok_settle (ok_jobFault hu)
    · split
      · exact ok_issueRefused hu
      · split
        · exact ok_issueRefused hu
        · have hn := ok_foldl (l := filtReads ((t.core n.val).osRead ((t.core n.val).sreg a).toNat 32))
            (fun s r hs => ok_noteLocal (n := n.val) (a := r.1) (len := r.2) hs) hu
          generalize (filtReads ((t.core n.val).osRead ((t.core n.val).sreg a).toNat 32)).foldl _ _ = r at hn ⊢
          split
          · exact ok_settle (ok_jobFault hn)
          · split
            · exact ok_seekPage h
            · split
              · exact ok_settle (ok_accessFault hn)
              · exact ok_osWrite (each (f := { st := r }) hn)

/-! ### Faults and scrubbing -/

/-- The state with a job fault counted against a core (R373), as JOB_FAULT and the fourth tile fault leave it. -/
def State.blamed (s : State) (n : Nat) : State :=
  let old := (s.core n).faultCount
  let t := if old = 0 then s else s.fresh.2
  t.modCore n (fun c => { c with faultCount := min old s.fresh.1 + 1 })

theorem ok_blamed {s : State} {n : Nat} (h : Ok v s) : Ok v (s.blamed n) := by
  unfold State.blamed
  exact ok_modCore (ok_ite h (ok_fresh h)) (fun _ hc => { hc with })

theorem coreOk_dropRun {c : Core} {slot : Nat} (hc : CoreOk v c) : CoreOk v (c.dropRun slot) := by
  unfold Core.dropRun
  split
  · exact hc
  · rename_i r hr
    have hr : RunOk v r := hc.run r hr
    exact { hc with vregs := hr.vregs, pregs := hr.pregs, scale := memOk_write hc.scale, run := opt_none }

theorem ok_dropEstore {s : State} {n : Nat} {t : Tile} (h : Ok v s) : Ok v (s.dropEstore n t) :=
  ok_ite (ok_dropSlot (ok_modCore h (fun _ hc => { hc with }))) h

theorem coreOk_tileFault {c : Core} {t : Tile} (hc : CoreOk v c) : CoreOk v (c.tileFault t) :=
  { (coreOk_dropRun hc) with }

theorem coreOk_finishFault {c : Core} {k i : Nat} {t : Tile} (hc : CoreOk v c) : CoreOk v (c.finishFault k i t) :=
  { (coreOk_dropRun hc) with }

theorem ok_afterTileFault {s : State} {n ctx faults : Nat} (h : Ok v s) : Ok v (s.afterTileFault n ctx faults) := by
  unfold State.afterTileFault
  split
  · exact ok_count h
  · dsimp only
    split
    · exact ok_settle (ok_jobFault (ok_blamed (ok_count h)))
    · exact ok_count h

theorem okR_execTileFault {n : Fin 32} {s : State} (h : Ok v s) : OkR v (execTileFault n s) := by
  have hc : CoreOk v (s.core n.val) := coreOk_core h
  unfold execTileFault
  dsimp only
  split
  · exact okR_next h
  · split
    · split
      · exact okR_next h
      · exact okR_next (ok_afterTileFault (ok_dropEstore (ok_setCore h (coreOk_finishFault hc))))
    · exact okR_next (ok_afterTileFault (ok_dropEstore (ok_setCore h (coreOk_tileFault hc))))
    · exact okR_ite (okR_next (ok_afterTileFault (ok_setCore h { hc with }))) (okR_next h)

theorem okR_execJobFault {ctx : Nat} {core : Option (Fin 32)} {s : State} (h : Ok v s) :
    OkR v (execJobFault ctx core s) := by
  unfold execJobFault
  split
  · exact okR_next h
  · refine okR_ite (okR_next (ok_settle (ok_jobFault ?_))) (okR_next h)
    split
    · exact ok_blamed h
    · exact h

theorem okR_execCoreFence {n : Fin 32} {repeated : Bool} {s : State} (h : Ok v s) :
    OkR v (execCoreFence n repeated s) :=
  okR_ite (okR_next h) (okR_ite (okR_ite (okR_next (ok_settle (ok_fenceCore h))) (okR_next h))
      (okR_next (ok_settle (ok_fenceCore h))))

theorem okR_execHeartbeatTimeout {n : Fin 32} {s : State} (h : Ok v s) : OkR v (execHeartbeatTimeout n s) :=
  okR_ite (okR_next (ok_settle (ok_fenceCore h))) (okR_next h)

theorem ok_t1Xor {s : State} {w : Nat} {mask : BitVec 64} (h : Ok v s) : Ok v (s.t1Xor w mask) := by
  unfold State.t1Xor
  dsimp only
  split
  · exact { h with link := { h.link with aperture := memOk_xorWord h.link.aperture } }
  · split
    · exact ok_modInbox h (fun _ hb => memOk_xorWord hb)
    · split
      · exact ok_modCore h (fun _ hc => { hc with spill := memOk_xorWord hc.spill })
      · refine { h with jobs := ?_ }
        refine each_map h.jobs ?_
        intro x hx
        split
        · exact { hx with writable := memOk_xorWord hx.writable }
        · exact hx

theorem ok_scrubT1 {s : State} {beat : Nat} (h : Ok v s) : Ok v (s.scrubT1 beat) := by
  unfold State.scrubT1
  dsimp only
  split
  · exact ok_count h
  · split
    · exact ok_recordRow (ok_count h)
    · exact ok_t1Write (ok_rowError (ok_count (ok_count h)))
    · exact ok_ite (ok_t1Write (ok_t1Xor (ok_rowError (ok_count (ok_count h))))) (ok_count h)

theorem ok_scrubSram {s : State} {n : Nat} {u : ScrubUnit} {mark : Option EccMark} {word : Nat}
    {write : State → Nat → List Byte → State} (h : Ok v s) (hwrite : ∀ x y z, Ok v x → Ok v (write x y z)) :
    Ok v (s.scrubSram n u mark word write) := by
  unfold State.scrubSram
  split
  · exact h
  · split
    · exact ok_recordRow h
    · exact hwrite _ _ _ (ok_rowError (ok_count h))
    · exact ok_ite (hwrite _ _ _ (ok_rowError (ok_count h))) h

theorem okR_execScrub {u : ScrubUnit} {s : State} (h : Ok v s) : OkR v (execScrub u s) := by
  unfold execScrub
  split
  · exact okR_next h
  · split
    · exact okR_next (ok_scrubT1 h)
    · exact okR_next (ok_scrubSram h (fun _ _ _ ht => ok_osWrite ht))
    · exact okR_next h
    · exact okR_next h
    · exact okR_next (ok_scrubSram h (fun _ _ _ ht => ok_lwbWrite ht))

/-! ### The media -/

theorem ok_stagedDone {s : State} {u : Nat} (h : Ok v s) : Ok v (s.stagedDone u) := by
  unfold State.stagedDone
  split
  · exact h
  · exact ok_ite h (ok_ite (ok_complete h) (ok_ite (ok_complete h) h))

theorem okR_execStagingProgram {lb : Nat} {p : LogProgram} {s : State} (h : Ok v s) :
    OkR v (execStagingProgram lb p s) := by
  unfold execStagingProgram
  refine okR_ite (okR_next h) (okR_ite (okR_next h) (okR_ite (okR_next (ok_ite (ok_sync (ok_retireSb h)) ?_))
      (okR_next
    (ok_settle (ok_foldl (fun _ _ ht => ok_stagedDone ht) (ok_sync (ok_programLog h)))))))
  split
  · exact ok_setSb h
  · exact h

theorem ok_startMerge {s : State} {l : LBlock} {locs : List SbLoc} (h : Ok v s) (hl : LBlockOk v l) :
    Ok v (s.startMerge l locs) :=
  ok_setLb (ok_foldl (fun _ _ hs => ok_setSb (ok_openSb hs)) (ok_newJseq h))
      { hl with chain := each_nil, merge := opt_some hl.chain }

theorem okR_execMergeStart {lb : Nat} {locs : List SbLoc} {s : State} (h : Ok v s) :
    OkR v (execMergeStart lb locs s) :=
  okR_ite (okR_next (ok_startMerge h (lblockOk_lblock h))) (okR_next h)

theorem okR_execLogIdleTimeout {lb : Nat} {locs : List SbLoc} {s : State} (h : Ok v s) :
    OkR v (execLogIdleTimeout lb locs s) :=
  okR_ite (okR_next (ok_startMerge h (lblockOk_lblock h))) (okR_next h)

theorem ok_commitMerge {s : State} {lb : Nat} (h : Ok v s) : Ok v (s.commitMerge lb) := by
  have hl : LBlockOk v (s.lblock lb) := lblockOk_lblock h
  unfold State.commitMerge
  dsimp only
  split
  · exact h
  · rename_i m hm
    have hm' : MergeOk v { m with closed := true } := hl.merge m hm
    have ht : Ok v (m.locs.foldl (fun s p => s.setSb { s.sblock p with closed := true }) s) :=
      ok_foldl (fun _ _ hs => ok_setSb hs) h
    exact ok_ite h (ok_sync (ok_queueRec (ok_setLb ht { hl with merge := opt_some hm' })))

theorem okR_execMergeCommit {e : MergeEnd} {s : State} (h : Ok v s) : OkR v (execMergeCommit e s) := by
  unfold execMergeCommit
  split
  · exact okR_next h
  · split
    · exact okR_next (ok_commitMerge h)
    · split
      · exact okR_next h
      · split
        · exact okR_next h
        · refine okR_next ?_
          refine ok_sync ?_
          split
          · exact ok_retireSb (ok_abandonMerge h (lblockOk_lblock h))
          · exact ok_abandonMerge h (lblockOk_lblock h)

theorem okR_execSuperblockErase {loc : SbLoc} {good : Bool} {s : State} (h : Ok v s) :
    OkR v (execSuperblockErase loc good s) :=
  okR_ite (okR_next h) (okR_ite (okR_next (ok_sync (ok_ite (ok_eraseSb h) (ok_retireSb h))))
      (okR_ite (okR_next (ok_count (ok_setSb h))) (okR_next h)))

theorem lblockOk_moved {l : LBlock} {src dst : SbLoc} {seq : Nat} (hl : LBlockOk v l) :
    LBlockOk v (l.moved src dst seq) := by
  refine { hl with chain := ?_ }
  refine each_map hl.chain ?_
  intro x hx
  split
  · exact hx
  · exact hx

theorem okR_execRelocation {src dst : SbLoc} {s : State} (h : Ok v s) : OkR v (execRelocation src dst s) := by
  unfold execRelocation
  extract_lets b duty j q _ t _ u w x
  refine okR_ite (okR_next h) (okR_next (ok_sync ?_))
  have ht : Ok v t := ok_setSb (ok_newSeq (ok_newJseq h))
  have hu : Ok v u := { ht with media := { ht.media with
    lblocks := each_map ht.media.lblocks (fun _ hl => lblockOk_moved hl), once := once_map ht.media.once fun _ => rfl
        } }
  have hw : Ok v w := ok_setSb hu
  have hx : Ok v x := ok_queueRec hw
  exact ok_ite (ok_retireSb hx) hx

theorem okR_execJournalCheckpoint {s : State} (h : Ok v s) : OkR v (execJournalCheckpoint s) := by
  unfold execJournalCheckpoint
  split
  · exact okR_next h
  · refine okR_next ?_
    split
    · exact ok_sync (ok_eraseSb (ok_count { (ok_sync (ok_jrec h)) with
        media := { ((ok_sync (ok_jrec h)).media) with } }))
    · exact ok_count { (ok_sync (ok_jrec h)) with media := { ((ok_sync (ok_jrec h)).media) with } }

theorem lblockOk_spoil {l : LBlock} {loc : SbLoc} {sec : Nat} (hl : LBlockOk v l) : LBlockOk v (l.spoil loc sec) := by
  have hlog : ∀ b : LogBlock, BlockOk v b → BlockOk v (if b.loc = loc then { b with entries := b.entries.map (fun e =>
      if e.sector = sec then { e with data := e.data.map (fun x => { x with bad := true }) } else e) } else b) := by
    intro b hb
    split
    · refine each_map hb fun e he => ?_
      split
      · exact opt_map he fun _ hx => hx
      · exact he
    · exact hb
  refine ⟨each_map hl.chain hlog, opt_map hl.merge fun m hm => each_map hm hlog, ?_⟩
  exact each_ite (each_assocSet hl.content (sectorOk_lookupD hl.content sectorOk_zeroSector)) hl.content

theorem num_spoil (l : LBlock) (loc : SbLoc) (secs : List Nat) :
    (secs.foldl (fun l x => l.spoil loc x) l).num = l.num :=
  List.foldlRecOn (motive := fun (m : LBlock) => m.num = l.num) secs _ rfl (fun _ hm _ _ => hm)

theorem okR_execStripeRebuild {at_ : RebuildAt} {rebuilt : Bool} {s : State} (h : Ok v s) :
    OkR v (execStripeRebuild at_ rebuilt s) := by
  unfold execStripeRebuild
  dsimp only
  split
  · rename_i loc secs
    refine okR_ite (okR_next h) (okR_ite (okR_next (ok_count (ok_setSb (ok_count h)))) (okR_next (ok_mediaEvent ?_)))
    have ht : Ok v (s.count (groupBlock loc) 4 1) := ok_count h
    exact { ht with media := { ht.media with
      lblocks := each_map ht.media.lblocks fun _ hl => lblockOk_foldl (fun _ _ hm => lblockOk_spoil hm) hl
      once := once_map ht.media.once fun l => num_spoil l loc secs } }
  · split
    · exact okR_next h
    · refine okR_ite (okR_next h) (okR_ite (okR_next (ok_count (ok_setSb (ok_count h))))
        (okR_next (ok_modCopy (ok_count h) ?_)))
      exact fun c hc => by split <;> exact hc

theorem okR_execDieFail {dieSet : Fin 144} {die : Fin 16} {s : State} (h : Ok v s) :
    OkR v (execDieFail dieSet die s) :=
  okR_ite (okR_next h) (okR_next { h with media := { h.media with } })

theorem okR_execMapEntryRebuild {lb : Nat} {s : State} (h : Ok v s) : OkR v (execMapEntryRebuild lb s) :=
  okR_ite (okR_next h) (okR_next (ok_integEvent (ok_recordRow h)))

theorem ok_drain {fuel : Nat} {s : State} (h : Ok v s) : Ok v (s.drain fuel) := by
  induction fuel generalizing s with
  | zero =>
    unfold State.drain
    exact h
  | succ n ih =>
    unfold State.drain
    split
    · exact h
    · exact ih (ok_programLog h)

theorem ok_abandonOpen {s : State} (h : Ok v s) : Ok v s.abandonOpen :=
  ok_foldl_mem (each_filter h.media.lblocks) (fun _ _ hl ht => ok_abandonMerge ht hl) h

theorem ok_tear {s : State} (h : Ok v s) : Ok v s.tear :=
  { (ok_programNext (ok_fresh h)) with media := { ((ok_programNext (ok_fresh h)).media) with } }

theorem ok_flush {s : State} {holds : Bool} (h : Ok v s) : Ok v (s.flush holds) :=
  { (ok_ite (ok_sync (ok_jrec (ok_drain (ok_abandonOpen h)))) (ok_tear (ok_drain (ok_abandonOpen h)))) with }

theorem ok_rebuildLb {s : State} {map : List (Nat × List SbLoc)} {l : LBlock} (h : Ok v s) (hl : LBlockOk v l) :
    Ok v (s.rebuildLb map l) := by
  unfold State.rebuildLb
  split
  · exact h
  · rename_i m hm
    have hfrozen : MergeOk v m := hl.merge m hm
    exact ok_ite (ok_finishMerge h hl hfrozen)
      (ok_setLb (ok_release_ h) { hl with chain := each_append hfrozen hl.chain, merge := opt_none })

theorem lblockOk_chains {l : LBlock} (hl : LBlockOk v l) : LBlockOk v l.chains :=
  { hl with chain := each_filter hl.chain }

theorem ok_rebuild {s : State} (h : Ok v s) : Ok v s.rebuild := by
  unfold State.rebuild
  extract_lets t map u w owners
  have ht : Ok v t := ok_ite h (ok_mediaEvent h)
  have hu : Ok v u := ok_foldl_mem ht.media.lblocks (fun _ _ hl hs => ok_rebuildLb hs hl) ht
  refine ok_foldl (fun _ _ hs => ok_unmapOwner hs) ?_
  exact { hu with media := { hu.media with
    lblocks := each_map hu.media.lblocks fun _ hl => lblockOk_chains hl, once := once_map hu.media.once fun _ => rfl
        } }

/-! ### The Spool -/

theorem ok_portDown {s : State} {p reason : Nat} (h : Ok v s) : Ok v (s.portDown p reason) :=
  ok_ite h (ok_ite (ok_raise (ok_spoolEvent (ok_modPort h))) (ok_modPort h))

theorem ok_portDownFree {s : State} {p : Nat} (h : Ok v s) : Ok v (s.portDownFree p) :=
  ok_ite h (ok_portDown (ok_fresh h))

theorem ok_portsDown {s : State} {reason : Nat} (h : Ok v s) : Ok v (s.portsDown reason) :=
  ok_foldl (fun _ _ hs => ok_portDown hs) h

theorem ok_portsDownFree {s : State} (h : Ok v s) : Ok v s.portsDownFree :=
  ok_foldl (fun _ _ hs => ok_portDownFree hs) h

theorem okR_execPortTrainStart {port : Fin 8} {s : State} (h : Ok v s) : OkR v (execPortTrainStart port s) :=
  okR_ite (okR_next (ok_modPort { h with })) (okR_next h)

theorem okR_execPortTrainingDone {port : Fin 8} {slow : Bool} {s : State} (h : Ok v s) :
    OkR v (execPortTrainingDone port slow s) :=
  okR_ite (okR_next (ok_modPort h)) (okR_next h)

theorem okR_execFecLock {port : Fin 8} {s : State} (h : Ok v s) : OkR v (execFecLock port s) :=
  okR_ite (okR_next (ok_foldl (fun _ _ hs => ok_putFrame hs) (ok_modPort h))) (okR_next h)

theorem okR_execPortStateTimeout {port : Fin 8} {s : State} (h : Ok v s) : OkR v (execPortStateTimeout port s) := by
  unfold execPortStateTimeout
  split
  · exact okR_next h
  · exact okR_next (ok_portDown h)
  · exact okR_next (ok_portDown h)
  · exact okR_next (ok_portDownFree h)
  · exact okR_next (ok_portDown h)
  · exact okR_next h

theorem okR_execLinkFrameTimeout {port : Fin 8} {s : State} (h : Ok v s) : OkR v (execLinkFrameTimeout port s) :=
  okR_ite (okR_next (ok_portDownFree h)) (okR_next h)

theorem okR_execFecLockLoss {port : Fin 8} {s : State} (h : Ok v s) : OkR v (execFecLockLoss port s) :=
  okR_ite (okR_next (ok_portDown h)) (okR_next h)

theorem okR_execErrorRateLimit {port : Fin 8} {s : State} (h : Ok v s) : OkR v (execErrorRateLimit port s) :=
  okR_ite (okR_next (ok_portDown h)) (okR_next h)

theorem okR_execRekeyTimer {port : Fin 8} {s : State} (h : Ok v s) : OkR v (execRekeyTimer port s) :=
  okR_ite (okR_next (ok_ite (ok_modPort h) (ok_startKey (ok_modPort h)))) (okR_next h)

theorem okR_receive {s : State} {port : Nat} {f : Frame} {pass : State → State} (h : Ok v s)
    (hpass : ∀ x, Ok v x → Ok v (pass x)) : OkR v (s.receive port f pass) :=
  okR_ite (okR_next h) (okR_ite (okR_next (ok_count h)) (okR_ite (okR_next (ok_spoolEvent h))
      (okR_ite (okR_next h) (okR_ite (okR_next (ok_spoolEvent (ok_count (ok_modPort h))))
      (okR_ite (okR_next (hpass _ (ok_count (ok_modPort h)))) (okR_next (ok_count (ok_modPort h))))))))

theorem okR_execMalformedFrame {port : Fin 8} {f : Frame} {s : State} (h : Ok v s) :
    OkR v (execMalformedFrame port f s) :=
  okR_ite (okR_next h) (okR_receive h (fun _ hs => hs))

theorem ok_serve {s : State} {f answer : Frame} (h : Ok v s) : Ok v (s.serve f answer) :=
  ok_service (ok_respond h)

theorem ok_forward {s : State} {port : Nat} {f : Frame} (h : Ok v s) : Ok v (s.forward port f) := by
  have hnak : ∀ {k : Nat}, Ok v (if f.ftype = 1 ∨ f.ftype = 3 then
      (s.spoolEvent k).serve f ((s.spoolEvent k).nakFor f .fabricUnreachable) else s.spoolEvent k) :=
    ok_ite (ok_serve (ok_spoolEvent h)) (ok_spoolEvent h)
  unfold State.forward
  refine ok_ite hnak ?_
  split
  · rename_i t ht
    exact ok_service (ok_count (opt_routeOut h t ht))
  · exact hnak

theorem ok_take {s : State} {port : Nat} {f : Frame} {here : State → State} (h : Ok v s)
    (hhere : ∀ x, Ok v x → Ok v (here x)) : Ok v (s.take port f here) :=
  ok_ite (hhere _ h) (ok_forward h)

theorem ok_deny {s : State} {f : Frame} {st : Status} (h : Ok v s) : Ok v (s.deny f st) :=
  ok_serve (ok_ite (ok_spoolEvent h) h)

theorem okR_execRdReq {port : Fin 8} {f : Frame} {s : State} (h : Ok v s) : OkR v (execRdReq port f s) := by
  unfold execRdReq
  split
  · exact okR_next h
  · refine okR_receive h ?_
    intro x hx
    refine ok_take hx ?_
    intro x' hx'
    split
    · refine ok_serve ?_
      split
      · exact ok_repairFrame hx'
      · exact hx'
    · exact ok_deny hx'
    · exact hx'
    · exact hx'

theorem okR_execWrReq {port : Fin 8} {f : Frame} {s : State} (h : Ok v s) : OkR v (execWrReq port f s) := by
  unfold execWrReq
  split
  · exact okR_next h
  · refine okR_receive h ?_
    intro x hx
    refine ok_take hx ?_
    intro x' hx'
    split
    · rename_i found
      exact ok_serve (of_snd (ok_serveWrite hx') found)
    · rename_i found'
      exact ok_deny (of_snd (ok_serveWrite hx') found')
    · rename_i found''
      exact of_snd (ok_serveWrite hx') found''
    · rename_i found'''
      exact of_snd (ok_serveWrite hx') found'''

theorem ok_modRequest {s : State} {id : Nat} {f : RemoteReq → RemoteReq} (h : Ok v s) : Ok v (s.modRequest id f) :=
  { h with spool := { h.spool with } }

theorem ok_lateResponse {s : State} {f : Frame} (h : Ok v s) : Ok v (s.lateResponse f) := by
  unfold State.lateResponse
  split
  · dsimp only
    split
    · exact ok_chargeFrame (ok_modRequest h)
    · exact ok_modRequest h
  · split
    · exact h
    · dsimp only
      split
      · exact ok_chargeFrame { h with spool := { h.spool with } }
      · exact { h with spool := { h.spool with } }

theorem ok_dropRequest {s : State} {r : RemoteReq} (h : Ok v s) : Ok v (s.dropRequest r) :=
  ok_forget (ok_modRequest h)

theorem ok_chargeRemote {s : State} {n ctx k : Nat} (h : Ok v s) : Ok v (s.chargeRemote n ctx k) :=
  ok_charge (ok_count h)

theorem ok_afterRemote {s : State} {n slot : Nat} (h : Ok v s) : Ok v (s.afterRemote n slot) :=
  ok_settleCore (ok_settlePages (ok_reach (ok_remoteProgress h)))

theorem ok_writeBeats {s : State} {r : RemoteReq} {x : Xfer} {bs : List Byte} (h : Ok v s) :
    Ok v (s.writeBeats r x bs) :=
  ok_foldl (fun _ _ hs => ok_localWrite hs) h

theorem ok_blockPiece {s : State} {r : RemoteReq} {x : Xfer} {j : Job} {bs : List Byte} (h : Ok v s) :
    Ok v (s.blockPiece r x j bs) :=
  ok_ite (ok_modRequest h) (ok_afterRemote (ok_chargeRemote (ok_foldl (fun _ _ hs => ok_dropRequest hs)
      (ok_foldl (fun _ _ hs => ok_localWrite hs) (ok_modRequest h)))))

theorem okR_execRdRsp {port : Fin 8} {f : Frame} {s : State} (h : Ok v s) : OkR v (execRdRsp port f s) := by
  unfold execRdRsp
  split
  · exact okR_next h
  · refine okR_receive h ?_
    intro x hx
    refine ok_take hx ?_
    intro x' hx'
    split
    · exact ok_lateResponse hx'
    · split
      · exact hx'
      · exact ok_ite hx' (ok_ite (ok_blockPiece (ok_chargeFrame hx'))
          (ok_afterRemote (ok_chargeRemote (ok_dropRequest (ok_writeBeats (ok_chargeFrame hx'))))))

theorem okR_execWrAck {port : Fin 8} {f : Frame} {s : State} (h : Ok v s) : OkR v (execWrAck port f s) := by
  unfold execWrAck
  split
  · exact okR_next h
  · refine okR_receive h ?_
    intro x hx
    refine ok_take hx ?_
    intro x' hx'
    split
    · exact ok_lateResponse hx'
    · split
      · exact hx'
      · exact ok_ite hx' (ok_afterRemote (ok_chargeRemote (ok_dropRequest (ok_chargeFrame hx'))))

theorem ok_failRemote {s : State} {r : RemoteReq} {st : Status} (h : Ok v s) : Ok v (s.failRemote r st) := by
  unfold State.failRemote
  split
  · exact h
  · exact ok_settle (ok_nakFail h)

theorem okR_execNak {port : Fin 8} {f : Frame} {s : State} (h : Ok v s) : OkR v (execNak port f s) := by
  unfold execNak
  split
  · exact okR_next h
  · refine okR_receive h ?_
    intro x hx
    refine ok_take hx ?_
    intro x' hx'
    split
    · refine ok_failRemote ?_
      split
      · exact ok_chargeFrame hx'
      · exact hx'
    · exact hx'
    · exact ok_lateResponse hx'

theorem okR_execSpoolRequestTimeout {reqId : Nat} {s : State} (h : Ok v s) :
    OkR v (execSpoolRequestTimeout reqId s) := by
  unfold execSpoolRequestTimeout
  split
  · exact okR_next h
  · split
    · exact okR_next h
    · split
      · exact okR_next (ok_failRemote h)
      · split
        · exact okR_next (ok_failRemote (ok_spoolEvent h))
        · dsimp only
          split
          · exact okR_next (ok_chargeFrame (ok_sendFrame (ok_modRequest h)))
          · exact okR_next (ok_sendFrame (ok_modRequest h))

theorem okR_execLink {port : Fin 8} {f : Frame} {s : State} (h : Ok v s) : OkR v (execLink port f s) := by
  refine okR_ite (okR_next h) (okR_receive h fun t ht => ?_)
  have hu : Ok v (t.modPort port.val (fun p => p.acked f.payload)) := ok_modPort ht
  exact ok_ite ht (ok_ite hu (ok_count { hu with spool := { hu.spool with } }))

theorem ok_keyAgreed {s : State} {port : Nat} (h : Ok v s) : Ok v (s.keyAgreed port) :=
  ok_ite (ok_ite (ok_modPort (ok_fresh h)) (ok_modPort h)) (ok_ite (ok_modPort h) h)

theorem okR_execKey {port : Fin 8} {f : Frame} {last : Bool} {s : State} (h : Ok v s) :
    OkR v (execKey port f last s) :=
  okR_ite (okR_next h) (okR_receive h (fun _ hs => ok_ite hs (ok_ite hs
      (ok_ite (ok_portDown hs) (ok_ite (ok_ite hs (ok_ite (ok_startKey (ok_keyAgreed hs)) (ok_keyAgreed hs)))
      (ok_keyAgreed (ok_sendKey hs)))))))

theorem okR_execHello {port : Fin 8} {f : Frame} {peer : PeerHello} {s : State} (h : Ok v s) :
    OkR v (execHello port f peer s) :=
  okR_ite (okR_next h) (okR_receive h (fun _ hs => ok_ite hs (ok_ite (ok_portDown hs)
      (ok_ite (ok_portDown hs) (ok_ite (ok_modPort hs) (ok_ite (ok_startKey (ok_modPort (ok_modPort hs)))
      (ok_portDown (ok_modPort (ok_modPort hs)))))))))

/-! ### The admin queue -/

theorem okR_execCreateQueue {cmd : Nat} {s : State} (h : Ok v s) : OkR v (execCreateQueue cmd s) :=
  okR_onCmd h (fun _ _ => ok_ite (ok_ok { h with link := { h.link with } }) (ok_fail h))

theorem ok_beginChain {s : State} {u opcode : Nat} (h : Ok v s) : Ok v (s.beginChain u opcode) := by
  unfold State.beginChain
  split
  · exact h
  · exact ok_ite (ok_modCmd h (fun _ hm => hm)) h

theorem ok_unrequest {s : State} {u : Nat} (h : Ok v s) : Ok v (s.unrequest u) :=
  { h with jobs := each_map h.jobs (fun _ hy => { hy with }) }

theorem ok_skipRest {s : State} {c : Cmd} (h : Ok v s) : Ok v (s.skipRest c) :=
  ok_modQueue h

theorem ok_drop {s : State} {c : Cmd} {st : Status} (h : Ok v s) : Ok v (s.drop c st) :=
  ok_releaseIdents (ok_complete (ok_unrequest (ok_skipRest h)))

theorem okR_execAbort {cmd : Nat} {s : State} (h : Ok v s) : OkR v (execAbort cmd s) := by
  refine okR_onCmd h ?_
  intro x hx
  split
  · exact h
  · split
    · exact ok_fail h
    · split
      · exact ok_fail h
      · split
        · exact ok_fail h
        · exact ok_drop (ok_modCmd h (fun _ hm => hm))

theorem ok_resetSubmit {s : State} {c : Cmd} (h : Ok v s) : Ok v (s.resetSubmit c) := by
  unfold State.resetSubmit
  extract_lets free t
  have ht : Ok v t := ok_ite h (ok_loadJob h)
  split
  · exact ht
  · exact ok_fail (ok_modJob ht fun _ hj => { hj with })

theorem ok_resetJobCmd {s : State} {c : Cmd} (h : Ok v s) : Ok v (s.resetJobCmd c) :=
  ok_fail { (ok_ite (ok_reclaim h) (ok_stopJob h)) with
      jobs := each_map ((ok_ite (ok_reclaim h) (ok_stopJob h)).jobs) (fun _ hy => { hy with }) }

theorem ok_resetCompact {s : State} {c : Cmd} (h : Ok v s) : Ok v (s.resetCompact c) :=
  ok_fail { h with copies := each_map h.copies (fun _ hy => hy) }

theorem ok_resetCmd {s : State} {u : Nat} (h : Ok v s) : Ok v (s.resetCmd u) := by
  unfold State.resetCmd
  split
  · exact h
  · split
    · exact h
    · split
      · exact ok_complete (ok_unrequest h)
      · split
        · exact ok_breakChain h
        · split
          · refine { h with jobs := ?_ }
            refine each_map h.jobs ?_
            intro x hx
            split
            · exact { hx with }
            · exact hx
          · exact ok_ite (ok_resetSubmit h) (ok_ite (ok_resetJobCmd h) (ok_ite (ok_resetCompact h) h))

theorem ok_refuseWaiting {s : State} {q : Queue} (h : Ok v s) : Ok v (s.refuseWaiting q) := by
  unfold State.refuseWaiting
  split
  · exact h
  · refine ok_refuseFetched ?_
    split
    · exact ok_breakChain h
    · exact h

theorem ok_resetQueue {s : State} {c : Cmd} {delete : Bool} (h : Ok v s) : Ok v (s.resetQueue c delete) := by
  unfold State.resetQueue
  split
  · exact ok_fail h
  · exact ok_ite h (ok_foldl (fun _ _ hs => ok_resetCmd hs) (ok_modQueue
      (ok_releaseIdents (ok_foldl (fun _ _ hs => ok_complete (ok_unrequest hs)) (ok_modQueue (ok_refuseWaiting h))))))

theorem okR_execResetQueue {cmd : Nat} {s : State} (h : Ok v s) : OkR v (execResetQueue cmd s) :=
  okR_onCmd h (fun _ _ => ok_resetQueue h)

theorem okR_execDeleteQueue {cmd : Nat} {s : State} (h : Ok v s) : OkR v (execDeleteQueue cmd s) :=
  okR_onCmd h (fun _ _ => ok_resetQueue h)

theorem ok_enterSleep {s : State} (h : Ok v s) : Ok v s.enterSleep := by
  unfold State.enterSleep
  extract_lets t u w _
  have ht : Ok v t := ok_sync (ok_drain h)
  have hu : Ok v u := ok_foldl (fun _ _ ht => ok_commitMerge ht) ht
  have hw : Ok v w := ok_spoolEvent (ok_portsDown hu)
  clear_value w
  exact { hw with }

theorem okR_execSetPowerState {cmd : Nat} {s : State} (h : Ok v s) : OkR v (execSetPowerState cmd s) := by
  refine okR_onCmd h ?_
  intro x hx
  split
  · exact ok_ok h
  · split
    · exact ok_fail h
    · split
      · exact h
      · exact ok_ite h (ok_ite (ok_enterSleep (ok_ok h)) { (ok_ok h) with })

theorem okR_execPowerStateExit {s : State} (h : Ok v s) : OkR v (execPowerStateExit s) :=
  okR_ite (okR_next h) (okR_next { (ok_ite (ok_foldl (fun _ _ hs => ok_wipeCore hs) h) h) with })

/-! ### Pods -/

theorem okR_bind {s : State} {cmd op : Nat} {reasons : Bind → List (Nat × Bool)} {bound : Bind → Nat}
    {effect : Bind → State → State} (h : Ok v s) (heffect : ∀ x y, Ok v y → Ok v (effect x y)) :
    OkR v (s.bind cmd op reasons bound effect) := by
  refine okR_onCmd h ?_
  intro x hx
  dsimp only
  split
  · exact ok_refuse h
  · split
    · exact h
    · split
      · exact ok_refuse h
      · exact ok_fail (ok_fresh (heffect _ _ h))

theorem okR_execCreatePod {cmd : Nat} {s : State} (h : Ok v s) : OkR v (execCreatePod cmd s) :=
  okR_bind h (fun _ _ ht => { ht with })

theorem ok_moveCores {s : State} {cores : List Nat} {p : Nat} (h : Ok v s) : Ok v (s.moveCores cores p) :=
  ok_foldl (fun _ _ hs => ok_modCore (ok_wipeCore hs) (fun _ hy => { hy with })) h

theorem ok_removePod {s : State} {x : Pod} (h : Ok v s) : Ok v (s.removePod x) := by
  unfold State.removePod
  extract_lets t u w
  have hempty : ∀ b : Inbox, InboxOk v b → InboxOk v {} := fun _ _ => memOk_nil
  have hw : Ok v w := ok_modInbox (ok_modPod (ok_moveCores h)) hempty
  exact { hw with }

theorem okR_execDeletePod {cmd : Nat} {s : State} (h : Ok v s) : OkR v (execDeletePod cmd s) := by
  refine okR_bind h ?_
  intro t a ht
  split
  · exact ok_removePod ht
  · exact ht

theorem okR_execMoveCores {cmd : Nat} {s : State} (h : Ok v s) : OkR v (execMoveCores cmd s) :=
  okR_bind h (fun _ _ ht => ok_moveCores ht)

theorem ok_giveT1 {s : State} {p g : Nat} (h : Ok v s) : Ok v (s.giveT1 p g) :=
  ok_fitShare (ok_modPod h)

theorem okR_execMoveT1 {cmd : Nat} {s : State} (h : Ok v s) : OkR v (execMoveT1 cmd s) :=
  okR_bind h (fun _ _ ht => ok_ite ht (ok_modPod (ok_giveT1 ht)))

theorem ok_dropClaims {s : State} {p copy : Nat} (h : Ok v s) : Ok v (s.dropClaims p copy) :=
  ok_ite h (ok_foldl (fun _ _ hs => ok_unclaim hs) h)

theorem ok_dropRequests {s : State} {p copy : Nat} (h : Ok v s) : Ok v (s.dropRequests p copy) :=
  ok_ite h { h with }

theorem ok_giveObject {s : State} {o : Obj} {p : Nat} (h : Ok v s) : Ok v (s.giveObject o p) :=
  ok_fitShare (ok_ite (ok_modObj h) (ok_failGone (ok_dropClaims (ok_modObj h))))

theorem okR_execMoveObject {cmd : Nat} {s : State} (h : Ok v s) : OkR v (execMoveObject cmd s) := by
  refine okR_bind h ?_
  intro t a ht
  split
  · exact ok_ite ht (ok_giveObject ht)
  · exact ht

theorem okR_execMoveQueue {cmd : Nat} {s : State} (h : Ok v s) : OkR v (execMoveQueue cmd s) :=
  okR_bind h (fun _ _ ht => ok_modQueue ht)

theorem okR_execMoveSlots {cmd : Nat} {s : State} (h : Ok v s) : OkR v (execMoveSlots cmd s) :=
  okR_bind h (fun _ _ ht => ok_ite ht (ok_modPod (ok_modPod ht)))

/-! ### Volumes -/

theorem ok_addKey {s : State} {handle : Nat} {copy : Option Nat} (h : Ok v s) : Ok v (s.addKey handle copy) :=
  { (ok_fresh h) with }

theorem ok_addObject {s : State} {kind : ObjKind} {num pod sectors copy : Nat} (h : Ok v s) :
    Ok v (s.addObject kind num pod sectors copy).2 :=
  { { h with } with }

theorem ok_dropObject {s : State} {o : Obj} (h : Ok v s) : Ok v (s.dropObject o) :=
  { h with }

theorem okR_execCreateVolume {cmd n : Nat} {s : State} (h : Ok v s) : OkR v (execCreateVolume cmd n s) :=
  okR_onCmd h (fun _ _ => ok_ite (ok_fail h) (ok_ite (ok_refuse h)
      (ok_ite (ok_refuse h) (ok_ite (ok_refuse h) (ok_ite h (ok_fail (ok_addKey (ok_addObject (ok_allocate h)))))))))

theorem okR_execDeleteVolume {cmd : Nat} {s : State} (h : Ok v s) : OkR v (execDeleteVolume cmd s) := by
  refine okR_onCmd h ?_
  intro x hx
  split
  · exact ok_fail h
  · exact ok_ok { (ok_unmapOwner (ok_dropObject h)) with media := { ((ok_unmapOwner (ok_dropObject h)).media) with
      staging := each_filter (((ok_unmapOwner (ok_dropObject h)).media).staging) } }

theorem ok_noteRead {s : State} {lb sec : Nat} (h : Ok v s) : Ok v (s.noteRead lb sec) := by
  unfold State.noteRead
  split
  · exact h
  · split
    · exact ok_setSb h
    · exact h

theorem okR_execRead {cmd : Nat} {s : State} (h : Ok v s) : OkR v (execRead cmd s) := by
  refine okR_onCmd h ?_
  intro x hx
  split
  · exact ok_fail h
  · exact ok_ite (ok_fail h) (ok_ite h (ok_ite (ok_complete (ok_foldl (fun _ _ hs => ok_noteRead hs) h))
      (ok_complete (ok_foldl (fun _ _ hs => ok_noteRead hs) h))))

theorem sectorOk_encrypted {o : Obj} {at_ : Nat × Nat} {x : Sector} (hsec : SectorOk v x) :
    SectorOk v (o.encrypted at_ x) :=
  hsec

theorem ok_stageSector {s : State} {bs : List Byte} (h : Ok v s) : Ok v (s.stageSector bs).2 := by
  unfold State.stageSector
  dsimp only
  split
  · split
    · exact ok_noteError (ok_setFlip h)
    · exact ok_noteError (ok_setFlip h)
    · exact { (ok_noteError (ok_setFlip h)) with }
  · exact h

theorem sectorOk_stageSector {s : State} {bs : List Byte} : SectorOk v (s.stageSector bs).1 := by
  unfold State.stageSector
  dsimp only
  split
  · split <;> exact memOk_ofList
  · exact memOk_ofList

theorem ok_stageWrite {fuel : Nat} {s : State} {o : Obj} {u : Nat} (h : Ok v s) : Ok v (s.stageWrite fuel o u) := by
  induction fuel generalizing s with
  | zero => exact h
  | succ n ih =>
    unfold State.stageWrite
    split
    · exact h
    · rename_i c _
      dsimp only
      split
      · exact h
      · split
        · exact ok_complete (ok_skipRest (ok_mediaEvent (ok_modObj h)))
        · split
          · exact h
          · have ht := ok_modCmd (u := u) (f := fun d => { d with
              progress := d.progress + 1, begun := true
              undo := if d.whole then d.undo else d.undo ++ [((o.sector (c.p0 + c.progress)).1,
                (o.sector (c.p0 + c.progress)).2,
                s.sectorOf (o.sector (c.p0 + c.progress)).1 (o.sector (c.p0 + c.progress)).2)] })
              (ok_stageSector (bs := (c.payload.drop (4096 * c.progress)).take 4096) h)
              (fun d hd => each_ite hd (each_append hd (each_cons (sectorOk_sectorOf h) each_nil)))
            have he : StagedOk v { lb := (o.sector (c.p0 + c.progress)).1, sector := (o.sector (c.p0 + c.progress)).2
                                   data := some (o.encrypted (o.sector (c.p0 + c.progress))
                                     (s.stageSector ((c.payload.drop (4096 * c.progress)).take 4096)).1)
                                   uid := some u } := opt_some (sectorOk_encrypted sectorOk_stageSector)
            exact ih { ht with media := { ht.media with
              staging := each_append ht.media.staging (each_cons he each_nil) } }

theorem ok_write {s : State} {c : Cmd} (h : Ok v s) : Ok v (s.write c) := by
  unfold State.write
  split
  · exact ok_fail (ok_skipRest h)
  · split
    · exact ok_fail (ok_skipRest h)
    · split
      · exact ok_fail (ok_skipRest h)
      · split
        · exact h
        · dsimp only
          split
          · exact ok_stageWrite h
          · exact ok_ite (ok_stageWrite h) (ok_ite (ok_stagedDone (ok_stageWrite h)) (ok_complete (ok_stageWrite h)))

theorem okR_execWrite {cmd : Nat} {s : State} (h : Ok v s) : OkR v (execWrite cmd s) := by
  unfold execWrite
  split
  · exact okR_next h
  · exact okR_ite (okR_next (ok_settle (ok_write h))) (okR_next h)

theorem ok_stageTrims {fuel : Nat} {s : State} {o : Obj} {u : Nat} {secs : List (Nat × Nat)} (h : Ok v s) :
    Ok v (s.stageTrims fuel o u secs) := by
  induction fuel generalizing s secs with
  | zero => exact h
  | succ n ih =>
    unfold State.stageTrims
    split
    · exact h
    · have ht : Ok v (s.modCmd u (fun c => { c with progress := c.progress + 1 })) := ok_modCmd h fun _ hm => hm
      refine ok_ite h (ih { ht with media := { ht.media with staging := each_append ht.media.staging ?_ } })
      exact each_cons opt_none each_nil

theorem ok_unstage {s : State} {named : Staged → Bool} (h : Ok v s) : Ok v (s.unstage named) :=
  ok_foldl (fun _ _ hs => ok_stagedDone hs) { h with media := { h.media with
      staging := each_filter h.media.staging } }

theorem ok_unmapWhole {s : State} {o : Obj} {c : Cmd} (h : Ok v s) : Ok v (s.unmapWhole o c) :=
  ok_foldl (fun _ _ hs => ok_unmap (ok_unstage hs)) h

theorem ok_discardFrom {s : State} {o : Obj} {c : Cmd} (h : Ok v s) : Ok v (s.discardFrom o c) :=
  ok_stageTrims (ok_ite h (ok_unmapWhole (ok_modCmd h (fun _ hm => hm))))

theorem ok_onDiscard {s : State} {c : Cmd} {f : Obj → State} (h : Ok v s) (hf : ∀ x, Ok v (f x)) :
    Ok v (s.onDiscard c f) := by
  unfold State.onDiscard
  split
  · exact ok_fail h
  · exact ok_ite (ok_fail h) (ok_ite (ok_fail h) (ok_ite h (hf _)))

theorem okR_execDiscard {cmd : Nat} {s : State} (h : Ok v s) : OkR v (execDiscard cmd s) :=
  okR_onCmd h (fun _ _ => ok_onDiscard h (fun _ => ok_stagedDone (ok_sync (ok_discardFrom h))))

theorem okR_execSecureDiscard {cmd : Nat} {s : State} (h : Ok v s) : OkR v (execSecureDiscard cmd s) := by
  refine okR_onCmd h fun c _ => ok_onDiscard h fun o => ?_
  extract_lets names t u
  have hu : Ok v u := ok_sync (ok_discardFrom (ok_ite h (ok_unstage h)))
  split
  · exact hu
  · exact ok_ite hu (ok_ok hu)

/-! ### Models -/

theorem okR_execLoadModel {cmd n : Nat} {s : State} (h : Ok v s) : OkR v (execLoadModel cmd n s) := by
  have ht : Ok v (s.beginChain cmd 0x20) := ok_beginChain h
  refine okR_onCmd ht fun c _ => ?_
  split
  · exact ht
  · refine ok_ite (ok_fail ht) ?_
    split
    · exact ok_fail ht
    · refine ok_ite (ok_refuse ht) ?_
      split
      · exact ok_ite ht (ok_fail (ok_modObj (ok_addObject ht)))
      · have hnew : CopyOk v
            { id := (s.beginChain cmd 0x20).nextCopy, kind := .model, size := c.payload.length
              mem := Sparse.ofList 0 c.payload, digest := Config.sha3 c.payload
              lblocks := (spanParts [(0, c.payload.length)]).length } := memOk_ofList
        exact ok_ite (ok_refuse ht) (ok_ite ht (ok_fail (ok_addKey (ok_addObject (ok_addCopy ht hnew)))))

theorem ok_dropCopy {s : State} {copy : Nat} (h : Ok v s) : Ok v (s.dropCopy copy) :=
  { (ok_unmapOwner h) with copies := each_filter ((ok_unmapOwner h).copies) }

theorem ok_endRemoval {s : State} {c : Cmd} {pod copy : Nat} (h : Ok v s) : Ok v (s.endRemoval c pod copy) :=
  ok_ite h (ok_ok (ok_ite (ok_dropClaims h) (ok_dropCopy (ok_dropClaims h))))

theorem ok_remove {s : State} {c : Cmd} {o : Obj} (h : Ok v s) : Ok v (s.remove c o) :=
  ok_endRemoval (ok_modCmd (ok_failGone (ok_dropRequests (ok_dropObject h))) (fun _ hm => hm))

theorem ok_goOn {s : State} {c : Cmd} (h : Ok v s) : Ok v (s.goOn c) :=
  ok_endRemoval h

theorem okR_execUnloadModel {cmd : Nat} {s : State} (h : Ok v s) : OkR v (execUnloadModel cmd s) := by
  refine okR_onCmd h ?_
  intro x hx
  split
  · exact ok_goOn h
  · split
    · exact ok_fail h
    · exact ok_ite (ok_refuse h) (ok_remove h)

/-! ### Index commands -/

theorem memOk_window {b : Build} {d : List Byte} : MemOk v (b.window d) :=
  memOk_write (memOk_write (memOk_write (memOk_write (memOk_write (memOk_write (memOk_write memOk_nil))))))

theorem okR_execBuildIndex {cmd n : Nat} {s : State} (h : Ok v s) : OkR v (execBuildIndex cmd n s) := by
  refine okR_onCmd (ok_beginChain h) ?_
  intro x hx
  split
  · exact ok_beginChain h
  · split
    · exact ok_fail (ok_beginChain h)
    · split
      · exact ok_fail (ok_beginChain h)
      · exact ok_ite (ok_refuse (ok_beginChain h)) (ok_ite (ok_fail (ok_fresh (ok_beginChain h)))
          (ok_ite (ok_fail (ok_fresh (ok_beginChain h))) (ok_ite (ok_beginChain h)
          (ok_fail (ok_fitShare (ok_addKey (ok_addObject (ok_addCopy (ok_beginChain h) memOk_window))))))))

theorem copyOk_openBlock {c : Copy} {b j : Nat} (hx : CopyOk v c) : CopyOk v (c.openBlock b j) :=
  memOk_write (memOk_clear hx)

theorem copyOk_putSide {c : Copy} {b e : Nat} {x : Insert} (hx : CopyOk v c) : CopyOk v (c.putSide b e x) :=
  have hc : CopyOk v ((c.setField (c.sideAt b + 8) 2 (e + 1)).setField
      ((c.setField (c.sideAt b + 8) 2 (e + 1)).sideAt b + 0x40 + 8 * e) 8 x.ident) := copyOk_setField
          (copyOk_setField hx)
  memOk_write hc

theorem opt_append {c : Copy} {j : Nat} {x : Insert} (hx : CopyOk v c) : ∀ y ∈ c.append j x, CopyOk v y := by
  refine opt_ite opt_none ?_
  split
  · exact opt_ite (opt_some (copyOk_setField (copyOk_putSide hx)))
      (opt_map (fun _ _ => hx) (fun _ _ => copyOk_setField (copyOk_putSide (copyOk_setField (copyOk_openBlock hx)))))
  · exact opt_map (fun _ _ => hx) (fun _ _ => copyOk_setField
      (copyOk_putSide (copyOk_setField (copyOk_setField (copyOk_openBlock hx)))))

theorem opt_insertOne {c : Copy} {x : Insert} (hx : CopyOk v c) : ∀ y ∈ c.insertOne x, CopyOk v y :=
  opt_map (opt_append hx) (fun _ hy => copyOk_bump8 (copyOk_bump8 (copyOk_setIdent (copyOk_setField hy))))

theorem copyOk_insertAll {c : Copy} {xs : List Insert} (hx : CopyOk v c) : CopyOk v (c.insertAll xs).1 := by
  induction xs generalizing c with
  | nil => exact hx
  | cons x t ih =>
    unfold Copy.insertAll
    split
    · rename_i d hd
      exact ih (opt_insertOne hx d hd)
    · exact hx

theorem opt_indexOf {s : State} {handle : Nat} (h : Ok v s) : ∀ p ∈ s.indexOf handle, CopyOk v p.2 := by
  unfold State.indexOf
  split
  · exact opt_ite (opt_map (opt_copy? h) fun _ hx => copyOk_freed hx) opt_none
  · exact opt_none

theorem okR_execInsertCodes {cmd : Nat} {s : State} (h : Ok v s) : OkR v (execInsertCodes cmd s) := by
  have ht : Ok v (s.beginChain cmd 0x23) := ok_beginChain h
  refine okR_onCmd ht fun c _ => ?_
  split
  · exact ok_fail ht
  · rename_i x hx
    refine ok_ite ht (ok_ite (ok_fail ht) (ok_ite (ok_refuse ht) (ok_ite (ok_refuse ht) ?_)))
    split
    · exact ok_fail ht
    · rename_i y hy
      have hnew : CopyOk v y := of_fst (copyOk_insertAll (opt_indexOf ht _ hx)) hy
      exact ok_ite (ok_fail ht) (ok_ite ht (ok_ok (ok_keepCopy ht hnew)))

theorem copyOk_deleteOne {c : Copy} {n : Nat} (hx : CopyOk v c) : CopyOk v (c.deleteOne n) := by
  unfold Copy.deleteOne
  split
  · exact copyOk_bump8 (copyOk_setIdent hx)
  · exact copyOk_bump8 hx

theorem ok_deleteCodes {s : State} {c : Cmd} (h : Ok v s) : Ok v (s.deleteCodes c) := by
  unfold State.deleteCodes
  split
  · exact ok_fail h
  · rename_i x hx
    refine ok_ite h (ok_ite (ok_refuse h) (ok_ite (ok_fail h) (ok_ite h (ok_complete (ok_keepCopy h ?_)))))
    exact copyOk_foldl (fun _ _ hy => copyOk_deleteOne hy) (opt_indexOf h _ hx)

theorem okR_execDeleteCodes {cmd : Nat} {s : State} (h : Ok v s) : OkR v (execDeleteCodes cmd s) := by
  unfold execDeleteCodes
  dsimp only
  split
  · exact okR_next (ok_beginChain h)
  · exact okR_ite (okR_next (ok_settle (ok_deleteCodes (ok_beginChain h)))) (okR_next (ok_beginChain h))

theorem okR_execCompactIndex {cmd : Nat} {s : State} (h : Ok v s) : OkR v (execCompactIndex cmd s) := by
  refine okR_onCmd h ?_
  intro x hx'
  split
  · exact ok_fail h
  · exact ok_ite h (ok_ite (ok_fail h) (ok_ite h (ok_modCopy (ok_modCmd h (fun _ hm => hm)) (fun _ hx => hx))))

theorem okR_execAutoCompaction {index : Nat} {s : State} (h : Ok v s) : OkR v (execAutoCompaction index s) := by
  unfold execAutoCompaction
  split
  · exact okR_next h
  · exact okR_ite (okR_next (ok_modCopy h (fun _ hx => hx))) (okR_next h)

theorem copyOk_defer {c : Copy} {j : Nat} (hx : CopyOk v c) : CopyOk v (c.defer j) := by
  unfold Copy.defer
  split
  · exact hx
  · exact copyOk_bump4 (copyOk_setField hx)

theorem copyOk_ite {c : Prop} [Decidable c] {x y : Copy} (h : CopyOk v x) (h' : CopyOk v y) :
    CopyOk v (if c then x else y) := by
  split
  · exact h
  · exact h'

theorem copyOk_compactList {s : State} {c : Copy} {j : Nat} (hx : CopyOk v c) : CopyOk v (s.compactList c j) := by
  unfold State.compactList
  refine copyOk_ite (copyOk_defer hx) ?_
  split
  · exact copyOk_defer hx
  · have hmem : MemOk v c.mem := hx
    refine copyOk_ite ?_ (copyOk_defer hx)
    exact memOk_write hmem

theorem okR_execListCompaction {index list : Nat} {s : State} (h : Ok v s) :
    OkR v (execListCompaction index list s) := by
  unfold execListCompaction
  split
  · exact okR_next h
  · rename_i x hfound
    have hx : CopyOk v x := opt_copy? h x hfound
    split
    · exact okR_next h
    · extract_lets y _ t
      have hy : CopyOk v y := by
        dsimp only [y]
        split
        · exact hx
        · exact copyOk_compactList (copyOk_freed hx)
      have ht : Ok v t := ok_keepCopy h hy
      exact okR_ite (okR_next h) (okR_next (ok_settle (ok_endCompaction ht)))

theorem okR_execStewardListCommit {index : Nat} {s : State} (h : Ok v s) : OkR v (execStewardListCommit index s) := by
  unfold execStewardListCommit
  split
  · exact okR_next h
  · exact okR_ite (okR_next h) (okR_next (ok_settle (ok_commitReady h)))

theorem okR_execDeleteIndex {cmd : Nat} {s : State} (h : Ok v s) : OkR v (execDeleteIndex cmd s) := by
  refine okR_onCmd h ?_
  intro x hx
  split
  · exact ok_goOn h
  · split
    · exact ok_fail h
    · exact ok_ite (ok_refuse h) (ok_ite (ok_fail h) (ok_remove h))

/-! ### Hardware -/

theorem copyOk_restart {c : Copy} (hx : CopyOk v c) : CopyOk v c.restart :=
  hx

theorem ok_moduleReset {s : State} (h : Ok v s) : Ok v s.moduleReset :=
  ok_releaseIdents {
    host := { h.host with msix := memOk_nil }
    link := ⟨memOk_nil, memOk_nil, memOk_nil, each_nil⟩
    cores := coresOk_replicate
    jobs := each_nil
    copies := each_map (each_filter h.copies) fun _ hx => copyOk_restart hx
    arbs := fun _ => rfl
    media := { h.media with staging := each_nil }
    spool := ⟨memOk_nil, each_replicate memOk_nil, fun _ => rfl, fun _ => rfl, fun _ => rfl⟩
    dailies := ⟨memOk_nil, memOk_nil, memOk_nil, memOk_nil⟩
    energy := memOk_nil }

theorem ok_loseKeys {s : State} {handles : List Nat} (h : Ok v s) : Ok v (s.loseKeys handles) :=
  { h with }

theorem ok_train {s : State} {env : StartEnv} (h : Ok v s) : Ok v (s.train env) :=
  { h with link := { h.link with } }

theorem ok_boot {s : State} {env : StartEnv} (h : Ok v s) : Ok v (s.boot env) :=
  ok_ite { h with } (ok_ite { { h with } with } { { h with } with })

theorem ok_ready {s : State} {env : StartEnv} (h : Ok v s) : Ok v (s.ready env) :=
  ok_ite (ok_raise (ok_hwEvent { h with })) { h with }

theorem ok_startOnce {s : State} {env : StartEnv} (h : Ok v s) : Ok v (s.startOnce env) := by
  have ht : Ok v (s.train env) := ok_train h
  unfold State.startOnce
  dsimp only
  split
  · exact { ht with }
  · rename_i fuses _
    have hu : Ok v ({ s.train env with integ := { (s.train env).integ with repairs := [], fuses := fuses } }.boot
        env) :=
      ok_boot { ht with }
    exact ok_ready (ok_ite hu (ok_loseKeys (ok_rebuild hu)))

theorem ok_eraseFlash {s : State} (h : Ok v s) : Ok v s.eraseFlash := by
  refine ok_foldl ?_ h
  intro t a ht
  split
  · exact ht
  · exact ok_setSb ht
  · exact ok_eraseSb ht
  · exact ok_eraseSb ht
  · exact ok_eraseSb ht
  · exact ok_eraseSb ht

theorem ok_eraseAll {s : State} (h : Ok v s) : Ok v s.eraseAll := by
  have ht := ok_eraseFlash h
  exact { ht with
    copies := each_nil
    media := { ht.media with lblocks := each_nil, once := fun _ => List.nodup_nil, staging := each_nil } }

theorem ok_start {s : State} {env : StartEnv} (h : Ok v s) : Ok v (s.start env) :=
  ok_ite (ok_startOnce (ok_moduleReset (ok_eraseAll (ok_startOnce h)))) (ok_startOnce h)

theorem ok_flushing {s : State} {holds : Bool} (h : Ok v s) : Ok v (s.flushing holds) :=
  ok_ite (ok_flush h) h

theorem ok_dark {s : State} (h : Ok v s) : Ok v s.dark :=
  { ok_moduleReset h with }

theorem ok_trip {s : State} {cause : BitVec 2} (h : Ok v s) : Ok v (s.trip cause) :=
  { ok_moduleReset h with }

theorem ok_powerOn {s : State} {env : StartEnv} (h : Ok v s) : Ok v (s.powerOn env) := by
  have ht : Ok v s.moduleReset := ok_moduleReset h
  exact ok_ite h (ok_ite (ok_trip h) (ok_ite { ht with } (ok_start ht)))

theorem okR_execPowerApply {env : StartEnv} {s : State} (h : Ok v s) : OkR v (execPowerApply env s) :=
  okR_ite (okR_next h) (okR_next (ok_powerOn { h with }))

theorem okR_execPowerLoss {bankHolds : Bool} {s : State} (h : Ok v s) : OkR v (execPowerLoss bankHolds s) :=
  okR_ite (okR_next h) (okR_next (ok_dark { (ok_flushing h) with }))

theorem okR_execPerstAssert {s : State} (h : Ok v s) : OkR v (execPerstAssert s) := by
  unfold execPerstAssert
  extract_lets t _ u w _
  have ht : Ok v t := ok_flushing h
  have hu : Ok v u := { ht with }
  have hw : Ok v w := ok_moduleReset hu
  clear_value w
  exact okR_ite (okR_next h) (okR_ite (okR_next { hw with }) (okR_next hu))

theorem okR_execPerstRelease {env : StartEnv} {s : State} (h : Ok v s) : OkR v (execPerstRelease env s) :=
  okR_ite (okR_next h) (okR_ite (okR_next (ok_start (ok_moduleReset { h with }))) (okR_next { h with }))

theorem okR_execPwrdisAssert {s : State} (h : Ok v s) : OkR v (execPwrdisAssert s) :=
  okR_ite (okR_next h) (okR_next (ok_dark { (ok_flushing h) with }))

theorem okR_execPwrdisRelease {env : StartEnv} {s : State} (h : Ok v s) : OkR v (execPwrdisRelease env s) :=
  okR_ite (okR_next h) (okR_next (ok_powerOn { h with }))

theorem okR_execCoolantFltAssert {s : State} (h : Ok v s) : OkR v (execCoolantFltAssert s) :=
  okR_ite (okR_next h) (okR_ite (okR_next { (ok_flushing h) with }) (okR_next (ok_trip { (ok_flushing h) with })))

theorem okR_execCoolantFltRelease {s : State} (h : Ok v s) : OkR v (execCoolantFltRelease s) :=
  okR_next { h with }

theorem okR_execHostLinkReset {env : StartEnv} {s : State} (h : Ok v s) : OkR v (execHostLinkReset env s) := by
  have ht : Ok v (s.train env) := ok_train h
  exact okR_ite (okR_next h) (okR_next { ht with link := { ht.link with } })

theorem ok_throttle {s : State} {engine : Bool} (h : Ok v s) : Ok v (s.throttle engine) :=
  ok_hwEvent { h with }

theorem okR_execPowerThrottle {engine : Bool} {s : State} (h : Ok v s) : OkR v (execPowerThrottle engine s) :=
  okR_ite (okR_next h) (okR_next (ok_throttle h))

theorem okR_execThermalThrottle {t : Temps} {s : State} (h : Ok v s) : OkR v (execThermalThrottle t s) :=
  okR_ite (okR_next h) (okR_next (ok_hwEvent { h with }))

theorem okR_execInletHigh {t : Temps} {s : State} (h : Ok v s) : OkR v (execInletHigh t s) :=
  okR_ite (okR_next h) (okR_next (ok_hwEvent { h with }))

theorem okR_execThermalTrip {t : Temps} {s : State} (h : Ok v s) : OkR v (execThermalTrip t s) :=
  okR_ite (okR_next h) (okR_next (ok_trip (ok_flushing h)))

theorem okR_execHoldupMeasure {ms : Nat} {s : State} (h : Ok v s) : OkR v (execHoldupMeasure ms s) :=
  okR_ite (okR_next h) (okR_next (ok_raise (ok_hwEvent { h with })))

/-! ### Security -/

theorem ok_haltJob {s : State} {ctx : Nat} (h : Ok v s) : Ok v (s.haltJob ctx) := by
  unfold State.haltJob
  split
  · exact h
  · exact ok_ite h (ok_showJob (ok_modJob { (ok_freeCores h) with }
      (fun _ hj => { hj with
      program := memOk_nil, writable := memOk_nil, lastCut := opt_none, prevCut := opt_none })))

theorem ok_hardError {s : State} (h : Ok v s) : Ok v s.hardError :=
  ok_ite h (ok_settle (ok_portsDownFree
      (ok_completeAll { (ok_flushing (ok_foldl (fun _ _ hs => ok_haltJob hs) h)) with
      link := { ((ok_flushing (ok_foldl (fun _ _ hs => ok_haltJob hs) h)).link) with } })))

theorem okR_execSelfTestPeriodic {pass : Bool} {s : State} (h : Ok v s) : OkR v (execSelfTestPeriodic pass s) :=
  okR_ite (okR_next h) (okR_next (ok_hardError h))

theorem okR_execEntropyTestFail {retries : Option Bool} {s : State} (h : Ok v s) :
    OkR v (execEntropyTestFail retries s) := by
  unfold execEntropyTestFail
  split
  · exact okR_next h
  · split
    · exact okR_next { h with }
    · exact okR_next { h with }
    · exact okR_next (ok_hardError h)

theorem okR_execWatchdogExpiry {s : State} (h : Ok v s) : OkR v (execWatchdogExpiry s) :=
  okR_ite (okR_next h) (okR_next (ok_hardError h))

theorem ok_answer {s : State} {r : SpdmReply} (h : Ok v s) : Ok v (s.answer r) :=
  { h with host := { h.host with } }

theorem okR_execSpdmMessage {msg : SpdmMsg} {s : State} (h : Ok v s) : OkR v (execSpdmMessage msg s) := by
  unfold execSpdmMessage
  split
  · exact okR_next h
  · split
    · exact okR_next (ok_answer h)
    · split
      · split
        · exact okR_next (ok_answer h)
        · exact okR_next (ok_answer h)
      · exact okR_next (ok_answer h)
      · exact okR_ite (okR_next (ok_answer h)) (okR_next (ok_answer { h with }))
      · exact okR_ite (okR_next (ok_answer { h with link := { h.link with } })) (okR_next (ok_answer h))
      · exact okR_next (ok_answer h)

theorem okR_execIdeKmMessage {session : Nat} {s : State} (h : Ok v s) : OkR v (execIdeKmMessage session s) := by
  unfold execIdeKmMessage
  split
  · exact okR_next h
  · exact okR_ite (okR_next h) (okR_next { h with link := { h.link with } })

theorem ok_changeLc {s : State} {target : Nat} {newKey : List Byte} {whole : Bool} {env : StartEnv} (h : Ok v s) :
    Ok v (s.changeLc target newKey whole env) := by
  unfold State.changeLc
  extract_lets _ _ t _
  have ht : Ok v t := { h with link := { h.link with } }
  exact ok_ite (ok_start (ok_moduleReset (ok_eraseAll ht))) { ht with copies := each_nil }

theorem ok_lifecycle {s : State} {whole : Bool} {env : StartEnv} (h : Ok v s) : Ok v (s.lifecycle whole env) := by
  unfold State.lifecycle
  extract_lets off tok cause n _ _ t _
  have hn : Ok v n.2 := ok_fresh h
  have ht : Ok v t := { hn with }
  clear_value cause
  split
  · exact { ht with }
  · exact ok_changeLc ht

theorem ok_refuseFw {s : State} {reason : Nat} (h : Ok v s) : Ok v (s.refuseFw reason) :=
  { h with }

theorem ok_stage {s : State} (h : Ok v s) : Ok v s.stage :=
  ok_ite (ok_refuseFw h) { h with }

theorem okR_execFwVerifyDone {s : State} (h : Ok v s) : OkR v (execFwVerifyDone s) := by
  unfold execFwVerifyDone
  refine okR_ite (okR_next h) ?_
  split
  · exact okR_next { h with }
  · rename_i r _
    have ht : Ok v (s.refuseFw r) := ok_refuseFw h
    exact okR_next { ht with }

theorem ok_commitFw {s : State} {stop : CommitEnd} {env : StartEnv} (h : Ok v s) : Ok v (s.commitFw stop env) := by
  unfold State.commitFw
  refine ok_ite (ok_refuseFw h) (ok_ite (ok_refuseFw h) ?_)
  extract_lets img t
  have ht : Ok v t := ok_flushing h
  split
  · rename_i r _
    have hu : Ok v (t.refuseFw r) := ok_refuseFw ht
    exact { hu with }
  · split
    · exact { ht with }
    · exact { ht with }
    · exact ok_start (ok_moduleReset { ht with })

theorem okR_execCfOperationDone {erase : Bool} {result : Fin 4} {s : State} (h : Ok v s) :
    OkR v (execCfOperationDone erase result s) :=
  okR_ite (okR_next h) (okR_next { h with })

/-! ### Dailies -/

theorem ok_putRecord {s : State} {bs : List Byte} (h : Ok v s) : Ok v (s.putRecord bs) :=
  ok_ite { (ok_writeAperture (ok_writeAperture h)) with
      dailies := { ((ok_writeAperture (ok_writeAperture h)).dailies) with } }
      { (ok_writeAperture h) with dailies := { ((ok_writeAperture h).dailies) with } }

theorem ok_foldAll {s : State} (h : Ok v s) : Ok v s.foldAll :=
  ok_foldl (fun _ _ hs => ok_ite hs (ok_foldBlock hs)) h

theorem ok_snapshot {s : State} (h : Ok v s) : Ok v s.snapshot := by
  unfold State.snapshot
  extract_lets t rs d u
  have ht : Ok v t := ok_foldAll h
  have hu : Ok v u := ok_foldl (fun _ _ hs => ok_putRecord hs) ht
  clear_value t u
  exact ok_ite { hu with dailies := { hu.dailies with } } { ht with dailies := { ht.dailies with } }

theorem okR_execPeriodicSnapshot {s : State} (h : Ok v s) : OkR v (execPeriodicSnapshot s) :=
  okR_ite (okR_next h) (okR_next (ok_snapshot { h with dailies := { h.dailies with } }))

theorem okR_execCounterFold {i : Fin 1320} {s : State} (h : Ok v s) : OkR v (execCounterFold i s) :=
  okR_ite (okR_next h) (okR_next (ok_foldSlot h))

theorem ok_putSample {s : State} {n : Nat} {bs : List Byte} (h : Ok v s) : Ok v (s.putSample n bs) :=
  ok_ite (ok_putRecord h) { h with dailies := { h.dailies with } }

theorem okR_execTagSampleDone {core : Fin 32} {t : TagTimes} {s : State} (h : Ok v s) :
    OkR v (execTagSampleDone core t s) := by
  unfold execTagSampleDone
  split
  · exact okR_next h
  · exact okR_next (ok_putSample (ok_modCore h (fun _ hc => { hc with })))

theorem okR_execExactDrain {core : Fin 32} {s : State} (h : Ok v s) : OkR v (execExactDrain core s) :=
  okR_ite (okR_next h) (okR_next (ok_putSample (ok_modCore h (fun _ hc => { hc with }))))

theorem ok_chargeEnergy {s : State} {ctx n : Nat} (h : Ok v s) : Ok v (s.chargeEnergy ctx n) :=
  ok_charge h

theorem ok_addOverhead {s : State} {i n : Nat} (h : Ok v s) : Ok v (s.addOverhead i n) :=
  { h with dailies := { h.dailies with overhead := memOk_set h.dailies.overhead } }

theorem ok_meterCore {s : State} {core uj : Nat} (h : Ok v s) : Ok v (s.meterCore core uj) := by
  unfold State.meterCore
  split
  · exact ok_chargeEnergy h
  · exact ok_addOverhead h

theorem ok_meterRail {s : State} {to_ : Nat} {moved : RailBytes → Nat} {uj : Nat} (h : Ok v s) :
    Ok v (s.meterRail to_ moved uj) :=
  ok_ite (ok_addOverhead h) (ok_addOverhead (ok_foldl (fun _ _ hs => ok_chargeEnergy hs) h))

theorem ok_readMeters {s : State} {rails : List Nat} (h : Ok v s) : Ok v (s.readMeters rails) := by
  unfold State.readMeters
  extract_lets t u w engine flash
  have ht : Ok v t := ok_ite (ok_throttle h) h
  have hu : Ok v u := ok_ite (ok_throttle ht) ht
  have hw : Ok v w := ok_ite (ok_hwEvent hu) hu
  exact { hw with }

theorem okR_execMeteringInterval {rails : List Nat} {s : State} (h : Ok v s) :
    OkR v (execMeteringInterval rails s) := by
  unfold execMeteringInterval
  generalize List.range 32 = cores, List.range 38 = all
  extract_lets e t t1 t2 t3 t4 used t5 _ t6 t7 _ _ t8
  refine okR_ite (okR_next h) (okR_next ?_)
  have ht : Ok v t := ok_foldl (fun _ _ hs => ok_meterCore hs) h
  have ht4 : Ok v t4 := ok_meterRail (ok_meterRail (ok_meterRail (ok_meterRail ht)))
  have ht5 : Ok v t5 := ok_addOverhead (ok_addOverhead ht4)
  clear_value t5
  have ht6 : Ok v t6 := { ht5 with }
  have ht7 : Ok v t7 := ok_readMeters ht6
  clear_value t7
  have ht8 : Ok v t8 := { ht7 with
    jobs := each_map ht7.jobs fun _ hj => { hj with }
    dailies := { ht7.dailies with }
    energy := memOk_foldl (fun _ _ hm => memOk_set hm) ht7.energy }
  exact ok_foldl (fun _ _ hs => ok_showJob hs) ht8

/-! ### Registers -/

theorem ok_adminUp {s : State} (h : Ok v s) : Ok v s.adminUp :=
  ok_ite { h with link := { h.link with } } { h with link := { h.link with } }

theorem ok_adminOff {s : State} (h : Ok v s) : Ok v s.adminOff :=
  ok_settle { h with link := { h.link with } }

theorem ok_adminWrite {s : State} {val : Nat} (h : Ok v s) : Ok v (s.adminWrite val) :=
  ok_ite (ok_ite h { h with link := { h.link with } }) (ok_ite
      (ok_ite (ok_ite h { h with link := { h.link with } }) (ok_adminUp
      (ok_ite h { h with link := { h.link with } }))) (ok_adminOff (ok_ite h { h with link := { h.link with } })))

theorem ok_guardWrite {s : State} {val : Nat} (h : Ok v s) : Ok v (s.guardWrite val) :=
  have ht : Ok v (s.regEvent 1) := ok_regEvent h
  ok_ite { h with link := { h.link with } } { ht with link := { ht.link with } }

theorem ok_spoolIdTo {s : State} {val : Nat} (h : Ok v s) : Ok v (s.spoolIdTo val) :=
  ok_ite h (ok_portsDownFree { h with spool := { h.spool with } })

theorem ok_exportTo {s : State} {i val : Nat} (h : Ok v s) : Ok v (s.exportTo i val) :=
  ok_ite (ok_spoolEvent { h with spool := { h.spool with exports := length_set h.spool.exports } })
      { h with spool := { h.spool with exports := length_set h.spool.exports } }

theorem ok_inboxTo {s : State} {p val : Nat} (h : Ok v s) : Ok v (s.inboxTo p val) := by
  unfold State.inboxTo
  extract_lets pages old t keep u _ w
  have ht : Ok v t := ok_modInbox h fun _ hb => hb
  have hcut : ∀ b : Inbox, InboxOk v b →
      InboxOk v { b with pages := pages, mem := b.mem.filter (fun c => decide (c.1 < keep)) } := fun _ hb =>
          memOk_filter hb
  have hu : Ok v u := ok_modInbox ht hcut
  have hw : Ok v w := { hu with }
  exact ok_ite (ok_spoolEvent h) (ok_ite (ok_spoolEvent ht) (ok_fitShare hw))

theorem ok_splitStore {s : State} {n : Nat} (h : Ok v s) : Ok v (s.splitStore n) := by
  unfold State.splitStore
  dsimp only
  split
  · exact h
  · refine ok_modCore h ?_
    intro x hx
    split
    · exact { hx with os := memOk_write hx.os }
    · exact { hx with lwb := memOk_write hx.lwb }

theorem ok_splitLoad {s : State} {n : Nat} (h : Ok v s) : Ok v (s.splitLoad n) :=
  ok_ite { h with } (ok_ite { h with } { h with })

theorem ok_splitWrite {s : State} {val : Nat} (h : Ok v s) : Ok v (s.splitWrite val) := by
  unfold State.splitWrite
  extract_lets x word t op _ u _
  have ht : Ok v t := { h with }
  have hu : Ok v u := by
    dsimp only [u]
    split
    · exact { ht with }
    · exact ok_ite (ok_splitStore ht) (ok_splitLoad ht)
  exact ok_ite ht { hu with }

theorem ok_flipWrite {s : State} {i val : Nat} (h : Ok v s) : Ok v (s.flipWrite i val) :=
  ok_ite h (ok_setFlip h)

theorem ok_dailiesCtlTo {s : State} {val : Nat} (h : Ok v s) : Ok v (s.dailiesCtlTo val) :=
  have ht : Ok v { s with dailies := { s.dailies with
      enable := bitOf val 31, period := BitVec.ofNat 16 (bits val 15 0)
      since := if bitOf val 31 && !s.dailies.enable then 0 else s.dailies.since } } :=
    { h with dailies := { h.dailies with } }
  ok_ite (ok_snapshot ht) ht

theorem ok_dailiesRingTo {s : State} {val : Nat} (h : Ok v s) : Ok v (s.dailiesRingTo val) :=
  ok_ite (ok_regEvent h) { h with dailies := { h.dailies with } }

theorem ok_cntSelTo {s : State} {i val : Nat} (h : Ok v s) : Ok v (s.cntSelTo i val) :=
  ok_ite h { h with dailies := { h.dailies with
      slots := memOk_set h.dailies.slots, totals := memOk_set h.dailies.totals } }

theorem ok_sampleCfgTo {s : State} {n val : Nat} (h : Ok v s) : Ok v (s.sampleCfgTo n val) := by
  unfold State.sampleCfgTo
  exact ok_modCore { h with dailies := { h.dailies with sample := memOk_set h.dailies.sample } }
      (fun _ hy => { hy with })

theorem ok_lcWrite {s : State} {val : Nat} {whole : Bool} {env : StartEnv} (h : Ok v s) :
    Ok v (s.lcWrite val whole env) :=
  ok_ite h (ok_ite (ok_lifecycle { h with }) { h with })

theorem ok_fwWrite {s : State} {val : Nat} {stop : CommitEnd} {env : StartEnv} (h : Ok v s) :
    Ok v (s.fwWrite val stop env) :=
  ok_ite h (ok_ite { h with } (ok_ite (ok_stage { h with }) (ok_ite (ok_commitFw { h with }) { h with })))

theorem ok_putArb {s : State} {r : Reg} {val : Nat} (h : Ok v s) : Ok v (s.putArb r val) := by
  unfold State.putArb
  split
  · exact ok_modArb h
  · exact ok_modArb h
  · exact ok_modArb h
  · exact h

theorem ok_putSpool {s : State} {r : Reg} {val : Nat} (h : Ok v s) : Ok v (s.putSpool r val) := by
  unfold State.putSpool
  split
  · exact ok_spoolIdTo h
  · exact { h with spool := { h.spool with } }
  · exact ok_ite (ok_modPort h) (ok_portDown (ok_modPort h))
  · exact ok_exportTo h
  · exact ok_inboxTo h
  · exact { h with spool := { h.spool with routes := memOk_set h.spool.routes } }
  · exact h

theorem ok_putInteg {s : State} {r : Reg} {val : Nat} (h : Ok v s) : Ok v (s.putInteg r val) := by
  unfold State.putInteg
  split
  · exact { h with }
  · exact ok_splitWrite h
  · exact { h with }
  · exact { h with }
  · exact { h with }
  · exact ok_flipWrite h
  · exact ok_setFlip h
  · exact h

theorem ok_putDailies {s : State} {r : Reg} {val : Nat} (h : Ok v s) : Ok v (s.putDailies r val) := by
  unfold State.putDailies
  split
  · exact ok_dailiesCtlTo h
  · exact ok_dailiesRingTo h
  · exact { h with dailies := { h.dailies with } }
  · exact { h with dailies := { h.dailies with } }
  · exact ok_sampleCfgTo h
  · exact ok_cntSelTo h
  · exact h

theorem ok_putLink {s : State} {r : Reg} {val : Nat} (h : Ok v s) : Ok v (s.putLink r val) := by
  unfold State.putLink
  split
  · exact ok_guardWrite h
  · exact { h with link := { h.link with } }
  · exact ok_ite h { h with link := { h.link with } }
  · exact ok_ite h { h with link := { h.link with } }
  · exact ok_adminWrite h
  · exact ok_ringSq h
  · exact ok_ringCq h
  · exact { h with link := { h.link with dbErr := memOk_set h.link.dbErr } }
  · exact { h with host := { h.host with msix := memOk_set h.host.msix } }
  · exact h

theorem ok_putReg {s : State} {r : Reg} {val : Nat} {how : Course} (h : Ok v s) : Ok v (s.putReg r val how) := by
  unfold State.putReg
  split
  · exact { (ok_putDailies (ok_putInteg (ok_putSpool (ok_putArb (ok_putLink h))))) with
      media := { ((ok_putDailies (ok_putInteg (ok_putSpool (ok_putArb (ok_putLink h))))).media) with } }
  · exact { (ok_putDailies (ok_putInteg (ok_putSpool (ok_putArb (ok_putLink h))))) with }
  · exact { (ok_putDailies (ok_putInteg (ok_putSpool (ok_putArb (ok_putLink h))))) with }
  · exact ok_lcWrite (ok_putDailies (ok_putInteg (ok_putSpool (ok_putArb (ok_putLink h)))))
  · exact ok_fwWrite (ok_putDailies (ok_putInteg (ok_putSpool (ok_putArb (ok_putLink h)))))
  · exact ok_putDailies (ok_putInteg (ok_putSpool (ok_putArb (ok_putLink h))))

theorem ok_arm {s : State} (h : Ok v s) : Ok v s.arm :=
  { h with link := { h.link with } }

theorem ok_accept {s : State} {p : RegPlace} {val : Nat} {how : Course} (h : Ok v s) : Ok v (s.accept p val how) :=
  ok_ite h (ok_ite (ok_regEvent h) (ok_putReg h))

theorem ok_hostWrite {s : State} {off size val : Nat} {how : Course} (h : Ok v s) :
    Ok v (s.hostWrite off size val how) :=
  ok_ite h (ok_ite (ok_ite (ok_regEvent h) (ok_arm (ok_regEvent h)))
      (ok_ite (ok_arm h) (ok_ite (ok_ite (ok_regEvent h) (ok_arm (ok_regEvent h)))
      (ok_ite h (ok_ite (ok_foldl (fun _ _ hs => ok_accept hs) h)
      (ok_arm (ok_foldl (fun _ _ hs => ok_accept hs) h)))))))

theorem ok_readPart {s : State} {off size : Nat} {p : RegPlace} (h : Ok v s) : Ok v (s.readPart off size p).2 :=
  ok_ite { h with link := { h.link with shadow := memOk_set h.link.shadow } } h

theorem ok_hostRead {s : State} {off size : Nat} (h : Ok v s) : Ok v (s.hostRead off size).2 := by
  unfold State.hostRead
  dsimp only
  split
  · exact ok_regEvent h
  · split
    · exact h
    · have hr : Ok v ((covered off size).foldl (fun (x : Nat × State) p =>
          let y := x.2.readPart off size p
          (x.1 + y.1, y.2)) (0, s)).2 :=
        List.foldlRecOn (motive := fun (x : Nat × State) => Ok v x.2) _ _ h
            (fun _ hx _ _ => ok_readPart (size := size) hx)
      exact { hr with }

theorem okR_execWideRegisterRead {off size : Nat} {s : State} (h : Ok v s) :
    OkR v (execWideRegisterRead off size s) :=
  okR_ite (okR_next h) (okR_next { (ok_hostRead h) with host := { ((ok_hostRead h).host) with } })

theorem okR_execRegisterWrite {off size : Nat} {val : BitVec 256} {s : State} (h : Ok v s) :
    OkR v (execRegisterWrite off size val s) :=
  okR_ite (okR_next h) (okR_next (ok_hostWrite h))

theorem okR_execGuardKeyWrite {val : BitVec 32} {s : State} (h : Ok v s) : OkR v (execGuardKeyWrite val s) :=
  okR_next (ok_hostWrite h)

theorem okR_execGuardLockTimeout {s : State} (h : Ok v s) : OkR v (execGuardLockTimeout s) :=
  okR_next (ok_arm h)

theorem okR_execAdminEnable {val : BitVec 32} {s : State} (h : Ok v s) : OkR v (execAdminEnable val s) :=
  okR_ite (okR_next (ok_hostWrite h)) (okR_next h)

theorem okR_execAdminDisable {val : BitVec 32} {s : State} (h : Ok v s) : OkR v (execAdminDisable val s) :=
  okR_ite (okR_next (ok_hostWrite h)) (okR_next h)

theorem okR_execLcGo {val : BitVec 32} {whole : Bool} {env : StartEnv} {s : State} (h : Ok v s) :
    OkR v (execLcGo val whole env s) :=
  okR_ite (okR_next (ok_hostWrite h)) (okR_next h)

theorem okR_execFwStage {val : BitVec 64} {s : State} (h : Ok v s) : OkR v (execFwStage val s) :=
  okR_ite (okR_next (ok_hostWrite h)) (okR_next h)

theorem okR_execFwCommit {val : BitVec 64} {stop : CommitEnd} {env : StartEnv} {s : State} (h : Ok v s) :
    OkR v (execFwCommit val stop env s) :=
  okR_ite (okR_next (ok_hostWrite h)) (okR_next h)

theorem okR_execSpoolIdWrite {val : BitVec 32} {s : State} (h : Ok v s) : OkR v (execSpoolIdWrite val s) :=
  okR_next (ok_hostWrite h)

theorem okR_execSpoolPortEnableWrite {port : Fin 8} {val : BitVec 64} {s : State} (h : Ok v s) :
    OkR v (execSpoolPortEnableWrite port val s) :=
  okR_next (ok_hostWrite h)

theorem okR_execExportWrite {i : Fin 64} {val : BitVec 256} {s : State} (h : Ok v s) :
    OkR v (execExportWrite i val s) :=
  okR_next (ok_hostWrite h)

theorem okR_execInboxWrite {i : Fin 64} {val : BitVec 32} {s : State} (h : Ok v s) : OkR v (execInboxWrite i val s) :=
  okR_next (ok_hostWrite h)

theorem okR_execSplitWrite {val : BitVec 32} {s : State} (h : Ok v s) : OkR v (execSplitWrite val s) :=
  okR_ite (okR_next (ok_hostWrite h)) (okR_next h)

theorem okR_execRawRead {val : BitVec 32} {s : State} (h : Ok v s) : OkR v (execRawRead val s) :=
  okR_ite (okR_next (ok_hostWrite h)) (okR_next h)

theorem okR_execFlipArm {i : Fin 82} {val : BitVec 32} {s : State} (h : Ok v s) : OkR v (execFlipArm i val s) :=
  okR_ite (okR_next (ok_hostWrite h)) (okR_next h)

theorem okR_execSnapNow {val : BitVec 32} {s : State} (h : Ok v s) : OkR v (execSnapNow val s) :=
  okR_ite (okR_next (ok_hostWrite h)) (okR_next h)

theorem okR_execDailiesRingWrite {val : BitVec 64} {s : State} (h : Ok v s) : OkR v (execDailiesRingWrite val s) :=
  okR_next (ok_hostWrite h)

theorem okR_execCntSelWrite {i : Fin 1320} {val : BitVec 32} {s : State} (h : Ok v s) :
    OkR v (execCntSelWrite i val s) :=
  okR_next (ok_hostWrite h)

theorem okR_execSampleCfgWrite {core : Fin 32} {val : BitVec 32} {s : State} (h : Ok v s) :
    OkR v (execSampleCfgWrite core val s) :=
  okR_next (ok_hostWrite h)

/-! ### Vector registers -/

theorem okR_epiRow {s : State} {n : Fin 32} {w : W64} (h : Ok v s) : OkR v (s.epiRow n w) := by
  unfold State.epiRow
  split
  · exact okR_ite (okR_carryRun h) (okR_next h)
  · exact okR_next h

theorem okR_execVracc {n : Fin 32} {g : Guard} {d : BitVec 5} {mod : BitVec 6} {s : State} (h : Ok v s) :
    OkR v (execVracc n g d mod s) :=
  okR_epiRow h

theorem okR_execVmov {n : Fin 32} {g : Guard} {d : BitVec 5} {a : BitVec 5} {mod : BitVec 6} {s : State} (h : Ok v s)
    : OkR v (execVmov n g d a mod s) :=
  okR_epiRow h

theorem okR_execVadd {n : Fin 32} {g : Guard} {d : BitVec 5} {a : BitVec 5} {b : BitVec 5} {s : State} (h : Ok v s) :
    OkR v (execVadd n g d a b s) :=
  okR_epiRow h

theorem okR_execVsub {n : Fin 32} {g : Guard} {d : BitVec 5} {a : BitVec 5} {b : BitVec 5} {s : State} (h : Ok v s) :
    OkR v (execVsub n g d a b s) :=
  okR_epiRow h

theorem okR_execVmul {n : Fin 32} {g : Guard} {d : BitVec 5} {a : BitVec 5} {b : BitVec 5} {s : State} (h : Ok v s) :
    OkR v (execVmul n g d a b s) :=
  okR_epiRow h

theorem okR_execVfma {n : Fin 32} {g : Guard} {d : BitVec 5} {a : BitVec 5} {b : BitVec 5} {s : State} (h : Ok v s) :
    OkR v (execVfma n g d a b s) :=
  okR_epiRow h

theorem okR_execVmax {n : Fin 32} {g : Guard} {d : BitVec 5} {a : BitVec 5} {b : BitVec 5} {s : State} (h : Ok v s) :
    OkR v (execVmax n g d a b s) :=
  okR_epiRow h

theorem okR_execVmin {n : Fin 32} {g : Guard} {d : BitVec 5} {a : BitVec 5} {b : BitVec 5} {s : State} (h : Ok v s) :
    OkR v (execVmin n g d a b s) :=
  okR_epiRow h

theorem okR_execVexp {n : Fin 32} {g : Guard} {d : BitVec 5} {a : BitVec 5} {s : State} (h : Ok v s) :
    OkR v (execVexp n g d a s) :=
  okR_epiRow h

theorem okR_execVrcp {n : Fin 32} {g : Guard} {d : BitVec 5} {a : BitVec 5} {s : State} (h : Ok v s) :
    OkR v (execVrcp n g d a s) :=
  okR_epiRow h

theorem okR_execVrsqrt {n : Fin 32} {g : Guard} {d : BitVec 5} {a : BitVec 5} {s : State} (h : Ok v s) :
    OkR v (execVrsqrt n g d a s) :=
  okR_epiRow h

theorem okR_execVredmax {n : Fin 32} {g : Guard} {d : BitVec 5} {a : BitVec 5} {s : State} (h : Ok v s) :
    OkR v (execVredmax n g d a s) :=
  okR_epiRow h

theorem okR_execVredsum {n : Fin 32} {g : Guard} {d : BitVec 5} {a : BitVec 5} {s : State} (h : Ok v s) :
    OkR v (execVredsum n g d a s) :=
  okR_epiRow h

theorem okR_execVcvt {n : Fin 32} {g : Guard} {d : BitVec 5} {a : BitVec 5} {mod : BitVec 6} {s : State} (h : Ok v s)
    : OkR v (execVcvt n g d a mod s) :=
  okR_epiRow h

theorem okR_execVpack {n : Fin 32} {g : Guard} {d : BitVec 5} {a : BitVec 5} {mod : BitVec 6} {s : State}
    (h : Ok v s) : OkR v (execVpack n g d a mod s) :=
  okR_epiRow h

theorem okR_execVunpk {n : Fin 32} {g : Guard} {d : BitVec 5} {a : BitVec 5} {mod : BitVec 6} {s : State}
    (h : Ok v s) : OkR v (execVunpk n g d a mod s) :=
  okR_epiRow h

theorem okR_execVcmplt {n : Fin 32} {g : Guard} {d : BitVec 5} {a : BitVec 5} {b : BitVec 5} {mod : BitVec 6}
    {s : State} (h : Ok v s) : OkR v (execVcmplt n g d a b mod s) :=
  okR_epiRow h

theorem okR_execVcmpeq {n : Fin 32} {g : Guard} {d : BitVec 5} {a : BitVec 5} {b : BitVec 5} {mod : BitVec 6}
    {s : State} (h : Ok v s) : OkR v (execVcmpeq n g d a b mod s) :=
  okR_epiRow h

theorem okR_execVidx {n : Fin 32} {g : Guard} {d : BitVec 5} {mod : BitVec 6} {s : State} (h : Ok v s) :
    OkR v (execVidx n g d mod s) :=
  okR_epiRow h

theorem okR_execVtk {n : Fin 32} {g : Guard} {a : BitVec 5} {b : BitVec 5} {mod : BitVec 6} {s : State} (h : Ok v s)
    : OkR v (execVtk n g a b mod s) :=
  okR_epiRow h

theorem okR_execRstat {n : Fin 32} {g : Guard} {a : BitVec 5} {mod : BitVec 6} {s : State} (h : Ok v s) :
    OkR v (execRstat n g a mod s) :=
  okR_epiRow h

theorem okR_execRsget {n : Fin 32} {g : Guard} {d : BitVec 5} {s : State} (h : Ok v s) : OkR v (execRsget n g d s) :=
  okR_epiRow h

theorem okR_execVenc {n : Fin 32} {g : Guard} {d : BitVec 5} {a : BitVec 5} {mod : BitVec 6} {s : State} (h : Ok v s)
    : OkR v (execVenc n g d a mod s) :=
  okR_epiRow h

theorem okR_execVld {n : Fin 32} {d : BitVec 5} {imm : BitVec 40} {s : State} (h : Ok v s) :
    OkR v (execVld n d imm s) :=
  okR_epiRow h

theorem okR_execVst {n : Fin 32} {d : BitVec 5} {imm : BitVec 40} {s : State} (h : Ok v s) :
    OkR v (execVst n d imm s) :=
  okR_epiRow h

theorem okR_execEstore {n : Fin 32} {imm : BitVec 40} {s : State} (h : Ok v s) : OkR v (execEstore n imm s) :=
  okR_epiRow h

/-! ### Commands and steps -/

/-- Every command keeps the invariants. -/
theorem okR_exec {i : Instr} {s : State} (h : Ok v s) : OkR v (exec i s) := by
  cases i with
  | apertureWrite _ _ => exact okR_execApertureWrite h
  | sqTailDoorbell _ _ => exact okR_execSqTailDoorbell h
  | cqHeadDoorbell _ _ => exact okR_execCqHeadDoorbell h
  | packetFetch _ => exact okR_execPacketFetch h
  | headerRetryTimeout _ => exact okR_execHeaderRetryTimeout h
  | chainTimeout _ => exact okR_execChainTimeout h
  | createQueue _ => exact okR_execCreateQueue h
  | deleteQueue _ => exact okR_execDeleteQueue h
  | resetQueue _ => exact okR_execResetQueue h
  | abort _ => exact okR_execAbort h
  | setPowerState _ => exact okR_execSetPowerState h
  | powerStateExit => exact okR_execPowerStateExit h
  | createPod _ => exact okR_execCreatePod h
  | deletePod _ => exact okR_execDeletePod h
  | moveCores _ => exact okR_execMoveCores h
  | moveT1 _ => exact okR_execMoveT1 h
  | moveObject _ => exact okR_execMoveObject h
  | moveQueue _ => exact okR_execMoveQueue h
  | moveSlots _ => exact okR_execMoveSlots h
  | createVolume _ _ => exact okR_execCreateVolume h
  | deleteVolume _ => exact okR_execDeleteVolume h
  | read _ => exact okR_execRead h
  | write _ => exact okR_execWrite h
  | discard _ => exact okR_execDiscard h
  | secureDiscard _ => exact okR_execSecureDiscard h
  | loadModel _ _ => exact okR_execLoadModel h
  | unloadModel _ => exact okR_execUnloadModel h
  | buildIndex _ _ => exact okR_execBuildIndex h
  | insertCodes _ => exact okR_execInsertCodes h
  | deleteCodes _ => exact okR_execDeleteCodes h
  | compactIndex _ => exact okR_execCompactIndex h
  | deleteIndex _ => exact okR_execDeleteIndex h
  | submitJob _ _ => exact okR_execSubmitJob h
  | invoke _ => exact okR_execInvoke h
  | search _ => exact okR_execSearch h
  | reclaim _ => exact okR_execReclaim h
  | endJob _ => exact okR_execEndJob h
  | globalPersistentFlush => exact okR_execGlobalPersistentFlush h
  | spdmMessage _ => exact okR_execSpdmMessage h
  | ideKmMessage _ => exact okR_execIdeKmMessage h
  | jobStart _ _ => exact okR_execJobStart h
  | budgetExpiry _ => exact okR_execBudgetExpiry h
  | cutGraceExpiry _ => exact okR_execCutGraceExpiry h
  | regionEnd _ _ => exact okR_execRegionEnd h
  | nop _ => exact okR_execNop h
  | b _ _ _ => exact okR_execB h
  | call _ _ _ => exact okR_execCall h
  | ret _ => exact okR_execRet h
  | mov _ _ _ => exact okR_execMov h
  | movi _ _ _ => exact okR_execMovi h
  | movl _ _ _ _ => exact okR_execMovl h
  | add _ _ _ _ => exact okR_execAdd h
  | sub _ _ _ _ => exact okR_execSub h
  | mul _ _ _ _ => exact okR_execMul h
  | and _ _ _ _ => exact okR_execAnd h
  | or _ _ _ _ => exact okR_execOr h
  | xor _ _ _ _ => exact okR_execXor h
  | shl _ _ _ _ => exact okR_execShl h
  | shr _ _ _ _ => exact okR_execShr h
  | sar _ _ _ _ => exact okR_execSar h
  | min _ _ _ _ => exact okR_execMin h
  | max _ _ _ _ => exact okR_execMax h
  | minu _ _ _ _ => exact okR_execMinu h
  | maxu _ _ _ _ => exact okR_execMaxu h
  | cmp _ _ _ => exact okR_execCmp h
  | addi _ _ _ _ => exact okR_execAddi h
  | subi _ _ _ _ => exact okR_execSubi h
  | andi _ _ _ _ => exact okR_execAndi h
  | ori _ _ _ _ => exact okR_execOri h
  | xori _ _ _ _ => exact okR_execXori h
  | shli _ _ _ _ => exact okR_execShli h
  | shri _ _ _ _ => exact okR_execShri h
  | sari _ _ _ _ => exact okR_execSari h
  | cmpi _ _ _ => exact okR_execCmpi h
  | muli _ _ _ _ => exact okR_execMuli h
  | mova _ _ _ => exact okR_execMova h
  | movs _ _ _ => exact okR_execMovs h
  | adda _ _ _ _ => exact okR_execAdda h
  | addai _ _ _ _ => exact okR_execAddai h
  | ld _ _ _ _ => exact okR_execLd h
  | st _ _ _ _ => exact okR_execSt h
  | mvLoad _ _ _ _ _ _ _ => exact okR_execMvLoad h
  | mvStore _ _ _ _ _ _ _ => exact okR_execMvStore h
  | mvSpread _ _ _ _ _ _ _ => exact okR_execMvSpread h
  | mvTload _ _ _ _ _ _ _ => exact okR_execMvTload h
  | mvTstore _ _ _ _ _ _ _ => exact okR_execMvTstore h
  | mvWait _ _ => exact okR_execMvWait h
  | mvStat _ _ _ => exact okR_execMvStat h
  | passFp8 _ _ _ _ => exact okR_execPassFp8 h
  | passBf16c _ _ _ _ => exact okR_execPassBf16c h
  | passBf16 _ _ _ _ => exact okR_execPassBf16 h
  | passBin _ _ _ _ => exact okR_execPassBin h
  | prologueRun _ => exact okR_execPrologueRun h
  | epilogueRun _ => exact okR_execEpilogueRun h
  | finishRun _ => exact okR_execFinishRun h
  | vracc _ _ _ _ => exact okR_execVracc h
  | vld _ _ _ => exact okR_execVld h
  | vst _ _ _ => exact okR_execVst h
  | vmov _ _ _ _ _ => exact okR_execVmov h
  | vadd _ _ _ _ _ => exact okR_execVadd h
  | vsub _ _ _ _ _ => exact okR_execVsub h
  | vmul _ _ _ _ _ => exact okR_execVmul h
  | vfma _ _ _ _ _ => exact okR_execVfma h
  | vmax _ _ _ _ _ => exact okR_execVmax h
  | vmin _ _ _ _ _ => exact okR_execVmin h
  | vexp _ _ _ _ => exact okR_execVexp h
  | vrcp _ _ _ _ => exact okR_execVrcp h
  | vrsqrt _ _ _ _ => exact okR_execVrsqrt h
  | vredmax _ _ _ _ => exact okR_execVredmax h
  | vredsum _ _ _ _ => exact okR_execVredsum h
  | vcvt _ _ _ _ _ => exact okR_execVcvt h
  | vpack _ _ _ _ _ => exact okR_execVpack h
  | vunpk _ _ _ _ _ => exact okR_execVunpk h
  | vcmplt _ _ _ _ _ _ => exact okR_execVcmplt h
  | vcmpeq _ _ _ _ _ _ => exact okR_execVcmpeq h
  | vidx _ _ _ _ => exact okR_execVidx h
  | vtk _ _ _ _ _ => exact okR_execVtk h
  | rstat _ _ _ _ => exact okR_execRstat h
  | rsget _ _ _ => exact okR_execRsget h
  | venc _ _ _ _ _ => exact okR_execVenc h
  | estore _ _ => exact okR_execEstore h
  | cbload _ _ _ _ => exact okR_execCbload h
  | scset _ _ _ => exact okR_execScset h
  | scget _ _ _ => exact okR_execScget h
  | scadv _ _ => exact okR_execScadv h
  | tkOn _ _ _ => exact okR_execTkOn h
  | tkOff _ => exact okR_execTkOff h
  | tkStripe _ _ => exact okR_execTkStripe h
  | tkClr _ _ _ => exact okR_execTkClr h
  | tkMerge _ _ _ _ _ _ => exact okR_execTkMerge h
  | srWalk _ _ => exact okR_execSrWalk h
  | srFilt _ _ => exact okR_execSrFilt h
  | fenceU _ => exact okR_execFenceU h
  | bar _ => exact okR_execBar h
  | cut _ => exact okR_execCut h
  | take _ _ _ => exact okR_execTake h
  | sysrd _ _ _ => exact okR_execSysrd h
  | endI _ => exact okR_execEndI h
  | eload _ _ _ _ => exact okR_execEload h
  | transferStart _ _ => exact okR_execTransferStart h
  | arbiterGrant _ _ _ => exact okR_execArbiterGrant h
  | holdCutOff _ => exact okR_execHoldCutOff h
  | promotionGrant _ _ => exact okR_execPromotionGrant h
  | promotionEnd _ _ _ => exact okR_execPromotionEnd h
  | tileFault _ => exact okR_execTileFault h
  | jobFault _ _ => exact okR_execJobFault h
  | coreFence _ _ => exact okR_execCoreFence h
  | heartbeatTimeout _ => exact okR_execHeartbeatTimeout h
  | stagingProgram _ _ => exact okR_execStagingProgram h
  | mergeStart _ _ => exact okR_execMergeStart h
  | logIdleTimeout _ _ => exact okR_execLogIdleTimeout h
  | mergeCommit _ => exact okR_execMergeCommit h
  | superblockErase _ _ => exact okR_execSuperblockErase h
  | relocation _ _ => exact okR_execRelocation h
  | journalCheckpoint => exact okR_execJournalCheckpoint h
  | stripeRebuild _ _ => exact okR_execStripeRebuild h
  | dieFail _ _ => exact okR_execDieFail h
  | mapEntryRebuild _ => exact okR_execMapEntryRebuild h
  | listCompaction _ _ => exact okR_execListCompaction h
  | stewardListCommit _ => exact okR_execStewardListCommit h
  | autoCompaction _ => exact okR_execAutoCompaction h
  | rdReq _ _ => exact okR_execRdReq h
  | rdRsp _ _ => exact okR_execRdRsp h
  | wrReq _ _ => exact okR_execWrReq h
  | wrAck _ _ => exact okR_execWrAck h
  | nak _ _ => exact okR_execNak h
  | link _ _ => exact okR_execLink h
  | key _ _ _ => exact okR_execKey h
  | hello _ _ _ => exact okR_execHello h
  | spoolRequestTimeout _ => exact okR_execSpoolRequestTimeout h
  | portTrainStart _ => exact okR_execPortTrainStart h
  | portTrainingDone _ _ => exact okR_execPortTrainingDone h
  | fecLock _ => exact okR_execFecLock h
  | portStateTimeout _ => exact okR_execPortStateTimeout h
  | linkFrameTimeout _ => exact okR_execLinkFrameTimeout h
  | fecLockLoss _ => exact okR_execFecLockLoss h
  | errorRateLimit _ => exact okR_execErrorRateLimit h
  | rekeyTimer _ => exact okR_execRekeyTimer h
  | guardKeyWrite _ => exact okR_execGuardKeyWrite h
  | guardLockTimeout => exact okR_execGuardLockTimeout h
  | adminEnable _ => exact okR_execAdminEnable h
  | adminDisable _ => exact okR_execAdminDisable h
  | lcGo _ _ _ => exact okR_execLcGo h
  | fwStage _ => exact okR_execFwStage h
  | fwVerifyDone => exact okR_execFwVerifyDone h
  | fwCommit _ _ _ => exact okR_execFwCommit h
  | cfOperationDone _ _ => exact okR_execCfOperationDone h
  | spoolIdWrite _ => exact okR_execSpoolIdWrite h
  | spoolPortEnableWrite _ _ => exact okR_execSpoolPortEnableWrite h
  | exportWrite _ _ => exact okR_execExportWrite h
  | inboxWrite _ _ => exact okR_execInboxWrite h
  | splitWrite _ => exact okR_execSplitWrite h
  | rawRead _ => exact okR_execRawRead h
  | flipArm _ _ => exact okR_execFlipArm h
  | snapNow _ => exact okR_execSnapNow h
  | dailiesRingWrite _ => exact okR_execDailiesRingWrite h
  | cntSelWrite _ _ => exact okR_execCntSelWrite h
  | sampleCfgWrite _ _ => exact okR_execSampleCfgWrite h
  | wideRegisterRead _ _ => exact okR_execWideRegisterRead h
  | registerWrite _ _ _ => exact okR_execRegisterWrite h
  | periodicSnapshot => exact okR_execPeriodicSnapshot h
  | counterFold _ => exact okR_execCounterFold h
  | tagSampleDone _ _ => exact okR_execTagSampleDone h
  | exactDrain _ => exact okR_execExactDrain h
  | meteringInterval _ => exact okR_execMeteringInterval h
  | powerThrottle _ => exact okR_execPowerThrottle h
  | thermalThrottle _ => exact okR_execThermalThrottle h
  | inletHigh _ => exact okR_execInletHigh h
  | thermalTrip _ => exact okR_execThermalTrip h
  | holdupMeasure _ => exact okR_execHoldupMeasure h
  | scrub _ => exact okR_execScrub h
  | selfTestPeriodic _ => exact okR_execSelfTestPeriodic h
  | entropyTestFail _ => exact okR_execEntropyTestFail h
  | watchdogExpiry => exact okR_execWatchdogExpiry h
  | powerApply _ => exact okR_execPowerApply h
  | powerLoss _ => exact okR_execPowerLoss h
  | perstAssert => exact okR_execPerstAssert h
  | perstRelease _ => exact okR_execPerstRelease h
  | pwrdisAssert => exact okR_execPwrdisAssert h
  | pwrdisRelease _ => exact okR_execPwrdisRelease h
  | coolantFltAssert => exact okR_execCoolantFltAssert h
  | coolantFltRelease => exact okR_execCoolantFltRelease h
  | hostLinkReset _ => exact okR_execHostLinkReset h
  | malformedFrame _ _ => exact okR_execMalformedFrame h
  | illegalInstruction _ _ _ => exact okR_execIllegalInstruction h

theorem okR_step {s : State} (h : Ok v s) : OkR v (step s) := by
  unfold step
  split
  · exact okR_next h
  · exact okR_exec { h with }

/-- Settles O58: a step keeps the lengths of the lists of the five parts, function by function. -/
theorem shapeIsKept : Obligations.ShapeIsKept := by
  unfold Obligations.ShapeIsKept
  exact fun s t h e => ok_shape.mp (okR_step (ok_shape.mpr h) t e)

/-- Settles O59: a step writes every memory through the operations that keep a store canonical, function by function. -/
theorem memoryStaysCanonical : Obligations.MemoryStaysCanonical := by
  unfold Obligations.MemoryStaysCanonical
  exact fun s t h e => ok_memory.mp (okR_step (ok_memory.mpr h) t e)

end Sys2Proof.Machine
end

section
/-!
SUPPORT. The queue of commands, and the scalar instructions on their core (R205, R206, R210, R211).
-/

namespace Sys2Proof.Machine

open Sys2Proof.Safety

/-- Settles O3, by the equation of a step for each form of the queue. -/
theorem queueOfCommands : Obligations.QueueOfCommands := by
  refine ⟨fun c rest s h => ?_, fun s h => ?_⟩
  · unfold step
    rw [h]
  · unfold step
    rw [h]

/-! ### Register instructions -/

/-- A register of the issuing core, where its place and counts are what the issue moves. -/
theorem sreg_issued {s t : State} {n : Fin 32} {j : Job} {len : Nat} {f : Core → Core} (h : Issues s n j)
    (i : Issued s n len f t) (r : BitVec 5) : (t.core n.val).sreg r = (f (s.core n.val)).sreg r :=
  congrArg (fun c => c.sreg r) (issued_core h i)

theorem areg_issued {s t : State} {n : Fin 32} {j : Job} {len : Nat} {f : Core → Core} (h : Issues s n j)
    (i : Issued s n len f t) (r : BitVec 5) : (t.core n.val).areg r = (f (s.core n.val)).areg r :=
  congrArg (fun c => c.areg r) (issued_core h i)

theorem sreg_setS {c : Core} (h : coreWf c = true) (d r : BitVec 5) (v : W64) :
    (c.setS d v).sreg r = if r = d then v else c.sreg r := by
  have w : Sparse.wf c.sregs = true := by simp [coreWf] at h; tauto
  simp only [Core.sreg, Core.setS, Sparse.get_set w, BitVec.toNat_inj]

theorem areg_setA {c : Core} (h : coreWf c = true) (d r : BitVec 5) (v : W64) :
    (c.setA d v).areg r = if r = d then v else c.areg r := by
  have w : Sparse.wf c.aregs = true := by simp [coreWf] at h; tauto
  simp only [Core.areg, Core.setA, Sparse.get_set w, BitVec.toNat_inj]

/-- The effect of an issue depends on its value at the issuing core alone. -/
theorem issued_congr {s t : State} {n : Fin 32} {len : Nat} {f g : Core → Core}
    (e : f (s.core n.val) = g (s.core n.val)) (i : Issued s n len f t) : Issued s n len g t := by
  have : s.modCore n.val g = s.modCore n.val f := by rw [State.modCore, State.modCore, e]
  exact ⟨by rw [i.1, this], i.2⟩

/-- A one-word instruction of its own core whose fields name nothing fails the job (R181). -/
theorem simple_illegal {s : State} {n : Fin 32} {j : Job} (h : Issues s n j) {legal : Bool} (hl : legal = false)
    (f : Core → Core) :
    s.simple n legal f = .next (s.failJob j.ctx .engineFault 3 (s.core n.val).pc).settle :=
  issue_illegal h (len := 8) h.2 hl _

/-- An instruction whose effect is a value in Sd writes that value there and no other register. -/
theorem simple_writesS {s : State} {n : Fin 32} {j : Job} (h : Issues s n j) (wf : coreWf (s.core n.val) = true)
    {d : BitVec 5} {f : Core → W64} {v : W64} (hf : ∀ c, f (coreBody c) = f c) (hv : f (s.core n.val) = v)
    {legal : Bool} (hl : legal = true) :
    ∃ t, s.simple n legal (fun c => c.setS d (f c)) = .next t ∧ Issued s n 8 (fun c => c.setS d v) t ∧
      ∀ r, (t.core n.val).sreg r = if r = d then v else (s.core n.val).sreg r := by
  have loc : Local (fun c => c.setS d (f c)) := ⟨fun c => by dsimp only; rw [hf]; rfl, fun _ => rfl⟩
  obtain ⟨t, ht, i⟩ := simple_issued h loc hl
  have i := issued_congr (g := fun c => c.setS d v) (by rw [hv]) i
  exact ⟨t, ht, i, fun r => (sreg_issued h i r).trans (sreg_setS wf d r v)⟩

/-- As `simple_writesS`, for Ad. -/
theorem simple_writesA {s : State} {n : Fin 32} {j : Job} (h : Issues s n j) (wf : coreWf (s.core n.val) = true)
    {d : BitVec 5} {f : Core → W64} {v : W64} (hf : ∀ c, f (coreBody c) = f c) (hv : f (s.core n.val) = v)
    {legal : Bool} (hl : legal = true) :
    ∃ t, s.simple n legal (fun c => c.setA d (f c)) = .next t ∧ Issued s n 8 (fun c => c.setA d v) t ∧
      ∀ r, (t.core n.val).areg r = if r = d then v else (s.core n.val).areg r := by
  have loc : Local (fun c => c.setA d (f c)) := ⟨fun c => by dsimp only; rw [hf]; rfl, fun _ => rfl⟩
  obtain ⟨t, ht, i⟩ := simple_issued h loc hl
  have i := issued_congr (g := fun c => c.setA d v) (by rw [hv]) i
  exact ⟨t, ht, i, fun r => (areg_issued h i r).trans (areg_setA wf d r v)⟩

/-- A register form writes Sd with its operation on Sa and Sb. -/
theorem alu_writesS {s : State} {n : Fin 32} {j : Job} (h : Issues s n j) (wf : coreWf (s.core n.val) = true)
    (d a b : BitVec 5) {f : W64 → W64 → W64} {v : W64}
    (hv : f ((s.core n.val).sreg a) ((s.core n.val).sreg b) = v) :
    ∃ t, s.alu n d a b f = .next t ∧ Issued s n 8 (fun c => c.setS d v) t ∧
      ∀ r, (t.core n.val).sreg r = if r = d then v else (s.core n.val).sreg r :=
  simple_writesS h wf (f := fun c => f (c.sreg a) (c.sreg b)) (fun _ => rfl) hv rfl

/-- An immediate form writes Sd with its operation on Sa and IMM. -/
theorem alui_writesS {s : State} {n : Fin 32} {j : Job} (h : Issues s n j) (wf : coreWf (s.core n.val) = true)
    (d a : BitVec 5) {imm : BitVec 40} {f : W64 → W64 → W64} {v : W64} {legal : Bool} (hl : legal = true)
    (hv : f ((s.core n.val).sreg a) (imm40 imm) = v) :
    ∃ t, s.alui n d a imm legal f = .next t ∧ Issued s n 8 (fun c => c.setS d v) t ∧
      ∀ r, (t.core n.val).sreg r = if r = d then v else (s.core n.val).sreg r :=
  simple_writesS h wf (f := fun c => f (c.sreg a) (imm40 imm)) (fun _ => rfl) hv hl

theorem slt_eq (x y : W64) : (x.slt y = true) = (x.toInt < y.toInt) := by simp [BitVec.slt]
theorem ult_eq (x y : W64) : (x.ult y = true) = (x.toNat < y.toNat) := by simp [BitVec.ult]

theorem scalarRegisterForms : ScalarRegisterForms := by
  intro s n j d a b h wf row hr
  simp only [registerForms, List.mem_cons, List.not_mem_nil, or_false] at hr
  rcases hr with rfl | rfl | rfl | rfl | rfl | rfl | rfl | rfl | rfl | rfl | rfl | rfl | rfl | rfl
  case inl => exact simple_writesS h wf (f := fun c => c.sreg a) (fun _ => rfl) rfl rfl
  all_goals refine alu_writesS h wf d a b ?_
  all_goals simp only [shl64, shr64, sar64, shamt, min64, max64, minu64, maxu64, slt_eq, ult_eq]

/-- A shift amount of at most 63 is the same as a 64-bit value. -/
theorem shamt_imm40 {imm : BitVec 40} (h : imm.toNat ≤ 63) : shamt (imm40 imm) = imm.toNat := by
  have : imm.msb = false := by
    rw [BitVec.msb_eq_decide]; simp; omega
  simp only [shamt, imm40, BitVec.toNat_signExtend, this]
  simp
  omega

theorem immediate_writes {s : State} {n : Fin 32} {j : Job} (h : Issues s n j) (wf : coreWf (s.core n.val) = true)
    (d a : BitVec 5) (imm : BitVec 40) : ∀ row ∈ immediateForms n d a imm ((s.core n.val).sreg a),
      ∃ t, exec row.1 s = .next t ∧ Issued s n 8 (fun c => c.setS d row.2) t ∧
        ∀ r, (t.core n.val).sreg r = if r = d then row.2 else (s.core n.val).sreg r := by
  intro row hr
  simp only [immediateForms, List.mem_cons, List.not_mem_nil, or_false] at hr
  rcases hr with rfl | rfl | rfl | rfl | rfl | rfl | rfl
  case inl => exact simple_writesS h wf (f := fun _ => imm40 imm) (fun _ => rfl) rfl rfl
  all_goals exact alui_writesS h wf d a rfl rfl

theorem shift_writes {s : State} {n : Fin 32} {j : Job} (h : Issues s n j) (wf : coreWf (s.core n.val) = true)
    (d a : BitVec 5) {imm : BitVec 40} (hi : imm.toNat ≤ 63) : ∀ row ∈ shiftForms n d a imm ((s.core n.val).sreg a),
      ∃ t, exec row.1 s = .next t ∧ Issued s n 8 (fun c => c.setS d row.2) t ∧
        ∀ r, (t.core n.val).sreg r = if r = d then row.2 else (s.core n.val).sreg r := by
  have legal : shiftLegal imm = true := by simpa [shiftLegal] using hi
  intro row hr
  simp only [shiftForms, List.mem_cons, List.not_mem_nil, or_false] at hr
  rcases hr with rfl | rfl | rfl
  all_goals exact alui_writesS h wf d a legal (by simp only [shl64, shr64, sar64, shamt_imm40 hi])

theorem scalarImmediateForms : ScalarImmediateForms := by
  intro s n j d a imm h wf
  refine ⟨fun row hr => ?_, fun hi row hr => ?_⟩
  · rcases List.mem_append.mp hr with hr | hr
    · exact immediate_writes h wf d a imm row hr
    · by_cases hi : imm.toNat ≤ 63
      · rw [if_pos hi] at hr
        exact shift_writes h wf d a hi row hr
      · rw [if_neg hi] at hr
        cases hr
  · have illegal : shiftLegal imm = false := by simpa [shiftLegal] using hi
    simp only [shiftForms, List.mem_cons, List.not_mem_nil, or_false] at hr
    rcases hr with rfl | rfl | rfl
    all_goals exact simple_illegal h illegal _

theorem movlLoadsBothHalves : MovlLoadsBothHalves := by
  intro s n j d imm ext h wf
  have i := issued_modCore h.1 16 (f := fun c => c.setS d (ext ++ imm)) ⟨fun _ => rfl, fun _ => rfl⟩
  have next : exec (.movl n d imm ext) s =
      .next ((s.retire n.val j 16).modCore n.val (fun c => c.setS d (ext ++ imm))) :=
    issue_next h.1 (len := 16) (held := noHold) h.2 rfl rfl
      (fun s _ _ => s.modCore n.val (fun c => c.setS d (ext ++ imm)))
  refine ⟨_, next, i, ?_⟩
  rw [sreg_issued h.1 i, sreg_setS wf, if_pos rfl, BitVec.toNat_append, Nat.shiftLeft_eq, Nat.mul_comm,
    ← Nat.two_pow_add_eq_or_of_lt imm.isLt]

/-- Settles O4, form by form from the rule of the instructions that write one register. -/
theorem scalarArithmetic : Obligations.ScalarArithmetic :=
  ⟨scalarRegisterForms, scalarImmediateForms, movlLoadsBothHalves⟩

/-! ### Compares and address forms -/

theorem compare_eq (c : Core) (x y : W64) : c.compare x y =
    { c with z := decide (x = y), slt := decide (x.toInt < y.toInt), ult := decide (x.toNat < y.toNat) } := by
  simp only [Core.compare, BitVec.slt, BitVec.ult, beq_eq_decide]

/-- A compare of Sa with a second operand. -/
theorem compare_issued {s : State} {n : Fin 32} {j : Job} (h : Issues s n j) (a : BitVec 5) {f : Core → W64}
    {y : W64} (hf : ∀ c, f (coreBody c) = f c) (hy : f (s.core n.val) = y) :
    ∃ t, s.simple n true (fun c => c.compare (c.sreg a) (f c)) = .next t ∧
      Issued s n 8 (fun c => { c with
        z := decide ((s.core n.val).sreg a = y), slt := decide (((s.core n.val).sreg a).toInt < y.toInt)
        ult := decide (((s.core n.val).sreg a).toNat < y.toNat) }) t ∧
      (t.core n.val).z = decide ((s.core n.val).sreg a = y) ∧
      (t.core n.val).slt = decide (((s.core n.val).sreg a).toInt < y.toInt) ∧
      (t.core n.val).ult = decide (((s.core n.val).sreg a).toNat < y.toNat) := by
  have loc : Local (fun c => c.compare (c.sreg a) (f c)) := ⟨fun c => by dsimp only; rw [hf]; rfl, fun _ => rfl⟩
  obtain ⟨t, ht, i⟩ := simple_issued h loc (legal := true) rfl
  have i := issued_congr (g := fun c => { c with
        z := decide ((s.core n.val).sreg a = y), slt := decide (((s.core n.val).sreg a).toInt < y.toInt)
        ult := decide (((s.core n.val).sreg a).toNat < y.toNat) }) (by rw [hy]; exact compare_eq _ _ _) i
  have e := issued_core h i
  exact ⟨t, ht, i, congrArg Core.z e, congrArg Core.slt e, congrArg Core.ult e⟩

theorem comparesSetFlags : ComparesSetFlags := by
  intro s n j a b imm h row hr
  simp only [List.mem_cons, List.not_mem_nil, or_false] at hr
  rcases hr with rfl | rfl
  · exact compare_issued h a (f := fun c => c.sreg b) (fun _ => rfl) rfl
  · exact compare_issued h a (f := fun _ => imm40 imm) (fun _ => rfl) rfl

theorem addressForms : AddressForms := by
  intro s n j d a b imm h wf
  refine ⟨fun hd row hr => ?_, fun ha => ?_, fun hd => ?_⟩
  · have ad : isA d = true := by simpa [isA] using hd
    rcases List.mem_append.mp hr with hr | hr
    · rw [List.mem_singleton] at hr
      subst hr
      exact simple_writesA h wf (f := fun c => c.sreg a) (fun _ => rfl) rfl ad
    · by_cases ha : a.toNat ≤ 15
      · have aa : (isA d && isA a) = true := by rw [ad]; simpa [isA] using ha
        rw [if_pos ha, List.mem_cons, List.mem_singleton] at hr
        rcases hr with rfl | rfl
        · exact simple_writesA h wf (f := fun c => c.areg a + c.sreg b) (fun _ => rfl) rfl aa
        · exact simple_writesA h wf (f := fun c => c.areg a + imm40 imm) (fun _ => rfl) rfl aa
      · rw [if_neg ha] at hr
        cases hr
  · obtain ⟨t, ht, i, e⟩ := simple_writesS h wf (d := d) (f := fun c => c.areg a) (fun _ => rfl) rfl
      (legal := isA a) (by simpa [isA] using ha)
    exact ⟨t, ht, i, (e d).trans (if_pos rfl)⟩
  · have illegal : isA d = false := by simpa [isA] using hd
    exact simple_illegal h illegal _

/-- Settles O5, by the rule of the compares and the rules of the instructions that write one register. -/
theorem comparesAndAddresses : Obligations.ComparesAndAddresses := ⟨comparesSetFlags, addressForms⟩

end Sys2Proof.Machine
end

section
/-!
SUPPORT. Branches, calls and returns, scalar loads and stores (R183, R188, R190, R210), and the cores of a job that
ends (R199).
-/

namespace Sys2Proof.Machine

open Sys2Proof.Safety

/-! ### Views under an effect on one core -/

/-- An effect on one core, seen through the view of an issue. -/
theorem body_modCore (s : State) (n : Nat) (f : Core → Core) : body (s.modCore n f) =
    { body s with cores := (body s).cores.set n (coreBody (f (s.core n))) } := by
  simp [body, State.modCore, State.setCore, List.map_set]

/-- States of equal view keep an equal view under effects that agree on the core. -/
theorem body_modCore_congr {s t : State} (h : body t = body s) {n : Nat} {f g : Core → Core}
    (e : coreBody (f (t.core n)) = coreBody (g (s.core n))) : body (t.modCore n f) = body (s.modCore n g) := by
  rw [body_modCore, body_modCore, h, e]

theorem body_modPc (s : State) (n pc : Nat) : body (s.modCore n (fun c => { c with pc := pc })) = body s :=
  body_setCore s n _ rfl

/-- A core after the issue of an instruction, in what an issue does not move. -/
theorem core_retire (s : State) (n : Nat) (j : Job) (len k : Nat) :
    coreBody ((s.retire n j len).core k) = coreBody (s.core k) := core_of_body (body_retire s n j len) k

/-- A property of the state after the issue of an instruction that is legal and that nothing holds. -/
theorem issue_then {s : State} {n : Fin 32} {j : Job} {len : Nat} {legal : Bool} {held : Core → Bool}
    {act : State → Job → Nat → State} {P : State → Prop} (h : Issues s n j)
    (hw : (s.core n.val).pc + (len - 8) < j.programRegion) (hl : legal = true) (hh : held (s.core n.val) = false)
    (hp : P (act (s.retire n.val j len) j (s.core n.val).pc)) : ∃ t, s.issue n len legal held act = .next t ∧ P t :=
  ⟨_, issue_next h hw hl hh act, hp⟩

/-! ### Control -/

theorem exec_b (n : Fin 32) (cond : BitVec 4) (off : BitVec 39) (s : State) :
    exec (.b n cond off) s = execB n cond off s := rfl
theorem exec_call (n : Fin 32) (cond : BitVec 4) (off : BitVec 39) (s : State) :
    exec (.call n cond off) s = execCall n cond off s := rfl
theorem exec_ret (n : Fin 32) (s : State) : exec (.ret n) s = execRet n s := rfl
theorem exec_ld (n : Fin 32) (d a : BitVec 5) (imm : BitVec 40) (s : State) :
    exec (.ld n d a imm) s = execLd n d a imm s := rfl
theorem exec_st (n : Fin 32) (d a : BitVec 5) (imm : BitVec 40) (s : State) :
    exec (.st n d a imm) s = execSt n d a imm s := rfl

theorem holds_coreBody (c : Core) (k : Nat) : (coreBody c).holds k = c.holds k := rfl

/-- A condition of the table tests what the table says. -/
theorem holds_condition {c : Core} {row : BitVec 4 × Bool} (h : row ∈ conditions c) :
    condLegal row.1.toNat = true ∧ c.holds row.1.toNat = row.2 := by
  simp only [conditions, List.mem_cons, List.not_mem_nil, or_false] at h
  rcases h with rfl | rfl | rfl | rfl | rfl | rfl | rfl | rfl | rfl <;> exact ⟨rfl, rfl⟩

theorem holds_retire {s : State} {n : Fin 32} (j : Job) (k : Nat) :
    ((s.retire n.val j 8).core n.val).holds k = (s.core n.val).holds k :=
  congrArg (fun c => c.holds k) (core_retire s n.val j 8 n.val)

theorem stack_retire {s : State} {n : Fin 32} (j : Job) :
    ((s.retire n.val j 8).core n.val).stack = (s.core n.val).stack :=
  (congrArg Core.stack (core_retire s n.val j 8 n.val) :)

/-- A branch within the program region moves the place alone. -/
theorem branchTo_inside {s : State} {n : Nat} {j : Job} {pc : Nat} {target : Int} (h : 0 ≤ target ∧ target < j.programRegion)
    (lt : n < s.cores.length) :
    body (s.branchTo n j pc target) = body s ∧ (((s.branchTo n j pc target).core n).pc : Int) = target := by
  unfold State.branchTo
  rw [if_pos h, core_modCore _ _ _ _ lt, if_pos rfl]
  exact ⟨body_modPc _ _ _, Int.toNat_of_nonneg h.1⟩

/-- A branch out of the program region is an access to an unmapped page. -/
theorem branchTo_outside {s : State} {n : Nat} {j : Job} {pc : Nat} {target : Int}
    (h : ¬(0 ≤ target ∧ target < j.programRegion)) : s.branchTo n j pc target =
      (s.accessFault j.ctx ((0x000000C000000000 + target) % 2 ^ 64).toNat pc).settle := if_neg h

section
variable {s : State} {n : Fin 32} {j : Job} (h : Issues s n j)
include h

theorem nop_issued : ∃ t, exec (.nop n) s = .next t ∧ Issued s n 8 (fun c => c) t :=
  simple_issued h (f := id) ⟨fun _ => rfl, fun _ => rfl⟩ rfl

/-- The place of the core past an instruction of one word. -/
theorem pc_past : (((s.retire n.val j 8).core n.val).pc : Int) = (s.core n.val).pc + 8 := by
  rw [pc_retire j 8 (issues_lt h)]
  rfl

theorem branch_goes {row : BitVec 4 × Bool} (hr : row ∈ conditions (s.core n.val)) (off : BitVec 39)
    (hin : row.2 = true → 0 ≤ ((s.core n.val).pc : Int) + 8 * off.toInt ∧
      ((s.core n.val).pc : Int) + 8 * off.toInt < j.programRegion) :
    ∃ t, exec (.b n row.1 off) s = .next t ∧ body t = body s ∧
      ((t.core n.val).pc : Int) =
        if row.2 then ((s.core n.val).pc : Int) + 8 * off.toInt else (s.core n.val).pc + 8 := by
  obtain ⟨legal, holds⟩ := holds_condition hr
  rw [exec_b, execB]
  refine issue_then (len := 8) (held := noHold) h h.2 legal rfl ?_
  rw [holds_retire, holds]
  by_cases taken : row.2 = true
  · obtain ⟨hb, hp⟩ := branchTo_inside (n := n.val) (pc := (s.core n.val).pc) (hin taken)
      (by simpa using issues_lt h : n.val < (s.retire n.val j 8).cores.length)
    rw [if_pos taken, if_pos taken]
    exact ⟨hb.trans (body_retire s n.val j 8), hp⟩
  · rw [if_neg taken, if_neg taken]
    exact ⟨body_retire s n.val j 8, pc_past h⟩

theorem call_goes {row : BitVec 4 × Bool} (hr : row ∈ conditions (s.core n.val)) (off : BitVec 39)
    (hin : row.2 = true → 0 ≤ ((s.core n.val).pc : Int) + 8 * off.toInt ∧
      ((s.core n.val).pc : Int) + 8 * off.toInt < j.programRegion) (room : (s.core n.val).stack.length < 16) :
    ∃ t, exec (.call n row.1 off) s = .next t ∧
      body t = body (if row.2 then s.modCore n.val (fun c => { c with
        stack := c.stack ++ [BitVec.ofNat 64 ((s.core n.val).pc + 8)] }) else s) ∧
      ((t.core n.val).pc : Int) =
        if row.2 then ((s.core n.val).pc : Int) + 8 * off.toInt else (s.core n.val).pc + 8 := by
  obtain ⟨legal, holds⟩ := holds_condition hr
  rw [exec_call, execCall]
  refine issue_then (len := 8) (held := noHold) h h.2 legal rfl ?_
  dsimp only
  rw [holds_retire, holds, stack_retire, if_neg (Nat.not_le.mpr room)]
  by_cases taken : row.2 = true
  · rw [if_pos taken, if_pos taken, if_pos taken]
    obtain ⟨hb, hp⟩ := branchTo_inside (n := n.val) (pc := (s.core n.val).pc) (hin taken)
      (by simpa using issues_lt h : n.val < ((s.retire n.val j 8).setCore n.val
        { (s.retire n.val j 8).core n.val with
          stack := (s.core n.val).stack ++ [BitVec.ofNat 64 ((s.core n.val).pc + 8)] }).cores.length)
    refine ⟨hb.trans ?_, hp⟩
    refine body_modCore_congr (f := fun c => { c with
      stack := (s.core n.val).stack ++ [BitVec.ofNat 64 ((s.core n.val).pc + 8)] }) (body_retire s n.val j 8) ?_
    exact congrArg (fun c : Core => { c with
      stack := (s.core n.val).stack ++ [BitVec.ofNat 64 ((s.core n.val).pc + 8)] }) (core_retire s n.val j 8 n.val)
  · rw [if_neg taken, if_neg taken, if_neg taken]
    exact ⟨body_retire s n.val j 8, pc_past h⟩

theorem ret_goes {rest : List W64} {a : W64} (hs : (s.core n.val).stack = rest ++ [a])
    (ha : a.toNat < j.programRegion) :
    ∃ t, exec (.ret n) s = .next t ∧ body t = body (s.modCore n.val (fun c => { c with stack := rest })) ∧
      (t.core n.val).pc = a.toNat := by
  rw [exec_ret, execRet]
  refine issue_then (len := 8) (held := noHold) h h.2 rfl rfl ?_
  dsimp only
  rw [stack_retire, hs, List.getLast?_concat, List.dropLast_concat]
  dsimp only
  obtain ⟨hb, hp⟩ := branchTo_inside (j := j) (n := n.val) (pc := (s.core n.val).pc) (target := a.toNat)
    ⟨Int.natCast_nonneg _, Int.ofNat_lt.mpr ha⟩
    (by simpa using issues_lt h : n.val < ((s.retire n.val j 8).setCore n.val
        { (s.retire n.val j 8).core n.val with stack := rest }).cores.length)
  refine ⟨hb.trans ?_, Int.ofNat_inj.mp hp⟩
  refine body_modCore_congr (f := fun c => { c with stack := rest }) (body_retire s n.val j 8) ?_
  exact congrArg (fun c : Core => { c with stack := rest }) (core_retire s n.val j 8 n.val)

end

/-- Settles O1, by the rule of each control instruction. -/
theorem controlFlow : Obligations.ControlFlow := by
  intro s n j h
  refine ⟨nop_issued h, fun row hr off hin => ⟨branch_goes h hr off hin, call_goes h hr off hin⟩, ?_⟩
  exact fun rest a hs ha => ret_goes h hs ha

/-! ### Scalar loads and stores -/

/-- Byte `i` of the little-endian bytes of a value. -/
theorem getD_leBytes (n v i : Nat) (h : i < n) : (leBytes n v).getD i 0 = BitVec.ofNat 8 (v / 256 ^ i) := by
  induction n generalizing v i with
  | zero => omega
  | succ n ih =>
    cases i with
    | zero => simp [leBytes]
    | succ i =>
      rw [leBytes, List.getD_cons_succ, ih _ _ (by omega), Nat.div_div_eq_div_mul, Nat.pow_succ']

theorem length_leBytes (n v : Nat) : (leBytes n v).length = n := by
  induction n generalizing v with
  | zero => rfl
  | succ n ih => rw [leBytes, List.length_cons, ih]

/-- A read of an operand store without marks delivers its bytes. -/
theorem osField_clean {c : Core} (h : c.osEcc = []) (a n : Nat) : c.osField a n = Mem.field c.os a n := by
  rw [Core.osField, Core.osRead, h]
  rfl

theorem localLost_clean {c : Core} (h : c.osEcc = []) {a : Nat} (lt : a < 0x01000000) (n : Nat) :
    c.localLost a n = false := by
  rw [Core.localLost, if_pos lt, h]
  rfl

theorem noteLocal_clean {s : State} {k : Nat} (h : (s.core k).osEcc = []) {a : Nat} (lt : a < 0x01000000) (n : Nat) :
    s.noteLocal k a n = s := by
  rw [State.noteLocal, if_pos lt, h]
  rfl

/-- A write to an operand store without marks, where no flip is armed. -/
theorem osWrite_clean {s : State} {n : Nat} (h : (s.core n).osEcc = []) (hf : (s.flip (osFlip n)).armed = false)
    (a : Nat) {bs : List Byte} (hb : bs ≠ []) :
    s.osWrite n a bs = s.modCore n (fun c => { c with os := Mem.write c.os a bs }) := by
  unfold State.osWrite State.modCore
  extract_lets c w f
  have hw : w = (Mem.write c.os a bs, []) := by rw [show w = codedWrite c.os c.osEcc a bs from rfl, h, codedWrite_clean]
  rw [if_neg hb, if_neg (by rw [hf]; exact Bool.false_ne_true), hw, ← h]

theorem body_flip {s t : State} (h : body t = body s) (i : Nat) : t.flip i = s.flip i :=
  (congrArg (fun u : State => u.flip i) h :)

/-- Where R188 does not refuse an address. -/
theorem scalarRefused_eq {c : Core} {a : Nat} (h8 : a % 8 = 0) (hle : a + 8 ≤ 0x800000)
    (hh : c.holdRefused a 8 = false) : c.scalarRefused a = false := by
  have : ¬0x800000 < a + 8 := by omega
  simp [Core.scalarRefused, osBytes, h8, hh, this]

section
variable {s : State} {n : Fin 32} {j : Job} (h : Issues s n j) (wf : coreWf (s.core n.val) = true)
  (clean : (s.core n.val).osEcc = []) (d a : BitVec 5) (imm : BitVec 40)
  (ok : (s.core n.val).scalarRefused ((s.core n.val).scalarAddr a imm) = false)
include h wf clean ok

theorem ld_issued (le : (s.core n.val).scalarAddr a imm + 8 ≤ 0x800000)
    (free : (s.core n.val).readHeld ((s.core n.val).scalarAddr a imm) 8 = false) :
    ∃ t, exec (.ld n d a imm) s = .next t ∧
      Issued s n 8 (fun c => c.setS d (BitVec.ofNat 64
        (Mem.field (s.core n.val).os ((s.core n.val).scalarAddr a imm) 8))) t ∧
      (t.core n.val).sreg d = BitVec.ofNat 64 (Mem.field (s.core n.val).os ((s.core n.val).scalarAddr a imm) 8) := by
  set k := (s.core n.val).scalarAddr a imm with hk
  have e := core_retire s n.val j 8 n.val
  have ek : ((s.retire n.val j 8).core n.val).scalarAddr a imm = k := congrArg (fun c => c.scalarAddr a imm) e
  have er : ((s.retire n.val j 8).core n.val).scalarRefused k = false :=
    (congrArg (fun c => c.scalarRefused k) e).trans ok
  have ec : ((s.retire n.val j 8).core n.val).osEcc = [] := (congrArg Core.osEcc e).trans clean
  have i := issued_modCore h 8 (f := fun c => c.setS d (BitVec.ofNat 64 (Mem.field (s.core n.val).os k 8)))
    ⟨fun _ => rfl, fun _ => rfl⟩
  rw [exec_ld, execLd]
  refine issue_then (len := 8) h h.2 rfl ?_ ?_
  · simp only [← hk, ok, free]; rfl
  dsimp only
  have eo : ((s.retire n.val j 8).core n.val).os = (s.core n.val).os := (congrArg Core.os e :)
  rw [ek, er, noteLocal_clean ec (by omega), localLost_clean ec (by omega), osField_clean ec, eo,
    if_neg Bool.false_ne_true, if_neg Bool.false_ne_true]
  exact ⟨i, (sreg_issued h i d).trans ((sreg_setS wf d d _).trans (if_pos rfl))⟩

theorem st_issued (free : (s.core n.val).writeHeld ((s.core n.val).scalarAddr a imm) 8 = false)
    (flip : (s.flip (48 + n.val)).armed = false) :
    ∃ t, exec (.st n d a imm) s = .next t ∧
      Issued s n 8 (fun c => { c with
        os := Mem.write c.os ((s.core n.val).scalarAddr a imm) (leBytes 8 ((s.core n.val).sreg d).toNat) }) t ∧
      ∀ i, Sparse.get (t.core n.val).os i =
        if (s.core n.val).scalarAddr a imm ≤ i ∧ i < (s.core n.val).scalarAddr a imm + 8 then
          BitVec.ofNat 8 (((s.core n.val).sreg d).toNat / 256 ^ (i - (s.core n.val).scalarAddr a imm))
        else Sparse.get (s.core n.val).os i := by
  set k := (s.core n.val).scalarAddr a imm with hk
  have e := core_retire s n.val j 8 n.val
  have ek : ((s.retire n.val j 8).core n.val).scalarAddr a imm = k := congrArg (fun c => c.scalarAddr a imm) e
  have er : ((s.retire n.val j 8).core n.val).scalarRefused k = false :=
    (congrArg (fun c => c.scalarRefused k) e).trans ok
  have ec : ((s.retire n.val j 8).core n.val).osEcc = [] := (congrArg Core.osEcc e).trans clean
  have ef : ((s.retire n.val j 8).flip (osFlip n.val)).armed = false := by
    rw [body_flip (body_retire s n.val j 8)]; exact flip
  have ev : ((s.retire n.val j 8).core n.val).sreg d = (s.core n.val).sreg d := congrArg (fun c => c.sreg d) e
  have i := issued_modCore h 8 (f := fun c => { c with
    os := Mem.write c.os k (leBytes 8 ((s.core n.val).sreg d).toNat) }) ⟨fun _ => rfl, fun _ => rfl⟩
  have wo : Sparse.wf (s.core n.val).os = true := by simp [coreWf] at wf; tauto
  rw [exec_st, execSt]
  refine issue_then (len := 8) h h.2 rfl ?_ ?_
  · simp only [← hk, ok, free]; rfl
  dsimp only
  rw [ek, er, ev, if_neg Bool.false_ne_true, osWrite_clean ec ef _ (by simp [leBytes])]
  refine ⟨i, fun b => ?_⟩
  have eo := (congrArg Core.os (issued_core h i) :)
  refine (congrArg (fun m => Sparse.get m b) eo).trans ?_
  change Sparse.get (Mem.write (s.core n.val).os k _) b = _
  rw [Sparse.get_write wo, length_leBytes]
  split
  · rename_i hb
    exact getD_leBytes 8 _ _ (by omega)
  · rfl

end

/-- Settles O2, by the rules of LD and ST. -/
theorem scalarMemory : Obligations.ScalarMemory := by
  intro s n j d a imm h wf clean at_ h8 hle hh
  have ok := scalarRefused_eq h8 hle hh
  exact ⟨fun free => ld_issued h wf clean d a imm ok hle free,
    fun free flip => st_issued h wf clean d a imm ok free flip⟩

/-! ### Failures -/

/-- Releasing a core takes its job away and leaves the jobs of the others. -/
theorem job_freeCore (s : State) (n k : Nat) :
    ((s.freeCore n).core k).job = if k = n then none else (s.core k).job := by
  by_cases lt : n < s.cores.length
  · rw [State.freeCore, core_modCore _ _ _ _ (by exact lt)]
    split <;> rfl
  · have : (s.freeCore n).core k = s.core k := by
      rw [State.core, State.freeCore, State.modCore, State.setCore, List.set_eq_of_length_le (by
        exact Nat.not_lt.mp lt)]
      rfl
    rw [this]
    split
    · rename_i e
      subst e
      rw [core_past s k (Nat.not_lt.mp lt)]
    · rfl

theorem job_freeCores_of_mem (l : List Nat) (s : State) (k : Nat) :
    ((l.foldl State.freeCore s).core k).job = if k ∈ l then none else (s.core k).job := by
  induction l generalizing s with
  | nil => simp
  | cons n t ih =>
    rw [List.foldl_cons, ih, job_freeCore]
    by_cases e : k = n <;> by_cases m : k ∈ t <;> simp [e, m]

theorem cores_collect (s : State) (ctx : Nat) : (s.collect ctx).cores = s.cores := by
  unfold State.collect
  split
  · rfl
  · split
    · rfl
    · rw [releaseIdents_cores, completeAll_cores, complete_cores]

/-- The end of a job moves no core but to release those of the job. -/
theorem cores_endJob {s : State} {ctx : Nat} {j : Job} (h : s.job? ctx = some j) (hs : j.state ≠ .ended)
    (e : JobEnd) (pc : Nat) : (s.endJob ctx e pc).cores = (j.cores.foldl State.freeCore s).cores := by
  have fold : ∀ (l : List (Nat × List (Nat × Nat))) (v : (Nat × List (Nat × Nat)) → Verdict) (u : State),
      (l.foldl (fun s r => s.complete r.1 (v r)) u).cores = u.cores :=
    fun l v u => foldl_keeps State.cores _ (fun s r => complete_cores s r.1 (v r)) l u
  have free : (s.freeCores ctx).cores = (j.cores.foldl State.freeCore s).cores := by
    rw [State.freeCores, h]
    rfl
  unfold State.endJob
  rw [h]
  dsimp only
  rw [if_neg hs, releaseIdents_cores, cores_collect]
  split
  · rw [complete_cores, fold, completeAll_cores]
    exact free
  · rw [fold, completeAll_cores]
    exact free

/-- Settles O6: the job is recorded as failed, and each of its cores is released. -/
theorem failureIsRecorded : Obligations.FailureIsRecorded := by
  intro s j st cause pc hj hs he
  refine ⟨failed_settle (failed_failJob hj hs he st cause pc), fun n hn _ => ?_⟩
  have e : (s.failJob j.ctx st cause pc).settle.cores = (j.cores.foldl State.freeCore s).cores := by
    rw [settle_cores, State.failJob, cores_endJob hj hs]
  have : (s.failJob j.ctx st cause pc).settle.core n = (j.cores.foldl State.freeCore s).core n := by
    rw [State.core, e, State.core]
  rw [this, job_freeCores_of_mem, if_pos hn]

/-! ### Words that are no instruction, at the end of the program region -/

/-- A job of one program page, running on core 0. -/
def pageJob : Job :=
  { ctx := 5, handle := 0x0400000000001005, pod := 0, program := [], declared := 1, resolved := some 1
    slate := { kind := 1, idleYield := false, carryTopk := false, carryAcc := false, cores := 1, minCores := 1
               seqSlots := 4, cls := 0, carryBytes := 0, budget := 0, overrunLimit := 0, cutGrace := 0
               programLen := 4096, entry := 0, clientId := 0, model := 0, index := 0, storyboard := 0
               storyboardLen := 0, writableBytes := 65536 }
    state := .running, cores := [0] }

/-- A module that runs `pageJob`, its core at the last word of the 2 MiB page of its program. -/
def atLastWord : State := { State.reset with
  hw := { phase := .running, perst := false, started := true, startStep := 7 }
  link := { linkUp := true, session := true, ide := true }
  sec := { State.reset.sec with lc := .service }
  jobs := [pageJob], cores := { pc := 2097144, job := some 5 } :: List.replicate 31 {} }

theorem issues_atLastWord : Issues atLastWord 0 pageJob := by
  unfold Issues; decide

/-- A word of two whose second word lies past the program region: the fetch of that word is what fails the job,
as an access to an unmapped page (R122). -/
theorem illegal_past_region {s : State} {n : Fin 32} {j : Job} (h : Issues s n j) {w0 : W64} (w1 : W64)
    (long : bitOf w0.toNat 63 = true) (hp : j.programRegion ≤ (s.core n.val).pc + 8) :
    exec (.illegalInstruction n w0 w1) s =
      .next (s.accessFault j.ctx (0x000000C000000000 + (s.core n.val).pc + 8) (s.core n.val).pc).settle := by
  change execIllegalInstruction n w0 w1 s = _
  unfold execIllegalInstruction
  rw [h.1]
  simp [long, hp, Nat.not_le.mpr h.2]

theorem failed_accessFault {s : State} {ctx : Nat} {j : Job} (h : s.job? ctx = some j) (hs : j.state ≠ .ended)
    (he : j.endJobs = []) (addr pc : Nat) : Failed (s.accessFault ctx addr pc).settle ctx .pageFaultFatal 7 pc := by
  refine failed_settle (failed_failJob (j := { j with faultAddr := addr }) ?_ hs he _ _ _)
  exact (job?_modJob s ctx ctx _ (fun _ => by rfl)).trans (by rw [if_pos rfl, h]; rfl)

/-- A job fails with one status. -/
theorem status_of_failed {t : State} {ctx : Nat} {st st' : Status} {cause cause' pc pc' : Nat}
    (h : Failed t ctx st cause pc) (h' : Failed t ctx st' cause' pc') : st = st' := by
  obtain ⟨j, hj, -, he, -⟩ := h
  obtain ⟨j', hj', -, he', -⟩ := h'
  obtain rfl : j = j' := Option.some.inj (hj.symm.trans hj')
  exact congrArg JobEnd.status (he.symm.trans he')

/-- Refutes O9: words that are no instruction, the first of which says that a second follows (bit 63), at the last word
of the program region. The second word is an access to an unmapped page (R122), and the job fails with PAGE_FAULT_FATAL
and cause 7, not with ENGINE_FAULT and cause 3. -/
theorem not_refusedIssuesFail : ¬ Obligations.RefusedIssuesFail := by
  rintro ⟨-, -, illegal, -⟩
  obtain ⟨t, ht, failed⟩ := illegal atLastWord 0 pageJob (BitVec.allOnes 64) 0 issues_atLastWord rfl (by decide)
  rw [illegal_past_region issues_atLastWord 0 (by decide) (by decide)] at ht
  cases ht
  have found : atLastWord.job? pageJob.ctx = some pageJob := by decide
  have fault := failed_accessFault found (by decide) rfl (0x000000C000000000 + (atLastWord.core 0).pc + 8)
    (atLastWord.core 0).pc
  exact absurd (status_of_failed fault failed) (by decide)

end Sys2Proof.Machine
end

section
/-!
SUPPORT. What an issue leaves of jobs and cores, a core that waits at no collective (R193), and the instructions of the
mover (R169, R187, R212 to R215).
-/

namespace Sys2Proof.Machine

open Sys2Proof.Safety

/-! ### The job of an issuing core -/

/-- What it means that a core issues instructions of a job. -/
theorem issuing_eq {s : State} {n : Nat} {j : Job} (h : s.issuing n = some j) :
    ∃ ctx, (s.core n).job = some ctx ∧ s.job? ctx = some j ∧ s.awake = true ∧ j.onCores = true ∧
      (s.core n).hold = none ∧ (s.core n).opening = none := by
  unfold State.issuing at h
  split at h
  · rename_i i hi
    split at h
    · rename_i ok
      cases h
      obtain ⟨ctx, hc, hj⟩ := Option.bind_eq_some_iff.mp hi
      simp only [Bool.and_eq_true, Option.isNone_iff_eq_none] at ok
      obtain ⟨⟨⟨awake, on⟩, hold⟩, opening⟩ := ok
      exact ⟨ctx, hc, hj, awake, on, hold, opening⟩
    · cases h
  · cases h

theorem ctx_of_job? {s : State} {k : Nat} {j : Job} (h : s.job? k = some j) : j.ctx = k := by
  have := List.find?_some h
  simpa using this

/-- Equal views have equal jobs, but for what an issue counts. -/
theorem job?_of_body {s t : State} (h : body t = body s) (k : Nat) :
    (t.job? k).map jobBody = (s.job? k).map jobBody := by
  have view : ∀ u : State, (u.job? k).map jobBody = (u.jobs.map jobBody).find? (fun j => j.ctx == k) := by
    intro u
    rw [List.find?_map, State.job?]
    rfl
  rw [view, view, show t.jobs.map jobBody = s.jobs.map jobBody from congrArg State.jobs h]

theorem exists_job_of_body {s t : State} (h : body t = body s) {k : Nat} {j : Job} (hj : s.job? k = some j) :
    ∃ i, t.job? k = some i ∧ jobBody i = jobBody j := by
  have := job?_of_body h k
  rw [hj] at this
  exact Option.map_eq_some_iff.mp this

/-! ### A core at no collective -/

/-- A job one of whose cores waits at no collective takes part in none. -/
theorem collective_idle {s : State} {ctx n : Nat} {j : Job} (hj : s.job? ctx = some j) (mem : n ∈ j.cores)
    (idle : (s.core n).hold.bind (fun h => h.kind.map (fun _ => h)) = none) : s.collective ctx = s := by
  unfold State.collective
  rw [hj]
  dsimp only
  rw [if_pos]
  exact .inr (.inr (.inr (List.length_filterMap_lt_length_iff_exists.mpr ⟨n, mem, idle⟩).ne))

/-- What follows the work of such a core is its own waits alone. -/
theorem settleCore_idle {s : State} {ctx n : Nat} {j : Job} (lt : n < s.cores.length)
    (hc : (s.core n).unhold.job = some ctx) (hj : s.job? ctx = some j) (mem : n ∈ j.cores)
    (idle : (s.core n).unhold.hold.bind (fun h => h.kind.map (fun _ => h)) = none) :
    s.settleCore n = (s.modCore n Core.unhold).settle := by
  have e : (s.modCore n Core.unhold).core n = (s.core n).unhold := by rw [core_modCore _ _ _ _ lt, if_pos rfl]
  unfold State.settleCore
  dsimp only
  rw [e, hc]
  dsimp only
  rw [collective_idle (s := s.modCore n Core.unhold) (j := j) hj mem (by rw [e]; exact idle)]

theorem unhold_none {c : Core} (h : c.hold = none) : c.unhold = c := by
  unfold Core.unhold
  rw [h]

/-- Settling a state moves nothing that the view of a calm state keeps. -/
theorem calm_settle (s : State) : calm s.settle = calm s := by
  have e : ∀ u : State, calm u = calm (inside u) := fun _ => rfl
  rw [e s.settle, inside_settle, ← e]

theorem core_settle (s : State) (k : Nat) : s.settle.core k = s.core k := by
  rw [State.core, settle_cores, State.core]

/-- What a core waits for once a wait whose transfers are DONE is released. -/
def released (xfers : List (Nat × Xfer)) (hold : Option Hold) : Option Hold :=
  match hold with
  | some (.wait x) => if (lookupD xfers x {}).state == .done then none else some (.wait x)
  | some (.fence upTo) =>
    if xfers.any (fun p => p.2.store && p.2.state != .done && decide (p.2.order < upTo)) then some (.fence upTo) else none
  | h => h

/-- Releasing a wait moves nothing but the wait. -/
theorem unhold_eq (c : Core) : c.unhold = { c with hold := released c.xfers c.hold } := by
  have keep : ∀ h, c.hold = h → c = { c with hold := h } := fun h e => by rw [← e]
  unfold Core.unhold
  split
  · rename_i x hx
    rw [hx]
    change _ = { c with hold := if c.xDone x then none else some (.wait x) }
    split
    · rfl
    · exact keep _ hx
  · rename_i u hu
    rw [hu]
    rw [released]
    split
    · exact keep _ hu
    · rfl
  · rename_i w f
    refine keep _ ?_
    unfold released
    split
    · exact absurd ‹_› (w _)
    · exact absurd ‹_› (f _)
    · rfl

theorem unhold_hold_coreBody (c : Core) : (coreBody c).unhold.hold = c.unhold.hold := by
  rw [unhold_eq, unhold_eq]
  rfl

/-- Whether a core waits at no collective. -/
def Core.NoCollective (c : Core) : Prop := c.unhold.hold.bind (fun h => h.kind.map (fun _ => h)) = none

theorem coreBody_unhold (c : Core) : coreBody c.unhold = coreBody (coreBody c).unhold := by
  rw [unhold_eq, unhold_eq]
  rfl

/-- What follows an instruction that leaves its core at no collective: its own waits are looked at, and commands may
complete besides. -/
theorem done_of_issued {s u : State} {n : Fin 32} {j : Job} {len : Nat} {f : Core → Core} (h : Issues s n j)
    (mem : n.val ∈ j.cores) (i : Issued s n len f u) (hjob : (f (s.core n.val)).job = (s.core n.val).job)
    (idle : (f (s.core n.val)).NoCollective) : Done s n len (fun c => (f c).unhold) (u.settleCore n.val) := by
  obtain ⟨ctx, hc, hj, -⟩ := issuing_eq h.1
  obtain ⟨hb, hpc⟩ := i
  have ls : n.val < s.cores.length := issues_lt h
  have lt : n.val < u.cores.length := by rw [length_of_body hb]; simpa [State.modCore] using ls
  obtain ⟨k, hk, ek⟩ := exists_job_of_body hb (j := j) (k := ctx) hj
  have cores : k.cores = j.cores := (congrArg Job.cores ek :)
  have e : coreBody (u.core n.val) = coreBody (f (s.core n.val)) := issued_core h ⟨hb, hpc⟩
  have eh : (u.core n.val).unhold.hold = (f (s.core n.val)).unhold.hold :=
    (unhold_hold_coreBody _).symm.trans ((congrArg (fun c => c.unhold.hold) e).trans (unhold_hold_coreBody _))
  have job : (u.core n.val).unhold.job = some ctx := by
    rw [unhold_eq]
    exact ((congrArg Core.job e :).trans hjob).trans hc
  rw [settleCore_idle lt job hk (by rw [cores]; exact mem) (by rw [eh]; exact idle)]
  have es : (s.modCore n.val f).core n.val = f (s.core n.val) := by rw [core_modCore _ _ _ _ ls, if_pos rfl]
  have twice : (s.modCore n.val f).modCore n.val Core.unhold = s.modCore n.val (fun c => (f c).unhold) := by
    rw [State.modCore, es]
    simp [State.modCore, State.setCore]
  refine ⟨?_, ?_⟩
  · rw [calm_settle, calm, calm, body_modCore_congr (g := Core.unhold) hb, twice]
    rw [es, coreBody_unhold, e, ← coreBody_unhold]
  · rw [core_settle, core_modCore _ _ _ _ lt, if_pos rfl, unhold_eq]
    exact hpc

/-! ### The instructions of the mover -/

theorem exec_mvStat (n : Fin 32) (d a : BitVec 5) (s : State) : exec (.mvStat n d a) s = execMvStat n d a s := rfl
theorem exec_mvWait (n : Fin 32) (d : BitVec 5) (s : State) : exec (.mvWait n d) s = execMvWait n d s := rfl

theorem localRead_clean {c : Core} (h : c.osEcc = []) {a : Nat} (lt : a < 0x01000000) (n : Nat) :
    c.localRead a n = Mem.bytes c.os a n := by
  rw [Core.localRead, if_pos lt, Core.osRead, h]
  rfl

/-- A mover instruction whose descriptor lies in a clean operand store, that nothing holds or refuses, puts its transfer
into its slot. -/
theorem mvIssue_issued {s : State} {n : Fin 32} {j : Job} (h : IssuesLong s n j) (clean : (s.core n.val).osEcc = [])
    {d a : BitVec 5} (b c : BitVec 5) (imm : BitVec 32) {direct store : Bool} (mode : XMode) (hd : d.toNat ≤ 7)
    (ha : a.toNat ≤ 15) (hdir : store = true → direct = false) {desc : List Byte} {x : Xfer} {at_ : Nat}
    (hat : at_ = ((s.core n.val).sreg c).toNat) (hdesc : desc = Mem.bytes (s.core n.val).os at_ 32)
    (hx : x = shapeXfer mode store direct ((s.core n.val).areg a + imm.signExtend 64).toNat
      (moverLocal mode ((s.core n.val).sreg b)) desc)
    (done : (s.core n.val).xDone d.toNat = true) (x7 : d.toNat = 7 → (s.core n.val).estoreOpen = false)
    (h32 : at_ % 32 = 0) (le : at_ + 32 ≤ 0x800000) (hh : (s.core n.val).holdRefused at_ 32 = false)
    (free : (s.core n.val).readHeld at_ 32 = false) (good : shapeGood x desc = true)
    (mapped : localMapped x.laddr x.lSpan = true) (hx' : (s.core n.val).holdRefused x.laddr x.lSpan = false) :
    ∃ t, s.mvIssue n d a b c imm direct mode store = .next t ∧
      Issued s n 16 (fun k => { k.setXfer d.toNat { x with order := k.xorder, pc := (s.core n.val).pc } with
        xorder := k.xorder + 1 }) t := by
  have bad : shapeAtBad at_ = false := by
    have : ¬0x800000 < at_ + 32 := by omega
    simp [shapeAtBad, h32, osBytes, this]
  have slot : (s.core n.val).slotHeld d = false := by
    simp only [Core.slotHeld, done, Bool.not_true, Bool.false_or, Bool.and_eq_false_imp, beq_iff_eq]
    exact x7
  have legal : (isX d && isA a && !(store && direct)) = true := by
    cases store <;> simp_all [isX, isA]
  have e := core_retire s n.val j 16 n.val
  have ec : ((s.retire n.val j 16).core n.val).osEcc = [] := (congrArg Core.osEcc e :).trans clean
  have eo : ((s.retire n.val j 16).core n.val).os = (s.core n.val).os := (congrArg Core.os e :)
  have es : ∀ r, ((s.retire n.val j 16).core n.val).sreg r = (s.core n.val).sreg r :=
    fun r => (congrArg (fun c => c.sreg r) e :)
  have ea : ((s.retire n.val j 16).core n.val).areg a = (s.core n.val).areg a := (congrArg (fun c => c.areg a) e :)
  have eh : ∀ p q, ((s.retire n.val j 16).core n.val).holdRefused p q = (s.core n.val).holdRefused p q :=
    fun p q => (congrArg (fun c => c.holdRefused p q) e :)
  unfold State.mvIssue
  refine issue_then (len := 16) h.1 h.2 legal ?_ ?_
  · rw [slot, ← hat, bad, free]; rfl
  · dsimp only
    rw [es c, ← hat, eh, bad, hh, noteLocal_clean ec (by omega), localLost_clean ec (by omega),
      localRead_clean ec (by omega), eo, ← hdesc, ea, es b, imm32, ← hx, eh, good, mapped, hx']
    exact issued_modCore h.1 16 (f := fun k => { k.setXfer d.toNat { x with
      order := k.xorder, pc := (s.core n.val).pc } with xorder := k.xorder + 1 }) ⟨fun _ => rfl, fun _ => rfl⟩

theorem moverQueuesTransfer : MoverQueuesTransfer := by
  intro s n j d a b c imm direct h clean hd ha row hr hdir k at_ desc x done x7 h32 le hh free good mapped hx
  have queued : ∀ mode store, row.2 = (mode, store) → ∃ t, s.mvIssue n d a b c imm direct mode store = .next t ∧
      Issued s n 16 (fun k => { k.setXfer d.toNat { x with order := k.xorder, pc := (s.core n.val).pc } with
        xorder := k.xorder + 1 }) t := by
    intro mode store e
    refine mvIssue_issued (x := x) h clean b c imm mode hd ha (by rw [e] at hdir; exact hdir) rfl rfl ?_ done x7 h32 le
      hh free good mapped hx
    simp only [x, e]
    cases mode <;> rfl
  have run : ∃ t, exec row.1 s = .next t ∧
      Issued s n 16 (fun k => { k.setXfer d.toNat { x with order := k.xorder, pc := (s.core n.val).pc } with
        xorder := k.xorder + 1 }) t := by
    simp only [moverForms, List.mem_cons, List.not_mem_nil, or_false] at hr
    rcases hr with rfl | rfl | rfl | rfl | rfl <;> exact queued _ _ rfl
  obtain ⟨t, ht, i⟩ := run
  have ex : (t.core n.val).xfer d.toNat = { x with order := k.xorder, pc := (s.core n.val).pc } :=
    (congrArg (fun c => c.xfer d.toNat) (issued_core h.1 i) :).trans
      ((lookupD_assocSet _ _ _ _ _).trans (if_pos rfl))
  refine ⟨t, ht, i, ?_⟩
  dsimp only
  rw [ex]
  exact ⟨rfl, rfl, rfl, rfl, rfl, rfl, rfl, rfl, rfl⟩

/-- MV.STAT reads state and progress of its slot. -/
theorem mvStat_issued {s : State} {n : Fin 32} {j : Job} (h : Issues s n j) (wf : coreWf (s.core n.val) = true)
    (d : BitVec 5) {a : BitVec 5} (ha : a.toNat ≤ 7) (free : (s.core n.val).lookHeld a = false) :
    ∃ t, exec (.mvStat n d a) s = .next t ∧
      ((t.core n.val).sreg d).toNat =
        ((s.core n.val).xfer a.toNat).progress % 2 ^ 32 * 2 ^ 32 + ((s.core n.val).xfer a.toNat).state.code ∧
      Issued s n 8 (fun c => c.setS d ((t.core n.val).sreg d)) t := by
  have small : ((s.core n.val).xfer a.toNat).state.code < 7 := by
    cases ((s.core n.val).xfer a.toNat).state <;> decide
  rw [exec_mvStat, execMvStat]
  refine issue_then (len := 8) h h.2 (by simpa [isX] using ha) free ?_
  have i := issued_modCore h 8 (f := fun k => k.setS d (BitVec.ofNat 64
    ((k.xfer a.toNat).progress % 2 ^ 32 * 2 ^ 32 + (k.xfer a.toNat).state.code))) ⟨fun _ => rfl, fun _ => rfl⟩
  have e := (sreg_issued h i d).trans ((sreg_setS wf d d _).trans (if_pos rfl))
  refine ⟨?_, issued_congr (by rw [e]) i⟩
  rw [e, BitVec.toNat_ofNat, Nat.mod_eq_of_lt]
  omega

/-- MV.WAIT holds its sequencer, unless the transfer is DONE already. -/
theorem mvWait_done {s : State} {n : Fin 32} {j : Job} (h : Issues s n j) {d : BitVec 5} (hd : d.toNat ≤ 7)
    (free : (s.core n.val).lookHeld d = false) (mem : n.val ∈ j.cores) :
    ∃ t, exec (.mvWait n d) s = .next t ∧ Done s n 8 (fun c => { c with
        hold := if (c.xfer d.toNat).state = .done then none else some (.wait d.toNat) }) t := by
  rw [exec_mvWait, execMvWait]
  refine issue_then (len := 8) h h.2 (by simpa [isX] using hd) free ?_
  have wait : ∀ c : Core, ({ c with hold := some (.wait d.toNat) } : Core).unhold =
      { c with hold := if (c.xfer d.toNat).state = .done then none else some (.wait d.toNat) } := by
    intro c
    unfold Core.unhold
    by_cases x : (c.xfer d.toNat).state = .done
    · exact (if_pos (beq_iff_eq.mpr x)).trans (by rw [if_pos x])
    · exact (if_neg (fun y => x (beq_iff_eq.mp y))).trans (by rw [if_neg x])
  have i := issued_modCore h 8 (f := fun c => { c with hold := some (.wait d.toNat) }) ⟨fun _ => rfl, fun _ => rfl⟩
  have done := done_of_issued h mem i rfl (by
      unfold Core.NoCollective
      rw [wait]
      dsimp only
      split <;> rfl)
  simp only [wait] at done
  exact done

theorem moverStatusAndWait : MoverStatusAndWait := by
  intro s n j d a h wf
  refine ⟨fun ha free => ?_, fun hd free mem => mvWait_done h hd free mem⟩
  obtain ⟨t, ht, e, i⟩ := mvStat_issued h wf d ha free
  refine ⟨t, ht, e.trans ?_, i⟩
  cases ((s.core n.val).xfer a.toNat).state <;> rfl

/-- Settles O10, by the rule of the transfers' issue and those of MV.STAT and MV.WAIT. -/
theorem moverInstructions : Obligations.MoverInstructions := ⟨moverQueuesTransfer, moverStatusAndWait⟩

end Sys2Proof.Machine
end

section
/-!
SUPPORT. The top-k lists as a part of their core (R167, R173): what an offer moves is the part that holds the lists, and it
depends on nothing else.
-/

namespace Sys2Proof.Machine

open Sys2Proof.Safety

/-- What holds the lists of a core: the unit's state, and the lane weight buffers with their marks. -/
structure Lists where
  topk : TopK
  lwb  : Mem
  ecc  : List EccMark

/-- The lists of a core. -/
def Core.lists (c : Core) : Lists := { topk := c.topk, lwb := c.lwb, ecc := c.lwbEcc }

/-- A core with other lists. -/
def Core.withLists (c : Core) (x : Lists) : Core := { c with topk := x.topk, lwb := x.lwb, lwbEcc := x.ecc }

/-- The list of a lane. -/
def Lists.list (x : Lists) (lane : Nat) : List (BitVec 64) :=
  (List.range (x.topk.count lane)).map (fun i =>
    BitVec.ofNat 64 (le (Mem.bytes (delivered x.lwb x.ecc) (listAt lane + 8 * i) 8)))

/-- The list of a lane replaced. -/
def Lists.put (x : Lists) (lane : Nat) (l : List (BitVec 64)) : Lists :=
  let w := codedWrite x.lwb x.ecc (listAt lane) ((l.map (fun e => leBytes 8 e.toNat)).flatten)
  { lwb := w.1, ecc := w.2
    topk := { x.topk with counts := Sparse.set x.topk.counts lane (BitVec.ofNat 16 l.length) } }

/-- An entry offered to a lane (R174). -/
def Lists.offer (x : Lists) (lane : Nat) (e : W64) : Lists :=
  let r := tkOffer x.topk.score x.topk.kLane e (x.list lane)
  if r.2 then x.put lane r.1 else x

theorem list_lists (c : Core) (lane : Nat) : c.lists.list lane = c.tkList lane := rfl

@[simp] theorem lists_withLists (c : Core) (x : Lists) : (c.withLists x).lists = x := rfl
@[simp] theorem withLists_lists (c : Core) : c.withLists c.lists = c := rfl
@[simp] theorem withLists_withLists (c : Core) (x y : Lists) : (c.withLists x).withLists y = c.withLists y := rfl

/-- State `u` is `s` but for the lists `x` on core `n`, and counts. -/
def Listed (s : State) (n : Nat) (x : Lists) (u : State) : Prop :=
  body u = body (s.modCore n (fun c => c.withLists x)) ∧ u.core n = (s.core n).withLists x

theorem listed_self (s : State) (n : Nat) : Listed s n (s.core n).lists s := by
  have : s.modCore n (fun c => c.withLists (s.core n).lists) = s.modCore n (fun c => c) := rfl
  refine ⟨?_, rfl⟩
  rw [this]
  exact (body_setCore s n (s.core n) rfl).symm

theorem setCore_setCore (s : State) (n : Nat) (c d : Core) : (s.setCore n c).setCore n d = s.setCore n d := by
  simp [State.setCore]

/-- Replacing the list of a lane. -/
theorem setList_eq {s : State} {n : Nat} (lt : n < s.cores.length) (lane : Nat) (l : List (BitVec 64)) :
    s.setList n lane l = s.modCore n (fun c => c.withLists (c.lists.put lane l)) := by
  unfold State.setList State.lwbWrite State.modCore
  extract_lets c w
  rw [core_setCore _ _ _ _ lt, if_pos rfl, setCore_setCore]
  rfl

theorem listed_put {s u : State} {n : Nat} {x : Lists} (lt : n < s.cores.length) (h : Listed s n x u) (lane : Nat)
    (l : List (BitVec 64)) : Listed s n (x.put lane l) (u.setList n lane l) := by
  obtain ⟨hb, hc⟩ := h
  have lu : n < u.cores.length := by
    rw [length_of_body hb]; simpa [State.modCore] using lt
  have e : (s.modCore n (fun c => c.withLists x)).core n = (s.core n).withLists x := by
    rw [core_modCore _ _ _ _ lt, if_pos rfl]
  rw [setList_eq lu]
  refine ⟨?_, ?_⟩
  · refine (body_modCore_congr (g := fun c => c.withLists (c.lists.put lane l)) hb (by rw [hc, e])).trans ?_
    rw [State.modCore, e]
    simp [State.modCore, setCore_setCore]
  · rw [core_modCore _ _ _ _ lu, if_pos rfl, hc]
    rfl

theorem listed_count {s u : State} {n : Nat} {x : Lists} (h : Listed s n x u) (b e k : Nat) :
    Listed s n x (u.count b e k) := ⟨(body_count u b e k).trans h.1, h.2⟩

/-- An offer moves the lists of its core alone, and depends on them alone. -/
theorem listed_offer {s u : State} {n : Nat} {x : Lists} (lt : n < s.cores.length) (h : Listed s n x u) (lane : Nat)
    (e : W64) : Listed s n (x.offer lane e) (u.offer n lane e) := by
  have ht : (u.core n).topk = x.topk := by rw [h.2]; rfl
  have hl : (u.core n).tkList lane = x.list lane := by rw [h.2]; rfl
  unfold State.offer Lists.offer
  extract_lets q c r
  have : r = q := by
    change tkOffer (u.core n).topk.score (u.core n).topk.kLane e ((u.core n).tkList lane) = _
    rw [ht, hl]
  rw [this]
  split
  · exact listed_count (listed_put lt h lane q.1) n 9 1
  · exact h

theorem lists_of_listed {s u : State} {n : Nat} {x : Lists} (h : Listed s n x u) : (u.core n).lists = x := by
  rw [h.2]; rfl

/-- Folds of steps that move the lists alone, and in the same way whatever else the core holds. -/
theorem listed_foldl {α : Type} {s : State} {n : Nat} (f : State → α → State) (g : Lists → α → Lists)
    (step : ∀ u x a, Listed s n x u → Listed s n (g x a) (f u a)) (l : List α) {u : State} {x : Lists}
    (h : Listed s n x u) : Listed s n (l.foldl g x) (l.foldl f u) := by
  induction l generalizing u x with
  | nil => exact h
  | cons a t ih => exact ih (step u x a h)

/-! ### A binary pass (R160, R175, R218) -/

/-- The codes of a binary pass, each with its queries, offered to lists. -/
def Lists.offerCodes (x : Lists) (codes : List (Nat × List Byte)) (queries : List (Nat × List Byte)) (tag : Nat) : Lists :=
  codes.foldl (fun x i => queries.foldl (fun x q =>
    if x.topk.striped q.1 i.1 then
      x.offer q.1 (tkEntry ((i.2.zip q.2).map (fun p => popcount (p.1 ^^^ p.2))).sum (tag + i.1))
    else x) x) x

/-- The lanes of a binary pass with their queries. -/
def Core.queries (c : Core) (t : Tile) : List (Nat × List Byte) :=
  ((enabledLanes t.desc).filter (fun l =>
    !dMasked t.desc || bitOf ((c.osRead (dMaskAddr t.desc) 64).getD (l.2 / 8) 0).toNat (l.2 % 8))).map
    (fun l => (l.2, Mem.bytes (c.laneHalf t.desc l.2) (dWOffset t.desc) (dCodeBits t.desc / 8)))

/-- The codes of a binary pass. -/
def Core.codes (c : Core) (t : Tile) : List (Nat × List Byte) :=
  (List.range (dOpCount t.desc)).map (fun i => (i, c.osRead (t.operandAt 0 i) (dCodeBits t.desc / 8)))

/-- The lists after a binary pass. -/
def Core.listsAfter (c : Core) (t : Tile) : Lists := c.lists.offerCodes (c.codes t) (c.queries t) t.sa

theorem listed_offerCodes {s : State} {n : Nat} (lt : n < s.cores.length) (t : Tile) :
    Listed s n ((s.core n).listsAfter t) (s.offerCodes n t) := by
  unfold State.offerCodes Core.listsAfter Lists.offerCodes Core.codes
  rw [List.foldl_map]
  refine listed_foldl _ _ (fun u x i h => ?_) _ (listed_self s n)
  refine listed_foldl _ _ (fun u x q h => ?_) _ h
  have ht : (u.core n).topk = x.topk := by rw [h.2]; rfl
  dsimp only
  rw [ht]
  split
  · exact listed_offer lt h _ _
  · exact h

end Sys2Proof.Machine
end

section
/-!
SUPPORT. Array passes: their issue, a check that fails, the accumulators of an arithmetic pass and the lists of a binary one
(R158, R160, R163, R187, R216 to R220, R245).
-/

namespace Sys2Proof.Machine

open Sys2Proof.Safety

/-! ### The issue of a pass -/

theorem endSweep_eq (c : Core) : c.endSweep = { c with sweeps := c.endSweep.sweeps } := rfl

/-- A pass given its place moves the order of issue and the sweeps alone. -/
theorem sweepPass_eq (c : Core) (t : Tile) : c.sweepPass t = { c with
    xorder := (c.sweepPass t).xorder, sweeps := (c.sweepPass t).sweeps, sweepHalf := (c.sweepPass t).sweepHalf } := by
  unfold Core.sweepPass
  extract_lets d
  split
  · rfl
  · split <;> rfl

/-- Whether a pass joins a sweep depends on the sweeps alone. -/
theorem joins_congr {c d : Core} (h : c.sweeps = d.sweeps) (t : Tile) : c.joins t = d.joins t := by
  unfold Core.joins
  rw [h]

theorem sweepPass_coreBody (c : Core) (t : Tile) : coreBody (c.sweepPass t) = coreBody ((coreBody c).sweepPass t) := by
  unfold Core.sweepPass
  extract_lets d _ e _
  have j : e.joins t = d.joins t := joins_congr rfl t
  rw [j]
  split
  · rfl
  · split <;> rfl

theorem pc_sweepPass (c : Core) (t : Tile) : (c.sweepPass t).pc = c.pc := by rw [sweepPass_eq]

/-- What a pass of core `c` that is ready, with tile `t`, does to the state after its issue. -/
def State.runPass (s : State) (n : Fin 32) (j : Job) (t : Tile) : State :=
  if (dPrologue t.desc).isSome then s.modCore n.val (fun c => { c.sweepPass t with opening := some t })
  else ((s.modCore n.val (fun c => c.sweepPass t)).feed n.val j t).settleCore n.val

theorem descAtBad_eq {a : Nat} (h : a % 64 = 0) (le : a + 64 ≤ 0x800000) : descAtBad a = false := by
  have : ¬0x800000 < a + 64 := by omega
  simp [descAtBad, h, osBytes, this]

/-- An instruction that may end a sweep, where it is legal and nothing holds it. -/
theorem issueEnding_next {s : State} {n : Fin 32} {j : Job} (h : Issues s n j) {len : Nat} {legal : Bool}
    {held ends : Core → Bool} (hw : (s.core n.val).pc + (len - 8) < j.programRegion) (hl : legal = true)
    (hh : held (s.core n.val) = false) (act : State → Job → Nat → State) :
    s.issueEnding n len legal held ends act = .next (act (s.retire n.val j len) j (s.core n.val).pc) := by
  unfold State.issueEnding
  rw [h.1]
  dsimp only
  rw [hh, Bool.and_false, Bool.false_and]
  exact issue_next h hw hl hh act

/-- A pass that is ready is issued with its effect. -/
theorem passIssue_ready {s : State} {n : Fin 32} {j : Job} (h : Issues s n j) {m : PassMode} {d a b : BitVec 5} {t : Tile}
    (ht : t = passTile (s.core n.val) m (s.core n.val).pc d a b)
    (ready : PassReady (s.core n.val) ((s.core n.val).sreg b).toNat t) :
    s.passIssue n m d a b = .next ((s.retire n.val j 8).runPass n j t) := by
  obtain ⟨ecc, -, h64, le, hh, free, refused, held⟩ := ready
  have bad := descAtBad_eq h64 le
  have e := core_retire s n.val j 8 n.val
  have lt : n.val < (s.retire n.val j 8).cores.length := by simpa using issues_lt h
  have ec : ((s.retire n.val j 8).core n.val).osEcc = [] := (congrArg Core.osEcc e :).trans ecc
  have es : ((s.retire n.val j 8).core n.val).sreg b = (s.core n.val).sreg b := (congrArg (fun c => c.sreg b) e :)
  have eh : ((s.retire n.val j 8).core n.val).holdRefused ((s.core n.val).sreg b).toNat 64 = false :=
    (congrArg (fun c => c.holdRefused ((s.core n.val).sreg b).toNat 64) e :).trans hh
  have et : passTile ((s.retire n.val j 8).core n.val) m (s.core n.val).pc d a b = t :=
    (congrArg (fun c => passTile c m (s.core n.val).pc d a b) e :).trans ht.symm
  have er : passRefused ((s.retire n.val j 8).core n.val) t = false :=
    (congrArg (fun c => passRefused c t) e :).trans refused
  have free_of : ∀ x y z w : Bool, y = false → w = false → (!x && (y || (!z && w))) = false := by decide
  unfold State.passIssue
  rw [issueEnding_next h (len := 8) h.2 rfl (free_of _ _ _ _ free (by rw [← ht]; exact held))]
  dsimp only
  rw [es, bad, eh, noteLocal_clean ec (by omega), localLost_clean ec (by omega), et, er]
  simp only [Bool.or_false, Bool.false_eq_true, if_false]
  unfold State.runPass
  split
  · unfold State.modCore
    rw [core_setCore _ _ _ _ lt, if_pos rfl, setCore_setCore]
  · rfl

/-- The pass instructions with their modes. -/
theorem exec_pass {n : Fin 32} {d a b : BitVec 5} {row : Instr × PassMode} (h : row ∈ passForms n d a b) (s : State) :
    exec row.1 s = s.passIssue n row.2 d a b := by
  simp only [passForms, List.mem_cons, List.not_mem_nil, or_false] at h
  rcases h with rfl | rfl | rfl | rfl <;> rfl

theorem passWaitsForPrologue : PassWaitsForPrologue := by
  intro s n j d a b h row hr c t ready some
  have loc : Local (fun c => { c.sweepPass t with opening := .some t }) := by
    refine ⟨fun c => ?_, fun c => pc_sweepPass c t⟩
    exact congrArg (fun c : Core => { c with opening := .some t }) (sweepPass_coreBody c t)
  have i := issued_modCore h 8 loc
  refine ⟨_, (exec_pass hr s).trans (passIssue_ready h rfl ready), ?_⟩
  rw [State.runPass, if_pos some]
  exact ⟨i, (congrArg Core.opening (issued_core h i) :)⟩

/-! ### What a pass feeds -/

theorem localLost_none {c : Core} (h : c.osEcc = []) (hl : c.lwbEcc = []) (a k : Nat) : c.localLost a k = false := by
  unfold Core.localLost
  rw [h, hl]
  split <;> rfl

/-- The failed checks of a pass. -/
def Core.skews (c : Core) (t : Tile) : List Skew :=
  if t.mode.coded then (enabledLanes t.desc).flatMap (fun l =>
    laneSkews c t.mode t.desc l.1 l.2 (c.laneHalf t.desc l.2)) else []

/-- The first of two failed checks, if any. -/
def firstSkew (a : Option Skew) (b : Skew) : Option Skew :=
  match a with
  | none => some b
  | some a => some (if b.before a then b else a)

theorem firstSkew_isSome (l : List Skew) {a : Option Skew} (h : a.isSome = true ∨ l ≠ []) :
    (l.foldl firstSkew a).isSome = true := by
  induction l generalizing a with
  | nil => exact h.resolve_right (fun x => x rfl)
  | cons b t ih =>
    refine ih (.inl ?_)
    cases a <;> rfl

theorem inputsLost_none {c : Core} (h : c.osEcc = []) (hl : c.lwbEcc = []) (t : Tile) : c.inputsLost t = false := by
  unfold Core.inputsLost
  rw [List.any_eq_false]
  intro r _
  rw [localLost_none h hl]
  exact Bool.false_ne_true

/-- A pass whose inputs are clean fails with the first of its failed checks, or its result stands. -/
theorem feed_clean {s : State} {n : Nat} (j : Job) {t : Tile} (h : (s.core n).osEcc = []) (hl : (s.core n).lwbEcc = []) :
    s.feed n j t = match ((s.core n).skews t).foldl firstSkew none with
      | some k => (s.modJob j.ctx (fun j => { j with skew := k.word n })).failJob j.ctx .scaleSkew 9 t.pc
      | none =>
        let u := if t.mode = .bin then s.offerCodes n t else s.modCore n (fun c => { c with acc := c.accAfter t })
        if (dEpilogue t.desc).isSome then u.modCore n (fun c => { c with tiles := c.tiles ++ [t] }) else u := by
  unfold State.feed
  extract_lets c u skews skew v w
  have hc : c = s.core n := rfl
  have hu : u = s := if_pos ⟨h, hl⟩
  have lost : c.inputsLost t = false := by rw [hc]; exact inputsLost_none h hl t
  have first : skew = ((s.core n).skews t).foldl firstSkew none := rfl
  have hv : v = w := by simp only [v, w, hu]; rfl
  clear_value u v w skew
  rw [lost, Bool.false_and, if_neg Bool.false_ne_true, hu, hv, first] <;> rfl

theorem skews_sweepPass (c : Core) (t x : Tile) : (c.sweepPass t).skews x = c.skews x := by
  rw [sweepPass_eq]
  rfl

/-! ### A check that fails -/

/-- A job that has failed takes part in no collective. -/
theorem failed_settleCore {s : State} {ctx n : Nat} {st : Status} {cause pc : Nat} (h : Failed s ctx st cause pc)
    (hc : (s.core n).job = none ∨ (s.core n).job = some ctx) : Failed (s.settleCore n) ctx st cause pc := by
  have h' : Failed (s.modCore n Core.unhold) ctx st cause pc := h
  have job : ((s.modCore n Core.unhold).core n).job = (s.core n).job := by
    by_cases lt : n < s.cores.length
    · rw [core_modCore _ _ _ _ lt, if_pos rfl, unhold_eq]
    · rw [core_past _ _ (by simpa [State.modCore] using lt), core_past _ _ (by omega)]
  unfold State.settleCore
  dsimp only
  rw [job]
  rcases hc with e | e
  · rw [e]
    exact failed_settle h'
  · rw [e]
    obtain ⟨j, hj, ended, rest⟩ := h'
    have idle : (s.modCore n Core.unhold).collective ctx = s.modCore n Core.unhold := by
      unfold State.collective
      rw [hj]
      dsimp only
      rw [if_pos]
      exact .inl (by rw [Job.onCores, ended]; rfl)
    dsimp only
    rw [idle]
    exact failed_settle ⟨j, hj, ended, rest⟩

/-- After the failure of the job of a core, the core has that job or none. -/
theorem job_after_failure {s : State} {ctx n : Nat} {j : Job} (hj : s.job? ctx = some j) (hs : j.state ≠ .ended)
    (hc : (s.core n).job = some ctx) (st : Status) (cause pc : Nat) :
    ((s.failJob ctx st cause pc).core n).job = none ∨ ((s.failJob ctx st cause pc).core n).job = some ctx := by
  have : (s.failJob ctx st cause pc).core n = (j.cores.foldl State.freeCore s).core n := by
    rw [State.core, State.failJob, cores_endJob hj hs, State.core]
  rw [this, job_freeCores_of_mem, hc]
  split
  · exact .inl rfl
  · exact .inr rfl

/-- Settles O8: the first failed check is found, whichever it is, and it fails the job at the pass. -/
theorem skewFailsTheJob : Obligations.SkewFailsTheJob := by
  intro s n j d a b h he row hr c t ready noPrologue some_skew
  have hr4 : row ∈ passForms n d a b := List.mem_of_mem_take hr
  have coded : t.mode.coded = true := by
    simp only [passForms, List.take_succ_cons, List.take_zero, List.mem_cons, List.not_mem_nil, or_false] at hr
    rcases hr with rfl | rfl <;> rfl
  obtain ⟨ctx, hc, hj, -, on, -⟩ := issuing_eq h.1
  obtain rfl := ctx_of_job? hj
  obtain ⟨i, hi, ei⟩ := exists_job_of_body (body_retire s n.val j 8) hj
  have lt : n.val < (s.retire n.val j 8).cores.length := by simpa using issues_lt h
  have e := core_retire s n.val j 8 n.val
  set r := s.retire n.val j 8
  set u := r.modCore n.val (fun c => c.sweepPass t) with hu
  have eu : u.core n.val = (r.core n.val).sweepPass t := by rw [hu, core_modCore _ _ _ _ lt, if_pos rfl]
  have ecc : (u.core n.val).osEcc = [] ∧ (u.core n.val).lwbEcc = [] := by
    rw [eu, sweepPass_eq]
    exact ⟨(congrArg Core.osEcc e :).trans ready.1, (congrArg Core.lwbEcc e :).trans ready.2.1⟩
  have skews : (u.core n.val).skews t ≠ [] := by
    have es : (r.core n.val).skews t = c.skews t := (congrArg (fun c => c.skews t) e :)
    rw [eu, skews_sweepPass, es, Core.skews, if_pos coded]
    obtain ⟨l, hl, ne⟩ := some_skew
    exact fun nil => ne (List.flatMap_eq_nil_iff.mp nil l hl)
  obtain ⟨k, hk⟩ := Option.isSome_iff_exists.mp (firstSkew_isSome _ (a := none) (.inr skews))
  have fed := feed_clean j (t := t) ecc.1 ecc.2
  rw [hk] at fed
  have state : i.state = j.state := (congrArg Job.state ei :)
  have ends : i.endJobs = j.endJobs := (congrArg Job.endJobs ei :)
  have running : i.state ≠ .ended := by
    rw [state]
    intro x
    rw [Job.onCores, x] at on
    cases on
  have hi : u.job? j.ctx = some i := hi
  have found : (u.modJob j.ctx (fun j => { j with skew := k.word n })).job? j.ctx = some { i with skew := k.word n } :=
    (job?_modJob u j.ctx j.ctx _ (fun _ => by rfl)).trans (by
      rw [if_pos rfl, hi]; rfl)
  have failed := failed_failJob found running (ends.trans he) .scaleSkew 9 t.pc
  have job : (u.core n.val).job = some j.ctx := by
    rw [eu, sweepPass_eq]
    exact (congrArg Core.job e :).trans hc
  refine ⟨_, (exec_pass hr4 s).trans (passIssue_ready h rfl ready), ?_⟩
  rw [State.runPass, if_neg (by rw [noPrologue]; exact Bool.false_ne_true)]
  change Failed ((u.feed n.val j t).settleCore n.val) _ _ _ _
  rw [fed]
  exact failed_settleCore failed (job_after_failure found running job _ _ _)

/-! ### The accumulators of an arithmetic pass -/

/-- A read of a store written cell by cell, each cell with its own value. -/
theorem get_foldl_set {w : Nat} (val : Nat → BitVec w) (keys : List Nat) {m : Sparse w} (h : Sparse.wf m = true)
    (i : Nat) : Sparse.get (keys.foldl (fun m k => Sparse.set m k (val k)) m) i =
      if i ∈ keys then val i else Sparse.get m i := by
  induction keys generalizing m with
  | nil => simp
  | cons k t ih =>
    rw [List.foldl_cons, ih (Sparse.wf_set h k _), Sparse.get_set h]
    by_cases hi : i ∈ t
    · simp [hi]
    · by_cases e : i = k <;> simp [hi, e]

/-- The operands of an accumulator of a pass. -/
def Core.stream (c : Core) (t : Tile) (a : Nat) : List (List Fv) :=
  (List.range (dOpCount t.desc)).map (fun j => activations t.mode t.desc (c.osRead (t.operandAt a j) 32))

/-- What an arithmetic pass leaves in accumulator cell `i` of its range. -/
def Core.accValue (c : Core) (t : Tile) (i : Nat) : W32 :=
  accumulate t (laneWeights c t.mode t.desc (i / 16 / 128) (c.laneHalf t.desc (i / 16))) (c.stream t (i % 16 - t.sa))
    (Sparse.get c.acc i)

/-- The accumulator cells of a pass. -/
def accKeys (t : Tile) : List Nat :=
  (enabledLanes t.desc).flatMap (fun l => (List.range (dAccCount t.desc)).map (fun a => 16 * l.2 + t.sa + a))

theorem mem_enabledLanes {d : List Byte} {l : Nat × Nat} :
    l ∈ enabledLanes d ↔ l.1 < 4 ∧ bitOf (dRows d) l.1 = true ∧ ∃ k < 128, l.2 = 128 * l.1 + k := by
  simp only [enabledLanes, List.mem_flatMap, List.mem_filter, List.mem_range, List.mem_map]
  constructor
  · rintro ⟨r, ⟨hr, hb⟩, k, hk, rfl⟩
    exact ⟨hr, hb, k, hk, rfl⟩
  · rintro ⟨hr, hb, k, hk, e⟩
    exact ⟨l.1, ⟨hr, hb⟩, k, hk, by rw [← e]⟩

theorem zipIdx_map_range {α : Type} (f : Nat → α) (k : Nat) :
    ((List.range k).map f).zipIdx = (List.range k).map (fun a => (f a, a)) := by
  apply List.ext_getElem
  · simp
  · intro i h1 h2
    simp

/-- The accumulators after an arithmetic pass, cell by cell. -/
theorem accAfter_eq (c : Core) (t : Tile) (fits : t.sa + dAccCount t.desc ≤ 16) :
    c.accAfter t = (accKeys t).foldl (fun m k => Sparse.set m k (c.accValue t k)) c.acc := by
  unfold Core.accAfter accKeys
  dsimp only
  rw [List.foldl_flatMap]
  refine List.foldl_ext _ _ _ (fun m l hl => ?_)
  obtain ⟨-, -, k, hk, e⟩ := mem_enabledLanes.mp hl
  rw [zipIdx_map_range, List.foldl_map, List.foldl_map]
  refine List.foldl_ext _ _ _ (fun m a ha => ?_)
  have ha : a < dAccCount t.desc := List.mem_range.mp ha
  have lane : (16 * l.2 + t.sa + a) / 16 = l.2 := by omega
  have row : l.2 / 128 = l.1 := by omega
  have number : (16 * l.2 + t.sa + a) % 16 - t.sa = a := by omega
  rw [Core.accValue, lane, row, number]
  rfl

theorem mem_accKeys {t : Tile} (fits : t.sa + dAccCount t.desc ≤ 16) {r l k : Nat} (hr : r < 4) (hl : l < 128)
    (hk : k < 16) : 16 * (128 * r + l) + k ∈ accKeys t ↔
      bitOf (dRows t.desc) r = true ∧ t.sa ≤ k ∧ k < t.sa + dAccCount t.desc := by
  simp only [accKeys, List.mem_flatMap, List.mem_map, List.mem_range]
  constructor
  · rintro ⟨p, hp, a, ha, e⟩
    obtain ⟨-, hb, q, hq, e'⟩ := mem_enabledLanes.mp hp
    have : p.1 = r := by omega
    rw [this] at hb
    exact ⟨hb, by omega, by omega⟩
  · rintro ⟨hb, h1, h2⟩
    exact ⟨(r, 128 * r + l), mem_enabledLanes.mpr ⟨hr, hb, l, hl, rfl⟩, k - t.sa, by omega, by dsimp only; omega⟩

/-! ### Views of a core under a finished instruction -/

theorem core_calm (s : State) (k : Nat) : (calm s).core k = coreBody (s.core k) := by
  change ((s.cores.map coreBody)[k]?).getD {} = coreBody ((s.cores[k]?).getD {})
  rw [List.getElem?_map]
  cases s.cores[k]? <;> rfl

theorem core_of_calm {s t : State} (h : calm t = calm s) (k : Nat) : coreBody (t.core k) = coreBody (s.core k) := by
  rw [← core_calm, ← core_calm, h]

/-- The core of a finished instruction. -/
theorem done_core {s u : State} {n : Fin 32} {j : Job} {len : Nat} {f : Core → Core} (h : Issues s n j)
    (d : Done s n len f u) : coreBody (u.core n.val) = coreBody (f (s.core n.val)) := by
  rw [core_of_calm d.1, core_modCore _ _ _ _ (issues_lt h), if_pos rfl]

/-- The cores beside that of a finished instruction. -/
theorem done_others {s u : State} {n : Fin 32} {j : Job} {len : Nat} {f : Core → Core} (h : Issues s n j)
    (d : Done s n len f u) {m : Nat} (hm : m ≠ n.val) : coreBody (u.core m) = coreBody (s.core m) := by
  rw [core_of_calm d.1, core_modCore _ _ _ _ (issues_lt h), if_neg hm]

theorem noCollective_of_none {c : Core} (h : c.hold = none) : c.NoCollective := by
  rw [Core.NoCollective, unhold_none h, h]
  rfl

/-! ### Passes that run at once -/

/-- The core after an arithmetic pass. -/
def Core.afterPass (c : Core) (t : Tile) : Core :=
  { c.sweepPass t with
    acc := c.accAfter t, tiles := c.tiles ++ (if (dEpilogue t.desc).isSome then [t] else []) }

/-- The core after a binary pass. -/
def Core.afterBin (c : Core) (t : Tile) : Core :=
  { (c.sweepPass t).withLists (c.listsAfter t) with
    tiles := c.tiles ++ (if (dEpilogue t.desc).isSome then [t] else []) }

theorem local_afterPass (t : Tile) : Local (fun c => c.afterPass t) :=
  ⟨fun c => congrArg (fun d : Core => { d with
    acc := c.accAfter t, tiles := c.tiles ++ (if (dEpilogue t.desc).isSome then [t] else []) }) (sweepPass_coreBody c t),
   fun c => pc_sweepPass c t⟩

theorem local_afterBin (t : Tile) : Local (fun c => c.afterBin t) :=
  ⟨fun c => congrArg (fun d : Core => { d.withLists (c.listsAfter t) with
    tiles := c.tiles ++ (if (dEpilogue t.desc).isSome then [t] else []) }) (sweepPass_coreBody c t),
   fun c => pc_sweepPass c t⟩

theorem hold_sweepPass (c : Core) (t : Tile) : (c.sweepPass t).hold = c.hold := by rw [sweepPass_eq]
theorem tiles_sweepPass (c : Core) (t : Tile) : (c.sweepPass t).tiles = c.tiles := by rw [sweepPass_eq]
theorem accAfter_sweepPass (c : Core) (t x : Tile) : (c.sweepPass t).accAfter x = c.accAfter x := by
  rw [sweepPass_eq]
  rfl
theorem listsAfter_sweepPass (c : Core) (t x : Tile) : (c.sweepPass t).listsAfter x = c.listsAfter x := by
  rw [sweepPass_eq]
  rfl

theorem setCore_self (s : State) (n : Nat) : s.setCore n (s.core n) = s := by
  have : s.cores.set n (s.core n) = s.cores := by
    apply List.ext_getElem?
    intro k
    rw [List.getElem?_set, State.core, List.getD_eq_getElem?_getD]
    split
    · rename_i e
      subst e
      split
      · rename_i lt
        rw [List.getElem?_eq_getElem lt]
        rfl
      · rename_i lt
        rw [List.getElem?_eq_none (by omega)]
    · rfl
  rw [State.setCore, this]

theorem modCore_modCore {s : State} {n : Nat} (lt : n < s.cores.length) (f g : Core → Core) :
    (s.modCore n f).modCore n g = s.modCore n (fun c => g (f c)) := by
  rw [State.modCore, core_modCore _ _ _ _ lt, if_pos rfl, State.modCore, setCore_setCore]
  rfl

/-- Adding a tile that waits for its run, if the pass has an epilogue. -/
theorem addTile_eq (u : State) (n : Nat) (t : Tile) :
    (if (dEpilogue t.desc).isSome then u.modCore n (fun c => { c with tiles := c.tiles ++ [t] }) else u) =
      u.modCore n (fun c => { c with tiles := c.tiles ++ (if (dEpilogue t.desc).isSome then [t] else []) }) := by
  split
  · rfl
  · simp only [List.append_nil]
    exact (setCore_self u n).symm

section
variable {s : State} {n : Fin 32} {j : Job} {t : Tile} (h : Issues s n j) (ecc : (s.core n.val).osEcc = [])
  (lecc : (s.core n.val).lwbEcc = []) (clean : (s.core n.val).skews t = [])
include h ecc lecc clean

/-- What a pass without a failed check feeds. -/
theorem feed_runs : ((s.retire n.val j 8).modCore n.val (fun c => c.sweepPass t)).feed n.val j t =
    let r := (s.retire n.val j 8).modCore n.val (fun c => c.sweepPass t)
    (if t.mode = .bin then r.offerCodes n.val t else r.modCore n.val (fun c => { c with acc := c.accAfter t })).modCore
      n.val (fun c => { c with tiles := c.tiles ++ (if (dEpilogue t.desc).isSome then [t] else []) }) := by
  have lt : n.val < (s.retire n.val j 8).cores.length := by simpa using issues_lt h
  have e := core_retire s n.val j 8 n.val
  have er : ((s.retire n.val j 8).modCore n.val (fun c => c.sweepPass t)).core n.val =
      ((s.retire n.val j 8).core n.val).sweepPass t := by rw [core_modCore _ _ _ _ lt, if_pos rfl]
  have skews : (((s.retire n.val j 8).core n.val).sweepPass t).skews t = [] := by
    rw [skews_sweepPass]
    exact (congrArg (fun c => c.skews t) e :).trans clean
  rw [feed_clean j (by rw [er, sweepPass_eq]; exact (congrArg Core.osEcc e :).trans ecc)
    (by rw [er, sweepPass_eq]; exact (congrArg Core.lwbEcc e :).trans lecc), er, skews]
  exact addTile_eq _ _ _

theorem issued_arithmetic (arith : t.mode ≠ .bin) : Issued s n 8 (fun c => c.afterPass t)
    (((s.retire n.val j 8).modCore n.val (fun c => c.sweepPass t)).feed n.val j t) := by
  have lt : n.val < (s.retire n.val j 8).cores.length := by simpa using issues_lt h
  rw [feed_runs h ecc lecc clean]
  dsimp only
  rw [if_neg arith, modCore_modCore lt, modCore_modCore lt]
  simp only [accAfter_sweepPass, tiles_sweepPass]
  exact issued_modCore h 8 (local_afterPass t)

theorem issued_binary (bin : t.mode = .bin) : Issued s n 8 (fun c => c.afterBin t)
    (((s.retire n.val j 8).modCore n.val (fun c => c.sweepPass t)).feed n.val j t) := by
  have lt : n.val < (s.retire n.val j 8).cores.length := by simpa using issues_lt h
  rw [feed_runs h ecc lecc clean]
  dsimp only
  rw [if_pos bin]
  have i := issued_modCore h 8 (local_afterBin t)
  set r := s.retire n.val j 8
  have lp : n.val < (r.modCore n.val (fun c => c.sweepPass t)).cores.length := by simpa [State.modCore] using lt
  obtain ⟨hb, hc⟩ := listed_offerCodes lp t
  set v := (r.modCore n.val (fun c => c.sweepPass t)).offerCodes n.val t
  have lv : n.val < v.cores.length := by rw [length_of_body hb]; simpa [State.modCore] using lt
  have ep : (r.modCore n.val (fun c => c.sweepPass t)).core n.val = (r.core n.val).sweepPass t := by
    rw [core_modCore _ _ _ _ lt, if_pos rfl]
  have whole : v.core n.val = ((r.core n.val).sweepPass t).withLists ((r.core n.val).listsAfter t) := by
    rw [hc, ep, listsAfter_sweepPass]
  have tiled : { v.core n.val with
      tiles := (v.core n.val).tiles ++ (if (dEpilogue t.desc).isSome then [t] else []) } =
      (r.core n.val).afterBin t := by
    rw [whole, Core.afterBin, ← tiles_sweepPass (r.core n.val) t]
    rfl
  have bv : body v = body (r.modCore n.val (fun c => (c.sweepPass t).withLists (c.listsAfter t))) := by
    rw [hb, modCore_modCore lt, ep, listsAfter_sweepPass]
    rfl
  refine ⟨?_, ?_⟩
  · refine Eq.trans ?_ i.1
    rw [body_modCore, body_modCore r, tiled, bv, body_modCore]
    simp
  · rw [core_modCore _ _ _ _ lv, if_pos rfl, tiled]
    refine Eq.trans ?_ i.2
    rw [core_modCore _ _ _ _ lt, if_pos rfl]

end

/-! ### The obligations of the passes -/

section
variable {s : State} {n : Fin 32} {j : Job} (h : Issues s n j) (mem : n.val ∈ j.cores) {d a b : BitVec 5}
  {row : Instr × PassMode} (hr : row ∈ passForms n d a b) {t : Tile}
  (ht : t = passTile (s.core n.val) row.2 (s.core n.val).pc d a b)
  (ready : PassReady (s.core n.val) ((s.core n.val).sreg b).toNat t) (noPrologue : dPrologue t.desc = none)
include h mem hr ht ready noPrologue

/-- A pass without a prologue whose feed has an effect on its core. -/
theorem pass_done {f : Core → Core} (i : Issued s n 8 f
      (((s.retire n.val j 8).modCore n.val (fun c => c.sweepPass t)).feed n.val j t))
    (hjob : (f (s.core n.val)).job = (s.core n.val).job) (hhold : (f (s.core n.val)).hold = (s.core n.val).hold) :
    ∃ u, exec row.1 s = .next u ∧ Done s n 8 f u := by
  obtain ⟨-, -, -, -, -, hold, -⟩ := issuing_eq h.1
  have idle := hhold.trans hold
  have done := done_of_issued h mem i hjob (noCollective_of_none idle)
  refine ⟨_, (exec_pass hr s).trans (passIssue_ready h ht ready), ?_⟩
  rw [State.runPass, if_neg (by rw [noPrologue]; exact Bool.false_ne_true)]
  have same : s.modCore n.val (fun c => (f c).unhold) = s.modCore n.val f := by
    rw [State.modCore, unhold_none idle, State.modCore]
  exact ⟨done.1.trans (by rw [same]), done.2⟩

end

/-- The accumulators of a pass that is not refused (R219). -/
theorem accumulators_fit {c : Core} {t : Tile} (arith : t.mode ≠ .bin) (h : passRefused c t = false) :
    t.sa + dAccCount t.desc ≤ 16 := by
  have placed : passPlaced c t.mode t.sd t.sa t.desc = true := by
    simp only [passRefused, Bool.or_eq_false_iff, Bool.not_eq_false', Bool.and_eq_true] at h
    obtain ⟨⟨⟨⟨⟨-, placed⟩, -⟩, -⟩, -⟩, -⟩ := h
    exact placed
  unfold passPlaced at placed
  split at placed
  · exact absurd ‹_› arith
  · simp only [Bool.and_eq_true, decide_eq_true_eq] at placed
    obtain ⟨⟨⟨⟨⟨-, fits⟩, -⟩, -⟩, -⟩, -⟩ := placed
    exact fits

theorem osRead_clean {c : Core} (h : c.osEcc = []) (a n : Nat) : c.osRead a n = Mem.bytes c.os a n := by
  rw [Core.osRead, h]
  rfl

/-- The value of an accumulator of a lane, from a clean operand store. -/
theorem accValue_eq {c : Core} (clean : c.osEcc = []) (t : Tile) {r l k : Nat} (hl : l < 128) (hk : k < 16) :
    c.accValue t (16 * (128 * r + l) + k) =
      accumulate t (laneWeights c t.mode t.desc r (c.laneHalf t.desc (128 * r + l)))
        ((List.range (dOpCount t.desc)).map (fun i =>
          activations t.mode t.desc (Mem.bytes c.os (t.operandAt (k - t.sa) i) 32)))
        (Sparse.get c.acc (16 * (128 * r + l) + k)) := by
  have lane : (16 * (128 * r + l) + k) / 16 = 128 * r + l := by omega
  have row : (128 * r + l) / 128 = r := by omega
  have number : (16 * (128 * r + l) + k) % 16 = k := by omega
  simp only [Core.accValue, Core.stream, lane, row, number, osRead_clean clean]

/-- What an arithmetic pass leaves of its core. -/
theorem afterPass_keeps (c : Core) (t : Tile) : (c.afterPass t).sregs = c.sregs ∧ (c.afterPass t).os = c.os ∧
    (c.afterPass t).lwb = c.lwb := by
  rw [Core.afterPass, sweepPass_eq]
  exact ⟨rfl, rfl, rfl⟩

/-- What a binary pass leaves of its core. -/
theorem afterBin_keeps (c : Core) (t : Tile) : (c.afterBin t).acc = c.acc ∧ (c.afterBin t).sregs = c.sregs ∧
    (c.afterBin t).os = c.os := by
  rw [Core.afterBin, sweepPass_eq]
  exact ⟨rfl, rfl, rfl⟩

/-- Settles O7: the pass feeds its operands, and what it leaves is read cell by cell. -/
theorem arithmeticPassAccumulates : Obligations.ArithmeticPassAccumulates := by
  intro s n j d a b h mem wf row hr c t ready noPrologue noSkew
  have hr4 : row ∈ passForms n d a b := List.mem_of_mem_take hr
  have arith : t.mode ≠ .bin := by
    simp only [passForms, List.take_succ_cons, List.take_zero, List.mem_cons, List.not_mem_nil, or_false] at hr
    rcases hr with rfl | rfl | rfl <;> exact PassMode.noConfusion
  have clean : c.skews t = [] := by
    rw [Core.skews]
    split
    · rename_i coded
      exact List.flatMap_eq_nil_iff.mpr (fun l hl => noSkew l hl coded)
    · rfl
  have fits := accumulators_fit arith ready.2.2.2.2.2.2.1
  obtain ⟨u, hu, done⟩ := pass_done h mem hr4 rfl ready noPrologue
    (issued_arithmetic h ready.1 ready.2.1 clean arith) (by rw [Core.afterPass, sweepPass_eq]) (hold_sweepPass c t)
  have e := done_core h done
  have acc : (u.core n.val).acc = c.accAfter t := (congrArg Core.acc e :)
  have wfa : Sparse.wf c.acc = true := by simp [coreWf] at wf; tauto
  obtain ⟨sregs, os, lwb⟩ := afterPass_keeps c t
  refine ⟨u, hu, (congrArg Core.tiles e :), (congrArg Core.sregs e :).trans sregs, (congrArg Core.os e :).trans os,
    (congrArg Core.lwb e :).trans lwb, fun r hr l hl k hk => ?_, fun m _ hm => done_others h done hm⟩
  rw [acc, accAfter_eq c t fits, get_foldl_set _ _ wfa, accValue_eq ready.1 t hl hk]
  simp only [mem_accKeys fits hr hl hk]

theorem binaryPassOffers : BinaryPassOffers := by
  intro s n j d a b h mem c t ready noPrologue
  have bin : t.mode = .bin := rfl
  have clean : c.skews t = [] := by rw [Core.skews, bin]; rfl
  have ht : t = passTile c .bin c.pc d a b := rfl
  clear_value t
  have hr : (Instr.passBin n d a b, PassMode.bin) ∈ passForms n d a b := by simp [passForms]
  obtain ⟨u, hu, done⟩ := pass_done h mem hr ht ready noPrologue
    (issued_binary h ready.1 ready.2.1 clean bin) (by rw [Core.afterBin, sweepPass_eq]; rfl) (hold_sweepPass c t)
  have e := done_core h done
  have lists := lists_of_listed (listed_offerCodes (issues_lt h) t)
  obtain ⟨acc, sregs, os⟩ := afterBin_keeps c t
  exact ⟨u, hu, (congrArg Core.topk e :).trans (congrArg Lists.topk lists :).symm,
    (congrArg Core.lwb e :).trans (congrArg Lists.lwb lists :).symm, (congrArg Core.acc e :).trans acc,
    (congrArg Core.sregs e :).trans sregs, (congrArg Core.os e :).trans os, (congrArg Core.tiles e :)⟩

/-- Settles O11, from the issue of a pass and the lists that a binary pass feeds. -/
theorem passesWaitOrOffer : Obligations.PassesWaitOrOffer := ⟨passWaitsForPrologue, binaryPassOffers⟩

end Sys2Proof.Machine
end

section
/-!
SUPPORT. One instruction of a run of the epilogue unit (R209, R220 to R222): the fields of its word, and what its execution
leaves of the state.
-/

namespace Sys2Proof.Machine

open Sys2Proof.Safety

/-! ### The fields of an epilogue word (R180) -/

theorem b2n_le (b : Bool) : b2n b ≤ 1 := by cases b <;> decide

theorem bit_b2n (b : Bool) : (decide (b2n b = 1)) = b := by cases b <;> rfl

/-- The number that a word of format REG is. -/
theorem toNat_epiReg {op : Nat} (h : op < 64) (g : Guard) (d a b : BitVec 5) (mod : BitVec 6) :
    (epiReg op g d a b mod).toNat = 4 * 2 ^ 59 + op * 2 ^ 53 + d.toNat * 2 ^ 48 + a.toNat * 2 ^ 43 + b.toNat * 2 ^ 38 +
      g.g.toNat * 2 ^ 35 + b2n g.gn * 2 ^ 34 + b2n g.ge * 2 ^ 33 + mod.toNat * 2 ^ 27 := by
  have := b2n_le g.gn
  have := b2n_le g.ge
  have := d.isLt; have := a.isLt; have := b.isLt; have := g.g.isLt; have := mod.isLt
  rw [epiReg, BitVec.toNat_ofNat, Nat.mod_eq_of_lt]
  omega

theorem toNat_epiImm {op : Nat} (h : op < 64) (d : BitVec 5) (imm : BitVec 40) :
    (epiImm op d imm).toNat = 4 * 2 ^ 59 + op * 2 ^ 53 + d.toNat * 2 ^ 48 + imm.toNat := by
  have := d.isLt; have := imm.isLt
  rw [epiImm, BitVec.toNat_ofNat, Nat.mod_eq_of_lt]
  omega

section
variable {op : Nat} (h : op < 64) (g : Guard) (d a b : BitVec 5) (mod : BitVec 6) (imm : BitVec 40)
include h

theorem wOp_epiReg : wOp (epiReg op g d a b mod) = op := by
  have := b2n_le g.gn
  have := b2n_le g.ge
  have := d.isLt; have := a.isLt; have := b.isLt; have := g.g.isLt; have := mod.isLt
  rw [wOp, bits, toNat_epiReg h]
  omega

theorem wD_epiReg : wD (epiReg op g d a b mod) = d := by
  have := b2n_le g.gn
  have := b2n_le g.ge
  have := d.isLt; have := a.isLt; have := b.isLt; have := g.g.isLt; have := mod.isLt
  apply BitVec.eq_of_toNat_eq
  rw [wD, bits, toNat_epiReg h, BitVec.toNat_ofNat]
  omega

theorem wA_epiReg : wA (epiReg op g d a b mod) = a := by
  have := b2n_le g.gn
  have := b2n_le g.ge
  have := d.isLt; have := a.isLt; have := b.isLt; have := g.g.isLt; have := mod.isLt
  apply BitVec.eq_of_toNat_eq
  rw [wA, bits, toNat_epiReg h, BitVec.toNat_ofNat]
  omega

theorem wB_epiReg : wB (epiReg op g d a b mod) = b := by
  have := b2n_le g.gn
  have := b2n_le g.ge
  have := d.isLt; have := a.isLt; have := b.isLt; have := g.g.isLt; have := mod.isLt
  apply BitVec.eq_of_toNat_eq
  rw [wB, bits, toNat_epiReg h, BitVec.toNat_ofNat]
  omega

theorem wMod_epiReg : wMod (epiReg op g d a b mod) = mod := by
  have := b2n_le g.gn
  have := b2n_le g.ge
  have := d.isLt; have := a.isLt; have := b.isLt; have := g.g.isLt; have := mod.isLt
  apply BitVec.eq_of_toNat_eq
  rw [wMod, bits, toNat_epiReg h, BitVec.toNat_ofNat]
  omega

theorem wGuard_epiReg : wGuard (epiReg op g d a b mod) = g := by
  have := b2n_le g.gn
  have := b2n_le g.ge
  have := d.isLt; have := a.isLt; have := b.isLt; have := g.g.isLt; have := mod.isLt
  have hg : BitVec.ofNat 3 (bits (epiReg op g d a b mod).toNat 37 35) = g.g := by
    apply BitVec.eq_of_toNat_eq
    rw [bits, toNat_epiReg h, BitVec.toNat_ofNat]
    omega
  have hn : (epiReg op g d a b mod).toNat / 2 ^ 34 % 2 = b2n g.gn := by
    rw [toNat_epiReg h]
    omega
  have he : (epiReg op g d a b mod).toNat / 2 ^ 33 % 2 = b2n g.ge := by
    rw [toNat_epiReg h]
    omega
  rw [wGuard, hg, bitOf, bitOf, hn, he, bit_b2n, bit_b2n]

theorem wOp_epiImm : wOp (epiImm op d imm) = op := by
  have := d.isLt; have := imm.isLt
  rw [wOp, bits, toNat_epiImm h]
  omega

theorem wD_epiImm : wD (epiImm op d imm) = d := by
  have := d.isLt; have := imm.isLt
  apply BitVec.eq_of_toNat_eq
  rw [wD, bits, toNat_epiImm h, BitVec.toNat_ofNat]
  omega

theorem wImm_epiImm : wImm (epiImm op d imm) = imm := by
  have := d.isLt; have := imm.isLt
  apply BitVec.eq_of_toNat_eq
  rw [wImm, toNat_epiImm h, BitVec.toNat_ofNat]
  omega

end

/-! ### What an instruction of a run leaves -/

theorem unitJob_eq {s : State} {n : Nat} {j : Job} (h : s.unitJob n = some j) :
    ∃ ctx, (s.core n).job = some ctx ∧ s.job? ctx = some j ∧ s.awake = true ∧ j.onCores = true := by
  unfold State.unitJob at h
  split at h
  · rename_i i hi
    split at h
    · rename_i ok
      cases h
      obtain ⟨ctx, hc, hj⟩ := Option.bind_eq_some_iff.mp hi
      obtain ⟨awake, on⟩ := Bool.and_eq_true_iff.mp ok
      exact ⟨ctx, hc, hj, awake, on⟩
    · cases h
  · cases h

/-- A core that works for a job exists. -/
theorem unitJob_lt {s : State} {n : Nat} {j : Job} (h : s.unitJob n = some j) : n < s.cores.length := by
  obtain ⟨ctx, hc, -⟩ := unitJob_eq h
  by_contra l
  rw [core_past s n (by omega)] at hc
  cases hc

/-- An effect on a core is what it is at that core. -/
theorem modCore_congr {s : State} {n : Nat} {f g : Core → Core} (h : f (s.core n) = g (s.core n)) :
    s.modCore n f = s.modCore n g := by
  rw [State.modCore, h, State.modCore]

/-- What follows an effect on a core whose sequencer waits for nothing moves no more. -/
theorem calm_settleCore {s u : State} {n : Nat} {j : Job} (h : s.unitJob n = some j) (mem : n ∈ j.cores) {f : Core → Core}
    (hb : body u = body (s.modCore n f)) (hjob : (f (s.core n)).job = (s.core n).job)
    (hold : (f (s.core n)).hold = none) :
    calm (u.settleCore n) = calm (s.modCore n f) ∧ (u.settleCore n).core n = u.core n := by
  obtain ⟨ctx, hc, hj, -⟩ := unitJob_eq h
  have ls := unitJob_lt h
  have lt : n < u.cores.length := by rw [length_of_body hb]; simpa [State.modCore] using ls
  obtain ⟨k, hk, ek⟩ := exists_job_of_body hb (j := j) (k := ctx) hj
  have cores : k.cores = j.cores := (congrArg Job.cores ek :)
  have e : coreBody (u.core n) = coreBody (f (s.core n)) := by
    rw [core_of_body hb, core_modCore _ _ _ _ ls, if_pos rfl]
  have eh : (u.core n).hold = none := (congrArg Core.hold e :).trans hold
  have same := unhold_none eh
  have job : (u.core n).unhold.job = some ctx := by
    rw [same]
    exact ((congrArg Core.job e :).trans hjob).trans hc
  rw [settleCore_idle lt job hk (by rw [cores]; exact mem) (noCollective_of_none eh)]
  have un : u.modCore n Core.unhold = u := by
    rw [State.modCore, same, setCore_self]
  rw [un]
  exact ⟨by rw [calm_settle, calm, calm, hb], core_settle u n⟩

section
variable {s : State} {n : Fin 32} {j : Job} {u : DueRun} {r : Run} {w : W64} (h : InRun s n j u r w)
include h

/-- The row of an instruction of a run executes it. -/
theorem epiRow_ran {s' : State} {r' : Run} (hw : s.runWord n.val j u.place r w = .ran s' r') (hpos : r'.pos = r.pos) :
    s.epiRow n w =
      .next ((s'.modCore n.val (fun c => { c with run := some { r' with pos := r.pos + 1 } })).settleCore n.val) := by
  obtain ⟨job, -, -, -, spill, run, next, word, more⟩ := h
  have pos : (s.core n.val).runPos = r.pos := by rw [Core.runPos, run]; rfl
  have idle : ¬0 < (s.core n.val).spilling := by omega
  have begun : s.beginRun n.val j u = .ran s r := by
    unfold State.beginRun
    dsimp only
    rw [run]
  have one : (u.words.drop r.pos).take 1 = [w] := by
    rw [List.take_one_drop_eq_of_lt_length (by omega)]
    exact congrArg (fun x => [x]) (List.getElem_eq_iff _ |>.mpr word)
  have ran : s.runWords n.val j u.place r [w] = .ran s' { r' with pos := r.pos + 1 } := by
    rw [State.runWords, hw]
    dsimp only
    rw [State.runWords, hpos]
  unfold State.epiRow State.carryRun
  rw [job, next]
  dsimp only
  rw [pos, if_pos word, if_neg idle, begun]
  dsimp only
  rw [if_neg idle, one, ran]
  dsimp only
  rw [if_pos more]

/-- An instruction of a run whose effect is on its own core. -/
theorem run_moves {s' : State} {r' : Run} {f : Core → Core} (hw : s.runWord n.val j u.place r w = .ran s' r')
    (hpos : r'.pos = r.pos) (hb : body s' = body (s.modCore n.val f)) (hpc : (s'.core n.val).pc = (s.core n.val).pc)
    (hjob : (f (s.core n.val)).job = (s.core n.val).job) (hhold : (f (s.core n.val)).hold = (s.core n.val).hold) :
    ∃ t, s.epiRow n w = .next t ∧
      calm t = calm (s.modCore n.val (fun c => { f c with run := some { r' with pos := r.pos + 1 } })) ∧
      (t.core n.val).pc = (s.core n.val).pc ∧
      coreBody (t.core n.val) = coreBody { f (s.core n.val) with run := some { r' with pos := r.pos + 1 } } := by
  obtain ⟨job, mem, hold, -⟩ := id h
  have ls := unitJob_lt job
  have lt : n.val < s'.cores.length := by rw [length_of_body hb]; simpa [State.modCore] using ls
  have e : coreBody (s'.core n.val) = coreBody (f (s.core n.val)) := by
    rw [core_of_body hb, core_modCore _ _ _ _ ls, if_pos rfl]
  have hb' : body (s'.modCore n.val (fun c => { c with run := some { r' with pos := r.pos + 1 } })) =
      body (s.modCore n.val (fun c => { f c with run := some { r' with pos := r.pos + 1 } })) := by
    rw [← modCore_modCore ls f (fun c => { c with run := some { r' with pos := r.pos + 1 } })]
    refine body_modCore_congr hb ?_
    rw [core_modCore _ _ _ _ ls, if_pos rfl]
    exact (congrArg (fun c : Core => { c with run := some { r' with pos := r.pos + 1 } }) e :)
  obtain ⟨hc, hcore⟩ := calm_settleCore job mem hb' hjob (hhold.trans hold)
  refine ⟨_, epiRow_ran h hw hpos, hc, ?_, ?_⟩
  · rw [hcore, core_modCore _ _ _ _ lt, if_pos rfl]
    exact hpc
  · rw [core_of_calm hc, core_modCore _ _ _ _ ls, if_pos rfl]

end

/-! ### The V registers -/

theorem vregs_wf {c : Core} (h : coreWf c = true) : Sparse.wf c.vregs = true := by simp [coreWf] at h; tauto

theorem length_vreg (c : Core) (v : BitVec 5) : (c.vreg v).length = 128 := Sparse.window_length _ _ _

theorem vreg_getElem {c : Core} (h : Sparse.wf c.vregs = true) (v : BitVec 5) {l : Nat} (lt : l < 128)
    (hl : l < (c.vreg v).length) : (c.vreg v)[l] = element c v l := by
  have := Sparse.window_getD h (128 * v.toNat) 128 l lt
  rw [List.getD_eq_getElem _ _ (by rw [Sparse.window_length]; exact lt)] at this
  exact this

/-- A write of a V register writes its active elements alone. -/
theorem element_setV {c : Core} (h : Sparse.wf c.vregs = true) (g : Guard) (d : BitVec 5) {vals : List W32}
    (len : vals.length = 128) (v : BitVec 5) {l : Nat} (lt : l < 128) :
    element (c.setV g d vals) v l =
      if v = d ∧ c.active g l = true then vals.getD l 0 else element c v l := by
  have lv := length_vreg c d
  unfold element Core.setV
  dsimp only
  rw [Sparse.get_splice h]
  simp only [List.length_map, List.length_zipIdx, List.length_zip, lv, len, Nat.min_self]
  by_cases e : v = d
  · subst e
    rw [if_pos (by omega)]
    have hl : 128 * v.toNat + l - 128 * v.toNat = l := by omega
    rw [hl, List.getD_eq_getElem _ _ (by simp [lv, len, lt])]
    simp only [List.getElem_map, List.getElem_zipIdx, List.getElem_zip, Nat.zero_add]
    by_cases act : c.active g l = true
    · simp [act, len, lt]
    · rw [if_neg act, if_neg (fun x => act x.2)]
      exact vreg_getElem h v lt _
  · have : v.toNat ≠ d.toNat := fun x => e (BitVec.eq_of_toNat_eq x)
    rw [if_neg (by omega), if_neg (fun x => e x.1)]

theorem setV_eq (c : Core) (g : Guard) (d : BitVec 5) (vals : List W32) :
    c.setV g d vals = { c with vregs := (c.setV g d vals).vregs } := rfl

section
variable {s : State} {n : Fin 32} {j : Job} {u : DueRun} {r : Run} {w : W64} (h : InRun s n j u r w)
include h

/-- An instruction that writes a V register with its values, from a state that differs in free values only. -/
theorem writes_vector {s' : State} {g : Guard} {d : BitVec 5} {vals : List W32} {f : Nat → W32} (free : s'.cores = s.cores)
    (hb : body s' = body s) (hw : s.runWord n.val j u.place r w = s'.vmap n.val r g d vals) (len : vals.length = 128)
    (hf : ∀ l < 128, (s.core n.val).active g l = true → vals.getD l 0 = f l) :
    ∃ t, s.epiRow n w = .next t ∧ WritesVector s t n r g d f := by
  have wf := vregs_wf h.2.2.2.1
  have same : s'.core n.val = s.core n.val := by rw [State.core, free, State.core]
  have ls := unitJob_lt h.1
  obtain ⟨t, ht, hc, hpc, e⟩ := run_moves h (f := fun c => c.setV g d vals) hw rfl
    (body_modCore_congr hb (by rw [same])) (by
      rw [core_modCore _ _ _ _ (by rw [free]; exact ls), if_pos rfl, same]; rfl) rfl rfl
  have ev : (t.core n.val).vregs = ((s.core n.val).setV g d vals).vregs := (congrArg Core.vregs e :)
  refine ⟨t, ht, ?_, hpc, fun v l lt => ?_⟩
  · exact hc.trans (congrArg calm (modCore_congr (by rw [ev]; rfl)))
  · have : element (t.core n.val) v l = element ((s.core n.val).setV g d vals) v l := by
      rw [element, ev, element]
    rw [this, element_setV wf g d len v lt]
    split
    · rename_i act
      exact hf l lt act.2
    · rfl

end

end Sys2Proof.Machine
end

section
/-!
SUPPORT. The vector instructions that write one V or P register from registers (R158, R222): arithmetic, compares,
conversions, reciprocals and reductions.
-/

namespace Sys2Proof.Machine

open Sys2Proof.Safety

/-! ### What each instruction of a run does -/

section
variable (s : State) (n : Nat) (j : Job) (p : RunPlace) (r : Run) (g : Guard) (d a b : BitVec 5) (mod : BitVec 6)
  (imm : BitVec 40)

theorem runWord_vracc : s.runWord n j p r (epiReg 0 g d 0 0 mod) =
    s.runVracc n p.tile r g d mod.toNat := by
  simp only [State.runWord, wOp_epiReg, wGuard_epiReg, wD_epiReg, wMod_epiReg, Nat.reduceLT]
theorem runWord_vmov : s.runWord n j p r (epiReg 3 g d a 0 mod) =
    s.vmap n r g d (((s.core n).vreg a).map (vmovElement mod.toNat)) := by
  simp only [State.runWord, wOp_epiReg, wGuard_epiReg, wD_epiReg, wA_epiReg, wMod_epiReg, Nat.reduceLT]
theorem runWord_vadd : s.runWord n j p r (epiReg 4 g d a b 0) =
    s.vmap n r g d ((((s.core n).vreg a).zip ((s.core n).vreg b)).map (fun q => add32 q.1 q.2)) := by
  simp only [State.runWord, wOp_epiReg, wGuard_epiReg, wD_epiReg, wA_epiReg, wB_epiReg, Nat.reduceLT]
theorem runWord_vsub : s.runWord n j p r (epiReg 5 g d a b 0) =
    s.vmap n r g d ((((s.core n).vreg a).zip ((s.core n).vreg b)).map (fun q => sub32 q.1 q.2)) := by
  simp only [State.runWord, wOp_epiReg, wGuard_epiReg, wD_epiReg, wA_epiReg, wB_epiReg, Nat.reduceLT]
theorem runWord_vmul : s.runWord n j p r (epiReg 6 g d a b 0) =
    s.vmap n r g d ((((s.core n).vreg a).zip ((s.core n).vreg b)).map (fun q => mul32 q.1 q.2)) := by
  simp only [State.runWord, wOp_epiReg, wGuard_epiReg, wD_epiReg, wA_epiReg, wB_epiReg, Nat.reduceLT]
theorem runWord_vfma : s.runWord n j p r (epiReg 7 g d a b 0) =
    s.vmap n r g d ((((s.core n).vreg d).zip (((s.core n).vreg a).zip ((s.core n).vreg b))).map (fun q => fma32 q.1 q.2.1 q.2.2)) := by
  simp only [State.runWord, wOp_epiReg, wGuard_epiReg, wD_epiReg, wA_epiReg, wB_epiReg, Nat.reduceLT]
theorem runWord_vmax : s.runWord n j p r (epiReg 8 g d a b 0) =
    s.vmap n r g d ((((s.core n).vreg a).zip ((s.core n).vreg b)).map (fun q => max32 q.1 q.2)) := by
  simp only [State.runWord, wOp_epiReg, wGuard_epiReg, wD_epiReg, wA_epiReg, wB_epiReg, Nat.reduceLT]
theorem runWord_vmin : s.runWord n j p r (epiReg 9 g d a b 0) =
    s.vmap n r g d ((((s.core n).vreg a).zip ((s.core n).vreg b)).map (fun q => min32 q.1 q.2)) := by
  simp only [State.runWord, wOp_epiReg, wGuard_epiReg, wD_epiReg, wA_epiReg, wB_epiReg, Nat.reduceLT]
theorem runWord_vexp : s.runWord n j p r (epiReg 10 g d a 0 0) =
    s.vmap n r g d (((s.core n).vreg a).map exp32) := by
  simp only [State.runWord, wOp_epiReg, wGuard_epiReg, wD_epiReg, wA_epiReg, Nat.reduceLT]
theorem runWord_vrcp : s.runWord n j p r (epiReg 11 g d a 0 0) =
    s.vmapFree n r g d (((s.core n).vreg a).map rcp32) := by
  simp only [State.runWord, wOp_epiReg, wGuard_epiReg, wD_epiReg, wA_epiReg, Nat.reduceLT]
theorem runWord_vrsqrt : s.runWord n j p r (epiReg 12 g d a 0 0) =
    s.vmapFree n r g d (((s.core n).vreg a).map rsqrt32) := by
  simp only [State.runWord, wOp_epiReg, wGuard_epiReg, wD_epiReg, wA_epiReg, Nat.reduceLT]
theorem runWord_vredsum : s.runWord n j p r (epiReg 14 g d a 0 0) =
    s.vmap n r g d (List.replicate 128 (toF32 (Fv.sum (((s.core n).activeOf g a).map ofF32)))) := by
  simp only [State.runWord, wOp_epiReg, wGuard_epiReg, wD_epiReg, wA_epiReg, Nat.reduceLT]
theorem runWord_vcvt : s.runWord n j p r (epiReg 15 g d a 0 mod) =
    s.vmap n r g d (((s.core n).vreg a).map (vcvtElement (bits mod.toNat 1 0))) := by
  simp only [State.runWord, wOp_epiReg, wGuard_epiReg, wD_epiReg, wA_epiReg, wMod_epiReg, Nat.reduceLT]
theorem runWord_vpack : s.runWord n j p r (epiReg 16 g d a 0 mod) =
    RunStep.ran (s.modCore n (fun c => c.vpack g d a mod.toNat)) r := by
  simp only [State.runWord, wOp_epiReg, wGuard_epiReg, wD_epiReg, wA_epiReg, wMod_epiReg, Nat.reduceLT]
theorem runWord_vunpk : s.runWord n j p r (epiReg 17 g d a 0 mod) =
    s.vmap n r g d ((s.core n).vunpk a mod.toNat) := by
  simp only [State.runWord, wOp_epiReg, wGuard_epiReg, wD_epiReg, wA_epiReg, wMod_epiReg, Nat.reduceLT]
theorem runWord_vcmplt : s.runWord n j p r (epiReg 18 g d a b mod) =
    s.pset n r g d (fun l => vless mod.toNat (((s.core n).vreg a).getD l 0) (((s.core n).vreg b).getD l 0)) := by
  simp only [State.runWord, wOp_epiReg, wGuard_epiReg, wD_epiReg, wA_epiReg, wB_epiReg, wMod_epiReg, Nat.reduceLT]
theorem runWord_vcmpeq : s.runWord n j p r (epiReg 19 g d a b mod) =
    s.pset n r g d (fun l => vequal mod.toNat (((s.core n).vreg a).getD l 0) (((s.core n).vreg b).getD l 0)) := by
  simp only [State.runWord, wOp_epiReg, wGuard_epiReg, wD_epiReg, wA_epiReg, wB_epiReg, wMod_epiReg, Nat.reduceLT]
theorem runWord_vidx : s.runWord n j p r (epiReg 20 g d 0 0 mod) =
    s.vmap n r g d ((List.range 128).map (fun l => BitVec.ofNat 32 (l + 128 * bits mod.toNat 1 0))) := by
  simp only [State.runWord, wOp_epiReg, wGuard_epiReg, wD_epiReg, wMod_epiReg, Nat.reduceLT]
theorem runWord_vtk : s.runWord n j p r (epiReg 21 g 0 a b mod) =
    s.runVtk n j p.tile r g a b mod.toNat := by
  simp only [State.runWord, wOp_epiReg, wGuard_epiReg, wA_epiReg, wB_epiReg, wMod_epiReg, Nat.reduceLT]
theorem runWord_rstat : s.runWord n j p r (epiReg 22 g 0 a 0 mod) =
    s.runRstat n j p r g a mod.toNat := by
  simp only [State.runWord, wOp_epiReg, wGuard_epiReg, wA_epiReg, wMod_epiReg, Nat.reduceLT]
theorem runWord_rsget : s.runWord n j p r (epiReg 23 g d 0 0 0) =
    s.runRsget n j p r d := by
  simp only [State.runWord, wOp_epiReg, wD_epiReg, Nat.reduceLT]
theorem runWord_venc : s.runWord n j p r (epiReg 24 g d a 0 mod) =
    RunStep.ran (s.modCore n (fun c => c.venc p.slot g d a mod.toNat)) r := by
  simp only [State.runWord, wOp_epiReg, wGuard_epiReg, wD_epiReg, wA_epiReg, wMod_epiReg, Nat.reduceLT]

theorem runWord_vredmax_nil (h : (s.core n).activeOf g a = []) : s.runWord n j p r (epiReg 13 g d a 0 0) =
    s.vmapFree n r g d (List.replicate 128 none) := by
  simp only [State.runWord, wOp_epiReg, wGuard_epiReg, wD_epiReg, wA_epiReg, Nat.reduceLT, h]
theorem runWord_vredmax_cons {x : W32} {t : List W32} (h : (s.core n).activeOf g a = x :: t) :
    s.runWord n j p r (epiReg 13 g d a 0 0) = s.vmap n r g d (List.replicate 128 (t.foldl max32 (max32 x x))) := by
  simp only [State.runWord, wOp_epiReg, wGuard_epiReg, wD_epiReg, wA_epiReg, Nat.reduceLT, h]
theorem runWord_vld : s.runWord n j p r (epiImm 1 d imm) = s.runVld n j p.tile r d imm := by
  simp only [State.runWord, wOp_epiImm, wD_epiImm, wImm_epiImm, Nat.reduceLT]
theorem runWord_vst : s.runWord n j p r (epiImm 2 d imm) = s.runVst n j p.tile r d imm := by
  simp only [State.runWord, wOp_epiImm, wD_epiImm, wImm_epiImm, Nat.reduceLT]
theorem runWord_estore : s.runWord n j p r (epiImm 25 0 imm) = s.runEstore n j p.tile r imm := by
  simp only [State.runWord, wOp_epiImm, wImm_epiImm, Nat.reduceLT]

end

/-! ### Element lists -/

section
variable {c : Core} (wf : Sparse.wf c.vregs = true)
include wf

theorem vreg_getD (v : BitVec 5) {l : Nat} (lt : l < 128) : (c.vreg v).getD l 0 = element c v l :=
  Sparse.window_getD wf (128 * v.toNat) 128 l lt

theorem getD_map_vreg {α : Type} (f : W32 → α) (v : BitVec 5) (x : α) {l : Nat} (lt : l < 128) :
    ((c.vreg v).map f).getD l x = f (element c v l) := by
  have len : l < (c.vreg v).length := by rw [length_vreg]; exact lt
  rw [List.getD_eq_getElem _ _ (by simpa using len), List.getElem_map, vreg_getElem wf v lt]

theorem getD_map_two (f : W32 × W32 → W32) (a b : BitVec 5) {l : Nat} (lt : l < 128) :
    (((c.vreg a).zip (c.vreg b)).map f).getD l 0 = f (element c a l, element c b l) := by
  have la : l < (c.vreg a).length := by rw [length_vreg]; exact lt
  have lb : l < (c.vreg b).length := by rw [length_vreg]; exact lt
  rw [List.getD_eq_getElem _ _ (by simp [la, lb]), List.getElem_map, List.getElem_zip, vreg_getElem wf a lt,
    vreg_getElem wf b lt]

theorem getD_map_three (f : W32 × W32 × W32 → W32) (d a b : BitVec 5) {l : Nat} (lt : l < 128) :
    (((c.vreg d).zip ((c.vreg a).zip (c.vreg b))).map f).getD l 0 = f (element c d l, element c a l, element c b l) := by
  have ld : l < (c.vreg d).length := by rw [length_vreg]; exact lt
  have la : l < (c.vreg a).length := by rw [length_vreg]; exact lt
  have lb : l < (c.vreg b).length := by rw [length_vreg]; exact lt
  rw [List.getD_eq_getElem _ _ (by simp [la, lb, ld]), List.getElem_map, List.getElem_zip, List.getElem_zip,
    vreg_getElem wf d lt, vreg_getElem wf a lt, vreg_getElem wf b lt]

end

theorem getD_map_range {α : Type} (f : Nat → α) (x : α) {l : Nat} (lt : l < 128) :
    ((List.range 128).map f).getD l x = f l := by
  rw [List.getD_eq_getElem _ _ (by simpa using lt)]
  simp

theorem getD_replicate_of_lt {α : Type} (v x : α) {l k : Nat} (lt : l < k) : (List.replicate k v).getD l x = v := by
  rw [List.getD_eq_getElem _ _ (by simpa using lt)]
  simp

/-! ### Arithmetic -/

/-- An element-wise operation of two registers. -/
theorem writes_two {s : State} {n : Fin 32} {j : Job} {u : DueRun} {r : Run} {w : W64} (h : InRun s n j u r w)
    {g : Guard} {d a b : BitVec 5} {f : W32 → W32 → W32}
    (hw : s.runWord n.val j u.place r w = s.vmap n.val r g d
      ((((s.core n.val).vreg a).zip ((s.core n.val).vreg b)).map (fun q => f q.1 q.2))) :
    ∃ t, s.epiRow n w = .next t ∧
      WritesVector s t n r g d (fun l => f (element (s.core n.val) a l) (element (s.core n.val) b l)) :=
  writes_vector h rfl rfl hw (by simp [length_vreg])
    (fun l lt _ => getD_map_two (vregs_wf h.2.2.2.1) (fun q => f q.1 q.2) a b lt)

/-- An element-wise operation of one register. -/
theorem writes_one {s : State} {n : Fin 32} {j : Job} {u : DueRun} {r : Run} {w : W64} (h : InRun s n j u r w)
    {g : Guard} {d a : BitVec 5} {f : W32 → W32}
    (hw : s.runWord n.val j u.place r w = s.vmap n.val r g d (((s.core n.val).vreg a).map f)) :
    ∃ t, s.epiRow n w = .next t ∧ WritesVector s t n r g d (fun l => f (element (s.core n.val) a l)) :=
  writes_vector h rfl rfl hw (by simp [length_vreg]) (fun l lt _ => getD_map_vreg (vregs_wf h.2.2.2.1) f a 0 lt)

theorem vectorArithmetic : VectorArithmetic := by
  intro s n j u r g d a b row hr h
  simp only [arithmeticForms, List.mem_cons, List.not_mem_nil, or_false] at hr
  rcases hr with rfl | rfl | rfl | rfl | rfl | rfl | rfl
  · exact writes_two h (f := add32) (runWord_vadd s n.val j u.place r g d a b)
  · exact writes_two h (f := sub32) (runWord_vsub s n.val j u.place r g d a b)
  · exact writes_two h (f := mul32) (runWord_vmul s n.val j u.place r g d a b)
  · exact writes_vector h rfl rfl (runWord_vfma s n.val j u.place r g d a b) (by simp [length_vreg])
      (fun l lt _ => getD_map_three (vregs_wf h.2.2.2.1) (fun q => fma32 q.1 q.2.1 q.2.2) d a b lt)
  · exact writes_two h (f := max32) (runWord_vmax s n.val j u.place r g d a b)
  · exact writes_two h (f := min32) (runWord_vmin s n.val j u.place r g d a b)
  · exact writes_one h (f := exp32) (runWord_vexp s n.val j u.place r g d a)

/-! ### Compares -/

/-- The number whose bits are given. -/
theorem testBit_foldl_bits (f : Nat → Bool) (k i : Nat) :
    ((List.range k).foldl (fun v l => v + (if f l then 2 ^ l else 0)) 0) < 2 ^ k ∧
      (((List.range k).foldl (fun v l => v + (if f l then 2 ^ l else 0)) 0).testBit i = (decide (i < k) && f i)) := by
  induction k with
  | zero => simp
  | succ k ih =>
    obtain ⟨lt, bit⟩ := ih
    rw [List.range_succ, List.foldl_append, List.foldl_cons, List.foldl_nil]
    set v := (List.range k).foldl (fun v l => v + (if f l then 2 ^ l else 0)) 0
    by_cases hk : f k = true
    · rw [if_pos hk]
      refine ⟨by rw [Nat.pow_succ]; omega, ?_⟩
      have or : v + 2 ^ k = 2 ^ k ||| v := by
        rw [← Nat.mul_one (2 ^ k), ← Nat.two_pow_add_eq_or_of_lt lt]
        omega
      rw [or, Nat.testBit_or, bit, Nat.testBit_two_pow]
      by_cases e : i = k
      · subst e; simp [hk]
      · have : decide (i < k + 1) = decide (i < k) := by simp; omega
        rw [this]
        simp [Ne.symm e]
    · rw [if_neg hk, Nat.add_zero]
      refine ⟨by rw [Nat.pow_succ]; omega, ?_⟩
      rw [bit]
      by_cases e : i = k
      · subst e; simp [hk]
      · have : decide (i < k + 1) = decide (i < k) := by simp; omega
        rw [this]

theorem pregs_wf {c : Core} (h : coreWf c = true) : Sparse.wf c.pregs = true := by simp [coreWf] at h; tauto

/-- The core with a P register written by a compare. -/
def Core.withCompare (c : Core) (g : Guard) (d : BitVec 5) (f : Nat → Bool) : Core :=
  { c with pregs := Sparse.set c.pregs d.toNat (BitVec.ofNat 128 ((List.range 128).foldl (fun v l =>
      v + (if (if c.active g l then f l else (c.preg d.toNat).getLsbD l) then 2 ^ l else 0)) 0)) }

theorem preg_withCompare {c : Core} (h : coreWf c = true) (g : Guard) (d : BitVec 5) (f : Nat → Bool) :
    (∀ p, p ≠ d.toNat → (c.withCompare g d f).preg p = c.preg p) ∧
    ∀ l < 128, ((c.withCompare g d f).preg d.toNat).getLsbD l =
      if c.active g l then f l else (c.preg d.toNat).getLsbD l := by
  refine ⟨fun p hp => ?_, fun l lt => ?_⟩
  · rw [Core.preg, Core.withCompare, Sparse.get_set (pregs_wf h), if_neg hp, Core.preg]
  · rw [Core.preg, Core.withCompare, Sparse.get_set (pregs_wf h), if_pos rfl, BitVec.getLsbD_ofNat,
      (testBit_foldl_bits _ 128 l).2]
    simp [lt]

theorem pset_eq (s : State) (n : Nat) (r : Run) (g : Guard) (d : BitVec 5) (f : Nat → Bool) :
    s.pset n r g d f = .ran (s.modCore n (fun c => c.withCompare g d f)) r := rfl

/-- A compare writes the active bits of its P register. -/
theorem writes_pred {s : State} {n : Fin 32} {j : Job} {u : DueRun} {r : Run} {w : W64} (h : InRun s n j u r w)
    {g : Guard} {d : BitVec 5} {f : Nat → Bool} (hw : s.runWord n.val j u.place r w = s.pset n.val r g d f) :
    ∃ t, s.epiRow n w = .next t ∧
      calm t = calm (s.modCore n.val (fun c => { c with
        pregs := (t.core n.val).pregs, run := some { r with pos := r.pos + 1 } })) ∧
      (∀ p < 8, p ≠ d.toNat → (t.core n.val).preg p = (s.core n.val).preg p) ∧
      ∀ l < 128, ((t.core n.val).preg d.toNat).getLsbD l =
        if (s.core n.val).active g l then f l else ((s.core n.val).preg d.toNat).getLsbD l := by
  have ls := unitJob_lt h.1
  obtain ⟨t, ht, hc, -, e⟩ := run_moves h (f := fun c => c.withCompare g d f) (hw.trans (pset_eq ..)) rfl rfl
    (by rw [core_modCore _ _ _ _ ls, if_pos rfl]; rfl) rfl rfl
  have ep : (t.core n.val).pregs = ((s.core n.val).withCompare g d f).pregs := (congrArg Core.pregs e :)
  have epr : ∀ p, (t.core n.val).preg p = ((s.core n.val).withCompare g d f).preg p := fun p => by
    rw [Core.preg, ep, Core.preg]
  obtain ⟨others, bits⟩ := preg_withCompare h.2.2.2.1 g d f
  refine ⟨t, ht, hc.trans (congrArg calm (modCore_congr ?_)), fun p _ hp => ?_, fun l lt => ?_⟩
  · rw [ep]
    rfl
  · rw [epr, others p hp]
  · rw [epr, bits l lt]

theorem vectorCompares : VectorCompares := by
  intro s n j u r g d a b mod hd hm
  dsimp only
  intro row hr h
  have wf := vregs_wf h.2.2.2.1
  have bit : bitOf mod.toNat 0 = decide (mod = 1) := by
    have : mod = 0 ∨ mod = 1 := by
      rcases Nat.le_one_iff_eq_zero_or_eq_one.mp hm with e | e
      · exact .inl (BitVec.eq_of_toNat_eq e)
      · exact .inr (BitVec.eq_of_toNat_eq e)
    rcases this with rfl | rfl <;> decide
  simp only [List.mem_cons, List.not_mem_nil, or_false] at hr
  rcases hr with rfl | rfl
  · obtain ⟨t, ht, hc, hp, hb⟩ := writes_pred h (runWord_vcmplt s n.val j u.place r g d a b mod)
    refine ⟨t, ht, hc, hp, fun l lt => ?_⟩
    rw [hb l lt, vreg_getD wf a lt, vreg_getD wf b lt, vless, bit]
    simp [BitVec.slt]
  · obtain ⟨t, ht, hc, hp, hb⟩ := writes_pred h (runWord_vcmpeq s n.val j u.place r g d a b mod)
    refine ⟨t, ht, hc, hp, fun l lt => ?_⟩
    rw [hb l lt, vreg_getD wf a lt, vreg_getD wf b lt, vequal, bit]
    simp [beq_eq_decide]

/-- Settles O14, by the rules of the element-wise instructions and of the compares. -/
theorem vectorElements : Obligations.VectorElements := ⟨vectorArithmetic, vectorCompares⟩

/-! ### Moves and conversions -/

/-- The MOD of an instruction that names one of four things. -/
theorem bits_low {m : Nat} (h : m ≤ 3) : bits m 1 0 = m := by
  simp only [bits]
  omega

theorem vectorMoves : VectorMoves := by
  intro s n j u r g d a mod
  dsimp only
  refine ⟨fun _ h => ?_, fun hm h => ?_, fun hm h => ?_, fun hm h => ?_⟩
  · exact writes_one h (f := vmovElement mod.toNat) (runWord_vmov s n.val j u.place r g d a mod)
  · have e := runWord_vcvt s n.val j u.place r g d a mod
    rw [bits_low (by omega)] at e
    exact writes_one h (f := vcvtElement mod.toNat) e
  · have e := runWord_vidx s n.val j u.place r g d mod
    rw [bits_low hm] at e
    exact writes_vector h rfl rfl e (by simp) (fun l lt _ => getD_map_range _ 0 lt)
  · refine writes_vector h rfl rfl (runWord_vunpk s n.val j u.place r g d a mod) (by simp [Core.vunpk])
      (fun l lt _ => ?_)
    have small : mod.toNat < 32 := by
      simp only [partGood, Bool.and_eq_true, decide_eq_true_eq] at hm
      exact hm.1
    have low : bits mod.toNat 1 0 = mod.toNat % 4 := by simp only [bits]; omega
    have high : bits mod.toNat 4 2 = mod.toNat / 4 := by simp only [bits]; omega
    rw [Core.vunpk, getD_map_range _ _ lt]
    simp only [low, high]

/-! ### Reciprocals and reductions -/

/-- One element of a list filled with free values. -/
def fillStep (r : State × List W32) (v : Option W32) : State × List W32 :=
  match v with
  | some x => (r.1, r.2 ++ [x])
  | none => (r.1.fresh.2, r.2 ++ [BitVec.ofNat 32 r.1.fresh.1])

theorem fill_eq (s : State) (vs : List (Option W32)) : s.fill vs = vs.foldl fillStep (s, []) := rfl

/-- A list filled with free values keeps those that are stated; the state moves only in the free values taken. -/
structure Filled (s : State) (vs : List (Option W32)) (acc : List W32) (r : State × List W32) : Prop where
  length : r.2.length = acc.length + vs.length
  before : ∀ l < acc.length, r.2[l]? = acc[l]?
  stated : ∀ (l : Nat) (x : W32), vs[l]? = some (some x) → r.2[acc.length + l]? = some x
  body   : body r.1 = Safety.body s
  cores  : r.1.cores = s.cores

theorem filled_foldl (vs : List (Option W32)) (s : State) (acc : List W32) :
    Filled s vs acc (vs.foldl fillStep (s, acc)) := by
  induction vs generalizing s acc with
  | nil => exact ⟨rfl, fun _ _ => rfl, fun l x h => by simp at h, rfl, rfl⟩
  | cons v t ih =>
    have step : ∃ u x, fillStep (s, acc) v = (u, acc ++ [x]) ∧ (∀ y, v = some y → x = y) ∧
        Safety.body u = Safety.body s ∧ u.cores = s.cores := by
      cases v with
      | some y => exact ⟨s, y, rfl, fun _ e => Option.some.inj e, rfl, rfl⟩
      | none => exact ⟨_, _, rfl, nofun, rfl, rfl⟩
    obtain ⟨u, x, e, hx, hb, hc⟩ := step
    obtain ⟨len, before, stated, body, cores⟩ := ih u (acc ++ [x])
    rw [List.foldl_cons, e]
    simp only [List.length_append, List.length_singleton] at len before stated
    refine ⟨by rw [len, List.length_cons]; omega, fun l hl => ?_, fun l y hl => ?_, body.trans hb, cores.trans hc⟩
    · rw [before l (by omega), List.getElem?_append_left hl]
    · cases l with
      | zero =>
        rw [Nat.add_zero, before _ (by omega), List.getElem?_concat_length]
        exact congrArg some (hx y (by simpa using hl))
      | succ l =>
        rw [← stated l y (by simpa using hl)]
        congr 1
        omega

/-- An instruction that writes a V register with values of which some are free. -/
theorem writes_filled {s : State} {n : Fin 32} {j : Job} {u : DueRun} {r : Run} {w : W64} (h : InRun s n j u r w) {g : Guard}
    {d : BitVec 5} {vs : List (Option W32)} (hw : s.runWord n.val j u.place r w = s.vmapFree n.val r g d vs)
    (len : vs.length = 128) : ∃ t f, s.epiRow n w = .next t ∧ WritesVector s t n r g d f ∧
      ∀ (l : Nat) (x : W32), vs[l]? = some (some x) → f l = x := by
  have fd := filled_foldl vs s []
  rw [← fill_eq] at fd
  obtain ⟨t, ht, hwv⟩ := writes_vector h (f := fun l => (s.fill vs).2.getD l 0) fd.cores fd.body
    (hw.trans (rfl : _ = (s.fill vs).1.vmap n.val r g d (s.fill vs).2)) (by simpa [len] using fd.length) (fun l _ _ => rfl)
  refine ⟨t, _, ht, hwv, fun l x hl => ?_⟩
  have := fd.stated l x hl
  simp only [List.length_nil, Nat.zero_add] at this
  rw [List.getD_eq_getElem?_getD, this]
  rfl

/-- A reciprocal or root, wherever the spec states one. -/
theorem writes_stated {s : State} {n : Fin 32} {j : Job} {u : DueRun} {r : Run} {w : W64} (h : InRun s n j u r w)
    {g : Guard} {d a : BitVec 5} {f : W32 → Option W32}
    (hw : s.runWord n.val j u.place r w = s.vmapFree n.val r g d (((s.core n.val).vreg a).map f)) :
    ∃ t, s.epiRow n w = .next t ∧
      calm t = calm (s.modCore n.val (fun c => { c with
        vregs := (t.core n.val).vregs, run := some { r with pos := r.pos + 1 } })) ∧
      ∀ (v : BitVec 5), ∀ l < 128,
        (v ≠ d ∨ (s.core n.val).active g l = false → element (t.core n.val) v l = element (s.core n.val) v l) ∧
        (v = d → (s.core n.val).active g l = true → ∀ x, f (element (s.core n.val) a l) = some x →
          element (t.core n.val) v l = x) := by
  obtain ⟨t, e, ht, ⟨hc, -, elems⟩, stated⟩ := writes_filled h hw (by simp [length_vreg])
  refine ⟨t, ht, hc, fun v l lt => ⟨fun off => ?_, fun hv act x hx => ?_⟩⟩
  · rw [elems v l lt, if_neg]
    rintro ⟨hv, act⟩
    rcases off with off | off
    · exact off hv
    · rw [off] at act
      cases act
  · rw [elems v l lt, if_pos ⟨hv, act⟩]
    refine stated l x ?_
    have hl : l < ((s.core n.val).vreg a).length := by rw [length_vreg]; exact lt
    rw [List.getElem?_map, List.getElem?_eq_getElem hl, vreg_getElem (vregs_wf h.2.2.2.1) a lt]
    exact congrArg some hx

theorem vectorReciprocals : VectorReciprocals := by
  intro s n j u r g d a row hr h
  simp only [List.mem_cons, List.not_mem_nil, or_false] at hr
  rcases hr with rfl | rfl
  · exact writes_stated h (f := rcp32) (runWord_vrcp s n.val j u.place r g d a)
  · exact writes_stated h (f := rsqrt32) (runWord_vrsqrt s n.val j u.place r g d a)

/-- Where no element is active, none is. -/
theorem inactive_of_activeOf {c : Core} {g : Guard} {a : BitVec 5} (h : c.activeOf g a = []) {l : Nat} (lt : l < 128) :
    c.active g l = false := by
  have hl : l < (c.vreg a).length := by rw [length_vreg]; exact lt
  rw [Core.activeOf, List.map_eq_nil_iff, List.filter_eq_nil_iff] at h
  have := h ((c.vreg a)[l], l) (List.mem_zipIdx_iff_getElem?.mpr (List.getElem?_eq_getElem hl))
  simpa using this

theorem vectorReductions : VectorReductions := by
  intro s n j u r g d a
  dsimp only
  refine ⟨fun h => ?_, fun h => ?_⟩
  · exact writes_vector h rfl rfl (runWord_vredsum s n.val j u.place r g d a) (by simp)
      (fun l lt _ => getD_replicate_of_lt _ 0 lt)
  · cases e : (s.core n.val).activeOf g a with
    | nil =>
      obtain ⟨t, f, ht, ⟨hc, hpc, elems⟩, -⟩ := writes_filled h (runWord_vredmax_nil s n.val j u.place r g d a e) (by simp)
      refine ⟨t, ht, hc, hpc, fun v l lt => ?_⟩
      have off := inactive_of_activeOf e lt
      rw [elems v l lt, if_neg (by rw [off]; exact fun x => Bool.false_ne_true x.2),
        if_neg (by rw [off]; exact fun x => Bool.false_ne_true x.2)]
    | cons x rest =>
      exact writes_vector h rfl rfl (runWord_vredmax_cons s n.val j u.place r g d a e) (by simp)
        (fun l lt _ => getD_replicate_of_lt _ 0 lt)

/-- Settles O16, by the rule of the instructions that write stated values, and the values of the reductions. -/
theorem vectorReciprocalsAndReductions : Obligations.VectorReciprocalsAndReductions :=
  ⟨vectorReciprocals, vectorReductions⟩

end Sys2Proof.Machine
end

section
/-!
SUPPORT. Bytes of lists, fields and registers (R8, R152, R221), and the vector instructions that pack, load and store
(R163, R221 to R223).
-/

namespace Sys2Proof.Machine

open Sys2Proof.Safety

/-! ### Bytes of lists -/

theorem piecesOf_getElem? {α : Type} {n : Nat} (hn : 0 < n) (fuel : Nat) (bs : List α) (h : bs.length ≤ fuel) (i : Nat) :
    (piecesOf n fuel bs)[i]? = if n * i < bs.length then some ((bs.drop (n * i)).take n) else none := by
  induction fuel generalizing bs i with
  | zero =>
    have : bs.length = 0 := by omega
    simp [piecesOf, this]
  | succ fuel ih =>
    cases bs with
    | nil => simp [piecesOf]
    | cons x t =>
      rw [piecesOf]
      cases i with
      | zero => simp
      | succ i =>
        have hl : ((x :: t).drop n).length ≤ fuel := by simp at h ⊢; omega
        rw [List.getElem?_cons_succ, ih _ hl, List.drop_drop, Nat.mul_succ, Nat.add_comm (n * i) n]
        simp only [List.length_drop]
        by_cases e : n + n * i < (x :: t).length
        · rw [if_pos (by omega), if_pos e]
        · rw [if_neg (by omega), if_neg e]

/-- Piece `i` of bytes. -/
theorem pieces_getElem? {α : Type} {n : Nat} (hn : 0 < n) (bs : List α) (i : Nat) :
    (pieces n bs)[i]? = if n * i < bs.length then some ((bs.drop (n * i)).take n) else none :=
  piecesOf_getElem? hn bs.length bs le_rfl i

theorem length_flatten_map {α β : Type} {f : α → List β} {w : Nat} (hw : ∀ a, (f a).length = w) (l : List α) :
    ((l.map f).flatten).length = w * l.length := by
  induction l with
  | nil => simp
  | cons a t ih => rw [List.map_cons, List.flatten_cons, List.length_append, ih, hw, List.length_cons, Nat.mul_succ]; omega

/-- Entry `i` of part `k` of parts of one length. -/
theorem getD_flatten_map {α β : Type} {f : α → List β} {w : Nat} (hw : ∀ a, (f a).length = w) (l : List α) {k i : Nat}
    (hi : i < w) (hk : k < l.length) (x : β) : ((l.map f).flatten).getD (w * k + i) x = (f l[k]).getD i x := by
  induction l generalizing k with
  | nil => simp at hk
  | cons a t ih =>
    rw [List.map_cons, List.flatten_cons]
    cases k with
    | zero => rw [Nat.mul_zero, Nat.zero_add, List.getD_append _ _ _ _ (by rw [hw]; exact hi)]; rfl
    | succ k =>
      rw [List.getD_append_right _ _ _ _ (by rw [hw, Nat.mul_succ]; omega), hw]
      have : w * (k + 1) + i - w = w * k + i := by rw [Nat.mul_succ]; omega
      rw [this, ih (by simpa using hk)]
      rfl

theorem take_drop_eq {bs : List Byte} {a n : Nat} (h : a + n ≤ bs.length) :
    (bs.drop a).take n = (List.range n).map (fun i => bs.getD (a + i) 0) := by
  apply List.ext_getElem
  · simp; omega
  · intro i h1 h2
    simp only [List.getElem_take, List.getElem_drop, List.getElem_map, List.getElem_range]
    rw [List.getD_eq_getElem]

/-- Bytes of a list, zero past its end. -/
theorem bytesAt_eq (bs : List Byte) (a n : Nat) : bytesAt bs a n = (List.range n).map (fun i => bs.getD (a + i) 0) := by
  unfold bytesAt
  apply List.ext_getElem?
  intro i
  simp only [List.length_take, List.length_drop, List.getElem?_map]
  by_cases hi : i < n
  · rw [List.getElem?_range hi, Option.map_some]
    by_cases hl : a + i < bs.length
    · rw [List.getElem?_append_left (by simp; omega), List.getElem?_take, if_pos hi, List.getElem?_drop,
        List.getD_eq_getElem _ _ hl, List.getElem?_eq_getElem hl]
    · rw [List.getElem?_append_right (by simp; omega), List.getElem?_replicate, if_pos (by simp; omega),
        List.getD_eq_default _ _ (by omega)]
  · rw [List.getElem?_eq_none (by simp; omega), List.getElem?_eq_none (by simp; omega)]
    rfl

/-- Bytes of a memory. -/
theorem bytes_eq {m : Mem} (h : Sparse.wf m = true) (a n : Nat) :
    Mem.bytes m a n = (List.range n).map (fun i => Sparse.get m (a + i)) := by
  apply List.ext_getElem
  · simp [Mem.bytes]
  · intro i h1 h2
    have lt : i < n := by simpa [Mem.bytes] using h1
    have := Sparse.window_getD h a n i lt
    rw [List.getD_eq_getElem _ _ (by simpa using lt)] at this
    simpa [Mem.bytes] using this

theorem length_bytes (m : Mem) (a n : Nat) : (Mem.bytes m a n).length = n := Sparse.window_length m a n

theorem getD_bytes {m : Mem} (h : Sparse.wf m = true) (a : Nat) {n i : Nat} (lt : i < n) :
    (Mem.bytes m a n).getD i 0 = Sparse.get m (a + i) := Sparse.window_getD h a n i lt

theorem le_append (a b : List Byte) : le (a ++ b) = le a + 256 ^ a.length * le b := by
  induction a with
  | nil => simp [le]
  | cons x t ih =>
    rw [List.cons_append, le, le, ih, List.length_cons, Nat.pow_succ]
    ring

/-- The value of the little-endian bytes of a number. -/
theorem le_leBytes (n v : Nat) : le (leBytes n v) = v % 256 ^ n := by
  induction n generalizing v with
  | zero => simp [leBytes, le, Nat.mod_one]
  | succ n ih =>
    have pow : (256 : Nat) ^ (n + 1) = 256 * 256 ^ n := Nat.pow_succ'
    rw [leBytes, le, ih, BitVec.toNat_ofNat, pow, Nat.mod_mul (a := 256)]

/-- The little-endian bytes of the value of bytes are those bytes. -/
theorem leBytes_le (bs : List Byte) : leBytes bs.length (le bs) = bs := by
  induction bs with
  | nil => rfl
  | cons b t ih =>
    have hb := b.isLt
    have low : BitVec.ofNat 8 (b.toNat + 256 * le t) = b := by
      apply BitVec.eq_of_toNat_eq
      rw [BitVec.toNat_ofNat]
      omega
    have high : (b.toNat + 256 * le t) / 256 = le t := by omega
    rw [List.length_cons, leBytes, le, low, high, ih]

theorem le_lt (bs : List Byte) : le bs < 256 ^ bs.length := by
  induction bs with
  | nil => simp [le]
  | cons b t ih =>
    have hb := b.isLt
    rw [le, List.length_cons, Nat.pow_succ]
    omega

/-! ### Words and bytes of V registers -/

theorem length_vWords {bs : List Byte} {k : Nat} (h : bs.length = 4 * k) : (vWords bs).length = k := by
  have e : ∀ i, (pieces 4 bs)[i]? = none ↔ k ≤ i := by
    intro i
    rw [pieces_getElem? (by decide)]
    split
    · simp; omega
    · simp; omega
  rw [vWords, List.length_map]
  have h1 := (e k).mpr le_rfl
  rw [List.getElem?_eq_none_iff] at h1
  rcases Nat.lt_or_ge (pieces 4 bs).length k with lt | ge
  · have := (e (pieces 4 bs).length).mp (List.getElem?_eq_none le_rfl)
    omega
  · omega

/-- Word `l` of bytes. -/
theorem getD_vWords {bs : List Byte} {k l : Nat} (h : bs.length = 4 * k) (lt : l < k) :
    (vWords bs).getD l 0 = BitVec.ofNat 32 (le ((List.range 4).map (fun i => bs.getD (4 * l + i) 0))) := by
  have hp := pieces_getElem? (n := 4) (by decide) bs l
  rw [if_pos (by omega), take_drop_eq (by omega)] at hp
  rw [List.getD_eq_getElem?_getD, vWords, List.getElem?_map, hp]
  rfl

theorem length_vBytes (vals : List W32) : (vBytes vals).length = 4 * vals.length :=
  length_flatten_map (fun _ => length_leBytes 4 _) vals

theorem getD_vBytes (vals : List W32) {k i : Nat} (hi : i < 4) (hk : k < vals.length) :
    (vBytes vals).getD (4 * k + i) 0 = BitVec.ofNat 8 ((vals.getD k 0).toNat / 256 ^ i) := by
  rw [vBytes, getD_flatten_map (fun _ => length_leBytes 4 _) vals hi hk, getD_leBytes 4 _ i hi, List.getD_eq_getElem]

/-- The word whose bytes are those of a word. -/
theorem word_of_bytes (x : W32) :
    BitVec.ofNat 32 (le ((List.range 4).map (fun i => BitVec.ofNat 8 (x.toNat / 256 ^ i)))) = x := by
  have : (List.range 4).map (fun i => BitVec.ofNat 8 (x.toNat / 256 ^ i)) = leBytes 4 x.toNat := by
    apply List.ext_getElem
    · simp [length_leBytes]
    · intro i h1 h2
      have := getD_leBytes 4 x.toNat i (by simpa using h1)
      rw [List.getD_eq_getElem _ _ h2] at this
      simpa using this.symm
  rw [this, le_leBytes]
  apply BitVec.eq_of_toNat_eq
  rw [BitVec.toNat_ofNat]
  have := x.isLt
  omega

/-- The bytes of the words of bytes are those bytes. -/
theorem vBytes_vWords {bs : List Byte} {k : Nat} (h : bs.length = 4 * k) : vBytes (vWords bs) = bs := by
  have len := length_vWords h
  apply List.ext_getElem
  · rw [length_vBytes, len, h]
  · intro m h1 h2
    have hm : m = 4 * (m / 4) + m % 4 := by omega
    have hk : m / 4 < (vWords bs).length := by omega
    have e := getD_vBytes (vWords bs) (Nat.mod_lt m (by decide : 0 < 4)) hk
    rw [← hm, List.getD_eq_getElem _ _ h1, getD_vWords h (by omega)] at e
    rw [e]
    set l := (List.range 4).map (fun i => bs.getD (4 * (m / 4) + i) 0) with hl
    have small : le l < 2 ^ 32 := (le_lt l).trans_eq (by simp [hl])
    have back : leBytes 4 (le l) = l := leBytes_le l
    have := getD_leBytes 4 (le l) (m % 4) (by omega)
    rw [BitVec.toNat_ofNat, Nat.mod_eq_of_lt small, ← this, back, hl, List.getD_eq_getElem _ _ (by simp; omega)]
    simp only [List.getElem_map, List.getElem_range]
    rw [← hm, List.getD_eq_getElem _ _ h2]

theorem getD_vBytes_vreg {c : Core} (wf : Sparse.wf c.vregs = true) (v : BitVec 5) {m : Nat} (lt : m < 512) :
    (vBytes (c.vreg v)).getD m 0 = BitVec.ofNat 8 ((element c v (m / 4)).toNat / 256 ^ (m % 4)) := by
  have e := getD_vBytes (c.vreg v) (Nat.mod_lt m (by decide : 0 < 4)) (k := m / 4) (by rw [length_vreg]; omega)
  rw [show 4 * (m / 4) + m % 4 = m by omega] at e
  rw [e, vreg_getD wf v (by omega)]

theorem length_vBytes_vreg (c : Core) (v : BitVec 5) : (vBytes (c.vreg v)).length = 512 := by
  rw [length_vBytes, length_vreg]

theorem active_noGuard (c : Core) (l : Nat) : c.active noGuard l = true := rfl

/-- A V register written whole reads as its values. -/
theorem vreg_setV {c : Core} (wf : Sparse.wf c.vregs = true) (d : BitVec 5) {vals : List W32} (len : vals.length = 128) :
    (c.setV noGuard d vals).vreg d = vals := by
  have wf' : Sparse.wf (c.setV noGuard d vals).vregs = true := Sparse.wf_splice wf _ _
  apply List.ext_getElem
  · rw [length_vreg, len]
  · intro l h1 h2
    have lt : l < 128 := by rw [← len]; exact h2
    rw [vreg_getElem wf' d lt, element_setV wf noGuard d len d lt, if_pos ⟨rfl, active_noGuard c l⟩,
      List.getD_eq_getElem]

/-! ### VPACK -/

/-- The bytes of one element that VPACK puts into Vd, or that it leaves there. -/
def Core.packOne (c : Core) (g : Guard) (d : BitVec 5) (fmt base w : Nat) (p : W32 × Nat) : List Byte :=
  if c.active g p.2 then leBytes w (toFormat fmt (ofF32 p.1)) else bytesAt (vBytes (c.vreg d)) (base + w * p.2) w

/-- The 512 bytes that VPACK of elements of `w` bytes leaves in Vd. -/
def Core.packImage (c : Core) (g : Guard) (d a : BitVec 5) (fmt base w : Nat) : List Byte :=
  Mem.bytes (Mem.write (Sparse.ofList 0 (vBytes (c.vreg d))) base
    ((c.vreg a).zipIdx.map (c.packOne g d fmt base w)).flatten) 0 512

theorem length_packImage (c : Core) (g : Guard) (d a : BitVec 5) (fmt base w : Nat) :
    (c.packImage g d a fmt base w).length = 4 * 128 := length_bytes _ _ _

theorem vpack_eq (c : Core) (g : Guard) (d a : BitVec 5) (mod : Nat) : c.vpack g d a mod =
    c.setV noGuard d (vWords (c.packImage g d a (bits mod 1 0)
      ((if bits mod 1 0 = 0 then 256 else 128) * bits mod 4 2) (if bits mod 1 0 = 0 then 2 else 1))) := rfl

theorem length_bytesAt (bs : List Byte) (a n : Nat) : (bytesAt bs a n).length = n := by
  rw [bytesAt_eq]
  simp

theorem length_packOne (c : Core) (g : Guard) (d : BitVec 5) (fmt base w : Nat) (p : W32 × Nat) :
    (c.packOne g d fmt base w p).length = w := by
  rw [Core.packOne]
  split
  · exact length_leBytes _ _
  · exact length_bytesAt _ _ _

/-- The fields that VPACK writes. -/
theorem packImage_field {c : Core} (wf : Sparse.wf c.vregs = true) (g : Guard) (d a : BitVec 5) (fmt : Nat) {base w : Nat}
    (fits : base + w * 128 ≤ 512) {l : Nat} (lt : l < 128) (act : c.active g l = true) :
    fieldAt (c.packImage g d a fmt base w) (base + w * l) w = toFormat fmt (ofF32 (element c a l)) % 256 ^ w := by
  have lb : l < (c.vreg a).length := by rw [length_vreg]; exact lt
  have wfo : Sparse.wf (Sparse.ofList 0 (vBytes (c.vreg d))) = true := Sparse.wf_ofList _ _
  have whole := length_packOne c g d fmt base w
  have len : (((c.vreg a).zipIdx.map (c.packOne g d fmt base w)).flatten).length = w * 128 := by
    rw [length_flatten_map whole, List.length_zipIdx, length_vreg]
  have byte : ∀ i < w, (c.packImage g d a fmt base w).getD (base + w * l + i) 0 =
      (leBytes w (toFormat fmt (ofF32 (element c a l)))).getD i 0 := by
    intro i hi
    have inside : w * l + i < w * 128 := by
      have := Nat.mul_le_mul_left w (by omega : l + 1 ≤ 128)
      rw [Nat.mul_succ] at this
      omega
    rw [Core.packImage, getD_bytes (Sparse.wf_write wfo _ _) 0 (by omega), Sparse.get_write wfo, Nat.zero_add,
      if_pos (by rw [len]; omega), show base + w * l + i - base = w * l + i by omega,
      getD_flatten_map whole _ hi (by rw [List.length_zipIdx]; exact lb), List.getElem_zipIdx, Core.packOne, Nat.zero_add,
      if_pos act, vreg_getElem wf a lt]
  rw [fieldAt, bytesAt_eq, ← le_leBytes]
  congr 1
  apply List.ext_getElem
  · rw [length_leBytes]
    simp
  · intro i h1 h2
    have hi : i < w := by simpa using h1
    have := byte i hi
    rw [List.getD_eq_getElem _ _ h2] at this
    simpa using this

/-- The part that the MOD of VPACK names lies in a register. -/
theorem part_fits {m : Nat} (good : partGood m = true) : bits m 1 0 = m % 4 ∧ bits m 4 2 = m / 4 ∧
    (if m % 4 = 0 then 256 else 128) * (m / 4) + (if m % 4 = 0 then 2 else 1) * 128 ≤ 512 := by
  simp only [partGood, Bool.and_eq_true, decide_eq_true_eq] at good
  obtain ⟨small, good⟩ := good
  have low : bits m 1 0 = m % 4 := by simp only [bits]; omega
  have high : bits m 4 2 = m / 4 := by simp only [bits]; omega
  rw [low, high] at good
  refine ⟨low, high, ?_⟩
  split at good
  · rename_i e
    rw [e]
    have := of_decide_eq_true good
    simp only [if_true]
    omega
  · rename_i e
    have := of_decide_eq_true good
    rw [e]
    simp only [Nat.one_ne_zero, if_false]
    omega
  · rename_i e
    have := of_decide_eq_true good
    rw [e]
    simp only [OfNat.ofNat_ne_zero, if_false]
    omega
  · cases good

theorem vectorPacks : VectorPacks := by
  intro s n j u r g d a mod h good
  obtain ⟨low, high, fits⟩ := part_fits good
  have wf := vregs_wf h.2.2.2.1
  have ls := unitJob_lt h.1
  obtain ⟨t, ht, hc, -, e⟩ := run_moves h (f := fun c => c.vpack g d a mod.toNat)
    (runWord_vpack s n.val j u.place r g d a mod) rfl rfl (by rw [core_modCore _ _ _ _ ls, if_pos rfl]; rfl) rfl rfl
  have ev : (t.core n.val).vregs = ((s.core n.val).vpack g d a mod.toNat).vregs := (congrArg Core.vregs e :)
  refine ⟨t, ht, hc.trans (congrArg calm (modCore_congr (by rw [ev]; rfl))), fun v hv l lt => ?_, fun l lt act => ?_⟩
  · rw [element, ev, vpack_eq]
    exact (element_setV wf noGuard d (length_vWords (length_packImage ..)) v lt).trans (if_neg (fun x => hv x.1))
  · have same : (t.core n.val).vreg d = ((s.core n.val).vpack g d a mod.toNat).vreg d := by
      rw [Core.vreg, ev, Core.vreg]
    rw [same, vpack_eq, vreg_setV wf d (length_vWords (length_packImage ..)), vBytes_vWords (length_packImage ..), low, high]
    exact packImage_field wf g d a _ fits lt act

/-- Settles O15, from the values of the moves and the bytes that VPACK leaves. -/
theorem vectorConversions : Obligations.VectorConversions := ⟨vectorMoves, vectorPacks⟩

/-! ### VRACC, VLD and VST -/

theorem accumulatorReads : AccumulatorReads := by
  intro s n j u r g d mod h
  dsimp only
  have low : bits mod.toNat 3 0 = mod.toNat % 16 := by simp only [bits]; omega
  have high : bits mod.toNat 5 4 = mod.toNat / 16 := by
    have := mod.isLt
    simp only [bits]
    omega
  have e := runWord_vracc s n.val j u.place r g d mod
  simp only [State.runVracc, low, high] at e
  by_cases past : 16 ≤ u.place.tile.sa + mod.toNat % 16
  · rw [if_pos past] at e
    obtain ⟨t, f, ht, hw, -⟩ := writes_filled h e (by simp)
    exact ⟨t, f, ht, hw, fun x => absurd x (by omega)⟩
  · rw [if_neg past] at e
    obtain ⟨t, ht, hw⟩ := writes_vector h rfl rfl e (by simp) (fun l lt _ => getD_map_range _ 0 lt)
    exact ⟨t, _, ht, hw, fun _ => rfl⟩

/-- The bytes that a VLD or VST moves. -/
theorem vAddr_bytes (t : Tile) (imm : BitVec 40) : ∃ k, (t.vAddr imm).2 = 64 * k ∧ 1 ≤ k ∧ k ≤ 8 := by
  refine ⟨bits imm.toNat 34 32 + 1, rfl, by omega, ?_⟩
  simp only [bits]
  omega

/-- What nothing of R223 refuses lies in the operand store. -/
theorem inside_of_epiBad {c : Core} {a k : Nat} (h : c.epiBad a k = false) : a + k ≤ 0x800000 := by
  simp only [Core.epiBad, Bool.or_eq_false_iff, decide_eq_false_iff_not] at h
  exact Nat.not_lt.mp h.1.2

theorem runWord_vld_clean {s : State} {n : Nat} {j : Job} {p : RunPlace} {r : Run} {d : BitVec 5} {imm : BitVec 40}
    (bad : (s.core n).epiBad (p.tile.vAddr imm).1 (p.tile.vAddr imm).2 = false) (idle : (s.core n).xfers = [])
    (clean : (s.core n).osEcc = []) : s.runWord n j p r (epiImm 1 d imm) = s.vmap n r noGuard d (vWords
      (Mem.bytes (s.core n).os (p.tile.vAddr imm).1 (p.tile.vAddr imm).2 ++
        (vBytes ((s.core n).vreg d)).drop (p.tile.vAddr imm).2)) := by
  have inside := inside_of_epiBad bad
  obtain ⟨k, hk, -, -⟩ := vAddr_bytes p.tile imm
  rw [runWord_vld]
  unfold State.runVld
  dsimp only
  rw [bad, idle, noteLocal_clean clean (by omega), localLost_clean clean (by omega), osRead_clean clean]
  rfl

theorem runWord_vst_clean {s : State} {n : Nat} {j : Job} {p : RunPlace} {r : Run} {d : BitVec 5} {imm : BitVec 40}
    (bad : (s.core n).epiBad (p.tile.vAddr imm).1 (p.tile.vAddr imm).2 = false) (idle : (s.core n).xfers = [])
    (clean : (s.core n).osEcc = []) (flip : (s.flip (osFlip n)).armed = false) :
    s.runWord n j p r (epiImm 2 d imm) = .ran (s.modCore n (fun c => { c with
      os := Mem.write c.os (p.tile.vAddr imm).1 ((vBytes ((s.core n).vreg d)).take (p.tile.vAddr imm).2) })) r := by
  obtain ⟨k, hk, h1, -⟩ := vAddr_bytes p.tile imm
  have some_bytes : (vBytes ((s.core n).vreg d)).take (p.tile.vAddr imm).2 ≠ [] := by
    intro nil
    have := congrArg List.length nil
    rw [List.length_take, length_vBytes_vreg, hk] at this
    simp at this
    omega
  rw [runWord_vst]
  unfold State.runVst
  dsimp only
  rw [bad, idle, osWrite_clean clean flip _ some_bytes]
  rfl

/-- The elements that a VLD leaves. -/
theorem loaded_element {c : Core} (wf : coreWf c = true) (d : BitVec 5) (a : Nat) {k : Nat} (hk : k ≤ 8) {l : Nat}
    (lt : l < 128) : (vWords (Mem.bytes c.os a (64 * k) ++ (vBytes (c.vreg d)).drop (64 * k))).getD l 0 =
      if 4 * l < 64 * k then BitVec.ofNat 32 (Mem.field c.os (a + 4 * l) 4) else element c d l := by
  have wo : Sparse.wf c.os = true := by simp [coreWf] at wf; tauto
  have len : (Mem.bytes c.os a (64 * k) ++ (vBytes (c.vreg d)).drop (64 * k)).length = 4 * 128 := by
    rw [List.length_append, length_bytes, List.length_drop, length_vBytes_vreg]
    omega
  rw [getD_vWords len lt]
  split
  · rename_i low
    rw [Mem.field, bytes_eq wo (a + 4 * l) 4]
    congr 2
    apply List.map_congr_left
    intro i hi
    have hi : i < 4 := List.mem_range.mp hi
    rw [List.getD_append _ _ _ _ (by rw [length_bytes]; omega), getD_bytes wo a (by omega), Nat.add_assoc]
  · rename_i high
    refine Eq.trans ?_ (word_of_bytes (element c d l))
    congr 2
    apply List.map_congr_left
    intro i hi
    have hi : i < 4 := List.mem_range.mp hi
    rw [List.getD_append_right _ _ _ _ (by rw [length_bytes]; omega), length_bytes, List.getD_eq_getElem?_getD,
      List.getElem?_drop, ← List.getD_eq_getElem?_getD, show 64 * k + (4 * l + i - 64 * k) = 4 * l + i by omega,
      getD_vBytes_vreg (vregs_wf wf) d (by omega), show (4 * l + i) / 4 = l by omega,
      show (4 * l + i) % 4 = i by omega]

theorem vectorMemory : VectorMemory := by
  intro s n j u r d imm
  dsimp only
  intro _ bad idle clean
  obtain ⟨k, hk, h1, h8⟩ := vAddr_bytes u.place.tile imm
  refine ⟨fun h => ?_, fun h flip => ?_⟩
  · have e := runWord_vld_clean (j := j) (r := r) (d := d) bad idle clean
    have len : (vWords (Mem.bytes (s.core n.val).os (u.place.tile.vAddr imm).1 (u.place.tile.vAddr imm).2 ++
        (vBytes ((s.core n.val).vreg d)).drop (u.place.tile.vAddr imm).2)).length = 128 := by
      refine length_vWords ?_
      rw [List.length_append, length_bytes, List.length_drop, length_vBytes_vreg]
      omega
    obtain ⟨t, ht, hc, -, elems⟩ := writes_vector h rfl rfl e len (fun l lt _ => rfl)
    refine ⟨t, ht, hc, fun v l lt => ?_⟩
    have value := elems v l lt
    dsimp only at value
    rw [value, hk, loaded_element h.2.2.2.1 d _ h8 lt]
    by_cases hv : v = d
    · subst hv
      simp [active_noGuard]
    · simp [hv]
  · have e := runWord_vst_clean (j := j) (r := r) (d := d) bad idle clean flip
    have ls := unitJob_lt h.1
    obtain ⟨t, ht, hc, -, ec⟩ := run_moves h (f := fun c => { c with
      os := Mem.write c.os (u.place.tile.vAddr imm).1
        ((vBytes ((s.core n.val).vreg d)).take (u.place.tile.vAddr imm).2) }) e rfl rfl (by
        rw [core_modCore _ _ _ _ ls, if_pos rfl]) rfl rfl
    have eo : (t.core n.val).os = Mem.write (s.core n.val).os (u.place.tile.vAddr imm).1
        ((vBytes ((s.core n.val).vreg d)).take (u.place.tile.vAddr imm).2) := (congrArg Core.os ec :)
    have wo : Sparse.wf (s.core n.val).os = true := by
      have := h.2.2.2.1
      simp [coreWf] at this
      tauto
    refine ⟨t, ht, hc.trans (congrArg calm (modCore_congr (by rw [eo]))), fun i => ?_⟩
    have len : ((vBytes ((s.core n.val).vreg d)).take (u.place.tile.vAddr imm).2).length = (u.place.tile.vAddr imm).2 := by
      rw [List.length_take, length_vBytes_vreg]
      omega
    rw [eo, Sparse.get_write wo, len]
    split
    · rename_i hi
      rw [List.getD_eq_getElem?_getD, List.getElem?_take, if_pos (by omega), ← List.getD_eq_getElem?_getD,
        getD_vBytes_vreg (vregs_wf h.2.2.2.1) d (by omega)]
    · rfl

/-- Settles O17, by the rules of VRACC, VLD and VST. -/
theorem vectorAccess : Obligations.VectorAccess := ⟨accumulatorReads, vectorMemory⟩

end Sys2Proof.Machine
end

section
/-!
SUPPORT. The lists of the top-k unit under offers (R173, R174), VTK, and the row statistics (R267 to R269).
-/

namespace Sys2Proof.Machine

open Sys2Proof.Safety

/-! ### Offers to a list -/

/-- Lists without marks, in form. -/
structure Lists.Clean (x : Lists) : Prop where
  ecc    : x.ecc = []
  lwb    : Sparse.wf x.lwb = true
  counts : Sparse.wf x.topk.counts = true
  bounds : listsWf x.topk = true

/-- Lists `y` are `x` but for the lists of lanes with `P`. -/
structure Lists.Moved (P : Nat → Prop) (x y : Lists) : Prop where
  clean  : y.Clean
  topk   : y.topk = { x.topk with counts := y.topk.counts }
  bytes  : ∀ i, ¬ P (i / 8192) ∨ i % 8192 < 6144 → Sparse.get y.lwb i = Sparse.get x.lwb i
  counts : ∀ lane, ¬ P lane → y.topk.count lane = x.topk.count lane

theorem Lists.Moved.refl {P : Nat → Prop} {x : Lists} (h : x.Clean) : Lists.Moved P x x :=
  ⟨h, rfl, fun _ _ => rfl, fun _ _ => rfl⟩

theorem Lists.Moved.trans {P : Nat → Prop} {x y z : Lists} (h : Lists.Moved P x y) (k : Lists.Moved P y z) :
    Lists.Moved P x z where
  clean := k.clean
  topk := by rw [k.topk, h.topk]
  bytes i hi := (k.bytes i hi).trans (h.bytes i hi)
  counts i hi := (k.counts i hi).trans (h.counts i hi)

theorem Lists.Moved.mono {P Q : Nat → Prop} {x y : Lists} (sub : ∀ i, P i → Q i) (h : Lists.Moved P x y) :
    Lists.Moved Q x y where
  clean := h.clean
  topk := h.topk
  bytes i hi := h.bytes i (hi.imp (fun q p => q (sub _ p)) id)
  counts i hi := h.counts i (fun p => hi (sub _ p))

theorem list_clean {x : Lists} (h : x.Clean) (lane : Nat) :
    x.list lane = (List.range (x.topk.count lane)).map (fun i =>
      BitVec.ofNat 64 (le ((List.range 8).map (fun m => Sparse.get x.lwb (listAt lane + 8 * i + m))))) := by
  unfold Lists.list
  rw [h.ecc]
  simp only [bytes_eq h.lwb, delivered, List.foldl_nil]

theorem count_bound {x : Lists} (h : x.Clean) (lane : Nat) : x.topk.count lane ≤ 256 :=
  (count_le h.bounds).trans (listsWf_iff.mp h.bounds).1

/-- A list whose lane has not moved. -/
theorem list_moved {P : Nat → Prop} {x y : Lists} (hx : x.Clean) (h : Lists.Moved P x y) {lane : Nat} (hl : ¬ P lane) :
    y.list lane = x.list lane := by
  rw [list_clean h.clean, list_clean hx, h.counts lane hl]
  have cb := count_bound hx lane
  refine List.map_congr_left fun i hi => ?_
  have hi := List.mem_range.mp hi
  congr 2
  refine List.map_congr_left fun m hm => h.bytes _ (.inl ?_)
  have hm := List.mem_range.mp hm
  have : (listAt lane + 8 * i + m) / 8192 = lane := by unfold listAt; omega
  rwa [this]

theorem length_list (x : Lists) (lane : Nat) : (x.list lane).length = x.topk.count lane := by simp [Lists.list]

theorem length_entryBytes (l : List (BitVec 64)) : ((l.map (fun e => leBytes 8 e.toNat)).flatten).length = 8 * l.length :=
  length_flatten_map (fun _ => length_leBytes 8 _) l

/-- Replacing the list of a lane moves that lane's list alone. -/
theorem moved_put {x : Lists} (h : x.Clean) (lane : Nat) {l : List (BitVec 64)} (len : l.length ≤ x.topk.kLane) :
    Lists.Moved (fun i => i = lane) x (x.put lane l) := by
  have small := len.trans (listsWf_iff.mp h.bounds).1
  have hw : (BitVec.ofNat 16 l.length).toNat = l.length := by
    rw [BitVec.toNat_ofNat]
    omega
  refine ⟨⟨?_, ?_, Sparse.wf_set h.counts _ _, ?_⟩, rfl, fun i hi => ?_, fun i hi => ?_⟩
  · simp only [Lists.put, h.ecc, codedWrite_clean]
  · simp only [Lists.put, h.ecc, codedWrite_clean]
    exact Sparse.wf_write h.lwb _ _
  · refine listsWf_iff.mpr ⟨(listsWf_iff.mp h.bounds).1, fun p hp => ?_⟩
    rcases mem_set hp with old | rfl
    · exact (listsWf_iff.mp h.bounds).2 p old
    · exact (Nat.le_of_eq hw).trans len
  · simp only [Lists.put, h.ecc, codedWrite_clean]
    rw [Sparse.get_write h.lwb, length_entryBytes, if_neg]
    unfold listAt
    omega
  · simp only [Lists.put, TopK.count]
    rw [Sparse.get_set h.counts, if_neg hi]

/-- The list of a lane that is replaced is the new list. -/
theorem list_put {x : Lists} (h : x.Clean) (lane : Nat) {l : List (BitVec 64)} (len : l.length ≤ x.topk.kLane) :
    (x.put lane l).list lane = l := by
  have small := len.trans (listsWf_iff.mp h.bounds).1
  have cnt : (x.put lane l).topk.count lane = l.length := by
    simp only [Lists.put, TopK.count]
    rw [Sparse.get_set h.counts, if_pos rfl, BitVec.toNat_ofNat]
    omega
  have mem : (x.put lane l).lwb = Mem.write x.lwb (listAt lane) ((l.map (fun e => leBytes 8 e.toNat)).flatten) := by
    simp only [Lists.put, h.ecc, codedWrite_clean]
  rw [list_clean (moved_put h lane len).clean, cnt, mem]
  refine List.ext_getElem (by simp) fun i hi hl => ?_
  simp only [List.getElem_map, List.getElem_range]
  have bytes : (List.range 8).map (fun m => Sparse.get
      (Mem.write x.lwb (listAt lane) ((l.map (fun e => leBytes 8 e.toNat)).flatten)) (listAt lane + 8 * i + m)) =
      leBytes 8 l[i].toNat := by
    refine List.ext_getElem (by simp [length_leBytes]) fun m hm hb => ?_
    have hm : m < 8 := by simpa using hm
    simp only [List.getElem_map, List.getElem_range]
    rw [Sparse.get_write h.lwb, length_entryBytes, if_pos (by omega)]
    have : listAt lane + 8 * i + m - listAt lane = 8 * i + m := by omega
    rw [this, getD_flatten_map (fun _ => length_leBytes 8 _) l hm hl, List.getD_eq_getElem _ _ hb]
  rw [bytes, le_leBytes]
  apply BitVec.eq_of_toNat_eq
  rw [BitVec.toNat_ofNat]
  omega

/-- A list after an entry may have been offered to it (R174). -/
def afterOffer (score : Bool) (k : Nat) (o : Option W64) (l : List (BitVec 64)) : List (BitVec 64) :=
  match o with
  | some e => (tkOffer score k e l).1
  | none => l

/-- An entry that may be offered to a lane. -/
def Lists.offerSome (x : Lists) (lane : Nat) (o : Option W64) : Lists :=
  match o with
  | some e => x.offer lane e
  | none => x

theorem moved_offerSome {x : Lists} (h : x.Clean) (lane : Nat) (o : Option W64) :
    Lists.Moved (fun i => i = lane) x (x.offerSome lane o) := by
  cases o with
  | none => exact .refl h
  | some e =>
    unfold Lists.offerSome Lists.offer
    dsimp only
    split
    · refine moved_put h lane (length_tkOffer ?_)
      rw [length_list]
      exact count_le h.bounds
    · exact .refl h

theorem tkOffer_same {score : Bool} {k : Nat} {e : W64} {l : List W64} (h : ¬ (tkOffer score k e l).2 = true) :
    (tkOffer score k e l).1 = l := by
  unfold tkOffer at *
  grind

theorem list_offerSome {x : Lists} (h : x.Clean) (lane : Nat) (o : Option W64) :
    (x.offerSome lane o).list lane = afterOffer x.topk.score x.topk.kLane o (x.list lane) := by
  cases o with
  | none => rfl
  | some e =>
    unfold Lists.offerSome Lists.offer afterOffer
    dsimp only
    split
    · refine list_put h lane (length_tkOffer ?_)
      rw [length_list]
      exact count_le h.bounds
    · rename_i no
      exact (tkOffer_same no).symm

/-- Entries offered to lanes one after another, each to its own. -/
theorem offers_each {α : Type} (base : Nat) (o : α → Nat → Option W64) (l : List α) (k : Nat) {x : Lists} (h : x.Clean) :
    let y := (l.zipIdx k).foldl (fun x p => x.offerSome (base + p.2) (o p.1 p.2)) x
    Lists.Moved (fun i => base + k ≤ i ∧ i < base + k + l.length) x y ∧
      ∀ i (hi : i < l.length), y.list (base + (k + i)) =
        afterOffer x.topk.score x.topk.kLane (o l[i] (k + i)) (x.list (base + (k + i))) := by
  induction l generalizing k x with
  | nil => exact ⟨.refl h, fun i hi => absurd hi (by simp)⟩
  | cons a t ih =>
    have first := moved_offerSome h (base + k) (o a k)
    obtain ⟨rest, each⟩ := ih (k + 1) first.clean
    simp only [List.zipIdx_cons, List.foldl_cons, List.length_cons]
    refine ⟨(first.mono fun i hi => by omega).trans (rest.mono fun i hi => by omega), fun i hi => ?_⟩
    cases i with
    | zero =>
      rw [Nat.add_zero, list_moved first.clean rest (by omega)]
      exact list_offerSome h (base + k) (o a k)
    | succ i =>
      have e := each i (by omega)
      rw [show k + 1 + i = k + (i + 1) by omega, list_moved h first (by omega), first.topk] at e
      exact e

/-! ### VTK (R222) -/

/-- What VTK offers of one element with its tag. -/
def Core.candidate (c : Core) (g : Guard) (p : W32 × W32) (l : Nat) : Option W64 :=
  if c.active g l then (scoreKey (toBf16 (ofF32 p.1))).map (fun k => tkEntry k p.2.toNat) else none

theorem afterOffer_candidate (c : Core) (g : Guard) (p : W32 × W32) (l k : Nat) (ls : List (BitVec 64)) :
    afterOffer true k (c.candidate g p l) ls =
      if c.active g l then
        match scoreKey (toBf16 (ofF32 p.1)) with
        | some q => (tkOffer true k (tkEntry q p.2.toNat) ls).1
        | none => ls
      else ls := by
  unfold Core.candidate
  split
  · cases scoreKey (toBf16 (ofF32 p.1)) <;> rfl
  · rfl

/-- The lists after VTK. -/
def Core.listsAfterVtk (c : Core) (g : Guard) (a b : BitVec 5) (m : Nat) : Lists :=
  (((c.vreg a).zip (c.vreg b)).zipIdx).foldl (fun x p => x.offerSome (128 * m + p.2) (c.candidate g p.1 p.2)) c.lists

theorem listed_vtk {s : State} {n : Nat} (lt : n < s.cores.length) (g : Guard) (a b : BitVec 5) (m : Nat) :
    Listed s n ((s.core n).listsAfterVtk g a b m)
      ((((s.core n).vreg a).zip ((s.core n).vreg b)).zipIdx.foldl (fun u p =>
        if (s.core n).active g p.2 then
          match scoreKey (toBf16 (ofF32 p.1.1)) with
          | some k => u.offer n (128 * m + p.2) (tkEntry k p.1.2.toNat)
          | none => u
        else u) s) := by
  refine listed_foldl _ _ (fun u x p h => ?_) _ (listed_self s n)
  unfold Core.candidate
  split
  · cases scoreKey (toBf16 (ofF32 p.1.1)) with
    | none => exact h
    | some k => exact listed_offer lt h _ _
  · exact h

theorem vtk_ran {s : State} {n : Nat} {j : Job} {t : Tile} {r : Run} {g : Guard} {a b : BitVec 5} {m : Nat}
    (hm : m ≤ 3) (on : (s.core n).topk.on = true) (score : (s.core n).topk.score = true) (ecc : (s.core n).lwbEcc = []) :
    s.runVtk n j t r g a b m = .ran
      ((((s.core n).vreg a).zip ((s.core n).vreg b)).zipIdx.foldl (fun u p =>
        if (s.core n).active g p.2 then
          match scoreKey (toBf16 (ofF32 p.1.1)) with
          | some k => u.offer n (128 * m + p.2) (tkEntry k p.1.2.toNat)
          | none => u
        else u) s) r := by
  have whole : (List.range 128).any (fun l => (s.core n).listLost (128 * m + l)) = false := by
    rw [List.any_eq_false]
    intro l _
    simp [Core.listLost, ecc, lostIn, marksIn]
  unfold State.runVtk
  simp only [on, score, bits_low hm, whole]
  rfl

theorem exec_vtk (s : State) (n : Fin 32) (g : Guard) (a b : BitVec 5) (mod : BitVec 6) :
    exec (.vtk n g a b mod) s = s.epiRow n (epiReg 21 g 0 a b mod) := rfl

/-- Settles O12: the offers of VTK go to different lanes. -/
theorem vectorTopK : Obligations.VectorTopK := by
  intro s n j u r g a b mod c h hm on score bounds counts ecc
  have ls := unitJob_lt h.1
  have cw := h.2.2.2.1
  have cleanLists : c.lists.Clean := ⟨ecc, by simp [coreWf] at cw; tauto, counts, bounds⟩
  have va := length_vreg c a
  have vb := length_vreg c b
  have len : ((c.vreg a).zip (c.vreg b)).length = 128 := by rw [List.length_zip, va, vb]; rfl
  obtain ⟨moved, each⟩ := offers_each (128 * mod.toNat) (c.candidate g) ((c.vreg a).zip (c.vreg b)) 0 cleanLists
  rw [len] at moved
  obtain ⟨hb, hcore⟩ := listed_vtk ls g a b mod.toNat
  obtain ⟨t, ht, hc, -, ec⟩ := run_moves h (f := fun x => x.withLists (c.listsAfterVtk g a b mod.toNat))
    ((runWord_vtk ..).trans (vtk_ran hm on score ecc)) rfl hb (by rw [hcore]; rfl) rfl rfl
  have lists : (t.core n.val).lists = c.listsAfterVtk g a b mod.toNat := (congrArg Core.lists ec :)
  have lanes : ∀ {i : Nat}, i / 128 ≠ mod.toNat → ¬ (128 * mod.toNat + 0 ≤ i ∧ i < 128 * mod.toNat + 0 + 128) := by
    intro i hi
    omega
  refine ⟨t, ht, hc.trans (congrArg calm (modCore_congr ?_)), fun i hi => ?_, fun lane hl => ?_, fun l hl => ?_⟩
  · have el : (t.core n.val).lwb = (c.listsAfterVtk g a b mod.toNat).lwb := congrArg Lists.lwb lists
    have ek : (t.core n.val).topk = (c.listsAfterVtk g a b mod.toNat).topk := congrArg Lists.topk lists
    have e : (c.listsAfterVtk g a b mod.toNat).ecc = [] := moved.clean.ecc
    have ek' : (c.listsAfterVtk g a b mod.toNat).topk =
      { c.topk with counts := (c.listsAfterVtk g a b mod.toNat).topk.counts } := moved.topk
    rw [el, ek, Core.withLists, e, ek']
    simp [c, ecc]
  · have := moved.bytes i (hi.imp lanes id)
    exact (congrArg (fun x : Lists => Sparse.get x.lwb i) lists).trans this
  · exact (congrArg (fun x : Lists => x.topk.count lane) lists).trans (moved.counts lane (lanes hl))
  · have one := each l (by rw [len]; exact hl)
    rw [Nat.zero_add] at one
    have sc : c.lists.topk.score = true := score
    rw [sc, afterOffer_candidate, List.getElem_zip, vreg_getElem (vregs_wf cw) a hl, vreg_getElem (vregs_wf cw) b hl] at one
    exact (congrArg (fun x : Lists => x.list (128 * mod.toNat + l)) lists).trans one

/-! ### Row statistics (R267 to R269) -/

/-- The statistics that a place names. -/
def Stat.isAt (x : Stat) (phase kind row : Nat) : Prop := x.phase = phase ∧ x.kind = kind ∧ x.row = row

theorem isAt_addElement {st : Stat} {phase kind row : Nat} (h : st.isAt phase kind row) (x : W32) :
    (st.addElement x).isAt phase kind row := by
  unfold Stat.addElement
  split
  · exact h
  · dsimp only
    split
    · exact h
    · split <;> exact h
  · exact h

theorem isAt_foldl {phase kind row : Nat} (l : List W32) {st : Stat} (h : st.isAt phase kind row) :
    (l.foldl Stat.addElement st).isAt phase kind row := by
  induction l generalizing st with
  | nil => exact h
  | cons a t ih => exact ih (isAt_addElement h a)

theorem isAt_statOf (l : List Stat) (phase kind row : Nat) : (statOf l phase kind row).isAt phase kind row := by
  unfold statOf
  cases e : l.find? (fun x => x.phase == phase && x.kind == kind && x.row == row) with
  | none => exact ⟨rfl, rfl, rfl⟩
  | some x =>
    have := List.find?_some e
    simp only [Bool.and_eq_true, beq_iff_eq] at this
    exact ⟨this.1.1, this.1.2, this.2⟩

/-- A statistic that is set is what is found at its place. -/
theorem statOf_setStat (l : List Stat) {x : Stat} {phase kind row : Nat} (h : x.isAt phase kind row) :
    statOf (setStat l x) phase kind row = x := by
  obtain ⟨rfl, rfl, rfl⟩ := h
  have gone : (l.filter (fun y => !(y.phase == x.phase && y.kind == x.kind && y.row == x.row))).find?
      (fun y => y.phase == x.phase && y.kind == x.kind && y.row == x.row) = none := by
    rw [List.find?_eq_none]
    intro y hy
    have := (List.mem_filter.mp hy).2
    rw [Bool.not_eq_true'] at this
    exact fun x => Bool.false_ne_true (this.symm.trans x)
  unfold statOf setStat
  rw [List.find?_append, gone]
  simp

/-- An instruction that writes a V register and moves the counts of its run. -/
theorem writes_counted {s : State} {n : Fin 32} {j : Job} {u : DueRun} {r r' : Run} {w : W64} (h : InRun s n j u r w)
    {g : Guard} {d : BitVec 5} {vals : List W32} {f : Nat → W32}
    (hw : s.runWord n.val j u.place r w = s.vmap n.val r' g d vals) (hpos : r'.pos = r.pos) (len : vals.length = 128)
    (hf : ∀ l < 128, (s.core n.val).active g l = true → vals.getD l 0 = f l) :
    ∃ t, s.epiRow n w = .next t ∧ WritesVector s t n r' g d f := by
  have wf := vregs_wf h.2.2.2.1
  obtain ⟨t, ht, hc, hpc, e⟩ := run_moves h (f := fun c => c.setV g d vals) hw hpos rfl (by
    rw [core_modCore _ _ _ _ (unitJob_lt h.1), if_pos rfl]; rfl) rfl rfl
  have ev : (t.core n.val).vregs = ((s.core n.val).setV g d vals).vregs := (congrArg Core.vregs e :)
  refine ⟨t, ht, hc.trans (congrArg calm (modCore_congr (by rw [ev, hpos]; rfl))), hpc, fun v l lt => ?_⟩
  have : element (t.core n.val) v l = element ((s.core n.val).setV g d vals) v l := by
    rw [element, ev, element]
  rw [this, element_setV wf g d len v lt]
  split
  · rename_i act
    exact hf l lt act.2
  · rfl

theorem exec_rstat (s : State) (n : Fin 32) (g : Guard) (a : BitVec 5) (mod : BitVec 6) :
    exec (.rstat n g a mod) s = s.epiRow n (epiReg 22 g 0 a 0 mod) := rfl

theorem exec_rsget (s : State) (n : Fin 32) (g : Guard) (d : BitVec 5) :
    exec (.rsget n g d) s = s.epiRow n (epiReg 23 g d 0 0 0) := rfl

/-- Settles O13, by the statistic that RSTAT sets and the register that RSGET writes. -/
theorem rowStatistics : Obligations.RowStatistics := by
  intro s n j u r g d a mod c p rows rowstat
  refine ⟨fun h hm => ?_, fun h => ?_⟩
  · have e := runWord_rstat s n.val j p r g a mod
    simp only [State.runRstat, rowstat, bits_low (show mod.toNat ≤ 3 by omega), Bool.not_true, Bool.false_eq_true,
      if_false] at e
    obtain ⟨t, ht, hc, -, -⟩ := run_moves h (f := fun c => c) e rfl (body_setCore s n.val (s.core n.val) rfl).symm rfl rfl rfl
    refine ⟨t, _, ht, hc, rfl, rfl, rfl, ?_⟩
    exact statOf_setStat _ (isAt_foldl _ (isAt_statOf _ _ _ _))
  · have e := runWord_rsget s n.val j p r g d
    simp only [State.runRsget, rowstat, Bool.not_true, Bool.false_eq_true, if_false, State.vmap] at e
    obtain ⟨t, ht, hc, -, each⟩ := writes_counted h e rfl (by simp) (fun l lt _ => getD_replicate_of_lt _ _ lt)
    refine ⟨t, ht, hc, fun l lt => ?_, fun v ne l lt => ?_⟩
    · rw [each d l lt, if_pos ⟨rfl, rfl⟩]
    · rw [each v l lt, if_neg (fun x => ne x.1)]

end Sys2Proof.Machine
end

section
/-!
SUPPORT. VENC and ESTORE (R246 to R252, R215), and the runs of the epilogue unit carried out whole (R209, R220, R258).
-/

namespace Sys2Proof.Machine

open Sys2Proof.Safety

/-! ### VENC (R246 to R249, R252) -/

/-- Core `k` is `c` but for the bytes of one slot's scale state. -/
structure ScaleMoved (slot : Nat) (c k : Core) : Prop where
  frame   : k = { c with scale := k.scale }
  wf      : Sparse.wf c.scale = true → Sparse.wf k.scale = true
  outside : Sparse.wf c.scale = true → ∀ i, i < 64 * slot ∨ 64 * slot + 64 ≤ i →
    Sparse.get k.scale i = Sparse.get c.scale i

theorem ScaleMoved.refl (slot : Nat) (c : Core) : ScaleMoved slot c c := ⟨rfl, id, fun _ _ _ => rfl⟩

theorem ScaleMoved.trans {slot : Nat} {a b c : Core} (h : ScaleMoved slot a b) (k : ScaleMoved slot b c) :
    ScaleMoved slot a c where
  frame := by rw [k.frame, h.frame]
  wf w := k.wf (h.wf w)
  outside w i hi := (k.outside (h.wf w) i hi).trans (h.outside w i hi)

/-- A field of the scale state of a slot that is set. -/
theorem scaleMoved_setSc (slot : Nat) (c : Core) {off k : Nat} (v : Nat) (fits : off + k ≤ 64) :
    ScaleMoved slot c (c.setSc slot off k v) where
  frame := rfl
  wf w := Sparse.wf_write w _ _
  outside w i hi := by
    unfold Core.setSc
    rw [Sparse.get_write w, length_leBytes, if_neg (by omega)]

theorem scaleMoved_vencElement (slot r t : Nat) (second act : Bool) (l : Nat) (x : W32) (v : VencStep) :
    ScaleMoved slot v.core (vencElement slot r t second act l x v).core := by
  unfold vencElement
  extract_lets c size i sc tag b image image' c' v' r' code
  have moved : ScaleMoved slot v.core v'.core := by
    by_cases first : l % size = 0
    · rw [show v' = { core := c', image := image', st := v.st, scale := sc } from if_pos first]
      exact (scaleMoved_setSc slot _ _ (by omega)).trans (scaleMoved_setSc slot _ _ (by omega))
    · rw [show v' = v from if_neg first]
      exact .refl _ _
  cases act
  · exact moved
  · exact moved

theorem scaleMoved_elements (slot r t : Nat) (second : Bool) (g : Guard) (c : Core) (l : List (W32 × Nat)) (v : VencStep) :
    ScaleMoved slot v.core
      (l.foldl (fun v p => vencElement slot r t second (c.active g p.2) p.2 p.1 v) v).core := by
  induction l generalizing v with
  | nil => exact .refl _ _
  | cons a t ih => exact (scaleMoved_vencElement ..).trans (ih _)

/-- VENC writes its register after it has moved the scale state of its slot. -/
theorem venc_parts (c : Core) (slot : Nat) (g : Guard) (d a : BitVec 5) (mod : Nat) :
    ∃ k image, ScaleMoved slot c k ∧ c.venc slot g d a mod = k.setV noGuard d (vWords (Mem.bytes image 0 512)) := by
  unfold Core.venc
  extract_lets second r t image hdr st v image' image'' c1 flags c2
  refine ⟨c2, image'', ?_, rfl⟩
  have h0 : ScaleMoved slot c v.core :=
    scaleMoved_elements slot r t second g c _ { core := c, image := image, st := st, scale := 0 }
  have h1 : ScaleMoved slot c c1 :=
    (h0.trans (scaleMoved_setSc slot _ _ (by omega))).trans (scaleMoved_setSc slot _ _ (by omega))
  exact h1.trans (scaleMoved_setSc slot _ _ (by omega))

theorem exec_venc (s : State) (n : Fin 32) (g : Guard) (d a : BitVec 5) (mod : BitVec 6) :
    exec (.venc n g d a mod) s = s.epiRow n (epiReg 24 g d a 0 mod) := rfl

theorem vencWrites : VencWrites := by
  intro s n j u r g d a mod h _
  dsimp only
  have cw := h.2.2.2.1
  have ws : Sparse.wf (s.core n.val).scale = true := by simp [coreWf] at cw; tauto
  obtain ⟨k, image, moved, ek⟩ := venc_parts (s.core n.val) u.place.slot g d a mod.toNat
  have kv : k.vregs = (s.core n.val).vregs := by rw [moved.frame]
  have len : (vWords (Mem.bytes image 0 512)).length = 128 := length_vWords (k := 128) (length_bytes _ _ _)
  have whole : (s.core n.val).venc u.place.slot g d a mod.toNat =
      { s.core n.val with vregs := ((s.core n.val).venc u.place.slot g d a mod.toNat).vregs
                          scale := ((s.core n.val).venc u.place.slot g d a mod.toNat).scale } := by
    rw [ek, setV_eq, moved.frame]
  obtain ⟨t, ht, hc, -, e⟩ := run_moves h (runWord_venc ..) rfl rfl (by
    rw [core_modCore _ _ _ _ (unitJob_lt h.1), if_pos rfl, whole]) (by rw [whole]) (by rw [whole])
  have ev : (t.core n.val).vregs = ((s.core n.val).venc u.place.slot g d a mod.toNat).vregs := (congrArg Core.vregs e :)
  have es : (t.core n.val).scale = ((s.core n.val).venc u.place.slot g d a mod.toNat).scale := (congrArg Core.scale e :)
  have esk : (t.core n.val).scale = k.scale := es.trans (by rw [ek]; rfl)
  refine ⟨t, ht, hc.trans (congrArg calm (modCore_congr ?_)), fun v ne l lt => ?_, es, fun i hi => ?_⟩
  · rw [whole, ev, es]
  · have : element (t.core n.val) v l = element (k.setV noGuard d (vWords (Mem.bytes image 0 512))) v l := by
      rw [element, ev, ek, element]
    rw [this, element_setV (by rw [kv]; exact vregs_wf cw) noGuard d len v lt, if_neg (fun x => ne x.1), element, kv,
      element]
  · rw [esk]
    exact moved.outside ws i hi

/-! ### ESTORE (R215, R222, R223) -/

theorem xfer_setXfer (c : Core) (x : Nat) (t : Xfer) (i : Nat) :
    (c.setXfer x t).xfer i = if i = x then t else c.xfer i := lookupD_assocSet c.xfers x i t {}

/-- The transfer that ESTORE queues. -/
def Core.estoreXfer (c : Core) (x : Tile) (beats : Nat) : Xfer :=
  { state := .queued, store := true, uaddr := (dUBase x.desc + x.row * dUStride x.desc) % 2 ^ 64, laddr := x.out, rows := 1
    rowBytes := 64 * beats, estore := true, tile := x.order, order := c.xorder, pc := x.pc }

/-- ESTORE in place, with X7 done, queues its transfer. -/
theorem estore_ran {s : State} {n : Nat} {j : Job} {x : Tile} {r : Run} {imm : BitVec 40} (most : imm.toNat ≤ 16384)
    (good : (s.core n).epiBad x.out (64 * imm.toNat) = false)
    (aligned : (dUBase x.desc + x.row * dUStride x.desc) % 2 ^ 64 % 64 = 0) (done : (s.core n).xDone 7 = true) :
    s.runEstore n j x r imm = .ran (s.setCore n { (s.core n).setXfer 7 ((s.core n).estoreXfer x imm.toNat) with
      xorder := (s.core n).xorder + 1 }) r := by
  have low : bits imm.toNat 15 0 = imm.toNat := by
    simp only [bits]
    omega
  unfold State.runEstore
  simp only [low]
  rw [if_neg (by rw [good, aligned]; decide), if_neg (by rw [done]; decide), Core.estoreXfer]

theorem exec_estore (s : State) (n : Fin 32) (imm : BitVec 40) :
    exec (.estore n imm) s = s.epiRow n (epiImm 25 0 imm) := rfl

theorem estoreQueues : EstoreQueues := by
  intro s n j u r imm c x at_ h one most good aligned done
  obtain ⟨t, ht, hc, -, ec⟩ := run_moves h (f := fun c => { c.setXfer 7 (c.estoreXfer x imm.toNat) with
      xorder := c.xorder + 1 }) ((runWord_estore ..).trans (estore_ran most good aligned done)) rfl rfl
    (by rw [core_setCore _ _ _ _ (unitJob_lt h.1), if_pos rfl]; rfl) rfl rfl
  have ex : (t.core n.val).xfers = (c.setXfer 7 (c.estoreXfer x imm.toNat)).xfers := (congrArg Core.xfers ec :)
  have xf : ∀ i, (t.core n.val).xfer i = (c.setXfer 7 (c.estoreXfer x imm.toNat)).xfer i := fun i => by
    rw [Core.xfer, ex, Core.xfer]
  refine ⟨t, ht, hc.trans (congrArg calm (modCore_congr ?_)), ?_, fun i hi => ?_⟩
  · rw [ex]
    rfl
  · rw [xf, xfer_setXfer, if_pos rfl]
    rfl
  · rw [xf, xfer_setXfer, if_neg (by omega)]

/-- Settles O18, by the rules of VENC and ESTORE. -/
theorem vencAndEstore : Obligations.VencAndEstore := ⟨vencWrites, estoreQueues⟩

/-! ### Runs carried out whole (R209, R220, R258, R260, R266, R270) -/

/-- Two effects on one core are one effect. -/
theorem modCore_twice (s : State) (n : Nat) (f g : Core → Core) :
    (s.modCore n f).modCore n g = s.modCore n (fun c => g (f c)) := by
  by_cases lt : n < s.cores.length
  · exact modCore_modCore lt f g
  · have past : ∀ (c : Core), s.setCore n c = s := fun c => by
      rw [State.setCore, List.set_eq_of_length_le (by omega)]
    rw [State.modCore, State.modCore, State.modCore, past, past, past]

/-- A run that begins, and whose whole program is executed, ends. -/
theorem carryRun_whole {s s0 s' : State} {n : Nat} {j : Job} {d : DueRun} {r0 r : Run} (idle : (s.core n).spilling = 0)
    (begun : s.beginRun n j d = .ran s0 r0) (idle0 : (s0.core n).spilling = 0) (start : r0.pos = 0)
    (ran : s0.runWords n j d.place r0 d.words = .ran s' r) (past : d.words.length ≤ r.pos) :
    s.carryRun n j d d.words.length = .next ((s'.finishedRun n j d r).settleCore n) := by
  unfold State.carryRun
  rw [if_neg (by omega), begun]
  dsimp only
  rw [if_neg (by omega), start, List.drop_zero, List.take_length, ran]
  dsimp only
  rw [if_neg (by omega)]

theorem runRow_due {s : State} {n : Nat} {j : Job} {due : Core → Option DueRun} {d : DueRun} (job : s.unitJob n = some j)
    (is : due (s.core n) = some d) : s.runRow n due = s.carryRun n j d d.words.length := by
  unfold State.runRow
  rw [job, is]

/-- A run begins with the registers as they stand, unless a hold slot gives them. -/
theorem beginRun_new {s : State} {n : Nat} {d : DueRun} (j : Job) (none_ : (s.core n).run = none)
    (kind : d.sweep = none ∨ d.kind ≠ 2) : s.beginRun n j d = .ran s ((s.core n).newRun d) := by
  unfold State.beginRun
  dsimp only
  rw [none_]
  cases e : d.sweep with
  | none => rfl
  | some p =>
    dsimp only
    rw [if_neg (by rcases kind with x | x <;> simp_all)]

/-- A finish run begins with V0 to V31 from the hold slot of its tile in the row hold buffer (R270). -/
theorem beginRun_slot {s : State} {n : Nat} {d : DueRun} {k i : Nat} (j : Job) (none_ : (s.core n).run = none)
    (sweep : d.sweep = some (k, i)) (kind : d.kind = 2) (ecc : (s.core n).osEcc = []) (lt : i < 64) :
    s.beginRun n j d = .ran (s.modCore n (fun c => { c with
      vregs := Sparse.ofList 0 (vWords (Mem.bytes c.os
        (0x600000 + b2n ((s.core n).halfOf k) * 0x100000 + 0x4000 * i) 0x4000)) })) ((s.core n).newRun d) := by
  have inside : 0x600000 + b2n ((s.core n).halfOf k) * 0x100000 + slotBytes * i < 0x01000000 := by
    have := b2n_le ((s.core n).halfOf k)
    simp only [slotBytes]
    omega
  unfold State.beginRun State.restoreSlot holdSlot
  dsimp only
  rw [none_, sweep]
  dsimp only
  rw [if_pos kind, if_pos lt]
  dsimp only
  rw [noteLocal_clean ecc inside, localLost_clean ecc inside]
  simp only [Bool.false_eq_true, if_false, slotBytes]
  refine congrArg₂ RunStep.ran (modCore_congr ?_) rfl
  rw [osRead_clean ecc]

theorem runsToTheEnd : RunsToTheEnd := by
  intro s s' n j t r
  dsimp only
  intro job hold none_ idle
  have free : ∀ k, (s.core n.val).freeFor k = true := fun k => by rw [Core.freeFor, none_]
  refine ⟨fun opening tiles sweeps ran past => ?_, fun rest tiles plain ran past => ?_,
    fun k i ph w x place opening tiles ecc hw hx lt ran past => ?_⟩
  · have due : (s.core n.val).prologueDue = some { kind := 0, words := (s.core n.val).prologue t, place := {
        tile := t, slot := (dPrologue t.desc).getD 0, phase := 0, kinds := [], stats := [] } } := by
      unfold Core.prologueDue
      rw [opening]
      simp only [tiles, sweeps, free]
      rfl
    change s.runRow n.val Core.prologueDue = _
    rw [runRow_due job due, carryRun_whole idle (beginRun_new j none_ (.inl rfl)) idle rfl ran past]
    simp only [State.finishedRun, if_true, modCore_twice]
  · have due : (s.core n.val).epilogueDue = some { kind := 1, words := ((s.core n.val).tilePhases t).headD [], place := {
        tile := t, slot := (dEpilogue t.desc).getD 0, phase := 0, kinds := [], stats := [] } } := by
      unfold Core.epilogueDue
      rw [tiles]
      simp only [free, plain]
      rfl
    change s.runRow n.val Core.epilogueDue = _
    rw [runRow_due job due, carryRun_whole idle (beginRun_new j none_ (.inl rfl)) idle rfl ran past]
    simp only [State.finishedRun, one_ne_zero, if_false, if_true, modCore_twice]
  · have due : (s.core n.val).finishDue = some { kind := 2, words := ((s.core n.val).tilePhases x.tile).getD ph []
                                                 sweep := some (k, i), place := {
        tile := x.tile, slot := (dEpilogue x.tile.desc).getD 0, phase := ph
        kinds := phaseKinds (((s.core n.val).tilePhases x.tile).getD (ph - 1) []), stats := w.stats } } := by
      have none0 : (s.core n.val).prologueDue = none := by
        unfold Core.prologueDue
        rw [opening]
      unfold Core.finishDue Core.sweepTile
      rw [place]
      simp only [free, tiles, none0, hw, Option.bind_some, hx]
      rw [if_neg (by simp)]
      rfl
    have half : (s.core n.val).halfOf k = w.half := by rw [Core.halfOf, hw]; rfl
    have at_ : b2n w.half * 0x100000 = if w.half then 0x100000 else 0 := by cases w.half <;> rfl
    have begun := beginRun_slot j none_ rfl rfl ecc lt (k := k) (d := { kind := 2, words := ((s.core n.val).tilePhases x.tile).getD ph []
                                                                        sweep := some (k, i), place := {
        tile := x.tile, slot := (dEpilogue x.tile.desc).getD 0, phase := ph
        kinds := phaseKinds (((s.core n.val).tilePhases x.tile).getD (ph - 1) []), stats := w.stats } })
    rw [half, at_] at begun
    change s.runRow n.val Core.finishDue = _
    rw [runRow_due job due, carryRun_whole idle begun ?_ rfl ran past]
    · simp only [State.finishedRun]
      rfl
    · rw [core_modCore _ _ _ _ (unitJob_lt job), if_pos rfl]
      exact idle

/-! ### The rows of single instructions (R209) -/

theorem exec_unitRow (s : State) (n : Fin 32) (g : Guard) (d a b : BitVec 5) (mod : BitVec 6) (imm : BitVec 40) :
    ∀ row ∈ unitRows n g d a b mod imm, exec row.1 s = s.epiRow n row.2 := by
  simp only [unitRows, List.forall_mem_cons]
  exact ⟨rfl, rfl, rfl, rfl, rfl, rfl, rfl, rfl, rfl, rfl, rfl, rfl, rfl, rfl, rfl, rfl, rfl, rfl, rfl, rfl, rfl, rfl, rfl,
    rfl, rfl, rfl, fun _ h => nomatch h⟩

theorem kind_prologueDue {c : Core} {u : DueRun} (h : c.prologueDue = some u) : u.kind = 0 := by
  unfold Core.prologueDue at h
  split at h
  · cases h
  · dsimp only at h
    split at h
    · cases h
    · cases h; rfl

theorem kind_epilogueDue {c : Core} {u : DueRun} (h : c.epilogueDue = some u) : u.kind = 1 := by
  unfold Core.epilogueDue at h
  split at h
  · cases h
  · split at h
    · cases h
    · cases h; rfl

theorem kind_finishDue {c : Core} {u : DueRun} (h : c.finishDue = some u) : u.kind = 2 := by
  unfold Core.finishDue at h
  split at h
  · cases h
  · split at h
    · cases h
    · obtain ⟨p, -, rfl⟩ := Option.map_eq_some_iff.mp h
      rfl

/-- The row of the run that is next carries it out. -/
theorem exec_wholeRun {s : State} {n : Fin 32} {u : DueRun} (h : (s.core n.val).nextRun = some u) :
    exec (wholeRun n u) s = match s.unitJob n.val with
      | some j => s.carryRun n.val j u u.words.length
      | none => .next s := by
  have row : ∀ due : Core → Option DueRun, due (s.core n.val) = some u →
      s.runRow n.val due = match s.unitJob n.val with
        | some j => s.carryRun n.val j u u.words.length
        | none => .next s := by
    intro due is
    unfold State.runRow
    rw [is]
    cases s.unitJob n.val <;> rfl
  unfold Core.nextRun at h
  cases hp : (s.core n.val).prologueDue with
  | some p =>
    rw [hp] at h
    cases h
    rw [wholeRun, if_pos (kind_prologueDue hp)]
    exact row Core.prologueDue hp
  | none =>
    rw [hp] at h
    cases he : (s.core n.val).epilogueDue with
    | some p =>
      rw [he] at h
      cases h
      rw [wholeRun, if_neg (by rw [kind_epilogueDue he]; decide), if_pos (kind_epilogueDue he)]
      exact row Core.epilogueDue he
    | none =>
      rw [he] at h
      have hf : (s.core n.val).finishDue = some u := h
      have two := kind_finishDue hf
      rw [wholeRun, if_neg (by omega), if_neg (by omega)]
      exact row Core.finishDue hf

/-- A run stands where its core says. -/
theorem pos_beginRun {s s0 : State} {n : Nat} {j : Job} {d : DueRun} {r : Run} (h : s.beginRun n j d = .ran s0 r) :
    r.pos = (s.core n).runPos := by
  unfold State.beginRun at h
  unfold Core.runPos
  dsimp only at h
  cases e : (s.core n).run with
  | some q =>
    rw [e] at h
    cases h
    rfl
  | none =>
    rw [e] at h
    cases ew : d.sweep with
    | none =>
      rw [ew] at h
      cases h
      rfl
    | some p =>
      rw [ew] at h
      dsimp only at h
      split at h
      · unfold State.restoreSlot at h
        dsimp only at h
        split at h <;> split at h <;> cases h <;> rfl
      · cases h
        rfl

/-- At the last word of a run, one word is the rest of it. -/
theorem carryRun_last {s : State} {n : Nat} (j : Job) {d : DueRun} (last : (s.core n).runPos + 1 = d.words.length) :
    s.carryRun n j d 1 = s.carryRun n j d d.words.length := by
  unfold State.carryRun
  split
  · rfl
  · cases e : s.beginRun n j d with
    | ended s0 => rfl
    | waits => rfl
    | ran s0 r =>
      dsimp only
      have len : (d.words.drop r.pos).length = 1 := by
        rw [List.length_drop, pos_beginRun e]
        omega
      rw [List.take_of_length_le (by omega), List.take_of_length_le (by omega)]

theorem unitRowsFollowTheRun : UnitRowsFollowTheRun := by
  intro s n u g d a b mod imm row mem
  rw [exec_unitRow s n g d a b mod imm row mem]
  refine ⟨fun next word last => ?_, fun other => ?_⟩
  · rw [exec_wholeRun next]
    unfold State.epiRow
    rw [next]
    cases s.unitJob n.val with
    | none => rfl
    | some j =>
      dsimp only
      rw [if_pos word, carryRun_last j last]
  · unfold State.epiRow
    cases s.unitJob n.val with
    | none => rfl
    | some j =>
      cases e : (s.core n.val).nextRun with
      | none => rfl
      | some v =>
        dsimp only
        rw [if_neg (other v e)]

/-- Settles O19, by what carries out a run and what a single row does of it. -/
theorem runsExecutePrograms : Obligations.RunsExecutePrograms := ⟨runsToTheEnd, unitRowsFollowTheRun⟩

end Sys2Proof.Machine
end

section
/-!
SUPPORT. System values, codebook tables, scale states and epilogue programs (R178, R224 to R226, R233, R235, R250 to R253).
-/

namespace Sys2Proof.Machine

open Sys2Proof.Safety

/-! ### Issues that replace their core -/

/-- The issue of an instruction that leaves its core as `k`. -/
theorem issued_setCore {s : State} {n : Fin 32} {j : Job} (h : Issues s n j) (len : Nat) {f : Core → Core} {k : Core}
    (e : coreBody k = coreBody (f (s.core n.val))) (hpc : k.pc = (s.core n.val).pc + len) :
    Issued s n len f ((s.retire n.val j len).setCore n.val k) := by
  have lt : n.val < (s.retire n.val j len).cores.length := by simpa using issues_lt h
  refine ⟨body_modCore_congr (f := fun _ => k) (body_retire s n.val j len) e, ?_⟩
  rw [core_setCore _ _ _ _ lt, if_pos rfl]
  exact hpc

/-! ### System values (R178, R233) -/

theorem exec_sysrd (n : Fin 32) (d : BitVec 5) (imm : BitVec 40) (s : State) :
    exec (.sysrd n d imm) s = execSysrd n d imm s := rfl

/-- SYSRD of a code that has a value writes it. -/
theorem sysrd_issued {s : State} {n : Fin 32} {j : Job} (h : Issues s n j) (wf : coreWf (s.core n.val) = true)
    (d : BitVec 5) {imm : BitVec 40} {v : Nat} (hv : ∀ c : Core, c.rank = (s.core n.val).rank →
      c.cutKind = (s.core n.val).cutKind → sysValue n.val c j imm.toNat = some v) :
    ∃ t, exec (.sysrd n d imm) s = .next t ∧ Issued s n 8 (fun c => c.setS d (BitVec.ofNat 64 v)) t ∧
      (t.core n.val).sreg d = BitVec.ofNat 64 v := by
  have e := core_retire s n.val j 8 n.val
  have value := hv ((s.retire n.val j 8).core n.val) (congrArg Core.rank e :) (congrArg Core.cutKind e :)
  have i := issued_modCore h 8 (f := fun c => c.setS d (BitVec.ofNat 64 v)) ⟨fun _ => rfl, fun _ => rfl⟩
  rw [exec_sysrd, execSysrd]
  refine issue_then (len := 8) (held := noHold) h h.2 rfl rfl ?_
  rw [value]
  exact ⟨i, (sreg_issued h i d).trans ((sreg_setS wf d d _).trans (if_pos rfl))⟩

theorem sysValue_reserved (n : Nat) (c : Core) (j : Job) {code : Nat} (h : 12 ≤ code) : sysValue n c j code = none := by
  obtain ⟨k, rfl⟩ := Nat.exists_eq_add_of_le' h
  rfl

/-- Settles O21, by the table of system values. -/
theorem systemValues : Obligations.SystemValues := by
  intro s n j d imm h wf
  refine ⟨?_, fun reserved => ?_⟩
  · have one : ∀ (k v : Nat), imm.toNat = k → (∀ c : Core, c.rank = (s.core n.val).rank →
        c.cutKind = (s.core n.val).cutKind → sysValue n.val c j k = some v) →
        ∃ t, exec (.sysrd n d imm) s = .next t ∧ Issued s n 8 (fun c => c.setS d (BitVec.ofNat 64 v)) t ∧
          (t.core n.val).sreg d = BitVec.ofNat 64 v :=
      fun k v hk hv => sysrd_issued h wf d (by rw [hk]; exact hv)
    simp only [List.forall_mem_cons]
    refine ⟨fun k => one _ _ k fun _ _ _ => rfl, fun k => one _ _ k fun c rank _ => congrArg some rank,
      fun k => one _ _ k fun _ _ _ => rfl, fun k => one _ _ k fun c _ cut => congrArg some cut,
      fun k => one _ _ k fun _ _ _ => rfl, fun k => one _ _ k fun _ _ _ => rfl, fun k => one _ _ k fun _ _ _ => rfl,
      fun k => one _ _ k fun _ _ _ => rfl, fun _ x => nomatch x⟩
  · rw [exec_sysrd, execSysrd, issue_next (len := 8) (held := noHold) h h.2 rfl rfl]
    rw [sysValue_reserved _ _ _ reserved]
    rfl

/-! ### Codebook tables (R225, R235) -/

theorem cb_wf {c : Core} (h : coreWf c = true) : Sparse.wf c.cb = true ∧ Sparse.wf c.cbCtl = true := by
  simp [coreWf] at h; tauto

/-- Core `k` is `c` but for codebook tables, which are in form. -/
structure TablesMoved (c k : Core) : Prop where
  frame : k = { c with cb := k.cb, cbCtl := k.cbCtl }
  wf    : Sparse.wf c.cb = true → Sparse.wf c.cbCtl = true → Sparse.wf k.cb = true ∧ Sparse.wf k.cbCtl = true

theorem fieldAt_lt (bs : List Byte) (off n : Nat) : fieldAt bs off n < 256 ^ n := by
  have := le_lt (bytesAt bs off n)
  rwa [length_bytesAt] at this

theorem control_loadTable {c : Core} (wf : Sparse.wf c.cbCtl = true) (r t : Nat) (wide : Bool) (cbr : List Byte) {q u : Nat}
    (ht : t < 2) (hu : u < 2) : (c.loadTable r t wide cbr).cbControl q u =
      if q = r ∧ u = t then fieldAt cbr 0 6 else c.cbControl q u := by
  unfold Core.cbControl Core.loadTable
  dsimp only
  rw [Sparse.get_set wf]
  have := fieldAt_lt cbr 0 6
  by_cases e : q = r ∧ u = t
  · rw [if_pos (by omega), if_pos e, BitVec.toNat_ofNat, Nat.mod_eq_of_lt (by omega)]
  · rw [if_neg (by omega), if_neg e]

theorem entry_loadTable {c : Core} (wf : Sparse.wf c.cb = true) (r t : Nat) (wide : Bool) (cbr : List Byte) {q u i : Nat}
    (ht : t < 2) (hu : u < 2) (hi : i < 256) : (c.loadTable r t wide cbr).cbEntry q u i =
      if q = r ∧ u = t then (if wide = true ∨ i < 16 then fieldAt cbr (32 + 2 * i) 2 else 0) else c.cbEntry q u i := by
  unfold Core.cbEntry Core.loadTable
  dsimp only
  have len : (recordEntries wide cbr).length = 256 := by simp [recordEntries]
  rw [Sparse.get_splice wf, len]
  have := fieldAt_lt cbr (32 + 2 * i) 2
  by_cases e : q = r ∧ u = t
  · rw [if_pos (by omega), if_pos e]
    have at_ : 512 * q + 256 * u + i - (512 * r + 256 * t) = i := by omega
    rw [at_, List.getD_eq_getElem _ _ (by omega)]
    simp only [recordEntries, List.getElem_map, List.getElem_range, Bool.or_eq_true, decide_eq_true_eq]
    split
    · rw [BitVec.toNat_ofNat, Nat.mod_eq_of_lt (by omega)]
    · rfl
  · rw [if_neg (by omega), if_neg e]

theorem tables_loadTable (c : Core) (r t : Nat) (wide : Bool) (cbr : List Byte) :
    TablesMoved c (c.loadTable r t wide cbr) :=
  ⟨rfl, fun w x => ⟨Sparse.wf_splice w _ _, Sparse.wf_set x _ _⟩⟩

/-- The core with a table of lane rows loaded. -/
def Core.loadRows (c : Core) (rows : List Nat) (t : Nat) (wide : Bool) (cbr : List Byte) : Core :=
  rows.foldl (fun c r => c.loadTable r t wide cbr) c

theorem tables_loadRows (rows : List Nat) (c : Core) (t : Nat) (wide : Bool) (cbr : List Byte) :
    TablesMoved c (c.loadRows rows t wide cbr) := by
  induction rows generalizing c with
  | nil => exact ⟨rfl, fun w x => ⟨w, x⟩⟩
  | cons r rows ih =>
    have first := tables_loadTable c r t wide cbr
    have rest := ih (c.loadTable r t wide cbr)
    refine ⟨?_, fun w x => rest.wf (first.wf w x).1 (first.wf w x).2⟩
    exact rest.frame.trans (by rw [first.frame]; rfl)

theorem ite_loaded {α : Type} (rows : List Nat) (q r u t : Nat) (v w : α) :
    (if q ∈ rows ∧ u = t then v else if q = r ∧ u = t then v else w) = if q ∈ r :: rows ∧ u = t then v else w := by
  by_cases a : q ∈ rows <;> by_cases b : q = r <;> by_cases e : u = t <;> simp [a, b, e]

/-- Loading rows loads their tables with the record. -/
theorem loadRows_tables (rows : List Nat) {c : Core} (w : Sparse.wf c.cb = true) (x : Sparse.wf c.cbCtl = true) {t : Nat}
    (wide : Bool) (cbr : List Byte) {q u : Nat} (ht : t < 2) (hu : u < 2) :
    (c.loadRows rows t wide cbr).cbControl q u = (if q ∈ rows ∧ u = t then fieldAt cbr 0 6 else c.cbControl q u) ∧
      ∀ i < 256, (c.loadRows rows t wide cbr).cbEntry q u i =
        if q ∈ rows ∧ u = t then (if wide = true ∨ i < 16 then fieldAt cbr (32 + 2 * i) 2 else 0) else c.cbEntry q u i := by
  induction rows generalizing c with
  | nil => exact ⟨(if_neg (by simp)).symm, fun i _ => (if_neg (by simp)).symm⟩
  | cons r rows ih =>
    obtain ⟨w', x'⟩ := (tables_loadTable c r t wide cbr).wf w x
    obtain ⟨control, entries⟩ := ih w' x'
    refine ⟨control.trans ?_, fun i hi => (entries i hi).trans ?_⟩
    · rw [control_loadTable x r t wide cbr ht hu, ite_loaded]
    · rw [entry_loadTable w r t wide cbr ht hu hi, ite_loaded]

theorem exec_cbload (n : Fin 32) (a : BitVec 5) (mod : BitVec 3) (imm : BitVec 40) (s : State) :
    exec (.cbload n a mod imm) s = execCbload n a mod imm s := rfl

theorem mod_cbload (mod : BitVec 3) (h : mod.toNat ≤ 3) :
    b2n (mod.getLsbD 0) = mod.toNat % 2 ∧ mod.getLsbD 1 = decide (2 ≤ mod.toNat) := by
  revert mod
  decide

theorem mem_maskRows {m r : Nat} : r ∈ maskRows m ↔ r < 4 ∧ bitOf m r = true := by
  simp [maskRows]

/-- A CBLOAD that nothing holds or refuses loads its record into its table of the rows of its mask. -/
theorem cbload_runs {s : State} {n : Fin 32} {j : Job} (h : Issues s n j) {a : BitVec 5} {mod : BitVec 3} {imm : BitVec 40}
    {t at_ : Nat} {wide : Bool} {cbr : List Byte} (clean : (s.core n.val).osEcc = []) (hmod : mod.toNat ≤ 3)
    (himm : imm.toNat ≤ 15) (ht : b2n (mod.getLsbD 0) = t) (hw : mod.getLsbD 1 = wide)
    (hat : ((s.core n.val).sreg a).toNat = at_) (aligned : at_ % 64 = 0) (inside : at_ + recordLen wide ≤ 0x800000)
    (free : (s.core n.val).readHeld at_ (recordLen wide) = false)
    (shut : ∀ r < 4, bitOf imm.toNat r = true → (s.core n.val).tableOpen r t = false)
    (hcbr : Mem.bytes (s.core n.val).os at_ (recordLen wide) = cbr) (good : recordGood wide cbr = true) :
    exec (.cbload n a mod imm) s = .next ((s.retire n.val j 8).setCore n.val
      (((s.retire n.val j 8).core n.val).loadRows (maskRows imm.toNat) t wide cbr)) := by
  have e := core_retire s n.val j 8 n.val
  have ec : ((s.retire n.val j 8).core n.val).osEcc = [] := (congrArg Core.osEcc e :).trans clean
  have eo : ((s.retire n.val j 8).core n.val).os = (s.core n.val).os := (congrArg Core.os e :)
  have ea : ((s.retire n.val j 8).core n.val).sreg a = (s.core n.val).sreg a := (congrArg (fun c => c.sreg a) e :)
  have tables : (maskRows imm.toNat).any (fun r => (s.core n.val).tableOpen r t) = false := by
    rw [List.any_eq_false]
    intro r hr
    obtain ⟨hr, bit⟩ := mem_maskRows.mp hr
    rw [shut r hr bit]
    exact Bool.false_ne_true
  have small : at_ < 0x01000000 := by omega
  have fits : ¬ (at_ % 64 ≠ 0 ∨ osBytes < at_ + recordLen wide) := by
    unfold osBytes
    omega
  rw [exec_cbload, execCbload, ht, hw]
  rw [issue_next (len := 8) h h.2 (by simp [hmod, himm]) (by dsimp only; rw [hat, free, tables]; simp)]
  dsimp only
  rw [ea, hat, if_neg fits, localLost_clean ec small, if_neg Bool.false_ne_true, osRead_clean ec, eo, hcbr, if_pos good,
    noteLocal_clean ec small]
  rfl

theorem codebookLoads : CodebookLoads := by
  intro s n j a mod imm h wf clean hmod himm
  dsimp only
  intro aligned inside free shut good
  obtain ⟨hb, hw⟩ := mod_cbload mod hmod
  generalize decide (2 ≤ mod.toNat) = wide at *
  have two : mod.toNat % 2 < 2 := Nat.mod_lt _ (by decide)
  generalize mod.toNat % 2 = t at *
  have e := core_retire s n.val j 8 n.val
  have lt : n.val < (s.retire n.val j 8).cores.length := by simpa using issues_lt h
  have run := cbload_runs h clean hmod himm hb hw rfl aligned inside free shut rfl good
  rw [recordLen] at run
  generalize Mem.bytes (s.core n.val).os ((s.core n.val).sreg a).toNat (if wide then 544 else 64) = cbr at *
  have moved := tables_loadRows (maskRows imm.toNat) ((s.retire n.val j 8).core n.val) t wide cbr
  have hcb : ((s.retire n.val j 8).core n.val).cb = (s.core n.val).cb := (congrArg Core.cb e :)
  have hctl : ((s.retire n.val j 8).core n.val).cbCtl = (s.core n.val).cbCtl := (congrArg Core.cbCtl e :)
  obtain ⟨wcb, wctl⟩ := cb_wf wf
  refine ⟨_, run, ?_, fun r hr u hu => ?_⟩
  · rw [core_setCore _ _ _ _ lt, if_pos rfl]
    refine issued_setCore h 8 ?_ ?_
    · exact (congrArg coreBody moved.frame).trans (congrArg (fun c : Core => { c with
        cb := (((s.retire n.val j 8).core n.val).loadRows (maskRows imm.toNat) t wide cbr).cb
        cbCtl := (((s.retire n.val j 8).core n.val).loadRows (maskRows imm.toNat) t wide cbr).cbCtl }) e :)
    · rw [moved.frame]
      exact pc_retire j 8 (issues_lt h)
  · rw [core_setCore _ _ _ _ lt, if_pos rfl]
    obtain ⟨control, entries⟩ := loadRows_tables (maskRows imm.toNat) (c := (s.retire n.val j 8).core n.val)
      (by rw [hcb]; exact wcb) (by rw [hctl]; exact wctl) wide cbr (q := r) two hu
    simp only [mem_maskRows, hr, true_and] at control entries
    refine ⟨control.trans ?_, fun i hi => (entries i hi).trans ?_⟩
    · rw [Core.cbControl, hctl, ← Core.cbControl]
    · rw [Core.cbEntry, hcb, ← Core.cbEntry]

/-! ### Programs of the epilogue unit (R224, R265) -/

theorem exec_eload (n : Fin 32) (d a : BitVec 5) (imm : BitVec 40) (s : State) :
    exec (.eload n d a imm) s = execEload n d a imm s := rfl

/-- Dropping other cells changes no cell that stays, in form or not. -/
theorem get_keep {w : Nat} (m : Sparse w) (p : Nat → Bool) {k : Nat} (h : p k = true) :
    Sparse.get (m.filter (fun c => p c.1)) k = Sparse.get m k := by
  induction m with
  | nil => rfl
  | cons c t ih =>
    by_cases e : c.1 = k
    · rw [List.filter_cons_of_pos (by rw [e]; exact h), Sparse.get_cons, Sparse.get_cons, if_pos e, if_pos e]
    · rw [Sparse.get_cons, if_neg e, ← ih, List.filter_cons]
      split
      · rw [Sparse.get_cons, if_neg e]
      · rfl

/-- The bytes of a memory are its cells, in form or not. -/
theorem bytes_cells (m : Mem) (a n : Nat) : Mem.bytes m a n = (List.range n).map (fun i => Sparse.get m (a + i)) := by
  refine List.map_congr_left fun i hi => ?_
  have := List.mem_range.mp hi
  exact get_keep m (fun k => decide (a ≤ k) && decide (k < a + n)) (by simp; omega)

/-- Bytes within bytes of a memory. -/
theorem bytes_within (m : Mem) {a n b k : Nat} (h : b + k ≤ n) :
    ((Mem.bytes m a n).drop b).take k = Mem.bytes m (a + b) k := by
  rw [bytes_cells, bytes_cells]
  refine List.ext_getElem (by simp; omega) fun i hi _ => ?_
  simp [Nat.add_assoc]

/-- The words of bytes of a memory are its fields. -/
theorem words_of_pieces (m : Mem) (at_ k : Nat) :
    (pieces 8 (Mem.bytes m at_ (8 * k))).map (fun p => BitVec.ofNat 64 (le p)) =
      (List.range k).map (fun i => BitVec.ofNat 64 (Mem.field m (at_ + 8 * i) 8)) := by
  refine List.ext_getElem? fun i => ?_
  rw [List.getElem?_map, List.getElem?_map, pieces_getElem? (by decide), length_bytes]
  by_cases hi : i < k
  · rw [if_pos (by omega), List.getElem?_range hi, Option.map_some, Option.map_some, Mem.field, bytes_within m (by omega)]
  · rw [if_neg (by omega), List.getElem?_eq_none (by simpa using hi)]
    rfl

/-- What an instruction that ends an open sweep and then reads the operand store finds. -/
structure EndedSweep (s : State) (n : Fin 32) (j : Job) : Prop where
  core : ((s.retire n.val j 8).setCore n.val ((s.retire n.val j 8).core n.val).endSweep).core n.val =
    ((s.retire n.val j 8).core n.val).endSweep
  same : coreBody ((s.retire n.val j 8).core n.val).endSweep = coreBody (s.core n.val).endSweep
  pc   : ((s.retire n.val j 8).core n.val).endSweep.pc = (s.core n.val).pc + 8

theorem ended_sweep {s : State} {n : Fin 32} {j : Job} (h : Issues s n j) : EndedSweep s n j where
  core := by rw [core_setCore _ _ _ _ (by simpa using issues_lt h), if_pos rfl]
  same := (congrArg (fun c : Core => c.endSweep) (core_retire s n.val j 8 n.val) :)
  pc := pc_retire j 8 (issues_lt h)

/-- An ELOAD that nothing holds or refuses loads its words into its slot. -/
theorem eload_runs {s : State} {n : Fin 32} {j : Job} (h : Issues s n j) {d a : BitVec 5} {imm : BitVec 40} {at_ : Nat}
    {words : List W64} (clean : (s.core n.val).osEcc = []) (hd : d.toNat ≤ 3) (hat : ((s.core n.val).sreg a).toNat = at_)
    (bad : eloadBad at_ imm.toNat = false) (small : at_ < 0x01000000) (shut : (s.core n.val).slotOpen d.toNat = false)
    (free : (s.core n.val).readHeld at_ (8 * imm.toNat) = false)
    (hwords : (List.range imm.toNat).map (fun i => BitVec.ofNat 64 (Mem.field (s.core n.val).os (at_ + 8 * i) 8)) = words)
    (good : words.all epiLegal = true) :
    exec (.eload n d a imm) s = .next ((s.retire n.val j 8).setCore n.val
      { ((s.retire n.val j 8).core n.val).endSweep with
        progs := assocSet ((s.retire n.val j 8).core n.val).endSweep.progs d.toNat words }) := by
  obtain ⟨core, same, -⟩ := ended_sweep h
  have ec : ((s.retire n.val j 8).core n.val).endSweep.osEcc = [] := (congrArg Core.osEcc same :).trans clean
  have eo : ((s.retire n.val j 8).core n.val).endSweep.os = (s.core n.val).os := (congrArg Core.os same :)
  have ea : ((s.retire n.val j 8).core n.val).endSweep.sreg a = (s.core n.val).sreg a :=
    (congrArg (fun c => c.sreg a) same :)
  rw [exec_eload, execEload, issueEnding_next (len := 8) h h.2 (by simpa [isE] using hd)
    (by dsimp only; rw [hat, bad, shut, free]; rfl)]
  dsimp only
  rw [ea, hat, bad, if_neg Bool.false_ne_true, localLost_clean ec small, if_neg Bool.false_ne_true, osRead_clean ec, eo,
    words_of_pieces, hwords, if_pos good, noteLocal_clean (by rw [core]; exact ec) small, setCore_setCore]

theorem programLoads : ProgramLoads := by
  intro s n j d a imm h clean hd
  dsimp only
  intro aligned one most inside shut free good
  have bad : eloadBad ((s.core n.val).sreg a).toNat imm.toNat = false := by
    simp only [eloadBad, osBytes, aligned, bne_self_eq_false, Bool.false_or, Bool.or_eq_false_iff, decide_eq_false_iff_not]
    exact ⟨by omega, decide_eq_false (by omega)⟩
  obtain ⟨core, same, pc⟩ := ended_sweep h
  have lt : n.val < (s.retire n.val j 8).cores.length := by simpa using issues_lt h
  generalize hw : (List.range imm.toNat).map (fun i => BitVec.ofNat 64
    (Mem.field (s.core n.val).os (((s.core n.val).sreg a).toNat + 8 * i) 8)) = words at *
  have i := issued_setCore h 8 (f := fun c => { c.endSweep with progs := assocSet c.progs d.toNat words })
    (k := { ((s.retire n.val j 8).core n.val).endSweep with
        progs := assocSet ((s.retire n.val j 8).core n.val).endSweep.progs d.toNat words })
    (congrArg (fun c : Core => { c with progs := assocSet c.progs d.toNat words }) same :) pc
  have ep := (congrArg Core.progs (issued_core h i) :)
  have prog : ∀ e, (((s.retire n.val j 8).setCore n.val { ((s.retire n.val j 8).core n.val).endSweep with
      progs := assocSet ((s.retire n.val j 8).core n.val).endSweep.progs d.toNat words }).core n.val).prog e =
      if e = d.toNat then words else (s.core n.val).prog e := fun e =>
    (congrArg (fun l => lookupD l e []) ep).trans (lookupD_assocSet _ _ _ _ _)
  refine ⟨_, eload_runs h clean hd rfl bad (by omega) shut free hw good, i, ?_, fun e ne => ?_⟩
  · rw [prog, if_pos rfl]
  · rw [prog, if_neg ne]

/-- Settles O22, by the rules of CBLOAD and ELOAD. -/
theorem tablesAndProgramsLoad : Obligations.TablesAndProgramsLoad := ⟨codebookLoads, programLoads⟩

end Sys2Proof.Machine
end

section
/-!
SUPPORT. SCSET, SCGET and SCADV (R226, R250, R253).
-/

namespace Sys2Proof.Machine

open Sys2Proof.Safety

theorem exec_scset (n : Fin 32) (d a : BitVec 5) (s : State) : exec (.scset n d a) s = execScset n d a s := rfl
theorem exec_scget (n : Fin 32) (d a : BitVec 5) (s : State) : exec (.scget n d a) s = execScget n d a s := rfl
theorem exec_scadv (n : Fin 32) (d : BitVec 5) (s : State) : exec (.scadv n d) s = execScadv n d s := rfl

theorem scale_wf {c : Core} (h : coreWf c = true) : Sparse.wf c.scale = true ∧ Sparse.wf c.os = true := by
  simp [coreWf] at h; tauto

theorem scaleAtBad_eq {a : Nat} (aligned : a % 64 = 0) (inside : a + 64 ≤ 0x800000) : scaleAtBad a = false := by
  have : ¬osBytes < a + 64 := by unfold osBytes; omega
  simp [scaleAtBad, aligned, this]

section
variable {s : State} {n : Fin 32} {j : Job} (h : Issues s n j) (wf : coreWf (s.core n.val) = true)
  (clean : (s.core n.val).osEcc = []) {d a : BitVec 5} (hd : d.toNat ≤ 3) {at_ : Nat}
  (hat : ((s.core n.val).sreg a).toNat = at_) (aligned : at_ % 64 = 0) (inside : at_ + 64 ≤ 0x800000)
  (shut : (s.core n.val).slotOpen d.toNat = false)
include h wf clean hd hat aligned inside shut

theorem scset_issued (free : (s.core n.val).readHeld at_ 64 = false)
    (good : scaleGood (Mem.bytes (s.core n.val).os at_ 64) = true) :
    ∃ t, exec (.scset n d a) s = .next t ∧
      Issued s n 8 (fun c => { c.endSweep with scale := (t.core n.val).scale }) t ∧
      ∀ i, Sparse.get (t.core n.val).scale i =
        if 64 * d.toNat ≤ i ∧ i < 64 * d.toNat + 64 then Sparse.get (s.core n.val).os (at_ + (i - 64 * d.toNat))
        else Sparse.get (s.core n.val).scale i := by
  obtain ⟨core, same, pc⟩ := ended_sweep h
  have lt : n.val < (s.retire n.val j 8).cores.length := by simpa using issues_lt h
  have ec : ((s.retire n.val j 8).core n.val).endSweep.osEcc = [] := (congrArg Core.osEcc same :).trans clean
  have eo : ((s.retire n.val j 8).core n.val).endSweep.os = (s.core n.val).os := (congrArg Core.os same :)
  have es : ((s.retire n.val j 8).core n.val).endSweep.scale = (s.core n.val).scale := (congrArg Core.scale same :)
  have ea : ((s.retire n.val j 8).core n.val).endSweep.sreg a = (s.core n.val).sreg a :=
    (congrArg (fun c => c.sreg a) same :)
  have run : exec (.scset n d a) s = .next ((s.retire n.val j 8).setCore n.val
      { ((s.retire n.val j 8).core n.val).endSweep with
        scale := Mem.write (s.core n.val).scale (64 * d.toNat) (Mem.bytes (s.core n.val).os at_ 64) }) := by
    have small : at_ < 0x01000000 := by omega
    rw [exec_scset, execScset, issueEnding_next (len := 8) h h.2 (by simpa [isE] using hd)
      (by dsimp only; rw [hat, shut, free, Bool.or_self, Bool.and_false])]
    dsimp only
    rw [ea, hat, scaleAtBad_eq aligned inside, if_neg Bool.false_ne_true, localLost_clean ec small, if_neg Bool.false_ne_true,
      osRead_clean ec, eo, if_pos good, noteLocal_clean (by rw [core]; exact ec) small, setCore_setCore, es]
  refine ⟨_, run, ?_, fun i => ?_⟩
  · rw [core_setCore _ _ _ _ lt, if_pos rfl]
    exact issued_setCore h 8 (congrArg (fun c : Core =>
      { c with scale := Mem.write (s.core n.val).scale (64 * d.toNat) (Mem.bytes (s.core n.val).os at_ 64) }) same :) pc
  · rw [core_setCore _ _ _ _ lt, if_pos rfl]
    dsimp only
    rw [Sparse.get_write (scale_wf wf).1, length_bytes]
    split
    · exact getD_bytes (scale_wf wf).2 _ (by omega)
    · rfl

theorem scget_issued (free : (s.core n.val).writeHeld at_ 64 = false) (flip : (s.flip (osFlip n.val)).armed = false) :
    ∃ t, exec (.scget n d a) s = .next t ∧
      Issued s n 8 (fun c => { c.endSweep with os := (t.core n.val).os }) t ∧
      ∀ i, Sparse.get (t.core n.val).os i =
        if at_ ≤ i ∧ i < at_ + 64 then Sparse.get (s.core n.val).scale (64 * d.toNat + (i - at_))
        else Sparse.get (s.core n.val).os i := by
  obtain ⟨core, same, pc⟩ := ended_sweep h
  have lt : n.val < (s.retire n.val j 8).cores.length := by simpa using issues_lt h
  have ec : ((s.retire n.val j 8).core n.val).endSweep.osEcc = [] := (congrArg Core.osEcc same :).trans clean
  have eo : ((s.retire n.val j 8).core n.val).endSweep.os = (s.core n.val).os := (congrArg Core.os same :)
  have es : ((s.retire n.val j 8).core n.val).endSweep.scale = (s.core n.val).scale := (congrArg Core.scale same :)
  have ea : ((s.retire n.val j 8).core n.val).endSweep.sreg a = (s.core n.val).sreg a :=
    (congrArg (fun c => c.sreg a) same :)
  have armed : (((s.retire n.val j 8).setCore n.val ((s.retire n.val j 8).core n.val).endSweep).flip
      (osFlip n.val)).armed = false := by
    change ((s.retire n.val j 8).flip (osFlip n.val)).armed = false
    rw [body_flip (body_retire s n.val j 8), flip]
  have some_ : Mem.bytes (s.core n.val).scale (64 * d.toNat) 64 ≠ [] := fun x => by
    have := length_bytes (s.core n.val).scale (64 * d.toNat) 64
    rw [x] at this
    cases this
  have run : exec (.scget n d a) s = .next ((s.retire n.val j 8).setCore n.val
      { ((s.retire n.val j 8).core n.val).endSweep with
        os := Mem.write (s.core n.val).os at_ (Mem.bytes (s.core n.val).scale (64 * d.toNat) 64) }) := by
    rw [exec_scget, execScget, issueEnding_next (len := 8) h h.2 (by simpa [isE] using hd)
      (by dsimp only; rw [hat, shut, free, Bool.or_self, Bool.and_false])]
    dsimp only
    rw [ea, hat, scaleAtBad_eq aligned inside, if_neg Bool.false_ne_true, es,
      osWrite_clean (by rw [core]; exact ec) armed at_ some_, State.modCore, core, setCore_setCore, eo, es]
  refine ⟨_, run, ?_, fun i => ?_⟩
  · rw [core_setCore _ _ _ _ lt, if_pos rfl]
    exact issued_setCore h 8 (congrArg (fun c : Core =>
      { c with os := Mem.write (s.core n.val).os at_ (Mem.bytes (s.core n.val).scale (64 * d.toNat) 64) }) same :) pc
  · rw [core_setCore _ _ _ _ lt, if_pos rfl]
    dsimp only
    rw [Sparse.get_write (scale_wf wf).2, length_bytes]
    split
    · exact getD_bytes (scale_wf wf).1 _ (by omega)
    · rfl

end

theorem scaleStateMoves : ScaleStateMoves := by
  intro s n j d a h wf clean hd
  dsimp only
  intro aligned inside shut
  exact ⟨scset_issued h wf clean hd rfl aligned inside shut, scget_issued h wf clean hd rfl aligned inside shut⟩

/-! ### SCADV (R253) -/

/-- A field of a scale state that is set. -/
theorem scField_setSc_same {c : Core} (wf : Sparse.wf c.scale = true) (e off k v : Nat) :
    (c.setSc e off k v).scField e off k = v % 256 ^ k := by
  unfold Core.scField Core.setSc Mem.field
  rw [bytes_cells]
  have : (List.range k).map (fun i => Sparse.get (Mem.write c.scale (64 * e + off) (leBytes k v)) (64 * e + off + i)) =
      leBytes k v := by
    refine List.ext_getElem (by simp [length_leBytes]) fun i hi hb => ?_
    have hi : i < k := by simpa using hi
    simp only [List.getElem_map, List.getElem_range]
    rw [Sparse.get_write wf, length_leBytes, if_pos (by omega), Nat.add_sub_cancel_left, List.getD_eq_getElem _ _ hb]
  rw [this, le_leBytes]

/-- A field of a scale state beside the one that is set. -/
theorem scField_setSc_other {c : Core} (wf : Sparse.wf c.scale = true) (e v : Nat) {off k o m : Nat}
    (apart : o + m ≤ off ∨ off + k ≤ o) : (c.setSc e off k v).scField e o m = c.scField e o m := by
  unfold Core.scField Core.setSc Mem.field
  rw [bytes_cells, bytes_cells]
  refine congrArg le (List.map_congr_left fun i hi => ?_)
  have := List.mem_range.mp hi
  rw [Sparse.get_write wf, length_leBytes, if_neg (by omega)]

theorem wf_setSc {c : Core} (wf : Sparse.wf c.scale = true) (e off k v : Nat) : Sparse.wf (c.setSc e off k v).scale = true :=
  Sparse.wf_write wf _ _

theorem scField_lt (c : Core) (e off k : Nat) : c.scField e off k < 256 ^ k := by
  have := le_lt (Mem.bytes c.scale (64 * e + off) k)
  rwa [length_bytes] at this

theorem bitOf_clear {v : Nat} : bitOf (v - 4 * bits v 2 2) 2 = false := by
  have : ¬ (v - 4 * bits v 2 2) / 2 ^ 2 % 2 = 1 := by
    simp only [bits]
    omega
  exact decide_eq_false this

/-- Clearing the counters of a slot clears them and nothing else. -/
theorem scClear_clears {c : Core} (wf : Sparse.wf c.scale = true) (e : Nat) :
    ScaleMoved e c (c.scClear e) ∧ (c.scClear e).scField e 0x18 4 = 0 ∧ (c.scClear e).scField e 0x1C 4 = 0 ∧
      (c.scClear e).scField e 0x10 2 = 0 ∧ bitOf ((c.scClear e).scField e 1 1) 2 = false ∧
      (c.scClear e).scField e 4 2 = c.scField e 4 2 := by
  unfold Core.scClear
  extract_lets flags
  have small : flags < 256 := by simpa using scField_lt c e 1 1
  have w1 := wf_setSc wf e 0x18 4 0
  have w2 := wf_setSc w1 e 0x1C 4 0
  have w3 := wf_setSc w2 e 1 1 (flags - 4 * bits flags 2 2)
  refine ⟨?_, ?_, ?_, ?_, ?_, ?_⟩
  · exact (((scaleMoved_setSc e _ _ (by omega)).trans (scaleMoved_setSc e _ _ (by omega))).trans
      (scaleMoved_setSc e _ _ (by omega))).trans (scaleMoved_setSc e _ _ (by omega))
  · rw [scField_setSc_other w3 _ _ (by omega), scField_setSc_other w2 _ _ (by omega), scField_setSc_other w1 _ _ (by omega),
      scField_setSc_same wf, Nat.zero_mod]
  · rw [scField_setSc_other w3 _ _ (by omega), scField_setSc_other w2 _ _ (by omega), scField_setSc_same w1, Nat.zero_mod]
  · rw [scField_setSc_same w3, Nat.zero_mod]
  · rw [scField_setSc_other w3 _ _ (by omega), scField_setSc_same w2, Nat.mod_eq_of_lt (by omega)]
    exact bitOf_clear
  · rw [scField_setSc_other w3 _ _ (by omega), scField_setSc_other w2 _ _ (by omega), scField_setSc_other w1 _ _ (by omega),
      scField_setSc_other wf _ _ (by omega)]

theorem length_halves (l : List Nat) : ((l.map (leBytes 2)).flatten).length = 2 * l.length :=
  length_flatten_map (fun _ => length_leBytes 2 _) l

theorem scaleMoved_advRunning (c : Core) (e : Nat) : ScaleMoved e c (c.advRunning e) := by
  unfold Core.advRunning
  extract_lets past history h c'
  have moved : ScaleMoved e c c' := by
    refine ⟨rfl, fun w => Sparse.wf_write w _ _, fun w i hi => ?_⟩
    have len : history.length = 16 := by simp [history, past]
    change Sparse.get (Mem.write c.scale (64 * e + 0x20) ((history.map (leBytes 2)).flatten)) i = _
    rw [Sparse.get_write w, length_halves, len, if_neg (by omega)]
  split
  · exact moved.trans (scaleMoved_setSc e _ _ (by omega))
  · exact moved

theorem scaleMoved_advLearned (c : Core) (e : Nat) : ScaleMoved e c (c.advLearned e) := by
  unfold Core.advLearned
  extract_lets corr step
  split
  · exact scaleMoved_setSc e _ _ (by omega)
  · split
    · exact .refl _ _
    · exact scaleMoved_setSc e _ _ (by omega)

/-- What a slot's scale state is before its counters are cleared. -/
def Core.scMoved (c : Core) (e : Nat) : Core :=
  if c.scField e 0 1 = 1 then c.advRunning e else if c.scField e 0 1 = 2 then c.advLearned e else c

theorem scAdvance_eq (c : Core) (e : Nat) : c.scAdvance e = (c.scMoved e).scClear e := by
  unfold Core.scAdvance Core.scMoved
  split
  · rename_i h
    rw [if_pos h]
  · rename_i h
    rw [if_neg (by omega), if_pos h]
  · rename_i a b
    rw [if_neg a, if_neg b]

theorem scaleMoved_scMoved (c : Core) (e : Nat) : ScaleMoved e c (c.scMoved e) := by
  unfold Core.scMoved
  split
  · exact scaleMoved_advRunning c e
  · split
    · exact scaleMoved_advLearned c e
    · exact .refl _ _

theorem scaleStateAdvances : ScaleStateAdvances := by
  intro s n j d h wf hd shut
  have ws := (scale_wf wf).1
  obtain ⟨core, same, pc⟩ := ended_sweep h
  have lt : n.val < (s.retire n.val j 8).cores.length := by simpa using issues_lt h
  have es : ((s.retire n.val j 8).core n.val).endSweep.scale = (s.core n.val).scale := (congrArg Core.scale same :)
  have run : exec (.scadv n d) s = .next ((s.retire n.val j 8).setCore n.val
      (((s.retire n.val j 8).core n.val).endSweep.scAdvance d.toNat)) := by
    rw [exec_scadv, execScadv, issueEnding_next (len := 8) h h.2 (by simpa [isE] using hd) shut]
    rfl
  generalize ((s.retire n.val j 8).core n.val).endSweep = c at *
  have moved := scaleMoved_scMoved c d.toNat
  have w1 : Sparse.wf (c.scMoved d.toNat).scale = true := moved.wf (by rw [es]; exact ws)
  obtain ⟨clear, f18, f1c, f10, flag, f4⟩ := scClear_clears w1 d.toNat
  have whole := moved.trans clear
  rw [← scAdvance_eq] at whole f18 f1c f10 flag f4
  refine ⟨_, run, ?_⟩
  rw [core_setCore _ _ _ _ lt, if_pos rfl]
  refine ⟨issued_setCore h 8 ?_ ?_, f18, f1c, f10, flag, fun fixed => ?_, fun i hi => ?_⟩
  · exact (congrArg coreBody whole.frame).trans
      (congrArg (fun k : Core => { k with scale := (c.scAdvance d.toNat).scale }) same :)
  · rw [whole.frame]
    exact pc
  · have field : ∀ o m, c.scField d.toNat o m = (s.core n.val).scField d.toNat o m := fun o m => by
      rw [Core.scField, es, ← Core.scField]
    rw [f4, Core.scMoved, field, fixed]
    exact field 4 2
  · rw [whole.outside (by rw [es]; exact ws) i hi, es]

/-- Settles O23, by the rules of SCSET, SCGET and SCADV. -/
theorem scaleStates : Obligations.ScaleStates := ⟨scaleStateMoves, scaleStateAdvances⟩

end Sys2Proof.Machine
end

section
/-!
SUPPORT. The instructions of the top-k unit (R173 to R176, R227).
-/

namespace Sys2Proof.Machine

open Sys2Proof.Safety

theorem exec_tkOn (n : Fin 32) (mod : BitVec 3) (imm : BitVec 40) (s : State) :
    exec (.tkOn n mod imm) s = execTkOn n mod imm s := rfl
theorem exec_tkOff (n : Fin 32) (s : State) : exec (.tkOff n) s = execTkOff n s := rfl
theorem exec_tkStripe (n : Fin 32) (a : BitVec 5) (s : State) : exec (.tkStripe n a) s = execTkStripe n a s := rfl
theorem exec_tkClr (n : Fin 32) (a b : BitVec 5) (s : State) : exec (.tkClr n a b) s = execTkClr n a b s := rfl
theorem exec_tkMerge (n : Fin 32) (d a b sc : BitVec 5) (imm : BitVec 32) (s : State) :
    exec (.tkMerge n d a b sc imm) s = execTkMerge n d a b sc imm s := rfl

/-- The top-k unit of a core after the issue of an instruction. -/
theorem topk_retire (s : State) (n : Nat) (j : Job) (len : Nat) : ((s.retire n j len).core n).topk = (s.core n).topk :=
  (congrArg Core.topk (core_retire s n j len n) :)

/-- A list of a core depends on its count and the lane weight buffers. -/
theorem tkList_congr {c k : Core} (hl : k.lwb = c.lwb) (he : k.lwbEcc = c.lwbEcc) (lane : Nat)
    (ht : k.topk.count lane = c.topk.count lane) : k.tkList lane = c.tkList lane := by
  unfold Core.tkList Core.lwbRead
  rw [ht, hl, he]

/-- The counts of lanes with the lists of a range of lanes emptied. -/
def clearedCounts (m : Sparse 16) (first k : Nat) : Sparse 16 :=
  m.filter (fun l => !(decide (first ≤ l.1) && decide (l.1 < first + k)))

theorem get_clearedCounts {m : Sparse 16} (wf : Sparse.wf m = true) (first k i : Nat) :
    Sparse.get (clearedCounts m first k) i = if first ≤ i ∧ i < first + k then 0 else Sparse.get m i := by
  rw [clearedCounts, Sparse.get_filter wf (fun i => !(decide (first ≤ i) && decide (i < first + k)))]
  by_cases hi : first ≤ i ∧ i < first + k
  · rw [if_pos hi, if_neg (by simp [hi.1, hi.2])]
  · rw [if_neg hi, if_pos (by simp; omega)]

section
variable {s : State} {n : Fin 32} {j : Job} (h : Issues s n j)
include h

theorem tkOn_issued (quiet : (s.core n.val).feeds = false) {mod : BitVec 3} {imm : BitVec 40} (hm : mod.toNat ≤ 1)
    (one : 1 ≤ imm.toNat) (most : imm.toNat ≤ 256) : ∃ t, exec (.tkOn n mod imm) s = .next t ∧
      Issued s n 8 (fun c => { c with
        topk := { on := true, score := mod == 1, kLane := imm.toNat, counts := [], stripes := [] } }) t := by
  have same : (mod.toNat == 1) = (mod == 1) := by revert mod; decide
  rw [exec_tkOn, execTkOn, same]
  refine issue_then (len := 8) h h.2 (by simpa using hm) quiet ?_
  rw [if_neg (by omega)]
  exact issued_modCore h 8 (f := fun c => { c with
    topk := { on := true, score := mod == 1, kLane := imm.toNat, counts := [], stripes := [] } })
    ⟨fun _ => rfl, fun _ => rfl⟩

theorem tkOff_issued (quiet : (s.core n.val).feeds = false) (on : (s.core n.val).topk.on = true) :
    ∃ t, exec (.tkOff n) s = .next t ∧ Issued s n 8 (fun c => { c with topk := {} }) t := by
  rw [exec_tkOff, execTkOff]
  refine issue_then (len := 8) h h.2 rfl quiet ?_
  rw [topk_retire, if_pos on]
  exact issued_modCore h 8 (f := fun c => { c with topk := {} }) ⟨fun _ => rfl, fun _ => rfl⟩

theorem tkStripe_issued (quiet : (s.core n.val).feeds = false) (wf : Sparse.wf (s.core n.val).os = true)
    (clean : (s.core n.val).osEcc = []) {a : BitVec 5} {at_ : Nat} (hat : ((s.core n.val).sreg a).toNat = at_)
    (on : (s.core n.val).topk.on = true) (aligned : at_ % 64 = 0) (inside : at_ + 512 ≤ 0x800000)
    (free : (s.core n.val).readHeld at_ 512 = false) (good : (Mem.bytes (s.core n.val).os at_ 512).all stripeGood = true) :
    ∃ t, exec (.tkStripe n a) s = .next t ∧
      Issued s n 8 (fun c => { c with topk := { c.topk with stripes := (t.core n.val).topk.stripes } }) t ∧
      ∀ l < 512, Sparse.get (t.core n.val).topk.stripes l = Sparse.get (s.core n.val).os (at_ + l) := by
  have e := core_retire s n.val j 8 n.val
  have lt : n.val < (s.retire n.val j 8).cores.length := by simpa using issues_lt h
  have ec : ((s.retire n.val j 8).core n.val).osEcc = [] := (congrArg Core.osEcc e :).trans clean
  have eo : ((s.retire n.val j 8).core n.val).os = (s.core n.val).os := (congrArg Core.os e :)
  have ea : ((s.retire n.val j 8).core n.val).sreg a = (s.core n.val).sreg a := (congrArg (fun c => c.sreg a) e :)
  have small : at_ < 0x01000000 := by omega
  have fits : ¬ (at_ % 64 ≠ 0 ∨ osBytes < at_ + 512 ∨ (s.core n.val).topk.on = false) := by
    rw [on]
    simp only [osBytes, Bool.true_eq_false, or_false]
    omega
  have run : exec (.tkStripe n a) s = .next ((s.retire n.val j 8).setCore n.val { (s.retire n.val j 8).core n.val with
      topk := { (s.core n.val).topk with stripes := Sparse.ofList 0 (Mem.bytes (s.core n.val).os at_ 512) } }) := by
    rw [exec_tkStripe, execTkStripe, issue_next (len := 8) h h.2 rfl (by rw [hat, quiet, free]; simp)]
    dsimp only
    rw [ea, hat, topk_retire, if_neg fits, localLost_clean ec small, if_neg Bool.false_ne_true, osRead_clean ec, eo,
      if_pos good, noteLocal_clean ec small]
  have cells : ∀ l < 512, Sparse.get (Sparse.ofList 0 (Mem.bytes (s.core n.val).os at_ 512)) l =
      Sparse.get (s.core n.val).os (at_ + l) := fun l hl => by
    rw [Sparse.get_ofList, length_bytes, if_pos (by omega), Nat.sub_zero]
    exact getD_bytes wf _ hl
  generalize Sparse.ofList 0 (Mem.bytes (s.core n.val).os at_ 512) = x at *
  refine ⟨_, run, ?_, fun l hl => ?_⟩
  · rw [core_setCore _ _ _ _ lt, if_pos rfl]
    exact issued_setCore h 8 (congrArg (fun c : Core => { c with topk := { (s.core n.val).topk with stripes := x } }) e :)
      (pc_retire j 8 (issues_lt h))
  · rw [core_setCore _ _ _ _ lt, if_pos rfl]
    exact cells l hl

theorem tkClr_issued (quiet : (s.core n.val).feeds = false) (wf : Sparse.wf (s.core n.val).topk.counts = true)
    {a b : BitVec 5} {first k : Nat} (hfirst : ((s.core n.val).sreg a).toNat = first)
    (hk : ((s.core n.val).sreg b).toNat = k) (on : (s.core n.val).topk.on = true) (one : 1 ≤ k) (most : first + k ≤ 512) :
    ∃ t, exec (.tkClr n a b) s = .next t ∧
      Issued s n 8 (fun c => { c with topk := { c.topk with counts := (t.core n.val).topk.counts } }) t ∧
      ∀ l, (t.core n.val).tkList l = if first ≤ l ∧ l < first + k then [] else (s.core n.val).tkList l := by
  have e := core_retire s n.val j 8 n.val
  have lt : n.val < (s.retire n.val j 8).cores.length := by simpa using issues_lt h
  have es : ∀ r, ((s.retire n.val j 8).core n.val).sreg r = (s.core n.val).sreg r :=
    fun r => (congrArg (fun c => c.sreg r) e :)
  have range : laneRange first k = true := by simp [laneRange, one, most]
  have run : exec (.tkClr n a b) s = .next ((s.retire n.val j 8).setCore n.val { (s.retire n.val j 8).core n.val with
      topk := { (s.core n.val).topk with
        counts := clearedCounts (s.core n.val).topk.counts first k } }) := by
    rw [exec_tkClr, execTkClr, issue_next (len := 8) h h.2 rfl quiet]
    dsimp only
    rw [es, es, hfirst, hk, topk_retire, if_neg (by rw [on, range]; simp), clearedCounts]
  refine ⟨_, run, ?_, fun l => ?_⟩
  · rw [core_setCore _ _ _ _ lt, if_pos rfl]
    exact issued_setCore h 8 (congrArg (fun c : Core => { c with topk := { (s.core n.val).topk with
      counts := clearedCounts (s.core n.val).topk.counts first k } }) e :) (pc_retire j 8 (issues_lt h))
  · rw [core_setCore _ _ _ _ lt, if_pos rfl]
    split
    · rename_i hl
      unfold Core.tkList TopK.count
      dsimp only
      rw [get_clearedCounts wf, if_pos hl]
      rfl
    · rename_i hl
      have el : ((s.retire n.val j 8).core n.val).lwb = (s.core n.val).lwb := (congrArg Core.lwb e :)
      have ee : ((s.retire n.val j 8).core n.val).lwbEcc = (s.core n.val).lwbEcc := (congrArg Core.lwbEcc e :)
      refine tkList_congr ?_ ?_ l ?_
      · exact el
      · exact ee
      unfold TopK.count
      dsimp only
      rw [get_clearedCounts wf, if_neg hl]

end

theorem topKControl : TopKControl := by
  intro s n j a b mod imm h wf clean quiet
  obtain ⟨cw, counts⟩ : coreWf (s.core n.val) = true ∧ Sparse.wf (s.core n.val).topk.counts = true := by
    simp [coreMemoryWf] at wf; tauto
  exact ⟨tkOn_issued h quiet, tkOff_issued h quiet, tkStripe_issued h quiet (scale_wf cw).2 clean rfl,
    tkClr_issued h quiet counts rfl rfl⟩

/-! ### TK.MERGE (R176) -/

/-- A write to a clean operand store, some bytes or none. -/
theorem osWrite_moves {s : State} {n : Nat} (clean : (s.core n).osEcc = []) (hf : (s.flip (osFlip n)).armed = false)
    (wf : Sparse.wf (s.core n).os = true) (a : Nat) (bs : List Byte) :
    ∃ m, s.osWrite n a bs = s.modCore n (fun c => { c with os := m }) ∧
      ∀ i, Sparse.get m i = if a ≤ i ∧ i < a + bs.length then bs.getD (i - a) 0 else Sparse.get (s.core n).os i := by
  by_cases hb : bs = []
  · refine ⟨(s.core n).os, ?_, fun i => ?_⟩
    · rw [State.osWrite, if_pos hb]
      exact (setCore_self s n).symm
    · rw [hb, List.length_nil, if_neg (by omega)]
  · exact ⟨_, osWrite_clean clean hf a hb, fun i => Sparse.get_write wf a bs i⟩

/-- Reading the lane weight buffers without marks notes nothing. -/
theorem noteLocal_lanes {s : State} {n : Nat} (clean : (s.core n).lwbEcc = []) (a len : Nat) :
    s.noteLocal n (0x01000000 + a) len = s := by
  rw [State.noteLocal, if_neg (by omega), clean]
  rfl

theorem noteLists_clean {s : State} {n : Nat} (clean : (s.core n).lwbEcc = []) (t : TopK) (lanes : List Nat) :
    lanes.foldl (fun s l => s.noteLocal n (0x01000000 + listAt l) (8 * t.count l)) s = s := by
  induction lanes with
  | nil => rfl
  | cons l lanes ih => rw [List.foldl_cons, noteLocal_lanes clean, ih]

theorem listLost_clean {c : Core} (clean : c.lwbEcc = []) (l : Nat) : c.listLost l = false := by
  rw [Core.listLost, clean]
  exact Bool.and_false _

theorem field_of_entries {m m' : Mem} {a : Nat} {l : List W64}
    (hm : ∀ i, Sparse.get m' i = if a ≤ i ∧ i < a + ((l.map (fun e => leBytes 8 e.toNat)).flatten).length
      then ((l.map (fun e => leBytes 8 e.toNat)).flatten).getD (i - a) 0 else Sparse.get m i) {i : Nat} (hi : i < l.length) :
    BitVec.ofNat 64 (Mem.field m' (a + 8 * i) 8) = l[i] := by
  have bytes : Mem.bytes m' (a + 8 * i) 8 = leBytes 8 l[i].toNat := by
    rw [bytes_cells]
    refine List.ext_getElem (by simp [length_leBytes]) fun q hq hb => ?_
    have hq : q < 8 := by simpa using hq
    simp only [List.getElem_map, List.getElem_range]
    rw [hm, length_entryBytes, if_pos (by omega), show a + 8 * i + q - a = 8 * i + q by omega,
      getD_flatten_map (fun _ => length_leBytes 8 _) l hq hi, List.getD_eq_getElem _ _ hb]
  rw [Mem.field, bytes, le_leBytes]
  apply BitVec.eq_of_toNat_eq
  rw [BitVec.toNat_ofNat]
  omega

theorem toInt_small {imm : BitVec 32} (h : imm.toNat ≤ 4096) : imm.toInt = imm.toNat := by
  rw [BitVec.toInt_eq_toNat_of_lt (by omega)]

theorem topKMerges : TopKMerges := by
  intro s n j d a b sc imm h wf clean lclean flip quiet
  dsimp only
  intro on one most some_ max aligned inside free
  have e := core_retire s n.val j 16 n.val
  have lt : n.val < (s.retire n.val j 16).cores.length := by simpa using issues_lt h.1
  have ec : ((s.retire n.val j 16).core n.val).osEcc = [] := (congrArg Core.osEcc e :).trans clean
  have el : ((s.retire n.val j 16).core n.val).lwbEcc = [] := (congrArg Core.lwbEcc e :).trans lclean
  have eo : ((s.retire n.val j 16).core n.val).os = (s.core n.val).os := (congrArg Core.os e :)
  have et : ((s.retire n.val j 16).core n.val).topk = (s.core n.val).topk := topk_retire s n.val j 16
  have es : ∀ r, ((s.retire n.val j 16).core n.val).sreg r = (s.core n.val).sreg r :=
    fun r => (congrArg (fun c => c.sreg r) e :)
  have em : ∀ p q, ((s.retire n.val j 16).core n.val).merged p q = (s.core n.val).merged p q :=
    fun p q => (congrArg (fun c => c.merged p q) e :)
  have ef : ((s.retire n.val j 16).flip (osFlip n.val)).armed = false := by
    rw [body_flip (body_retire s n.val j 16)]; exact flip
  have wo : Sparse.wf ((s.retire n.val j 16).core n.val).os = true := by rw [eo]; exact (scale_wf wf).2
  have range : laneRange ((s.core n.val).sreg a).toNat ((s.core n.val).sreg b).toNat = true := by
    simp [laneRange, one, most]
  have int := toInt_small max
  have fits : ¬ ((s.core n.val).topk.on = false ∨
      laneRange ((s.core n.val).sreg a).toNat ((s.core n.val).sreg b).toNat = false ∨ imm.toInt < 1 ∨ 4096 < imm.toInt ∨
      ((s.core n.val).sreg d).toNat % 64 ≠ 0 ∨ osBytes < ((s.core n.val).sreg d).toNat + 8 * imm.toNat) := by
    rw [on, range, int]
    simp only [osBytes, Bool.true_eq_false, false_or]
    omega
  generalize hbest : ((s.core n.val).merged ((s.core n.val).sreg a).toNat ((s.core n.val).sreg b).toNat).take imm.toNat =
    best at *
  obtain ⟨m, hw, hm⟩ := osWrite_moves ec ef wo ((s.core n.val).sreg d).toNat
    ((best.map (fun e => leBytes 8 e.toNat)).flatten)
  have i := issued_modCore h.1 16 (f := fun c => { c.setS sc (BitVec.ofNat 64 best.length) with os := m })
    ⟨fun _ => rfl, fun _ => rfl⟩
  have run : exec (.tkMerge n d a b sc imm) s = .next ((s.retire n.val j 16).modCore n.val
      (fun c => { c.setS sc (BitVec.ofNat 64 best.length) with os := m })) := by
    rw [exec_tkMerge, execTkMerge, issue_next (len := 16) h.1 h.2 rfl (by rw [quiet, free]; simp)]
    dsimp only
    rw [et, es a, es b, es d, if_neg fits, noteLists_clean el, em, hbest, hw, modCore_twice,
      if_neg (by simp [listLost_clean el])]
    rfl
  have eos : (((s.retire n.val j 16).modCore n.val
      (fun c => { c.setS sc (BitVec.ofNat 64 best.length) with os := m })).core n.val).os = m :=
    (congrArg Core.os (issued_core h.1 i) :)
  refine ⟨_, run, ?_, ?_, fun k hk => ?_, fun k hk => ?_⟩
  · rw [eos]
    exact i
  · exact (sreg_issued h.1 i sc).trans ((sreg_setS wf sc sc _).trans (if_pos rfl))
  · rw [eos]
    exact field_of_entries hm hk
  · rw [eos, hm, length_entryBytes, if_neg (by omega), eo]

/-- Settles O24, by the rules of the unit's instructions. -/
theorem topKUnit : Obligations.TopKUnit := ⟨topKControl, topKMerges⟩

end Sys2Proof.Machine
end

section
/-!
SUPPORT. FENCE.U, BAR and the hold of a core at a collective (R192, R193, R232).
-/

namespace Sys2Proof.Machine

open Sys2Proof.Safety

/-! ### A core that holds -/

/-- The effect of an instruction that holds its core (R265). -/
def Core.heldAt (c : Core) (h : Hold) : Core := { c.endSweep with hold := some h }

theorem local_heldAt (h : Hold) : Local (fun c => c.heldAt h) := ⟨fun _ => rfl, fun _ => rfl⟩

/-- What a core at a collective waits for its own work does not release. -/
theorem unhold_collective {c : Core} {h : Hold} (hold : c.hold = some h) (kind : h.kind.isSome) : c.unhold = c := by
  have stays : released c.xfers (some h) = some h := by
    cases h with
    | wait x => cases kind
    | fence u => cases kind
    | bar => rfl
    | cut => rfl
    | take p t => rfl
    | finished => rfl
  rw [unhold_eq, hold, stays, ← hold]

/-- What follows when a core reaches a collective is the collective of its job. -/
theorem settleCore_held {s : State} {ctx n : Nat} {h : Hold} (hc : (s.core n).job = some ctx)
    (hold : (s.core n).hold = some h) (kind : h.kind.isSome) : s.settleCore n = (s.collective ctx).settle := by
  unfold State.settleCore
  have e : s.modCore n Core.unhold = s := by
    rw [State.modCore, unhold_collective hold kind, setCore_self]
  dsimp only
  rw [e, hc]

section
variable {s : State} {n : Fin 32} {j : Job} (h : Issues s n j) (hold : Hold)
include h

/-- The state in which a core has reached a collective. -/
theorem held_issued : Issued s n 8 (fun c => c.heldAt hold) ((s.retire n.val j 8).modCore n.val (fun c => c.heldAt hold)) :=
  issued_modCore h 8 (local_heldAt hold)

/-- The core that has reached a collective, in what an issue does not move. -/
theorem core_held (len : Nat) : ((s.retire n.val j len).modCore n.val (fun c => c.heldAt hold)).core n.val =
    ((s.retire n.val j len).core n.val).heldAt hold := by
  rw [core_modCore _ _ _ _ (by simpa using issues_lt h), if_pos rfl]

/-- What follows a core's reaching a collective. -/
theorem holdAt_collective {ctx : Nat} (hc : (s.core n.val).job = some ctx) (kind : hold.kind.isSome) :
    (s.retire n.val j 8).holdAt n.val hold =
      (((s.retire n.val j 8).modCore n.val (fun c => c.heldAt hold)).collective ctx).settle := by
  refine settleCore_held (h := hold) ?_ ?_ kind
  · exact (congrArg Core.job (core_held h hold 8)).trans ((congrArg Core.job (core_retire s n.val j 8 n.val) :).trans hc)
  · exact congrArg Core.hold (core_held h hold 8)

/-- BAR, CUT and END hold their core. -/
theorem hold_runs : s.issue n 8 true noHold (fun s _ _ => s.holdAt n.val hold) =
    .next ((s.retire n.val j 8).holdAt n.val hold) := issue_next (len := 8) h h.2 rfl rfl _

/-- A core that reaches a collective first holds there. -/
theorem holdAt_waits {m : Nat} (hm : m ∈ j.cores) (ne : m ≠ n.val) (free : (s.core m).hold = none)
    (kind : hold.kind.isSome) : Done s n 8 (fun c => c.heldAt hold) ((s.retire n.val j 8).holdAt n.val hold) := by
  obtain ⟨ctx, hc, hj, -⟩ := issuing_eq h.1
  have i := held_issued h hold
  obtain ⟨k, hk, ek⟩ := exists_job_of_body i.1 (j := j) (k := ctx) hj
  have cores : k.cores = j.cores := (congrArg Job.cores ek :)
  have other : (((s.retire n.val j 8).modCore n.val (fun c => c.heldAt hold)).core m).hold = none := by
    have e := core_of_body i.1 m
    rw [core_modCore _ _ _ _ (issues_lt h), if_neg ne] at e
    exact (congrArg Core.hold e :).trans free
  rw [holdAt_collective h hold hc kind, collective_idle hk (by rw [cores]; exact hm) (by rw [other]; rfl)]
  exact ⟨by rw [calm_settle, calm, i.1, calm], by rw [core_settle]; exact i.2⟩

end

/-! ### FENCE.U and the collectives' hold -/

theorem exec_fenceU (n : Fin 32) (s : State) : exec (.fenceU n) s = execFenceU n s := rfl
theorem exec_bar (n : Fin 32) (s : State) : exec (.bar n) s = execBar n s := rfl
theorem exec_cut (n : Fin 32) (s : State) : exec (.cut n) s = execCut n s := rfl
theorem exec_endI (n : Fin 32) (s : State) : exec (.endI n) s = execEndI n s := rfl
theorem exec_take (n : Fin 32) (a b : BitVec 5) (s : State) : exec (.take n a b) s = execTake n a b s := rfl

theorem fenceWaitsForStores : FenceWaitsForStores := by
  intro s n j h mem
  have fence : ∀ c : Core, (c.heldAt (.fence c.xorder)).unhold = { c.endSweep with
      hold := if c.xfers.any (fun p => p.2.store && p.2.state != .done && decide (p.2.order < c.xorder))
        then some (.fence c.xorder) else none } := fun c => by
    rw [unhold_eq]
    rfl
  have i := issued_modCore h 8 (f := fun c => c.heldAt (.fence c.xorder)) ⟨fun _ => rfl, fun _ => rfl⟩
  have done := done_of_issued h mem i rfl (by
    unfold Core.NoCollective
    rw [fence]
    dsimp only
    split <;> rfl)
  simp only [fence] at done
  rw [exec_fenceU, execFenceU]
  exact issue_then (len := 8) (held := noHold) h h.2 rfl rfl done

theorem collectivesHold : CollectivesHold := by
  intro s n j a b m h _ hm ne free
  refine ⟨?_, ?_⟩
  · simp only [List.forall_mem_cons]
    refine ⟨?_, ?_, ?_, fun _ x => nomatch x⟩
    · exact ⟨_, hold_runs h .bar, holdAt_waits h .bar hm ne free rfl⟩
    · exact ⟨_, hold_runs h .cut, holdAt_waits h .cut hm ne free rfl⟩
    · exact ⟨_, hold_runs h .finished, holdAt_waits h .finished hm ne free rfl⟩
  · dsimp only
    intro hb places aligned
    have e := core_retire s n.val j 8 n.val
    have ea : ((s.retire n.val j 8).core n.val).sreg a = (s.core n.val).sreg a := (congrArg (fun c => c.sreg a) e :)
    have et : ((s.retire n.val j 8).core n.val).areg b = (s.core n.val).areg b := (congrArg (fun c => c.areg b) e :)
    rw [exec_take, execTake]
    refine issue_then (len := 8) (held := noHold) h h.2 (by simpa [isA] using hb) rfl ?_
    rw [ea, et, if_neg (by omega)]
    exact holdAt_waits h _ hm ne free rfl

/-! ### Every core at a collective (R193) -/

/-- The collectives that the cores of a job are at. -/
def State.holds (s : State) (cores : List Nat) : List Hold :=
  cores.filterMap (fun n => (s.core n).hold.bind (fun h => h.kind.map (fun _ => h)))

theorem holds_eq {s : State} {cores : List Nat} {g : Nat → Hold} (kind : ∀ m ∈ cores, (g m).kind.isSome)
    (at_ : ∀ m ∈ cores, (s.core m).hold = some (g m)) : s.holds cores = cores.map g := by
  unfold State.holds
  rw [← List.filterMap_eq_map]
  refine List.filterMap_congr fun m hm => ?_
  obtain ⟨k, hk⟩ := Option.isSome_iff_exists.mp (kind m hm)
  rw [at_ m hm, Option.bind_some, hk]
  rfl

/-- A collective that takes place. -/
def State.takePlace (s : State) (ctx : Nat) (j : Job) (h : Hold) : State :=
  match h with
  | .bar => j.cores.foldl (fun s n => s.modCore n (fun c => { c with hold := none })) s
  | .cut => s.doCut ctx
  | .take places table => s.doTake ctx places table
  | .finished => s.endJob ctx {} noPc
  | .wait _ => s
  | .fence _ => s

theorem not_ended_of_onCores {j : Job} (h : j.onCores = true) : j.state ≠ .ended := by
  intro e
  rw [Job.onCores, e] at h
  cases h

section
variable {s : State} {ctx : Nat} {j : Job} (hj : s.job? ctx = some j) (on : j.onCores = true) (region : j.region = false)
include hj on region

/-- A job whose cores are all at collectives that differ fails (R193). -/
theorem collective_mixed {g : Nat → Hold} (kind : ∀ m ∈ j.cores, (g m).kind.isSome)
    (at_ : ∀ m ∈ j.cores, (s.core m).hold = some (g m)) {p q : Nat} (hp : p ∈ j.cores) (hq : q ∈ j.cores)
    (differ : g p ≠ g q) : s.collective ctx = s.failJob ctx .engineFault 5 (s.heldPc j) := by
  have all := holds_eq kind at_
  unfold State.holds at all
  unfold State.collective
  rw [hj]
  dsimp only
  rw [all, if_neg (by
    rw [on, region, List.length_map]
    simpa using List.ne_nil_of_mem hp)]
  cases hl : j.cores with
  | nil => rw [hl] at hp; cases hp
  | cons c cs =>
    rw [List.map_cons]
    dsimp only
    rw [if_pos]
    rw [List.any_eq_true]
    by_contra none_
    push Not at none_
    have each : ∀ m ∈ j.cores, g m = g c := by
      intro m hm
      rw [hl] at hm
      rcases List.mem_cons.mp hm with rfl | hm
      · rfl
      · have := none_ (g m) (List.mem_map_of_mem hm)
        simpa using this
    exact differ ((each p hp).trans (each q hq).symm)

/-- What a job does whose cores are all at one collective, at which they have done what they wait for. -/
theorem collective_arrived {h : Hold} (kind : h.kind.isSome) (some_ : j.cores ≠ [])
    (at_ : ∀ m ∈ j.cores, (s.core m).hold = some h) (arrived : ∀ m ∈ j.cores, (s.core m).arrived = true) :
    s.collective ctx = s.takePlace ctx j h := by
  have all := holds_eq (g := fun _ => h) (fun _ _ => kind) at_
  unfold State.holds at all
  unfold State.collective
  rw [hj]
  dsimp only
  rw [all, if_neg (by
    rw [on, region, List.length_map]
    simpa using some_)]
  cases hl : j.cores with
  | nil => exact absurd hl some_
  | cons c cs =>
    rw [List.map_cons]
    dsimp only
    rw [← hl, if_neg, if_neg]
    · cases h <;> rfl
    · rw [List.all_eq_true.mpr arrived]
      decide
    · rw [List.any_eq_true]
      rintro ⟨g, hg, ne⟩
      obtain ⟨_, _, rfl⟩ := List.mem_map.mp hg
      simp at ne

end

/-- Cores released from where they hold. -/
theorem core_release (l : List Nat) (s : State) {m : Nat} (lt : m < s.cores.length) :
    (l.foldl (fun s n => s.modCore n (fun c => { c with hold := none })) s).core m =
      if m ∈ l then { s.core m with hold := none } else s.core m := by
  induction l generalizing s with
  | nil => simp
  | cons n l ih =>
    rw [List.foldl_cons, ih _ (by simpa [State.modCore] using lt)]
    by_cases e : m = n
    · subst e
      rw [core_modCore _ _ _ _ lt, if_pos rfl, if_pos List.mem_cons_self]
      split <;> rfl
    · have : (s.modCore n (fun c => { c with hold := none })).core m = s.core m := by
        by_cases ln : n < s.cores.length
        · rw [core_modCore _ _ _ _ ln, if_neg e]
        · rw [State.core, State.modCore, State.setCore, List.set_eq_of_length_le (by omega), State.core]
      rw [this]
      simp only [List.mem_cons, e, false_or]

/-- The job of a core that has reached a collective. -/
structure HeldJob (s v : State) (n : Fin 32) (j k : Job) (hold : Hold) : Prop where
  body  : body v = body (s.modCore n.val (fun c => c.heldAt hold))
  job   : v.job? j.ctx = some k
  same  : jobBody k = jobBody j
  on    : k.onCores = true
  core  : (s.core n.val).job = some j.ctx

theorem held_job {s : State} {n : Fin 32} {j : Job} (h : Issues s n j) (hold : Hold) : ∃ k,
    HeldJob s ((s.retire n.val j 8).modCore n.val (fun c => c.heldAt hold)) n j k hold := by
  obtain ⟨ctx, hc, hj, -, on, -⟩ := issuing_eq h.1
  obtain rfl := ctx_of_job? hj
  have i := held_issued h hold
  obtain ⟨k, hk, ek⟩ := exists_job_of_body i.1 (j := j) (k := j.ctx) hj
  exact ⟨k, i.1, hk, ek, by
    rw [Job.onCores, show k.state = j.state from (congrArg Job.state ek :)]; exact on, hc⟩

theorem HeldJob.cores {s v : State} {n : Fin 32} {j k : Job} {hold : Hold} (h : HeldJob s v n j k hold) :
    k.cores = j.cores := (congrArg Job.cores h.same :)

theorem HeldJob.hold_eq {s v : State} {n : Fin 32} {j k : Job} {hold : Hold} (h : HeldJob s v n j k hold)
    (lt : n.val < s.cores.length) (m : Nat) : (v.core m).hold = if m = n.val then some hold else (s.core m).hold := by
  have e := core_of_body h.body m
  rw [core_modCore _ _ _ _ lt] at e
  refine (congrArg Core.hold e :).trans ?_
  split <;> rfl

theorem barReleasesAll : BarReleasesAll := by
  intro s n j h mem region
  have lt := issues_lt h
  obtain ⟨k, held⟩ := held_job h .bar
  have reg : k.region = false := (congrArg Job.region held.same :).trans region
  have run : exec (.bar n) s = .next ((s.retire n.val j 8).holdAt n.val .bar) := hold_runs h .bar
  rw [holdAt_collective h .bar held.core rfl] at run
  generalize (s.retire n.val j 8).modCore n.val (fun c => c.heldAt .bar) = v at *
  refine ⟨fun others => ?_, fun others differ done => ?_⟩
  · have at_ : ∀ m ∈ k.cores, (v.core m).hold = some .bar := fun m hm => by
      rw [held.hold_eq lt]
      split
      · rfl
      · rename_i ne
        exact others m (by rwa [held.cores] at hm) ne
    have all := collective_arrived held.job held.on reg (h := .bar) rfl
      (List.ne_nil_of_mem (by rw [held.cores]; exact mem)) at_ (fun m hm => by rw [Core.arrived, at_ m hm])
    refine ⟨_, run, fun m hm => ?_⟩
    rw [all, core_settle, State.takePlace, core_release _ _ (by rw [length_of_body held.body]; simpa [State.modCore] using hm), held.cores]
    have e := core_of_body held.body m
    rw [core_modCore _ _ _ _ lt] at e
    split
    · refine (congrArg (fun c : Core => { c with hold := none }) e :).trans ?_
      split
      · rename_i em
        subst em
        rfl
      · rfl
    · rename_i out
      rw [e, if_neg (by rintro rfl; exact out mem)]
  · obtain ⟨q, hq, ne⟩ := differ
    have at_ : ∀ m ∈ k.cores, (v.core m).hold = some (if m = n.val then .bar else .cut) := fun m hm => by
      rw [held.hold_eq lt]
      split
      · rfl
      · rename_i ne
        exact others m (by rwa [held.cores] at hm) ne
    have mixed := collective_mixed held.job held.on reg (g := fun m => if m = n.val then .bar else .cut)
      (fun m _ => by split <;> rfl) at_ (p := n.val) (q := q) (by rw [held.cores]; exact mem)
      (by rw [held.cores]; exact hq) (by rw [if_pos rfl, if_neg ne]; decide)
    refine ⟨_, v.heldPc k, run, ?_⟩
    rw [mixed]
    exact failed_settle (failed_failJob held.job (not_ended_of_onCores held.on)
      ((congrArg Job.endJobs held.same :).trans done) _ _ _)

/-- Settles O26, by the rules of FENCE.U, of a core that waits for others, and of BAR. -/
theorem fencesAndCollectives : Obligations.FencesAndCollectives :=
  ⟨fenceWaitsForStores, collectivesHold, barReleasesAll⟩

end Sys2Proof.Machine
end

section
/-!
SUPPORT. CUT, TAKE and END on a job of one core (R97, R98, R102, R201, R204, R231, R234).
-/

namespace Sys2Proof.Machine

open Sys2Proof.Safety

/-! ### Writes to T1 that the module encodes -/

/-- What an encode of T1 leaves of a state: all but the marks and flip-masks. -/
theorem t1Write_keeps {β : Type} (g : State → β) (hi : ∀ (s : State) i, g { s with integ := i } = g s) (s : State)
    (port req w : Nat) : g (s.t1Write port req w) = g s := by
  unfold State.t1Write
  extract_lets rest
  split
  · exact (hi _ _).trans (hi s _)
  · split
    · rfl
    · exact hi s _

theorem t1Encode_keeps {β : Type} (g : State → β) (hi : ∀ (s : State) i, g { s with integ := i } = g s) (s : State)
    (req owner off n : Nat) : g (s.t1Encode req owner off n) = g s := by
  unfold State.t1Encode
  extract_lets lost s'
  rw [hi]
  change g (s.t1Range req owner off n) = g s
  unfold State.t1Range
  split
  · rfl
  · exact foldl_keeps g _ (fun s a => t1Write_keeps g hi s _ _ _) _ s

@[simp] theorem t1Encode_jobs (s : State) (req owner off n : Nat) : (s.t1Encode req owner off n).jobs = s.jobs :=
  t1Encode_keeps State.jobs (fun _ _ => rfl) s req owner off n

@[simp] theorem t1Encode_cores (s : State) (req owner off n : Nat) : (s.t1Encode req owner off n).cores = s.cores :=
  t1Encode_keeps State.cores (fun _ _ => rfl) s req owner off n

@[simp] theorem t1Encode_cmds (s : State) (req owner off n : Nat) : (s.t1Encode req owner off n).link = s.link :=
  t1Encode_keeps State.link (fun _ _ => rfl) s req owner off n

/-- Every mark of T1 lies at a word or past it. -/
def MarksFrom (b : Nat) (s : State) : Prop := ∀ k ∈ s.integ.t1Ecc, b ≤ k.unit

theorem marksFrom_t1Write {b : Nat} {s : State} (h : MarksFrom b s) (port req : Nat) {w : Nat} (hw : b ≤ w) :
    MarksFrom b (s.t1Write port req w) := by
  have rest : ∀ k ∈ s.integ.t1Ecc.filter (fun k => k.unit / 8 != w / 8), b ≤ k.unit :=
    fun k hk => h k (List.mem_filter.mp hk).1
  unfold State.t1Write
  dsimp only
  cases e : s.t1Flip port req w with
  | some m =>
    intro k hk
    rcases List.mem_append.mp hk with old | new
    · exact rest k old
    · rw [List.mem_singleton] at new
      subst new
      unfold State.t1Flip at e
      dsimp only at e
      split at e
      · cases e
        exact hw.trans (Nat.le_add_right _ _)
      · cases e
  | none =>
    dsimp only
    split
    · exact h
    · exact rest

theorem marksFrom_t1Encode {b : Nat} {s : State} (h : MarksFrom b s) (req : Nat) {owner : Nat} (off n : Nat)
    (hb : b ≤ t1Base owner) : MarksFrom b (s.t1Encode req owner off n) := by
  have range : MarksFrom b (s.t1Range req owner off n) := by
    unfold State.t1Range
    split
    · exact h
    · have : ∀ (l : List Nat) (s : State), MarksFrom b s → MarksFrom b (l.foldl (fun s i =>
          s.t1Write (Config.t1Port (t1Base owner + (off / 64 + i)) % 48) req (t1Base owner + 8 * (off / 64 + i))) s) := by
        intro l
        induction l with
        | nil => exact fun _ h => h
        | cons a l ih => exact fun s h => ih _ (marksFrom_t1Write h _ _ (by omega))
      exact this _ s h
  intro k hk
  rcases List.mem_append.mp hk with old | new
  · exact range k (List.mem_filter.mp old).1
  · obtain ⟨m, hm, rfl⟩ := List.mem_map.mp new
    exact h m (List.mem_filter.mp (List.mem_filter.mp (List.mem_filter.mp hm).1).1).1


/-- A write where no mark lies writes its bytes. -/
theorem t1Merge_clean {s : State} {owner off : Nat} {bs : List Byte} (h : s.t1Marks owner off bs.length = []) (m : Mem) :
    s.t1Merge m owner off bs = Mem.write m off bs := by
  unfold State.t1Merge State.t1Partial
  rw [h]
  rfl

/-- Marks past the bytes of an owner are none of its own. -/
theorem t1Marks_before {b : Nat} {s : State} (h : MarksFrom b s) {owner off n : Nat}
    (hb : t1Base owner + ceilDiv (off + n) 64 * 8 ≤ b) : s.t1Marks owner off n = [] := by
  unfold State.t1Marks
  rw [List.filter_eq_nil_iff]
  intro k hk
  have := h k hk
  simp
  omega

/-! ### The Cut of a job of one core (R97, R98) -/

/-- The Cut that a job of one core takes, its core as it stands. -/
def Job.cutOf (j : Job) (c : Core) : Cut :=
  { slot := match j.lastCut with
      | some c => 1 - c.slot
      | none => 0
    cuts := j.cuts + 1, n := 1
    recs := saveCore j.slate (j.cuts + 1) c :: (match j.prevCut with
      | some c => c.recs.drop 1
      | none => []) }

/-- A job of one core after its Cut. -/
def Job.afterCut (j : Job) (c : Core) : Job :=
  { j with
    cuts := j.cuts + 1, lastCut := some (j.cutOf c), prevCut := j.lastCut, window := false
    acct := { j.acct with cuts := j.acct.cuts + 1, t1Bytes := j.acct.t1Bytes + 1 * j.slate.recordBytes }
    rail := { j.rail with t1 := j.rail.t1 + 1 * j.slate.recordBytes }
    shown := j.acct.engineCycles }

/-- The core of a job that takes a Cut, its transfers marked with what they have asked. -/
theorem core_asked {s : State} {n : Nat} (idle : (s.core n).xfers = []) (lt : n < s.cores.length) : ((s.dropRemote n).modCore n (fun c =>
    { c with xfers := c.xfers.map (fun p => (p.1, { p.2 with asked := p.2.progress })) })).core n = s.core n := by
  rw [core_modCore _ _ _ _ (by exact lt), if_pos rfl]
  have e : (s.dropRemote n).core n = s.core n := rfl
  rw [e, idle]
  change { s.core n with xfers := [] } = _
  rw [← idle]

section
variable {s : State} {ctx n : Nat} {j : Job} (hj : s.job? ctx = some j) (one : j.cores = [n])
  (idle : (s.core n).xfers = [])
include hj one idle

theorem job?_takeCut (lt : n < s.cores.length) : (s.takeCut ctx).job? ctx = some (j.afterCut (s.core n)) := by
  unfold State.takeCut
  rw [hj]
  dsimp only
  rw [one]
  simp only [List.zipIdx_cons, List.zipIdx_nil, List.foldl_cons, List.foldl_nil]
  rw [job?_congr (t1Encode_jobs _ _ _ _ _), job?_modJob _ _ _ _ (fun _ => by rfl), if_pos rfl]
  have e : ((s.dropRemote n).modCore n (fun c =>
    { c with xfers := c.xfers.map (fun p => (p.1, { p.2 with asked := p.2.progress })) })).job? ctx = some j := hj
  rw [e]
  simp only [List.map_cons, List.map_nil, core_asked idle lt]
  rfl

theorem core_takeCut (lt : n < s.cores.length) : (s.takeCut ctx).core n = s.core n ∧
    (s.takeCut ctx).cores.length = s.cores.length := by
  have cores : (s.takeCut ctx).cores = ((s.dropRemote n).modCore n (fun c =>
      { c with xfers := c.xfers.map (fun p => (p.1, { p.2 with asked := p.2.progress })) })).cores := by
    unfold State.takeCut
    rw [hj]
    dsimp only
    rw [one]
    simp only [List.zipIdx_cons, List.zipIdx_nil, List.foldl_cons, List.foldl_nil]
    rw [t1Encode_cores]
    rfl
  refine ⟨?_, ?_⟩
  · rw [State.core, cores, ← State.core, core_asked idle lt]
  · rw [cores, State.modCore, setCore_length]
    rfl

end

/-! ### The decision at a Cut, and what goes on (R108, R204) -/

/-- What a job needs so that a Cut of it continues. -/
structure Continues (j : Job) (boundary : Bool) : Prop where
  reclaims   : j.reclaims = []
  reclaiming : j.reclaiming = false
  closing    : j.closing = false
  running    : j.state = .running
  busy       : boundary = false ∨ j.slate.idleYield = false

theorem decide_continues {j : Job} {boundary : Bool} (h : Continues j boundary) : j.decide boundary = .continues := by
  unfold Job.decide
  rw [h.reclaims, h.reclaiming, h.closing, h.running]
  rcases h.busy with e | e <;> simp [e]

theorem continues_afterCut {j : Job} {boundary : Bool} (h : Continues j boundary) (c : Core) :
    Continues (j.afterCut c) boundary := ⟨h.reclaims, h.reclaiming, h.closing, h.running, h.busy⟩

/-- What a Cut of clean storage saves is not lost. -/
theorem saveLost_clean {s : State} {n : Nat} {j : Job} (one : j.cores = [n]) (ecc : (s.core n).osEcc = []) (lecc : (s.core n).lwbEcc = []) : s.saveLost j = false := by
  rw [State.saveLost, one]
  simp [Core.savedLost, ecc, listLost_clean lecc, lostIn, marksIn]

theorem noteSave_clean {s : State} {n : Nat} {j : Job} (one : j.cores = [n]) (ecc : (s.core n).osEcc = []) : s.noteSave j = s := by
  rw [State.noteSave, one, List.foldl_cons, List.foldl_nil]
  exact noteLocal_clean ecc (by decide) _

section
variable {s : State} {ctx n : Nat} {j : Job} (hj : s.job? ctx = some j) (one : j.cores = [n]) (lt : n < s.cores.length)
include hj one lt

/-- The only core of a job goes on after its Cut (R231). -/
theorem resumeCores_one (replay : j.replayDue = false) :
    (s.resumeCores ctx).job? ctx = some { j with replayDue := false } ∧
      (s.resumeCores ctx).core n = { s.core n with hold := none, cutKind := 0 } := by
  have e : s.resumeCores ctx = (s.modCore n (fun c => { c with hold := none, cutKind := 0 })).modJob ctx
      (fun j => { j with replayDue := false }) := by
    unfold State.resumeCores
    rw [hj]
    dsimp only
    rw [one, replay]
    rfl
  rw [e]
  refine ⟨?_, ?_⟩
  · rw [job?_modJob _ _ _ _ (fun _ => by rfl), if_pos rfl, job?_congr (modCore_jobs _ _ _), hj]
    rfl
  · rw [State.core, modJob_cores, ← State.core, core_modCore _ _ _ _ lt, if_pos rfl]

/-- A CUT of a job of one core that continues. -/
theorem doCut_continues (idle : (s.core n).xfers = []) (ecc : (s.core n).osEcc = []) (lecc : (s.core n).lwbEcc = [])
    (on : Continues j false) (replay : j.replayDue = false) :
    (s.doCut ctx).job? ctx = some { j.afterCut (s.core n) with replayDue := false } ∧
      (s.doCut ctx).core n = { s.core n with hold := none, cutKind := 0 } := by
  have job := job?_takeCut hj one idle lt
  obtain ⟨core, len⟩ := core_takeCut hj one idle lt
  unfold State.doCut
  rw [hj]
  dsimp only
  rw [noteSave_clean one ecc, saveLost_clean one ecc lecc, if_neg Bool.false_ne_true, job]
  dsimp only
  rw [decide_continues (continues_afterCut on _)]
  have := resumeCores_one job (n := n) one (by rw [len]; exact lt) replay
  rw [core] at this
  exact this

end

/-- The job that holds at a collective needs what the job needed. -/
theorem HeldJob.continues {s v : State} {n : Fin 32} {j k : Job} {hold : Hold} (held : HeldJob s v n j k hold)
    {boundary : Bool} (h : Continues j boundary) : Continues k boundary where
  reclaims := by
    have : k.reclaims.map (fun r => (r.1, [])) = j.reclaims.map (fun r => (r.1, ([] : List (Nat × Nat)))) :=
      (congrArg Job.reclaims held.same :)
    rw [h.reclaims] at this
    exact List.map_eq_nil_iff.mp this
  reclaiming := (congrArg Job.reclaiming held.same :).trans h.reclaiming
  closing := (congrArg Job.closing held.same :).trans h.closing
  running := (congrArg Job.state held.same :).trans h.running
  busy := h.busy.imp id fun e => (congrArg (fun j => j.slate.idleYield) held.same :).trans e

/-- The core that holds at a collective, in what an issue does not move. -/
theorem HeldJob.body_core {s v : State} {n : Fin 32} {j k : Job} {hold : Hold} (held : HeldJob s v n j k hold)
    (lt : n.val < s.cores.length) : coreBody (v.core n.val) = coreBody ((s.core n.val).heldAt hold) := by
  have e := core_of_body held.body n.val
  rwa [core_modCore _ _ _ _ lt, if_pos rfl] at e

/-- Without sweeps, none ends. -/
theorem endSweep_none {c : Core} (h : c.sweeps = []) : c.endSweep = c := by
  have : c.endSweep = { c with sweeps := [] } := by
    unfold Core.endSweep
    rw [h]
    rfl
  rw [this, ← h]

/-- A core without work of its units has arrived where it holds. -/
theorem arrived_idle {c : Core} (opening : c.opening = none) (tiles : c.tiles = []) (sweeps : c.sweeps = [])
    (idle : c.xfers = []) {h : Hold} (hold : c.hold = some h) (kind : h.kind.isSome) : c.arrived = true := by
  have drained : c.drained = true := by rw [Core.drained, opening, tiles, sweeps]; rfl
  unfold Core.arrived
  rw [hold]
  cases h with
  | wait x => cases kind
  | fence u => cases kind
  | bar => rfl
  | cut => simp [drained, idle]
  | take p t => simp [drained, idle]
  | finished => simp [drained, idle]

/-- The state in which the only core of a job has reached a collective, with no work left. -/
structure Alone (s v : State) (n : Fin 32) (j k : Job) (hold : Hold) : Prop where
  held   : HeldJob s v n j k hold
  one    : k.cores = [n.val]
  lt     : n.val < v.cores.length
  core   : coreBody (v.core n.val) = coreBody { s.core n.val with hold := some hold }
  pc     : (v.core n.val).pc = (s.core n.val).pc + 8
  idle   : (v.core n.val).xfers = []
  place  : v.collective j.ctx = v.takePlace j.ctx k hold

theorem alone_held {s : State} {n : Fin 32} {j : Job} (h : Issues s n j) {hold : Hold} (kind : hold.kind.isSome)
    (one : j.cores = [n.val]) (region : j.region = false) (idle : (s.core n.val).xfers = [])
    (opening : (s.core n.val).opening = none) (tiles : (s.core n.val).tiles = []) (sweeps : (s.core n.val).sweeps = []) :
    ∃ v k, (s.retire n.val j 8).holdAt n.val hold = (v.collective j.ctx).settle ∧ Alone s v n j k hold := by
  have lt := issues_lt h
  obtain ⟨k, held⟩ := held_job h hold
  have i := held_issued h hold
  refine ⟨_, k, holdAt_collective h hold held.core kind, ?_⟩
  generalize (s.retire n.val j 8).modCore n.val (fun c => c.heldAt hold) = v at *
  have body := held.body_core lt
  have e : coreBody (v.core n.val) = coreBody { s.core n.val with hold := some hold } := by
    rw [body, Core.heldAt, endSweep_none sweeps]
  have cores : k.cores = [n.val] := held.cores.trans one
  have at_ : ∀ m ∈ k.cores, (v.core m).hold = some hold := fun m hm => by
    rw [cores, List.mem_singleton] at hm
    rw [hm]
    exact (congrArg Core.hold e :)
  have arrived : ∀ m ∈ k.cores, (v.core m).arrived = true := fun m hm => by
    have hold' := at_ m hm
    rw [cores, List.mem_singleton] at hm
    subst hm
    exact arrived_idle ((congrArg Core.opening e :).trans opening) ((congrArg Core.tiles e :).trans tiles)
      ((congrArg Core.sweeps e :).trans sweeps) ((congrArg Core.xfers e :).trans idle) hold' kind
  exact
    { held := held, one := cores, lt := by rw [length_of_body held.body]; simpa [State.modCore] using lt
      core := e, pc := i.2, idle := (congrArg Core.xfers e :).trans idle
      place := collective_arrived held.job held.on ((congrArg Job.region held.same :).trans region) kind
        (by rw [cores]; simp) at_ arrived }

/-- Settles O20: the Cut of the held core is taken and the core goes on. -/
theorem cutSavesCore : Obligations.CutSavesCore := by
  intro s n j h on idle opening tiles sweeps
  obtain ⟨ecc, lecc, replay, one, running, reclaims, reclaiming, closing, region, -⟩ := on
  obtain ⟨v, k, run, alone⟩ := alone_held h (hold := .cut) rfl one region idle opening tiles sweeps
  have same := alone.held.same
  have e := alone.core
  obtain ⟨job, core⟩ := doCut_continues alone.held.job alone.one alone.lt alone.idle ((congrArg Core.osEcc e :).trans ecc)
    ((congrArg Core.lwbEcc e :).trans lecc) (alone.held.continues ⟨reclaims, reclaiming, closing, running, .inl rfl⟩)
    ((congrArg Job.replayDue same :).trans replay)
  have slate : k.slate = j.slate := (congrArg Job.slate same :)
  have cuts : k.cuts = j.cuts := (congrArg Job.cuts same :)
  have last : k.lastCut = j.lastCut := (congrArg Job.lastCut same :)
  have marks : (v.core n.val).osEcc = [] := (congrArg Core.osEcc e :).trans ecc
  refine ⟨_, { k.afterCut (v.core n.val) with replayDue := false }, k.cutOf (v.core n.val), saveCore k.slate (k.cuts + 1) (v.core n.val),
    (hold_runs h .cut).trans (congrArg _ (run.trans (congrArg State.settle alone.place))), ?_, rfl, rfl, rfl, ?_, ?_, ?_, ?_⟩
  · rw [job?_congr (settle_jobs _)]
    exact job
  · exact congrArg (· + 1) cuts
  · exact congrArg (· + 1) cuts
  · rw [← last]
    rfl
  · refine ⟨alone.pc, (congrArg Core.sregs e :), (congrArg Core.aregs e :), (congrArg Core.vregs e :),
      (congrArg Core.pregs e :), (congrArg Core.stack e :), (congrArg (fun c => (c.z, c.slt, c.ult)) e :), ?_, ?_, ?_⟩
    · rw [saveCore, slate]
      exact congrArg (fun x => if j.slate.carryAcc then x else []) (congrArg Core.acc e :)
    · rw [saveCore, slate, marks]
      exact congrArg (fun m => Sparse.extract m 0 j.slate.carryBytes) (congrArg Core.os e :)
    · rw [core_settle, State.takePlace, core]
      exact (congrArg (fun c : Core => { c with hold := none, cutKind := 0 }) e :)

/-! ### END (R234) -/

theorem endEndsJob : EndEndsJob := by
  intro s n j h one region done idle opening tiles sweeps
  obtain ⟨v, k, run, alone⟩ := alone_held h (hold := .finished) rfl one region idle opening tiles sweeps
  have on := not_ended_of_onCores alone.held.on
  have job := job?_endJob alone.held.job on ((congrArg Job.endJobs alone.held.same :).trans done) {} noPc
  refine ⟨_, _, (hold_runs h .finished).trans (congrArg _ (run.trans (congrArg State.settle alone.place))),
    (job?_congr (settle_jobs _) _).trans job, rfl, rfl, rfl, ?_⟩
  rw [core_settle, State.takePlace, State.core, cores_endJob alone.held.job on, ← State.core, job_freeCores_of_mem, alone.one,
    if_pos (List.mem_singleton.mpr rfl)]

/-! ### TAKE (R102, R201, R204) -/

/-- A job whose batch nothing leaves detaches nothing. -/
theorem detachLeaving_none {s : State} {ctx : Nat} {j : Job} (hj : s.job? ctx = some j) (none_ : j.leaving = []) :
    ∃ q, (s.detachLeaving ctx).job? ctx = some q ∧ q = { j with leaving := [] } := by
  unfold State.detachLeaving
  rw [hj]
  dsimp only
  refine ⟨_, (job?_congr (completeAll_jobs _ _ _) ctx).trans
    ((job?_modJob _ _ _ _ (fun _ => by rfl)).trans ((if_pos rfl).trans (congrArg (Option.map _) hj))), ?_⟩
  simp [none_]

/-- What a state's marks and cores are after what only moves jobs and completions. -/
theorem detachLeaving_cores (s : State) (ctx : Nat) : (s.detachLeaving ctx).cores = s.cores := by
  unfold State.detachLeaving
  split
  · rfl
  · exact (completeAll_cores _ _ _).trans (modJob_cores _ _ _)

/-- The number of admitted requests stored in a table that no mark covers (R202). -/
theorem setAdmitted_clean {s : State} {ctx table : Nat} {j : Job} (k : Nat) (hj : s.job? ctx = some j)
    (clean : s.t1Marks (j.handle + 100) (table + 4) 4 = []) :
    (s.setAdmitted ctx table k).job? ctx = some { j with
      writable := Mem.write j.writable (table + 4) (leBytes 4 k)
      rail := { j.rail with t1 := j.rail.t1 + 4 }
      acct := { j.acct with t1Bytes := j.acct.t1Bytes + 4 } } := by
  unfold State.setAdmitted
  rw [hj]
  dsimp only
  rw [job?_congr (t1Encode_jobs _ _ _ _ _), job?_modJob _ _ _ _ (fun _ => by rfl), if_pos rfl, hj, Option.map_some,
    t1Merge_clean (by rw [length_leBytes]; exact clean)]

theorem setAdmitted_cores (s : State) (ctx table k : Nat) : (s.setAdmitted ctx table k).cores = s.cores := by
  unfold State.setAdmitted
  split
  · rfl
  · exact (t1Encode_cores _ _ _ _ _).trans (modJob_cores _ _ _)

/-- Marks lie no lower after a Cut of a job whose Cut areas lie past them. -/
theorem marksFrom_takeCut {b : Nat} {s : State} (h : MarksFrom b s) {ctx : Nat} {j : Job} (hj : s.job? ctx = some j)
    (hb : b ≤ t1Base (recordOwner j.handle)) : MarksFrom b (s.takeCut ctx) := by
  have cores : ∀ (l : List Nat) (f : Core → Core) (s : State), MarksFrom b s →
      MarksFrom b (l.foldl (fun s n => (s.dropRemote n).modCore n f) s) := by
    intro l f
    induction l with
    | nil => exact fun _ h => h
    | cons a l ih => exact fun s h => ih _ h
  have records : ∀ (l : List (Nat × Nat)) (slot : Nat) (s : State), MarksFrom b s →
      MarksFrom b (l.foldl (fun s p => s.t1Encode p.1 (recordOwner j.handle) (j.recordRange p.2 slot).1
        (j.recordRange p.2 slot).2) s) := by
    intro l slot
    induction l with
    | nil => exact fun _ h => h
    | cons a l ih => exact fun s h => ih _ (marksFrom_t1Encode h _ _ _ hb)
  unfold State.takeCut
  rw [hj]
  exact records _ _ _ (cores _ _ _ h)

/-- A job at a Take boundary, before its Cut (R102). -/
def Job.atTake (j : Job) (table : Nat) : Job :=
  { j with
    takes := j.takes + 1
    rail := { j.rail with t1 := j.rail.t1 + (64 + 32 * Mem.field j.writable table 4) }
    acct := { j.acct with t1Bytes := j.acct.t1Bytes + (64 + 32 * Mem.field j.writable table 4) } }

/-- Where the marks of the Cut areas begin, no byte of a writable area lies. -/
theorem table_before {handle table : Nat} (h : table < 2 ^ 64) :
    t1Base (handle + 100) + ceilDiv (table + 4 + 4) 64 * 8 ≤ t1Base (recordOwner handle) := by
  unfold t1Base recordOwner ceilDiv
  omega

section
variable {s : State} {ctx n places table : Nat} {j : Job} (hj : s.job? ctx = some j) (one : j.cores = [n])
  (lt : n < s.cores.length)
include hj one lt

/-- What a Take without requests leaves when it goes on. -/
theorem admitAll_none (none_ : j.pendingReqs = []) (replay : j.replayDue = false)
    (clean : s.t1Marks (j.handle + 100) (table + 4) 4 = []) :
    ∃ q, (s.admitAll ctx places table).job? ctx = some q ∧ q.takes = j.takes ∧ q.cuts = j.cuts ∧
      q.writable = Mem.write j.writable (table + 4) (leBytes 4 0) ∧
      (s.admitAll ctx places table).core n = { s.core n with hold := none, cutKind := 0 } := by
  have e : s.admitAll ctx places table = ((s.setAdmitted ctx table 0).resumeCores ctx).releaseIdents := by
    unfold State.admitAll
    rw [hj]
    dsimp only
    rw [none_]
    rfl
  have cores := setAdmitted_cores s ctx table 0
  obtain ⟨job, core⟩ := resumeCores_one (setAdmitted_clean 0 hj clean) (n := n) one (by rw [cores]; exact lt) replay
  refine ⟨_, (congrArg (fun u : State => u.job? ctx) e).trans ((job?_congr (releaseIdents_jobs _) ctx).trans job),
    rfl, rfl, rfl, ?_⟩
  rw [e, State.core, releaseIdents_cores, ← State.core, core, State.core, cores, State.core]

/-- A Take of a job of one core that posts nothing, has no request, and goes on. -/
theorem doTake_continues (idle : (s.core n).xfers = []) (ecc : (s.core n).osEcc = []) (lecc : (s.core n).lwbEcc = [])
    (on : Continues j true) (replay : j.replayDue = false) (marks : s.integ.t1Ecc = []) (small : table < 2 ^ 64)
    (kind : j.slate.kind = 1) (reqs : j.pendingReqs = []) (leaving : j.leaving = []) (good : j.tableGood table places = true)
    (answers : j.answers table = []) :
    ∃ q, (s.doTake ctx places table).job? ctx = some q ∧ q.takes = j.takes + 1 ∧ q.cuts = j.cuts + 1 ∧
      q.writable = Mem.write j.writable (table + 4) (leBytes 4 0) ∧
      (s.doTake ctx places table).core n = { s.core n with hold := none, cutKind := 0 } := by
  have lost : s.tableLost j table = false := by
    simp [State.tableLost, State.t1Lost, State.t1Marks, marks]
  have j1 : (s.modJob ctx (fun j' => { j' with
        takes := j'.takes + 1
        rail := { j'.rail with t1 := j'.rail.t1 + (64 + 32 * Mem.field j.writable table 4) }
        acct := { j'.acct with t1Bytes := j'.acct.t1Bytes + (64 + 32 * Mem.field j.writable table 4) } })).job? ctx =
      some (j.atTake table) := by
    rw [job?_modJob _ _ _ _ (fun _ => by rfl), if_pos rfl, hj]
    rfl
  unfold State.doTake
  rw [hj]
  dsimp only
  rw [lost, saveLost_clean one ecc lecc, Bool.or_self, if_neg Bool.false_ne_true, good, if_neg (by decide), if_pos marks,
    noteSave_clean one ecc, answers, List.foldl_nil]
  have m1 : MarksFrom (t1Base (recordOwner j.handle)) (s.modJob ctx (fun j' => { j' with
        takes := j'.takes + 1
        rail := { j'.rail with t1 := j'.rail.t1 + (64 + 32 * Mem.field j.writable table 4) }
        acct := { j'.acct with t1Bytes := j'.acct.t1Bytes + (64 + 32 * Mem.field j.writable table 4) } })) := by
    intro k hk
    rw [modJob_integ, marks] at hk
    cases hk
  have c1 : (s.modJob ctx (fun j' => { j' with
        takes := j'.takes + 1
        rail := { j'.rail with t1 := j'.rail.t1 + (64 + 32 * Mem.field j.writable table 4) }
        acct := { j'.acct with t1Bytes := j'.acct.t1Bytes + (64 + 32 * Mem.field j.writable table 4) } })).cores = s.cores :=
    rfl
  generalize s.modJob ctx _ = u at *
  have cu : u.core n = s.core n := by rw [State.core, c1, State.core]
  have lu : n < u.cores.length := by rw [c1]; exact lt
  have j2 := job?_takeCut j1 (n := n) one (by rw [cu]; exact idle) lu
  obtain ⟨core2, len2⟩ := core_takeCut j1 (n := n) one (by rw [cu]; exact idle) lu
  have m2 := marksFrom_takeCut m1 j1 le_rfl
  obtain ⟨q, j3, hq⟩ := detachLeaving_none j2 leaving
  have c3 := detachLeaving_cores (u.takeCut ctx) ctx
  have i3 : ((u.takeCut ctx).detachLeaving ctx).integ = (u.takeCut ctx).integ := by
    unfold State.detachLeaving
    split
    · rfl
    · exact (completeAll_integ _ _ _).trans (modJob_integ _ _ _)
  have m3 : MarksFrom (t1Base (recordOwner j.handle)) ((u.takeCut ctx).detachLeaving ctx).releaseIdents := by
    intro k hk
    exact m2 k (by rw [← i3]; exact hk)
  have j4 : ((u.takeCut ctx).detachLeaving ctx).releaseIdents.job? ctx = some q :=
    (job?_congr (releaseIdents_jobs _) ctx).trans j3
  have core4 : ((u.takeCut ctx).detachLeaving ctx).releaseIdents.core n = s.core n := by
    rw [State.core, releaseIdents_cores, c3, ← State.core, core2, cu]
  have l4 : n < ((u.takeCut ctx).detachLeaving ctx).releaseIdents.cores.length := by
    rw [releaseIdents_cores, c3, len2]
    exact lu
  generalize ((u.takeCut ctx).detachLeaving ctx).releaseIdents = w at *
  rw [j4]
  dsimp only
  subst hq
  have dec : Continues ({ (j.atTake table).afterCut (u.core n) with leaving := [] } : Job) true :=
    ⟨on.reclaims, on.reclaiming, on.closing, on.running, on.busy⟩
  rw [decide_continues dec]
  dsimp only
  rw [if_neg (by rw [show ((j.atTake table).afterCut (u.core n)).slate.kind = 1 from kind]; decide)]
  dsimp only
  have fin := admitAll_none (places := places) j4 one l4 reqs replay (t1Marks_before m3 (table_before small))
  rw [core4] at fin
  exact fin

end

theorem takeGoesOn : TakeGoesOn := by
  intro s n j a b h on
  dsimp only
  intro idle opening tiles sweeps hb most aligned marks kind yields reqs good answers
  obtain ⟨ecc, lecc, replay, one, running, reclaims, reclaiming, closing, region, leaving⟩ := on
  generalize hp : ((s.core n.val).sreg a).toNat = places at *
  have small : ((s.core n.val).areg b).toNat < 2 ^ 64 := ((s.core n.val).areg b).isLt
  generalize ht : ((s.core n.val).areg b).toNat = table at *
  obtain ⟨v, k, run, alone⟩ := alone_held h (hold := .take places table) rfl one region idle opening tiles sweeps
  have same := alone.held.same
  have e := alone.core
  have r := core_retire s n.val j 8 n.val
  have ra : ((s.retire n.val j 8).core n.val).sreg a = (s.core n.val).sreg a := (congrArg (fun c => c.sreg a) r :)
  have rt : ((s.retire n.val j 8).core n.val).areg b = (s.core n.val).areg b := (congrArg (fun c => c.areg b) r :)
  have exe : exec (.take n a b) s = .next ((s.retire n.val j 8).holdAt n.val (.take places table)) := by
    rw [exec_take, execTake, issue_next (len := 8) (held := noHold) h h.2 (by simpa [isA] using hb) rfl]
    rw [ra, rt, hp, ht, if_neg (by omega)]
  obtain ⟨q, job, takes, cuts, writable, core⟩ := doTake_continues (places := places) alone.held.job alone.one alone.lt
    alone.idle ((congrArg Core.osEcc e :).trans ecc) ((congrArg Core.lwbEcc e :).trans lecc)
    (alone.held.continues ⟨reclaims, reclaiming, closing, running, .inr yields⟩)
    ((congrArg Job.replayDue same :).trans replay)
    ((congrArg (fun u : State => u.integ.t1Ecc) alone.held.body :).trans marks) small
    ((congrArg (fun j => j.slate.kind) same :).trans kind) ((congrArg Job.pendingReqs same :).trans reqs)
    ((congrArg Job.leaving same :).trans leaving) ((congrArg (fun j => j.tableGood table places) same :).trans good)
    ((congrArg (fun j => j.answers table) same :).trans answers)
  have hw : k.writable = j.writable := (congrArg Job.writable same :)
  refine ⟨_, q, exe.trans (congrArg _ (run.trans (congrArg State.settle alone.place))),
    (job?_congr (settle_jobs _) _).trans job, ?_, ?_, ?_, ?_, ?_, ?_⟩
  · rw [takes]
    exact congrArg (· + 1) (congrArg Job.takes same :)
  · rw [cuts]
    exact congrArg (· + 1) (congrArg Job.cuts same :)
  · rw [writable, hw]
  · rw [core_settle, State.takePlace, core]
  · rw [core_settle, State.takePlace, core]
  · rw [core_settle, State.takePlace, core]
    exact (congrArg Core.sregs e :)

/-- Settles O27, by the rules of TAKE and END on one core. -/
theorem takeAndEnd : Obligations.TakeAndEnd := ⟨takeGoesOn, endEndsJob⟩

end Sys2Proof.Machine
end

section
/-!
SUPPORT. Fences, tile faults and job faults (R194, R196 to R198, R373 to R377).
-/

namespace Sys2Proof.Machine

open Sys2Proof.Safety

/-! ### Fencing a core (R373) -/

/-- Folding a block's counters keeps what counters do not touch. -/
theorem foldBlock_keeps {β : Type} (g : State → β)
    (hd : ∀ (s : State) f d, g { s with free := f, dailies := d } = g s) (s : State) (b : Nat) :
    g (s.foldBlock b) = g s :=
  foldl_keeps g _ (fun s _ => hd s _ _) _ s

theorem foldBlock_cores (s : State) (b : Nat) : (s.foldBlock b).cores = s.cores :=
  foldBlock_keeps State.cores (fun _ _ _ => rfl) s b

theorem foldBlock_integ (s : State) (b : Nat) : (s.foldBlock b).integ = s.integ :=
  foldBlock_keeps State.integ (fun _ _ _ => rfl) s b

section
variable {s : State} {n : Nat} (lt : n < s.cores.length) (job : (s.core n).job = none) (cause : Nat) (same : Bool)
include job

/-- Fencing a core without a job. -/
theorem fenceCore_free : (s.fenceCore n cause same).cores =
      (((s.modCore n (fun c => { c with pod := none }))).freeCore n).cores ∧
    (s.fenceCore n cause same).integ = { s.integ with
      fenced := setBits s.integ.fenced n
      fenceCause := s.integ.fenceCause ||| BitVec.ofNat 64 (cause * 4 ^ n)
      event := setBits s.integ.event 1 } := by
  unfold State.fenceCore
  dsimp only
  rw [job]
  have hc := foldBlock_cores s n
  have hi := foldBlock_integ s n
  generalize s.foldBlock n = t at *
  refine ⟨?_, ?_⟩
  · simp only [State.freeCore, State.modCore, State.setCore, State.core]
    change ((t.cores.set n _).set n _) = _
    rw [hc]
    rfl
  · rw [← hi]
    rfl

include lt

theorem fenceCore_cores (m : Nat) : (s.fenceCore n cause same).core m =
    if m = n then ((s.modCore n (fun c => { c with pod := none })).freeCore n).core n else s.core m := by
  rw [State.core, (fenceCore_free job cause same).1, ← State.core]
  split
  · rename_i e
    rw [e]
  · rename_i e
    have l' : n < ((s.modCore n (fun c => { c with pod := none })).dropRemote n).cores.length := by
      change n < (s.modCore n (fun c => { c with pod := none })).cores.length
      simpa [State.modCore] using lt
    rw [State.freeCore, core_modCore _ _ _ _ l', if_neg e]
    change (s.modCore n (fun c => { c with pod := none })).core m = _
    rw [core_modCore _ _ _ _ lt, if_neg e]

/-- A fenced core belongs to no Pod and has no job (R373). -/
theorem fenceCore_core : ((s.fenceCore n cause same).core n).pod = none ∧ ((s.fenceCore n cause same).core n).job = none := by
  have l' : n < ((s.modCore n (fun c => { c with pod := none })).dropRemote n).cores.length := by
    change n < (s.modCore n (fun c => { c with pod := none })).cores.length
    simpa [State.modCore] using lt
  have e : ((s.modCore n (fun c => { c with pod := none })).dropRemote n).core n = { s.core n with pod := none } := by
    change (s.modCore n (fun c => { c with pod := none })).core n = _
    rw [core_modCore _ _ _ _ lt, if_pos rfl]
  rw [fenceCore_cores lt job, if_pos rfl, State.freeCore, core_modCore _ _ _ _ l', if_pos rfl, e]
  exact ⟨rfl, rfl⟩

end

theorem exec_coreFence (n : Fin 32) (repeated : Bool) (s : State) :
    exec (.coreFence n repeated) s = execCoreFence n repeated s := rfl
theorem exec_heartbeatTimeout (n : Fin 32) (s : State) :
    exec (.heartbeatTimeout n) s = execHeartbeatTimeout n s := rfl

/-- What a fence of a core without a job leaves. -/
theorem fenced_settled {s : State} {n : Fin 32} (lt : n.val < s.cores.length) (job : (s.core n.val).job = none)
    (cause : Nat) (same : Bool) :
    let t := (s.fenceCore n.val cause same).settle
    (t.core n.val).pod = none ∧ (t.core n.val).job = none ∧ t.integ.fenced.getLsbD n.val = true ∧
      t.integ.event.getLsbD 1 = true ∧ t.integ.fenceCause = s.integ.fenceCause ||| BitVec.ofNat 64 (cause * 4 ^ n.val) ∧
      ∀ m, m ≠ n.val → t.core m = s.core m := by
  obtain ⟨pod, none_⟩ := fenceCore_core lt job cause same
  have integ := (fenceCore_free job cause same).2
  have := n.isLt
  dsimp only
  rw [settle_integ, core_settle, integ]
  refine ⟨pod, none_, ?_, ?_, rfl, fun m ne => ?_⟩
  · rw [getLsbD_setBits _ _ (by omega)]
    simp
  · rw [getLsbD_setBits _ _ (by decide)]
    simp
  · rw [core_settle, fenceCore_cores lt job, if_neg ne]

/-- Settles O30, by what a fence leaves. -/
theorem fencesTakeCores : Obligations.FencesTakeCores := by
  intro s n ok lt job row hr
  have able : ¬ s.fenceable n.val = false := by rw [ok]; decide
  have check : ∃ same, exec row.1 s = .next (s.fenceCore n.val row.2 same).settle := by
    rcases List.mem_append.mp hr with base | third
    · simp only [List.mem_cons, List.not_mem_nil, or_false] at base
      rcases base with rfl | rfl
      · exact ⟨false, by rw [exec_coreFence, execCoreFence, if_neg able, if_neg (by decide)]⟩
      · exact ⟨false, by rw [exec_heartbeatTimeout, execHeartbeatTimeout, if_pos ok]⟩
    · split at third
      · rename_i three
        obtain rfl := List.mem_singleton.mp third
        exact ⟨true, by rw [exec_coreFence, execCoreFence, if_neg able, if_pos rfl, if_pos three]⟩
      · cases third
  obtain ⟨same, run⟩ := check
  exact ⟨_, run, fenced_settled lt job row.2 same⟩

/-! ### Tile faults (R194, R196, R259) -/

theorem exec_tileFault (n : Fin 32) (s : State) : exec (.tileFault n) s = execTileFault n s := rfl

/-- While a tile waits for its run and no finish run is under way, none is due (R272). -/
theorem finishDue_none {c : Core} {t : Tile} {rest : List Tile} (tiles : c.tiles = t :: rest)
    (run : c.run.map (fun r => r.kind) ≠ some 2) : c.finishDue = none := by
  unfold Core.finishDue
  split
  · rfl
  · rename_i k i ph _
    rw [if_pos]
    rw [tiles]
    cases e : c.run with
    | none => simp
    | some r =>
      rw [e] at run
      have : r.kind ≠ 2 := fun x => run (congrArg some x)
      simp [Core.freeFor, e, this]

/-- What dropping an ESTORE moves is the transfer slots of its core, and requests. -/
theorem dropEstore_moves (s : State) (n : Nat) (t : Tile) : (s.dropEstore n t).jobs = s.jobs ∧
    (s.dropEstore n t).integ = s.integ ∧ ∃ x, (s.dropEstore n t).cores = (s.modCore n (fun c => { c with xfers := x })).cores := by
  unfold State.dropEstore
  dsimp only
  split
  · exact ⟨rfl, rfl, _, rfl⟩
  · exact ⟨rfl, rfl, (s.core n).xfers, (congrArg State.cores (setCore_self s n)).symm⟩

/-- A core with its run discarded. -/
theorem dropRun_fields (c : Core) (slot : Nat) : (c.dropRun slot).run = none ∧
    (∀ r, c.run = some r → (c.dropRun slot).vregs = r.vregs ∧ (c.dropRun slot).pregs = r.pregs) ∧
    (c.dropRun slot).sregs = c.sregs ∧ (c.dropRun slot).os = c.os ∧ (c.dropRun slot).tiles = c.tiles := by
  unfold Core.dropRun
  split
  · rename_i e
    refine ⟨e, fun r h => ?_, rfl, rfl, rfl⟩
    rw [e] at h
    cases h
  · rename_i r e
    refine ⟨rfl, fun q h => ?_, rfl, rfl, rfl⟩
    rw [e] at h
    cases h
    exact ⟨rfl, rfl⟩

theorem tileFaultsCount : TileFaultsCount := by
  intro s n j t rest job tiles run few
  have lt := unitJob_lt job
  have drop := dropRun_fields (s.core n.val) ((dEpilogue t.desc).getD 0)
  obtain ⟨hrun, hregs, hs, ho, ht⟩ := drop
  have exe : exec (.tileFault n) s = .next
      (((s.setCore n.val ((s.core n.val).tileFault t)).dropEstore n.val t).count n.val 8 1) := by
    rw [exec_tileFault, execTileFault, job]
    dsimp only
    rw [finishDue_none tiles run, tiles]
    dsimp only [Option.bind_none]
    rw [State.afterTileFault, if_pos few]
  obtain ⟨jobs, integ, x, cores⟩ := dropEstore_moves (s.setCore n.val ((s.core n.val).tileFault t)) n.val t
  have core : (((s.setCore n.val ((s.core n.val).tileFault t)).dropEstore n.val t).count n.val 8 1).core n.val =
      { (s.core n.val).tileFault t with xfers := x } := by
    rw [State.core, count_cores, cores, ← State.core, core_modCore _ _ _ _ (by simpa using lt), if_pos rfl,
      core_setCore _ _ _ _ lt, if_pos rfl]
  refine ⟨_, exe, ?_, ?_, fun r hr => ?_, ?_, ?_, jobs, integ⟩
  · rw [core]
    change (s.core n.val).tiles.modify 0 (fun t => { t with faults := t.faults + 1 }) = _
    rw [tiles]
    rfl
  · rw [core]; exact hrun
  · rw [core]; exact hregs r hr
  · rw [core]; exact hs
  · rw [core]; exact ho

/-! ### Job faults (R197, R198, R374, R376) -/

theorem exec_jobFault (ctx : Nat) (core : Option (Fin 32)) (s : State) :
    exec (.jobFault ctx core) s = execJobFault ctx core s := rfl

/-- What an attributed fault moves is the fault count of its core. -/
theorem blamed_jobs (s : State) (n : Nat) : (s.blamed n).jobs = s.jobs := by
  unfold State.blamed
  dsimp only
  split <;> rfl

theorem blamed_integ (s : State) (n : Nat) : (s.blamed n).integ = s.integ := by
  unfold State.blamed
  dsimp only
  split <;> rfl

theorem blamed_length (s : State) (n : Nat) : (s.blamed n).cores.length = s.cores.length := by
  unfold State.blamed
  dsimp only
  split <;> simp [State.modCore, State.fresh]

/-- A job replaced by another of its context. -/
theorem job?_replace {s : State} {ctx : Nat} {j : Job} (hj : s.job? ctx = some j) {k : Job} (hk : k.ctx = ctx) :
    (s.modJob ctx (fun _ => k)).job? ctx = some k := by
  have := find_map_key Job.ctx (fun _ => k) ctx (fun _ _ => hk) s.jobs ctx
  refine (this.trans (if_pos rfl)).trans ?_
  rw [show s.jobs.find? (fun x => x.ctx == ctx) = some j from hj]
  rfl

/-- Opening the window of a job without a Storyboard moves neither jobs nor cores. -/
theorem openWindow_none {s : State} {ctx : Nat} {j : Job} (hj : s.job? ctx = some j) (none_ : j.slate.storyboard = 0) :
    (s.openWindow ctx []).jobs = s.jobs ∧ (s.openWindow ctx []).cores = s.cores := by
  have now : s.window j = [] := by
    rw [State.window, Job.board, if_pos none_]
  unfold State.openWindow
  rw [hj]
  dsimp only
  rw [now]
  exact ⟨rfl, rfl⟩

/-- Forgetting the marks of an owner keeps what marks do not touch. -/
theorem t1Forget_keeps {β : Type} (g : State → β) (hi : ∀ (s : State) i, g { s with integ := i } = g s) (s : State)
    (owner : Nat) : g (s.t1Forget owner) = g s := by
  unfold State.t1Forget
  split
  · rfl
  · exact hi _ _

/-- Placing a job on one core. -/
theorem placeJob_one {s : State} {j : Job} {n : Nat} (hj : s.job? j.ctx = some j) (lt : n < s.cores.length) (kind : Nat) :
    (∃ acct rail, (s.placeJob j [n] kind).job? j.ctx = some { j with acct := acct, rail := rail }) ∧
      (∃ old, (s.placeJob j [n] kind).core n = placedCore j 1 0 kind old) ∧
      (s.placeJob j [n] kind).cores.length = s.cores.length := by
  have wj : (s.wipeCore n).jobs = s.jobs :=
    (t1Forget_keeps State.jobs (fun _ _ => rfl) _ _).trans (foldBlock_keeps State.jobs (fun _ _ _ => rfl) s n)
  have wl : (s.wipeCore n).cores.length = s.cores.length := by
    refine (congrArg List.length (t1Forget_keeps State.cores (fun _ _ => rfl) _ _)).trans ?_
    rw [setCore_length]
    exact congrArg List.length (foldBlock_cores s n)
  refine ⟨⟨_, _, ((job?_modJob _ _ _ _ (fun _ => by rfl)).trans (if_pos rfl)).trans
      (congrArg (Option.map _) ((job?_congr wj j.ctx).trans hj))⟩, ⟨(s.wipeCore n).core n, ?_⟩, ?_⟩
  · change ((s.wipeCore n).modCore n (fun old => placedCore j 1 0 kind old)).core n = _
    rw [core_modCore _ _ _ _ (by rw [wl]; exact lt), if_pos rfl]
  · change ((s.wipeCore n).modCore n (fun old => placedCore j 1 0 kind old)).cores.length = _
    rw [State.modCore, setCore_length, wl]

/-- Releasing the cores of a job moves no mark. -/
theorem freeCores_integ (s : State) (ctx : Nat) : (s.freeCores ctx).integ = s.integ := by
  unfold State.freeCores
  split
  · rfl
  · exact foldl_keeps State.integ State.freeCore (fun _ _ => rfl) _ _

theorem freeCores_length (s : State) (ctx : Nat) : (s.freeCores ctx).cores.length = s.cores.length := by
  unfold State.freeCores
  split
  · rfl
  · refine foldl_keeps (fun s => s.cores.length) State.freeCore (fun s a => ?_) _ _
    change (s.cores.set a _).length = _
    rw [List.length_set]

theorem recordLost_congr {s t : State} (h : t.integ = s.integ) (j : Job) (n : Nat) : t.recordLost j n = s.recordLost j n := by
  unfold State.recordLost State.t1Lost State.t1Marks
  rw [h]

/-- What a core of a replayed job holds: its placed content, with the counts it had and the hold of an open
Take. -/
def replayedCore (placed counts : Core) (hold : Option Hold) : Core :=
  { placed with runCycles := counts.runCycles, windCycles := counts.windCycles, hold := hold }

/-- A job that starts again from its last Cut. -/
def Job.again (j : Job) (n : Nat) (due : Bool) : Job :=
  { j with cores := [n], cursor := 0, batch := j.batch.map (fun b => { b with replayed := true }), region := due, replayDue := due }

/-- The core of a replayed job takes back the counts it had, and the hold of an open Take. -/
def State.recount (s : State) (n : Nat) (counts : Core) (hold : Option Hold) : State :=
  s.modCore n (fun c => replayedCore c counts hold)

/-- The steps of a replay on one core, which no lost record stops (R198). -/
theorem replay_eq {s : State} {ctx n : Nat} {j : Job} (hj : s.job? ctx = some j) (cores : j.cores = [n])
    (few : j.slate.minCores ≤ 1) (there : s.recordLost j 1 = false) :
    ∃ due hold, s.replay ctx [n] = (((((s.freeCores ctx).modJob ctx (fun _ => j.again n due)).placeJob (j.again n due) [n] 2).recount n
      (s.core n) hold).openWindow ctx []) := by
  have there' : (s.freeCores ctx).recordLost j 1 = false := (recordLost_congr (freeCores_integ s _) j 1).trans there
  have stay : ¬ (decide (j.slate.minCores ≤ [n].length) && (s.freeCores ctx).recordLost j [n].length) = true := by
    rw [List.length_singleton, there', Bool.and_false]
    decide
  unfold State.replay
  rw [hj]
  dsimp only
  rw [if_neg stay, if_neg (by rw [List.length_singleton]; omega), cores]
  generalize (if j.region = true then s.takeAt j else none) = open_
  refine ⟨open_.isSome, open_.map (fun t => .take t.1 t.2), ?_⟩
  simp only [List.foldl_cons, List.foldl_nil, List.map_cons, List.map_nil, List.find?_cons, BEq.rfl]
  rfl

/-- What a replay of a job on one core leaves of the job and the core. -/
theorem replay_one {s : State} {n : Nat} {j : Job} (hj : s.job? j.ctx = some j)
    (cores : j.cores = [n]) (lt : n < s.cores.length) (few : j.slate.minCores ≤ 1)
    (there : s.recordLost j 1 = false) (board : j.slate.storyboard = 0) :
    ∃ due acct rail old counts hold,
      (s.replay j.ctx [n]).job? j.ctx = some { j.again n due with acct := acct, rail := rail } ∧
      (s.replay j.ctx [n]).core n = replayedCore (placedCore j 1 0 2 old) counts hold := by
  obtain ⟨due, hold, run⟩ := replay_eq hj cores few there
  rw [run]
  have free : (s.freeCores j.ctx).job? j.ctx = some { j with cores := [] } := by
    rw [job?_freeCores, if_pos rfl, hj]
    rfl
  have again : ((s.freeCores j.ctx).modJob j.ctx (fun _ => j.again n due)).job? j.ctx = some (j.again n due) :=
    job?_replace free rfl
  have lt' : n < ((s.freeCores j.ctx).modJob j.ctx (fun _ => j.again n due)).cores.length := by
    change n < (s.freeCores j.ctx).cores.length
    rw [freeCores_length]
    exact lt
  generalize (s.freeCores j.ctx).modJob j.ctx (fun _ => j.again n due) = t at *
  obtain ⟨⟨acct, rail, job⟩, ⟨old, core⟩, len⟩ := placeJob_one (j := j.again n due) (n := n) again lt' 2
  generalize t.placeJob (j.again n due) [n] 2 = u at *
  have job' : (u.recount n (s.core n) hold).job? j.ctx = some { j.again n due with acct := acct, rail := rail } := job
  obtain ⟨jobs, cores'⟩ := openWindow_none job' board
  refine ⟨due, acct, rail, old, s.core n, hold, (job?_congr jobs _).trans job', ?_⟩
  rw [State.core, cores', ← State.core, State.recount, core_modCore _ _ _ _ (by rw [len]; exact lt'), if_pos rfl, core]
  rfl

theorem jobFaultsReplay : JobFaultsReplay := by
  intro s n j unit hj cores len board
  obtain ⟨ctx, -, hj0, awake, on⟩ := unitJob_eq unit
  have lt : n.val < s.cores.length := by have := n.isLt; omega
  have exe : exec (.jobFault j.ctx (some n)) s = .next ((s.blamed n.val).jobFault j.ctx [n.val]).settle := by
    rw [exec_jobFault, execJobFault, hj]
    dsimp only
    rw [awake, on, cores, if_pos (by simp)]
    rfl
  have jobs := blamed_jobs s n.val
  have ja : (s.blamed n.val).job? j.ctx = some j := (job?_congr jobs _).trans hj
  have integ := blamed_integ s n.val
  have la := blamed_length s n.val
  rw [exe]
  unfold State.jobFault
  rw [ja]
  dsimp only
  rw [jobs]
  generalize s.blamed n.val = t at *
  refine ⟨fun closed few there => ?_, fun x mem pod open_ none_ => ?_⟩
  · have shut : ¬ s.jobs.any (fun x => x.pod == j.pod && x.window) = true := by
      simpa using closed
    rw [if_neg shut]
    have hw : (t.modJob j.ctx (fun j => { j with window := true })).job? j.ctx = some { j with window := true } := by
      refine ((job?_modJob _ _ _ _ (fun _ => by rfl)).trans (if_pos rfl)).trans ?_
      rw [ja]
      rfl
    have there' : (t.modJob j.ctx (fun j => { j with window := true })).recordLost { j with window := true } 1 = false :=
      (recordLost_congr integ _ 1).trans there
    obtain ⟨due, acct, rail, old, counts, hold, job, core⟩ := replay_one (j := { j with window := true }) hw cores (by rw [← la] at lt; exact lt) few there' board
    refine ⟨_, _, rfl, (job?_congr (settle_jobs _) _).trans job, rfl, rfl, rfl, ?_, fun fresh => ?_, fun cut r last one rec_ => ?_⟩
    · simp [Job.again]
    · rw [core_settle, core]
      simp only [replayedCore, placedCore, fresh, freshCore, and_self]
    · rw [core_settle, core]
      simp only [replayedCore, placedCore, last, one, rec_, restoredCore, Nat.zero_lt_one, if_true, and_self]
  · have some_ : s.jobs.any (fun x => x.pod == j.pod && x.window) = true :=
      List.any_eq_true.mpr ⟨x, mem, by rw [pod, open_]; simp⟩
    rw [if_pos some_]
    refine ⟨_, noPc, rfl, failed_settle (failed_failJob ja (not_ended_of_onCores on) none_ .doubleFault 10 noPc), ?_⟩
    rw [settle_integ]
    change (setBits _ 2).getLsbD 2 = true
    rw [getLsbD_setBits _ _ (by decide)]
    simp

/-- Settles O33: a tile fault by the core it leaves, a job fault by the job and core that its replay places. -/
theorem faultsReplay : Obligations.FaultsReplay := ⟨tileFaultsCount, jobFaultsReplay⟩

end Sys2Proof.Machine
end

section
/-!
SUPPORT. The start of a transfer (R139, R191).
-/

namespace Sys2Proof.Machine

open Sys2Proof.Safety

theorem exec_transferStart (n : Fin 32) (x : Fin 8) (s : State) :
    exec (.transferStart n x) s = execTransferStart n x s := rfl

/-- What follows work on a core of a job that waits for nothing are completions alone. -/
theorem settleCore_calm {u : State} {n ctx : Nat} {k : Job} (hc : (u.core n).job = some ctx)
    (hk : u.job? ctx = some k) (mem : n ∈ k.cores) (hold : (u.core n).hold = none) : u.settleCore n = u.settle := by
  have lt : n < u.cores.length := by
    by_contra out
    rw [core_past _ _ (by omega)] at hc
    cases hc
  have same := unhold_none hold
  rw [settleCore_idle lt (by rw [same]; exact hc) hk mem (noCollective_of_none hold), State.modCore, same, setCore_self]

/-- A transfer that begins. -/
def Xfer.begun (y : Xfer) : Xfer := { y with state := .active, asked := y.progress }

/-- A state in which the transfer of a slot has begun. -/
def State.begin (s : State) (n x : Nat) : State := s.modXfer n x Xfer.begun

section
variable {s : State} {n x : Nat} {j : Job} (unit : s.unitJob n = some j) (mem : n ∈ j.cores)
  (hold : (s.core n).hold = none)
include unit

theorem core_begin : (s.begin n x).core n =
    (s.core n).setXfer x ((s.core n).xfer x).begun := by
  rw [State.begin, State.modXfer, core_modCore _ _ _ _ (unitJob_lt unit), if_pos rfl]

theorem xfer_begin : ((s.begin n x).core n).xfer x = ((s.core n).xfer x).begun := by
  rw [core_begin unit]
  exact (lookupD_assocSet _ _ _ _ _).trans (if_pos rfl)

/-- A QUEUED transfer that nothing holds starts to reach for its beat. -/
theorem start_reaches (queued : ((s.core n).xfer x).state = .queued)
    (free : (s.core n).startHeld ((s.core n).xfer x) = false) (hn : n < 32) (hx : x < 8) :
    exec (.transferStart ⟨n, hn⟩ ⟨x, hx⟩) s = .next (((s.begin n x).reach n x []).settlePages.settleCore n) := by
  obtain ⟨ctx, hc, hj, awake, on⟩ := unitJob_eq unit
  rw [exec_transferStart, execTransferStart]
  dsimp only
  rw [hc, Option.bind_some, hj]
  dsimp only
  rw [if_neg (by rw [awake, on, queued, free]; decide)]
  rfl

end

/-- A transfer that reaches for its beat, where nothing bars it and no page is lost. -/
theorem reach_free {t : State} {n x ctx : Nat} {j : Job} {y : Xfer} (hc : (t.core n).job = some ctx) (hj : t.job? ctx = some j)
    (hy : (t.core n).xfer x = y) (active : y.state = .active) (more : y.progress < y.beats)
    (free : t.barred n x j y = none) (whole : ∀ pg ∈ t.xferPages j y, t.pageState pg.1 pg.2 ≠ .poisoned) :
    t.reach n x [] =
      (let s := (t.xferPages j y).foldl (fun s pg => (s.moveCursor j.ctx pg).usePage j.pod pg) t
       let need := if y.direct then (t.xferPages j y).filter (fun pg => s.pageLost pg.1 pg.2) else t.xferPages j y
       let s := need.foldl (fun s pg => s.claimPage j.pod j.ctx pg) s
       if need.all (s.holdsPage j.pod) then s else s.modXfer n x (fun x => { x with state := .parked })) := by
  unfold State.reach
  rw [hc, Option.bind_some, hj]
  dsimp only
  have all : (t.xferPages j y).filter (fun pg => !([] : List (Nat × Nat)).contains pg) = t.xferPages j y :=
    List.filter_eq_self.mpr (fun _ _ => rfl)
  rw [hy, if_neg (by simp only [active]; simp only [ne_eq, not_true_eq_false, false_or]; omega), free]
  dsimp only
  rw [if_neg (by simpa using whole), all]

/-- Nothing bars a beat whose places may be touched and are no other module's. -/
theorem barred_none {t : State} {n x : Nat} {j : Job} {y : Xfer}
    (may : ∀ a ∈ y.uAddrs y.progress, t.mayTouch j y.store a = true ∧ t.unreachable j a = false) :
    t.barred n x j y = none := by
  have h1 : (y.uAddrs y.progress).find? (fun a => !t.mayTouch j y.store a) = none := by
    rw [List.find?_eq_none]
    intro a ha
    rw [(may a ha).1]
    decide
  have h2 : (y.uAddrs y.progress).find? (t.unreachable j) = none := by
    rw [List.find?_eq_none]
    intro a ha
    rw [(may a ha).2]
    decide
  unfold State.barred
  dsimp only
  rw [h1]
  dsimp only
  rw [h2]

/-- A place in the writable area. -/
theorem place_writable (t : State) {j : Job} {a : Nat} (low : j.slate.writableBytes ≤ 0x000000C000000000)
    (lt : a < j.slate.writableBytes) : t.place j a = (.writable, a) := by
  rw [State.place, if_pos (by omega), if_pos lt]

/-! ### A beat in the writable area -/

theorem start_writable {s : State} {n : Fin 32} {x : Fin 8} {j : Job} (unit : s.unitJob n.val = some j)
    (mem : n.val ∈ j.cores) (hold : (s.core n.val).hold = none)
    (queued : ((s.core n.val).xfer x.val).state = .queued)
    (free : (s.core n.val).startHeld ((s.core n.val).xfer x.val) = false)
    (more : ((s.core n.val).xfer x.val).progress < ((s.core n.val).xfer x.val).beats)
    (within : ∀ a ∈ ((s.core n.val).xfer x.val).uAddrs ((s.core n.val).xfer x.val).progress, a < j.slate.writableBytes)
    (low : j.slate.writableBytes ≤ 0x000000C000000000) :
    exec (.transferStart n x) s = .next (s.begin n.val x.val).settlePages.settle := by
  obtain ⟨ctx, hc, hj, -, -⟩ := unitJob_eq unit
  rw [start_reaches unit queued free n.isLt x.isLt]
  have core := core_begin unit (x := x.val)
  have job : ((s.begin n.val x.val).core n.val).job = some ctx := by rw [core]; exact hc
  have slot := xfer_begin unit (x := x.val)
  have place : ∀ a ∈ ((s.core n.val).xfer x.val).begun.uAddrs ((s.core n.val).xfer x.val).begun.progress,
      (s.begin n.val x.val).place j a = (.writable, a) := fun a ha => place_writable _ low (within a ha)
  have none_ : (((s.core n.val).xfer x.val).begun.uAddrs ((s.core n.val).xfer x.val).begun.progress).filterMap
      ((s.begin n.val x.val).objectPage j) = [] := by
    rw [List.filterMap_eq_nil_iff]
    intro a ha
    rw [State.objectPage, place a ha]
  have pages : (s.begin n.val x.val).xferPages j ((s.core n.val).xfer x.val).begun = [] := by
    rw [State.xferPages, if_pos (show Xfer.progress (Xfer.begun _) < Xfer.beats (Xfer.begun _) from more), none_]
    rfl
  rw [reach_free job hj slot rfl more (barred_none fun a ha => ?_) (by rw [pages]; simp), pages]
  · rw [List.foldl_nil]
    simp only [List.filter_nil, ite_self, List.foldl_nil, List.all_nil, if_true]
    have hold' : ((s.begin n.val x.val).core n.val).hold = none := by rw [core]; exact hold
    rw [settleCore_calm (u := (s.begin n.val x.val).settlePages) job hj mem hold']
  · rw [State.mayTouch, State.unreachable, State.remoteAt, place a ha]
    exact ⟨rfl, rfl⟩

/-! ### A beat in an ABSENT page -/

/-- A page that nothing asks for has no entry; one asked for is added. -/
theorem page?_modPage_absent {s : State} {pg : Nat × Nat} (none_ : s.page? pg.1 pg.2 = none) (f : Page → Page) :
    s.modPage pg.1 pg.2 f = { s with pages := s.pages ++ [f { copy := pg.1, page := pg.2, state := .absent }] } := by
  rw [State.modPage, none_]

/-- A page asked for by a use that goes on stays QUEUED when pages settle (R126). -/
theorem settlePages_last {s : State} {P : List Page} {x : Page} (pages : s.pages = P ++ [x])
    (new : P.find? (fun y => y.copy == x.copy && y.page == x.page) = none) (queued : x.state = .queued) {p : Nat}
    (claims : x.claims = [p]) (used : 0 < s.useRefs p (x.copy, x.page)) :
    s.settlePages.pageState x.copy x.page = .queued := by
  have keep : x.claims.filter (fun p => decide (0 < s.useRefs p (x.copy, x.page))) = x.claims := by
    rw [claims, List.filter_singleton, decide_eq_true used]
    rfl
  have e : s.settlePages.page? x.copy x.page = some x := by
    rw [State.settlePages, State.page?, pages, List.filterMap_append, List.find?_append]
    dsimp only
    rw [List.find?_eq_none.mpr, Option.none_or, List.filterMap_cons, if_pos queued, keep,
      if_neg (by rw [claims]; simp)]
    · simp
    · intro y hy
      obtain ⟨z, hz, ez⟩ := List.mem_filterMap.mp hy
      have keys : y.copy = z.copy ∧ y.page = z.page := by
        split at ez
        · split at ez
          · cases ez
          · cases ez; exact ⟨rfl, rfl⟩
        · cases ez; exact ⟨rfl, rfl⟩
      rw [keys.1, keys.2]
      exact List.find?_eq_none.mp new z hz
  rw [State.pageState, e]
  exact queued

/-- A live transfer of a running job uses the pages of its beat (R125). -/
theorem useRefs_pos {s : State} {ctx n slot p : Nat} {j : Job} {y : Xfer} {pg : Nat × Nat} (hj : s.job? ctx = some j)
    (pod : j.pod = p) (on : j.onCores = true) (mem : n ∈ j.cores) (slot_ : (slot, y) ∈ (s.core n).xfers)
    (live : y.live = true) (at_ : pg ∈ s.xferPages j y) : 0 < s.useRefs p pg := by
  have one : 0 < s.jobRefs j pg := by
    rw [State.jobRefs, if_pos on]
    have : 0 < ((s.jobXfers j).filter (fun x => x.live && (s.xferPages j x).contains pg)).length := by
      refine List.length_pos_of_mem (List.mem_filter.mpr ⟨List.mem_flatten.mpr ⟨_, List.mem_map.mpr ⟨n, mem, rfl⟩,
        List.mem_map.mpr ⟨(slot, y), slot_, rfl⟩⟩, ?_⟩)
      rw [live, Bool.true_and]
      exact List.contains_iff_mem.mpr at_
    omega
  have sum := List.le_sum_of_mem (List.mem_map.mpr ⟨j, List.mem_filter.mpr
    ⟨List.mem_of_find?_eq_some hj, by rw [pod]; exact beq_self_eq_true p⟩, rfl⟩ :
    s.jobRefs j pg ∈ (s.jobs.filter (fun j => j.pod == p)).map (fun j => s.jobRefs j pg))
  rw [State.useRefs, State.refs]
  omega

/-- A place of an object, and nothing bars a read of it. -/
theorem objectPage_reads {t : State} {j : Job} {a : Nat} {pg : Nat × Nat} (h : t.objectPage j a = some pg) :
    t.mayTouch j false a = true ∧ t.unreachable j a = false := by
  unfold State.objectPage at h
  unfold State.mayTouch State.unreachable State.remoteAt
  split at h
  · rename_i e
    rw [e]
    exact ⟨rfl, rfl⟩
  · cases h

/-- The page of the beat of a transfer that begins, asked for, and the transfer PARKED. -/
def State.parkedFor (s : State) (n x : Nat) (j : Job) (pg : Nat × Nat) : State :=
  ((s.begin n x).modPage pg.1 pg.2 (fun y => { y with state := .queued, claims := [j.pod], charged := j.ctx })).modXfer n x
    (fun x => { x with state := .parked })

section
variable {s : State} {n : Fin 32} {x : Fin 8} {j : Job} {pg : Nat × Nat} {a : Nat} (unit : s.unitJob n.val = some j)
  (more : ((s.core n.val).xfer x.val).progress < ((s.core n.val).xfer x.val).beats)
  (beat : ((s.core n.val).xfer x.val).uAddrs ((s.core n.val).xfer x.val).progress = [a])
  (page : s.objectPage j a = some pg)
include more beat page

theorem xferPages_begun : (s.begin n.val x.val).xferPages j ((s.core n.val).xfer x.val).begun = [pg] := by
  have e : (((s.core n.val).xfer x.val).begun.uAddrs ((s.core n.val).xfer x.val).begun.progress) = [a] := beat
  have p : (s.begin n.val x.val).objectPage j a = some pg := page
  rw [State.xferPages, if_pos (show Xfer.progress (Xfer.begun _) < Xfer.beats (Xfer.begun _) from more), e, List.filterMap_cons, p]
  rfl

include unit

theorem reach_parks (load : ((s.core n.val).xfer x.val).store = false) (queue : ((s.core n.val).xfer x.val).direct = false)
    (absent : s.page? pg.1 pg.2 = none) (board : j.slate.storyboard = 0) :
    (s.begin n.val x.val).reach n.val x.val [] = s.parkedFor n.val x.val j pg := by
  obtain ⟨ctx, hc, hj, -, -⟩ := unitJob_eq unit
  have ctx_ : j.ctx = ctx := ctx_of_job? hj
  subst ctx_
  have core := core_begin unit (x := x.val)
  have job : ((s.begin n.val x.val).core n.val).job = some j.ctx := by rw [core]; exact hc
  have slot := xfer_begin unit (x := x.val)
  have pages := xferPages_begun more beat page
  have hj' : (s.begin n.val x.val).job? j.ctx = some j := hj
  have absent' : (s.begin n.val x.val).page? pg.1 pg.2 = none := absent
  have page' : (s.begin n.val x.val).objectPage j a = some pg := page
  have e : (((s.core n.val).xfer x.val).begun.uAddrs ((s.core n.val).xfer x.val).begun.progress) = [a] := beat
  have cursor : (s.begin n.val x.val).moveCursor j.ctx pg = s.begin n.val x.val := by
    rw [State.moveCursor, hj']
    dsimp only
    rw [State.entryOf, Job.board, if_pos board]
  have use : (s.begin n.val x.val).usePage j.pod pg = s.begin n.val x.val := by rw [State.usePage, absent']
  have claim : (s.begin n.val x.val).claimPage j.pod j.ctx pg = (s.begin n.val x.val).modPage pg.1 pg.2
      (fun y => { y with state := .queued, claims := [j.pod], charged := j.ctx }) := by
    rw [State.claimPage, absent']
  have waits : ((s.begin n.val x.val).modPage pg.1 pg.2
      (fun y => { y with state := .queued, claims := [j.pod], charged := j.ctx })).holdsPage j.pod pg = false := by
    rw [page?_modPage_absent absent', State.holdsPage, State.page?]
    dsimp only
    rw [List.find?_append, show (s.begin n.val x.val).pages.find? _ = none from absent', Option.none_or]
    simp
  rw [reach_free job hj' slot rfl more (barred_none fun b hb => ?_) fun q hq => ?_, pages]
  · dsimp only
    rw [List.foldl_cons, List.foldl_nil, cursor, use, show ((s.core n.val).xfer x.val).begun.direct = false from queue,
      if_neg Bool.false_ne_true, List.foldl_cons, List.foldl_nil, claim, List.all_cons, waits, Bool.false_and,
      if_neg Bool.false_ne_true]
    rfl
  · rw [e, List.mem_singleton] at hb
    rw [hb, show ((s.core n.val).xfer x.val).begun.store = false from load]
    exact objectPage_reads page'
  · rw [pages, List.mem_singleton] at hq
    rw [hq, State.pageState, absent']
    decide

omit more beat page in
theorem parkedFor_moves (absent : s.page? pg.1 pg.2 = none) :
    (s.parkedFor n.val x.val j pg).core n.val =
        ((s.core n.val).setXfer x.val ((s.core n.val).xfer x.val).begun).setXfer x.val
          { ((s.core n.val).xfer x.val).begun with state := .parked } ∧
      (s.parkedFor n.val x.val j pg).pages = s.pages ++
        [{ copy := pg.1, page := pg.2, state := .queued, claims := [j.pod], charged := j.ctx }] ∧
      (s.parkedFor n.val x.val j pg).jobs = s.jobs := by
  have absent' : (s.begin n.val x.val).page? pg.1 pg.2 = none := absent
  unfold State.parkedFor
  rw [page?_modPage_absent absent']
  refine ⟨?_, rfl, rfl⟩
  rw [State.modXfer, core_modCore _ _ _ _ (by simpa [State.begin, State.modXfer, State.modCore] using unitJob_lt unit), if_pos rfl]
  change ((s.begin n.val x.val).core n.val).setXfer x.val { ((s.begin n.val x.val).core n.val).xfer x.val with state := .parked } = _
  rw [xfer_begin unit, core_begin unit]

/-- The page asked for is QUEUED. -/
theorem parkedFor_queued (mem : n.val ∈ j.cores) (absent : s.page? pg.1 pg.2 = none) :
    (s.parkedFor n.val x.val j pg).settlePages.pageState pg.1 pg.2 = .queued := by
  obtain ⟨ctx, hc, hj, -, on⟩ := unitJob_eq unit
  obtain ⟨core, pages, jobs⟩ := parkedFor_moves (x := x) unit absent
  have absent' : (s.begin n.val x.val).page? pg.1 pg.2 = none := absent
  refine settlePages_last (x := { copy := pg.1, page := pg.2, state := .queued, claims := [j.pod], charged := j.ctx })
    pages absent rfl rfl (useRefs_pos (n := n.val) (slot := x.val) (y := { ((s.core n.val).xfer x.val).begun with state := .parked })
      ((job?_congr jobs ctx).trans hj) rfl on mem ?_ rfl ?_)
  · rw [core]
    exact List.mem_of_find?_eq_some (find?_assocSet_self _ _ _)
  · have same : (s.parkedFor n.val x.val j pg).objectPage j a = s.objectPage j a := by
      unfold State.parkedFor
      rw [page?_modPage_absent absent']
      rfl
    have e : Xfer.uAddrs { ((s.core n.val).xfer x.val).begun with state := .parked }
      (Xfer.progress { ((s.core n.val).xfer x.val).begun with state := .parked }) = [a] := beat
    rw [State.xferPages, if_pos (show Xfer.progress { ((s.core n.val).xfer x.val).begun with state := .parked } < Xfer.beats { ((s.core n.val).xfer x.val).begun with state := .parked } from more), e, List.filterMap_cons, same, page]
    simp

end

/-- Settles O28: a beat in the writable area reaches its place at once; one in an ABSENT page asks for the page. -/
theorem transfersStart : Obligations.TransfersStart := by
  intro s n x j unit mem hold
  dsimp only
  intro queued free more
  refine ⟨fun within low => ?_, fun pg a beat page load queue absent board _ => ?_⟩
  · refine ⟨_, start_writable unit mem hold queued free more within low, ?_⟩
    rw [core_settle]
    exact congrArg coreBody (core_begin unit)
  · obtain ⟨ctx, hc, hj, -, on⟩ := unitJob_eq unit
    have run := start_reaches unit queued free n.isLt x.isLt
    rw [reach_parks unit more beat page load queue absent board] at run
    obtain ⟨core, -, jobs⟩ := parkedFor_moves (x := x) unit absent
    have queued_ := parkedFor_queued unit more beat page mem absent
    have hold' : ((s.parkedFor n.val x.val j pg).core n.val).hold = none := by rw [core]; exact hold
    have job : ((s.parkedFor n.val x.val j pg).core n.val).job = some ctx := by rw [core]; exact hc
    have hj' : (s.parkedFor n.val x.val j pg).job? ctx = some j := (job?_congr jobs ctx).trans hj
    rw [settleCore_calm (u := (s.parkedFor n.val x.val j pg).settlePages) job hj' mem hold'] at run
    refine ⟨_, run, ?_, ?_⟩
    · rw [core_settle, show (s.parkedFor n.val x.val j pg).settlePages.core n.val = (s.parkedFor n.val x.val j pg).core n.val from rfl, core]
      exact congrArg Xfer.state ((lookupD_assocSet _ _ _ _ _).trans (if_pos rfl))
    · rw [State.pageState, State.page?, settle_pages]
      exact queued_

end Sys2Proof.Machine
end

section
/-!
SUPPORT. The grant and the end of a promotion (R126, R127, R137, R370, R371).
-/

namespace Sys2Proof.Machine

open Sys2Proof.Safety

/-! ### Pages by their keys -/

/-- The first of a kind, where elements are kept or dropped and keep what makes them of it. -/
theorem find?_filterMap_first {α : Type} (p : α → Bool) (f : α → Option α) (keys : ∀ y z, f y = some z → p z = p y)
    {l : List α} {x x' : α} (first : l.find? p = some x) (kept : f x = some x') : (l.filterMap f).find? p = some x' := by
  induction l with
  | nil => cases first
  | cons y t ih =>
    by_cases hy : p y = true
    · rw [List.find?_cons_of_pos hy] at first
      cases first
      rw [List.filterMap_cons, kept]
      exact List.find?_cons_of_pos (by rw [keys _ _ kept]; exact hy)
    · rw [List.find?_cons_of_neg hy] at first
      rw [List.filterMap_cons]
      cases e : f y with
      | none => exact ih first
      | some z => exact (List.find?_cons_of_neg (by rw [keys _ _ e]; exact hy)).trans (ih first)

/-- The first of a kind, where elements change and keep what makes them of it. -/
theorem find?_map_first {α : Type} (p : α → Bool) (f : α → α) (keys : ∀ y, p (f y) = p y) (l : List α) :
    (l.map f).find? p = (l.find? p).map f := by
  rw [List.find?_map]
  congr 1
  exact congrArg (fun q => l.find? q) (funext keys)

section
variable {s : State} {c p : Nat} {x : Page} (h : s.page? c p = some x)
include h

/-- What a change of a page leaves of every page. -/
theorem modPage_eq (f : Page → Page) :
    s.modPage c p f = { s with pages := s.pages.map (fun x => if x.copy == c && x.page == p then f x else x) } := by
  rw [State.modPage, h]

/-- A page changed, without its keys. -/
theorem page?_modPage {f : Page → Page} (keys : ∀ y, (f y).copy = y.copy ∧ (f y).page = y.page) :
    (s.modPage c p f).page? c p = some (f x) := by
  rw [modPage_eq h, State.page?]
  dsimp only
  rw [find?_map_first, show s.pages.find? _ = some x from h, Option.map_some, if_pos (List.find?_some h)]
  intro y
  split
  · rw [(keys y).1, (keys y).2]
  · rfl

/-- A frame request or a page that pages' settling keeps. -/
theorem pageState_settlePages (busy : x.state ≠ .queued) : s.settlePages.pageState c p = x.state := by
  have e : s.settlePages.page? c p = some { x with wants := x.wants.filter (fun q => decide (0 < s.useRefs q (x.copy, x.page))) } := by
    refine find?_filterMap_first _ _ (fun y z hz => ?_) h (if_neg busy)
    dsimp only at hz
    split at hz
    · split at hz
      · cases hz
      · cases hz; rfl
    · cases hz; rfl
  rw [State.pageState, e]

end

/-- What a page's use leaves of the state of every page. -/
theorem pageState_usePage (s : State) (q : Nat) (pg : Nat × Nat) (c p : Nat) :
    (s.usePage q pg).pageState c p = s.pageState c p := by
  unfold State.usePage
  split
  · rename_i x h
    have e : (s.later.modPage pg.1 pg.2 (fun x => { x with used := assocSet x.used q s.later.clock })).page? c p =
        (s.page? c p).map (fun x => if x.copy == pg.1 && x.page == pg.2 then
          { x with used := assocSet x.used q s.later.clock } else x) := by
      rw [modPage_eq (show s.later.page? pg.1 pg.2 = some x from h)]
      refine find?_map_first _ _ (fun y => ?_) _
      split <;> rfl
    dsimp only
    rw [State.pageState, e, State.pageState]
    cases s.page? c p with
    | none => rfl
    | some y =>
      rw [Option.map_some]
      dsimp only
      split <;> rfl
  · rfl

/-! ### What decides which transfers are parked on a page -/

/-- A job without what it is charged. -/
def Job.uncharged (j : Job) : Job := { j with acct := {}, rail := {} }

/-- An object without its mark. -/
def Obj.unmarked (o : Obj) : Obj := { o with degraded := false }

/-- What decides where the transfers of the cores stand: cores, copies, jobs and objects. -/
def placing (s : State) : List Core × List Copy × List Job × List Obj :=
  (s.cores, s.copies, s.jobs.map Job.uncharged, s.objs.map Obj.unmarked)

section
variable {s t : State} (h : placing t = placing s)
include h

theorem placing_core (n : Nat) : t.core n = s.core n := by
  rw [State.core, State.core, show t.cores = s.cores from congrArg (fun x => x.1) h]

theorem placing_job? (c : Nat) : (t.job? c).map Job.uncharged = (s.job? c).map Job.uncharged := by
  have jobs : t.jobs.map Job.uncharged = s.jobs.map Job.uncharged := congrArg (fun x => x.2.2.1) h
  have e : ∀ u : State, (u.job? c).map Job.uncharged = (u.jobs.map Job.uncharged).find? (fun j => j.ctx == c) :=
    fun u => (find?_map_first (fun j : Job => j.ctx == c) Job.uncharged (fun _ => rfl) u.jobs).symm
  rw [e, e, jobs]

theorem placing_objPlace (q : Obj → Bool) (hq : ∀ o, q o.unmarked = q o) (off : Nat) :
    t.objPlace (t.objs.find? q) off = s.objPlace (s.objs.find? q) off := by
  have objs : t.objs.map Obj.unmarked = s.objs.map Obj.unmarked := congrArg (fun x => x.2.2.2) h
  have copies : t.copies = s.copies := congrArg (fun x => x.2.1) h
  have e : ∀ (u : State) (o : Option Obj), u.objPlace o off = u.objPlace (o.map Obj.unmarked) off := fun u o => by
    cases o <;> rfl
  have f : ∀ u : State, (u.objs.find? q).map Obj.unmarked = (u.objs.map Obj.unmarked).find? q :=
    fun u => (find?_map_first q Obj.unmarked hq u.objs).symm
  rw [e t, e s, f, f, objs]
  unfold State.objPlace State.copy?
  rw [copies]

/-- The object pages of a job's places. -/
theorem placing_objectPage {j k : Job} (hjk : k.uncharged = j.uncharged) (a : Nat) :
    t.objectPage k a = s.objectPage j a := by
  have copies : t.copies = s.copies := congrArg (fun x => x.2.1) h
  have place : t.place k.uncharged a = s.place k.uncharged a := by
    unfold State.place
    rw [show t.objPlace (if k.uncharged.slate.model = 0 then none else t.obj? k.uncharged.slate.model) (a - 0x1000000000000000) =
      s.objPlace (if k.uncharged.slate.model = 0 then none else s.obj? k.uncharged.slate.model) (a - 0x1000000000000000) by
        split
        · unfold State.objPlace State.copy?
          rfl
        · exact placing_objPlace h _ (fun _ => rfl) _,
      show t.objPlace (if k.uncharged.slate.index = 0 then none else t.obj? k.uncharged.slate.index) (a - 0x2000000000000000) =
      s.objPlace (if k.uncharged.slate.index = 0 then none else s.obj? k.uncharged.slate.index) (a - 0x2000000000000000) by
        split
        · unfold State.objPlace State.copy?
          rfl
        · exact placing_objPlace h _ (fun _ => rfl) _,
      show t.objPlace (t.windowObj? k.uncharged.pod ((a - 0x4000000000000000) / 2 ^ 50)) ((a - 0x4000000000000000) % 2 ^ 50) =
        s.objPlace (s.windowObj? k.uncharged.pod ((a - 0x4000000000000000) / 2 ^ 50)) ((a - 0x4000000000000000) % 2 ^ 50) from
        placing_objPlace h _ (fun _ => rfl) _]
  have e : t.objectPage k.uncharged a = s.objectPage k.uncharged a := by
    unfold State.objectPage State.metaPage State.copy?
    rw [place, copies]
  have u : ∀ (u : State) (j : Job), u.objectPage j a = u.objectPage j.uncharged a := fun _ _ => rfl
  rw [u t k, u s j, ← hjk, e]

theorem placing_parkedOn (n : Nat) (pg : Nat × Nat) : t.parkedOn n pg = s.parkedOn n pg := by
  have core := placing_core h n
  unfold State.parkedOn
  rw [core]
  cases (s.core n).job with
  | none => rfl
  | some c =>
    rw [Option.bind_some, Option.bind_some]
    have job := placing_job? h c
    cases ht : t.job? c with
    | none =>
      cases hs : s.job? c with
      | none => rfl
      | some j => rw [ht, hs] at job; cases job
    | some k =>
      cases hs : s.job? c with
      | none => rw [ht, hs] at job; cases job
      | some j =>
        rw [ht, hs] at job
        have same := Option.some.inj job
        have pages : ∀ x, t.xferPages k x = s.xferPages j x := fun x => by
          unfold State.xferPages
          rw [show t.objectPage k = s.objectPage j from funext (placing_objectPage h same)]
        dsimp only
        simp only [pages]

end

/-- Nothing goes on where no transfer is parked. -/
theorem unpark_none {s : State} {pg : Nat × Nat} (none_ : ∀ n < 32, s.parkedOn n pg = []) : s.unpark pg = s := by
  unfold State.unpark
  have : ∀ l : List Nat, (∀ n ∈ l, n < 32) → l.foldl (fun s n =>
      let slots := s.parkedOn n pg
      if slots = [] then s
      else
        (slots.foldl (fun s x =>
          let s := s.modXfer n x (fun t => if t.state = .parked then { t with state := .active } else t)
          s.reach n x (s.pagesAt n x)) s).settleCore n) s = s := by
    intro l
    induction l with
    | nil => intro _; rfl
    | cons n l ih =>
      intro hl
      rw [List.foldl_cons]
      dsimp only
      rw [if_pos (none_ n (hl n (by simp)))]
      exact ih fun m hm => hl m (by simp [hm])
  exact this _ fun n hn => List.mem_range.mp hn

/-! ### The grant -/

theorem exec_promotionGrant (copy page : Nat) (s : State) :
    exec (.promotionGrant copy page) s = execPromotionGrant copy page s := rfl
theorem exec_promotionEnd (copy page : Nat) (good : Bool) (s : State) :
    exec (.promotionEnd copy page good) s = execPromotionEnd copy page good s := rfl

/-- Claims that wait for their frames take no frame. -/
theorem freeQuota_waits {s : State} {c p q : Nat} {x : Page} (h : s.page? c p = some x) (free : s.freeQuota q = true)
    (f : Page → Page) (none_ : ∀ y, (f y).claims = []) : (s.modPage c p f).freeQuota q = true := by
  rw [modPage_eq h]
  have less : ∀ l : List Page,
      ((l.map (fun x => if x.copy == c && x.page == p then f x else x)).filter
        (fun x => x.state != .queued && x.claims.contains q)).length ≤
      (l.filter (fun x => x.state != .queued && x.claims.contains q)).length := by
    intro l
    induction l with
    | nil => exact le_rfl
    | cons y t ih =>
      rw [List.map_cons]
      by_cases hy : (y.copy == c && y.page == p) = true
      · rw [if_pos hy, List.filter_cons_of_neg (by rw [none_]; simp)]
        exact ih.trans ((List.sublist_cons_self y t).filter _).length_le
      · rw [if_neg hy, List.filter_cons, List.filter_cons]
        split
        · exact Nat.succ_le_succ ih
        · exact ih
  have now := of_decide_eq_true free
  have := less s.pages
  refine decide_eq_true (lt_of_le_of_lt (Nat.add_le_add_left this _) now)

/-- One claim that waits, with room for its frame. -/
theorem giveClaims_one {s : State} {pg : Nat × Nat} {x : Page} {q : Nat} (h : s.page? pg.1 pg.2 = some x)
    (wants : x.wants = [q]) (free : s.freeQuota q = true) : s.giveClaims pg =
      s.modPage pg.1 pg.2 (fun x => { x with claims := x.claims ++ [q], wants := x.wants.filter (fun r => r != q) }) := by
  rw [State.giveClaims, h]
  dsimp only
  rw [wants, List.foldl_cons, List.foldl_nil, State.makeRoom, if_pos free]

theorem giveClaims_none {s : State} {pg : Nat × Nat} {x : Page} (h : s.page? pg.1 pg.2 = some x) (wants : x.wants = []) :
    s.giveClaims pg = s := by
  rw [State.giveClaims, h]
  dsimp only
  rw [wants, List.foldl_nil]

theorem grant_promotes {s : State} {x : Page} {p : Nat} (h : s.page? x.copy x.page = some x) (awake : s.awake = true)
    (queued : x.state = .queued) (claims : x.claims = [p]) (free : s.freeQuota p = true)
    (grant : (s.promotionGrant? (x.copy, x.page)).isSome = true) :
    ∃ t, exec (.promotionGrant x.copy x.page) s = .next t ∧ t.pageState x.copy x.page = .promoting ∧
      t.cores = s.cores ∧ t.jobs = s.jobs ∧ t.copies = s.copies := by
  obtain ⟨a, ha⟩ := Option.isSome_iff_exists.mp grant
  have asked := page?_modPage h (f := fun x => { x with state := .promoting, claims := [], wants := x.claims }) fun _ => ⟨rfl, rfl⟩
  have room := freeQuota_waits h free (fun x => { x with state := .promoting, claims := [], wants := x.claims }) fun _ => rfl
  have keep := modPage_eq h (fun x => { x with state := .promoting, claims := [], wants := x.claims })
  generalize ht : s.modPage x.copy x.page (fun x => { x with state := .promoting, claims := [], wants := x.claims }) = t at *
  have given := giveClaims_one (pg := (x.copy, x.page)) asked claims room
  have there := page?_modPage asked
    (f := fun x => { x with claims := x.claims ++ [p], wants := x.wants.filter (fun r => r != p) }) fun _ => ⟨rfl, rfl⟩
  have keep' := modPage_eq asked (fun x => { x with claims := x.claims ++ [p], wants := x.wants.filter (fun r => r != p) })
  rw [← given] at there keep'
  have run : exec (.promotionGrant x.copy x.page) s =
      .next ((t.giveClaims (x.copy, x.page)).modArb a (fun b => { b with grant := none })) := by
    rw [exec_promotionGrant, execPromotionGrant, h]
    dsimp only
    rw [if_neg (by rw [awake]; decide), if_neg (by rw [queued]; decide), if_neg (by rw [queued]; decide),
      if_neg (not_not.mpr queued), ha]
    dsimp only
    rw [ht, there, if_neg (by simp)]
  refine ⟨_, run, ?_, ?_, ?_, ?_⟩
  · change State.pageState (t.giveClaims (x.copy, x.page)) x.copy x.page = _
    rw [State.pageState, there]
  all_goals
    rw [show ∀ (u : State) f, (u.modArb a f) = { u with arbs := (u.modArb a f).arbs } from fun _ _ => rfl, keep', keep]

/-! ### The end -/

/-- What the writing of a promoted page moves apart from marks and counts. -/
def State.written (s : State) (x : Page) : State :=
  (((s.chargePromotion x.charged (x.copy, x.page)).notePage x.copy x.page).writeFrame x.copy x.page)

theorem written_eq (s : State) (x : Page) :
    ((s.chargePromotion x.charged (x.copy, x.page)).notePage x.copy x.page).writeFrame x.copy x.page = s.written x := rfl

/-- Writing a frame moves the marks of T1 alone. -/
theorem t1Write_marks {β : Type} (g : State → β)
    (hi : ∀ (s : State) ecc flips, g { s with integ := { s.integ with t1Ecc := ecc, flips := flips } } = g s) (s : State)
    (port req w : Nat) : g (s.t1Write port req w) = g s := by
  unfold State.t1Write
  dsimp only
  split
  · exact hi s _ (s.setFlip port { s.flip port with armed := false }).integ.flips
  · split
    · rfl
    · exact hi s _ s.integ.flips

theorem writeFrame_keeps {β : Type} (g : State → β)
    (hi : ∀ (s : State) ecc flips, g { s with integ := { s.integ with t1Ecc := ecc, flips := flips } } = g s) (s : State)
    (copy page : Nat) : g (s.writeFrame copy page) = g s := by
  unfold State.writeFrame
  dsimp only
  refine (foldl_keeps g _ (fun s f => t1Write_marks g hi s _ _ _) _ _).trans ?_
  unfold State.t1Renew
  split
  · rfl
  · exact hi s _ s.integ.flips

theorem notePage_keeps {β : Type} (g : State → β) (hm : ∀ (s : State) m, g { s with media := m } = g s) (s : State)
    (copy page : Nat) : g (s.notePage copy page) = g s := by
  unfold State.notePage
  split
  · exact hm _ _
  · rfl

theorem written_keeps {β : Type} (g : State → β)
    (hi : ∀ (s : State) ecc flips, g { s with integ := { s.integ with t1Ecc := ecc, flips := flips } } = g s)
    (hm : ∀ (s : State) m, g { s with media := m } = g s)
    (hj : ∀ (s : State) (c : Nat) pg, g (s.chargePromotion c pg) = g s) (s : State) (x : Page) : g (s.written x) = g s := by
  rw [State.written, writeFrame_keeps g hi, notePage_keeps g hm, hj]

theorem placing_written (s : State) (x : Page) : placing (s.written x) = placing s := by
  refine written_keeps placing (fun _ _ _ => rfl) (fun _ _ => rfl) (fun s c pg => ?_) s x
  unfold State.chargePromotion State.modJob placing
  dsimp only
  rw [List.map_map]
  congr 3
  refine List.map_congr_left fun j _ => ?_
  dsimp only [Function.comp]
  split <;> rfl

theorem written_fields (s : State) (x : Page) : (s.written x).pages = s.pages ∧ (s.written x).objs = s.objs ∧
    (s.written x).sec = s.sec ∧ (s.written x).copies = s.copies ∧ (s.written x).cores = s.cores ∧
    (s.written x).integ.event = s.integ.event ∧ (s.written x).integ.reported = s.integ.reported := by
  refine ⟨?_, ?_, ?_, ?_, ?_, ?_, ?_⟩
  · exact written_keeps State.pages (fun _ _ _ => rfl) (fun _ _ => rfl) (fun _ _ _ => rfl) s x
  · exact written_keeps State.objs (fun _ _ _ => rfl) (fun _ _ => rfl) (fun _ _ _ => rfl) s x
  · exact written_keeps State.sec (fun _ _ _ => rfl) (fun _ _ => rfl) (fun _ _ _ => rfl) s x
  · exact written_keeps State.copies (fun _ _ _ => rfl) (fun _ _ => rfl) (fun _ _ _ => rfl) s x
  · exact written_keeps State.cores (fun _ _ _ => rfl) (fun _ _ => rfl) (fun _ _ _ => rfl) s x
  · exact written_keeps (fun s => s.integ.event) (fun _ _ _ => rfl) (fun _ _ => rfl) (fun _ _ _ => rfl) s x
  · exact written_keeps (fun s => s.integ.reported) (fun _ _ _ => rfl) (fun _ _ => rfl) (fun _ _ _ => rfl) s x

theorem pageState_of_page? {s : State} {c p : Nat} {x : Page} (h : s.page? c p = some x) : s.pageState c p = x.state := by
  rw [State.pageState, h]

theorem usePages_keeps {β : Type} (g : State → β) (hg : ∀ (s : State) c p, g { s with clock := c, pages := p } = g s)
    (q : Nat) (pg : Nat × Nat) (s : State) : g (s.usePage q pg) = g s := by
  unfold State.usePage
  split
  · rename_i x h
    dsimp only
    rw [modPage_eq (show s.later.page? pg.1 pg.2 = some x from h)]
    exact hg s _ _
  · rfl

/-- A page whose reads were verified is RESIDENT, with its claims. -/
theorem end_resident {s : State} {x : Page} (h : s.page? x.copy x.page = some x) (promoting : x.state = .promoting)
    (claims : x.claims ≠ []) (keyed : s.keyed x.copy = true)
    (readable : (s.copy? x.copy).any (fun c => c.unreadable.contains x.page) = false)
    (rest : ∀ y ∈ s.pages, y.state ≠ .queued ∧ y.wants = [])
    (none_ : ∀ n < 32, s.parkedOn n (x.copy, x.page) = []) :
    ∃ t, exec (.promotionEnd x.copy x.page true) s = .next t ∧ t.pageState x.copy x.page = .resident ∧
      t.cores = s.cores ∧ t.integ.event = s.integ.event ∧ t.copies = s.copies := by
  obtain ⟨pages, objs, sec, copies, cores, event, -⟩ := written_fields s x
  have side := placing_written s x
  have h' : (s.written x).page? x.copy x.page = some x := by rw [State.page?, pages]; exact h
  have keyed' : (s.written x).keyed x.copy = true := by rw [State.keyed, objs, sec]; exact keyed
  have readable' : ((s.written x).copy? x.copy).any (fun c => c.unreadable.contains x.page) = false := by
    rw [State.copy?, copies]; exact readable
  have wants : x.wants = [] := (rest x (List.mem_of_find?_eq_some h)).2
  have idle : ∀ p, (s.written x).pages.any (fun y => y.state == .queued && y.claims.contains p || y.wants.contains p) = false := by
    intro p
    rw [List.any_eq_false, pages]
    intro y hy
    obtain ⟨state, wants⟩ := rest y hy
    rw [wants]
    simpa using fun e => absurd e state
  have run : exec (.promotionEnd x.copy x.page true) s = .next (((x.claims.foldl (fun s p => s.usePage p (x.copy, x.page))
      ((s.written x).modPage x.copy x.page (fun x => { x with state := .resident }))).unpark (x.copy, x.page)).settlePages.settle) := by
    rw [exec_promotionEnd, execPromotionEnd, h]
    dsimp only
    rw [if_neg (not_not.mpr promoting)]
    rw [written_eq, giveClaims_none h' wants, h', if_neg (by simpa using claims), keyed', readable']
    rw [if_pos (by decide)]
    dsimp only [Option.map_some, Option.getD_some]
    simp only [idle, Bool.false_and]
    rw [List.filter_eq_nil_iff.mpr (fun _ _ => Bool.false_ne_true), State.yieldClaims, List.foldl_nil]
  rw [run]
  have resident := page?_modPage h' (f := fun x => { x with state := .resident }) fun _ => ⟨rfl, rfl⟩
  have keep := modPage_eq h' (fun x => { x with state := .resident })
  generalize hu : (s.written x).modPage x.copy x.page (fun x => { x with state := .resident }) = u at *
  have moved : ∀ {β : Type} (g : State → β), (∀ (s : State) c p, g { s with clock := c, pages := p } = g s) →
      g (x.claims.foldl (fun s p => s.usePage p (x.copy, x.page)) u) = g (s.written x) := fun g hg =>
    (foldl_keeps g _ (fun s q => usePages_keeps g hg q _ s) _ _).trans (by rw [keep]; exact hg (s.written x) _ _)
  have state : (x.claims.foldl (fun s p => s.usePage p (x.copy, x.page)) u).pageState x.copy x.page = .resident :=
    (foldl_keeps (fun s => s.pageState x.copy x.page) _ (fun s q => pageState_usePage s q _ _ _) _ _).trans
      (pageState_of_page? resident)
  have stay := moved placing fun _ _ _ => rfl
  have cores' := moved State.cores fun _ _ _ => rfl
  have copies' := moved State.copies fun _ _ _ => rfl
  have event' := moved (fun s => s.integ.event) fun _ _ _ => rfl
  generalize x.claims.foldl (fun s p => s.usePage p (x.copy, x.page)) u = v at *
  rw [unpark_none fun n hn => (placing_parkedOn (stay.trans side) n _).trans (none_ n hn)]
  refine ⟨_, rfl, ?_, ?_, ?_, ?_⟩
  · rw [State.pageState, State.page?, settle_pages]
    change v.settlePages.pageState x.copy x.page = _
    obtain ⟨y, hy⟩ : ∃ y, v.page? x.copy x.page = some y := by
      rw [State.pageState] at state
      cases e : v.page? x.copy x.page with
      | none => rw [e] at state; cases state
      | some y => exact ⟨y, rfl⟩
    have hs := (pageState_of_page? hy).symm.trans state
    rw [pageState_settlePages hy (by rw [hs]; decide), hs]
  · rw [settle_cores]
    exact cores'.trans cores
  · rw [settle_integ]
    exact event'.trans event
  · rw [settle_copies]
    exact copies'.trans copies

theorem promotionsRun : PromotionsRun := fun _ _ _ h awake =>
  ⟨fun queued claims free grant => grant_promotes h awake queued claims free grant,
   fun promoting claims keyed readable rest none_ => end_resident h promoting claims keyed readable rest none_⟩

/-! ### A page that is lost -/

/-- What taking claims keeps: what pages do not touch. -/
theorem modPage_keeps {β : Type} (g : State → β) (hp : ∀ (s : State) p, g { s with pages := p } = g s) (s : State)
    (c p : Nat) (f : Page → Page) : g (s.modPage c p f) = g s := by
  unfold State.modPage
  split <;> exact hp _ _

theorem unclaim_keeps {β : Type} (g : State → β) (hp : ∀ (s : State) p, g { s with pages := p } = g s) (s : State)
    (p : Nat) (pg : Nat × Nat) : g (s.unclaim p pg) = g s := by
  unfold State.unclaim
  dsimp only
  split
  · split
    · exact (hp _ _).trans (modPage_keeps g hp _ _ _ _)
    · exact modPage_keeps g hp _ _ _ _
  · exact modPage_keeps g hp _ _ _ _

theorem makeRoom_keeps {β : Type} (g : State → β) (hp : ∀ (s : State) p, g { s with pages := p } = g s) {s t : State}
    {p : Nat} (h : s.makeRoom p = some t) : g t = g s := by
  unfold State.makeRoom at h
  split at h
  · cases h; rfl
  · split at h
    · cases h; exact unclaim_keeps g hp _ _ _
    · cases h

theorem giveClaims_keeps {β : Type} (g : State → β) (hp : ∀ (s : State) p, g { s with pages := p } = g s) (s : State)
    (pg : Nat × Nat) : g (s.giveClaims pg) = g s := by
  unfold State.giveClaims
  split
  · rfl
  · refine foldl_keeps g _ (fun s p => ?_) _ _
    split
    · rfl
    · rename_i t ht
      rw [modPage_keeps g hp, makeRoom_keeps g hp ht]

/-- A page under promotion. -/
def Promoting (s : State) (c p : Nat) : Prop := ∃ x, s.page? c p = some x ∧ x.state = .promoting

/-- A change of another page, or one that keeps the state, leaves a page under promotion. -/
theorem promoting_modPage {s : State} {c p : Nat} (h : Promoting s c p) (c' p' : Nat) {f : Page → Page}
    (keys : ∀ y, (f y).copy = y.copy ∧ (f y).page = y.page ∧ (f y).state = y.state) :
    Promoting (s.modPage c' p' f) c p := by
  obtain ⟨x, hx, state⟩ := h
  unfold State.modPage
  split
  · refine ⟨if x.copy == c' && x.page == p' then f x else x, ?_, ?_⟩
    · rw [State.page?]
      dsimp only
      rw [find?_map_first, show s.pages.find? _ = some x from hx, Option.map_some]
      intro y
      split
      · rw [(keys y).1, (keys y).2.1]
      · rfl
    · split
      · exact (keys x).2.2.trans state
      · exact state
  · refine ⟨x, ?_, state⟩
    rw [State.page?]
    dsimp only
    rw [List.find?_append, show s.pages.find? _ = some x from hx]
    rfl

/-- The end of another frame leaves a page under promotion. -/
theorem promoting_leaveFrame {s : State} {c p : Nat} (h : Promoting s c p) {pg : Nat × Nat} (ne : (c, p) ≠ pg) :
    Promoting (s.leaveFrame pg) c p := by
  obtain ⟨x, hx, state⟩ := h
  refine ⟨x, find?_filterMap_first _ _ (fun y z hz => ?_) hx ?_, state⟩
  · split at hz
    · split at hz
      · cases hz
      · cases hz; rfl
    · cases hz; rfl
  · have keys := List.find?_some hx
    rw [Bool.and_eq_true, beq_iff_eq, beq_iff_eq] at keys
    rw [if_neg]
    rw [keys.1, keys.2, Bool.and_eq_true, beq_iff_eq, beq_iff_eq]
    exact fun e => ne (Prod.ext e.1 e.2)

theorem promoting_unclaim {s : State} {c p : Nat} (h : Promoting s c p) (q : Nat) (pg : Nat × Nat) :
    Promoting (s.unclaim q pg) c p := by
  have h' := promoting_modPage h pg.1 pg.2 (f := fun x => { x with
    claims := x.claims.filter (fun c => c != q), wants := x.wants.filter (fun c => c != q) }) fun _ => ⟨rfl, rfl, rfl⟩
  unfold State.unclaim
  dsimp only
  split
  · rename_i y hy
    split
    · rename_i gone
      refine promoting_leaveFrame h' fun e => ?_
      obtain ⟨x, hx, state⟩ := h'
      rw [← e] at hy hx
      rw [hx] at hy
      cases hy
      rw [state] at gone
      simp at gone
    · exact h'
  · exact h'

/-- A page under promotion with a claim on its frame. -/
def Claimed (s : State) (c p : Nat) : Prop := ∃ x, s.page? c p = some x ∧ x.state = .promoting ∧ x.claims ≠ []

/-- Claims that are taken leave a page under promotion with a claim (R136). -/
theorem claimed_giveClaims {s : State} {c p : Nat} (h : Claimed s c p) : Claimed (s.giveClaims (c, p)) c p := by
  unfold State.giveClaims
  split
  · exact h
  · rename_i x _
    clear * - h
    induction x.wants generalizing s with
    | nil => exact h
    | cons q l ih =>
      refine ih ?_
      dsimp only
      split
      · exact h
      · rename_i t ht
        have pt : Promoting t c p := by
          obtain ⟨x, hx, state, -⟩ := h
          unfold State.makeRoom at ht
          split at ht
          · cases ht; exact ⟨x, hx, state⟩
          · split at ht
            · cases ht; exact promoting_unclaim ⟨x, hx, state⟩ _ _
            · cases ht
        obtain ⟨y, hy, state⟩ := pt
        exact ⟨_, page?_modPage hy fun _ => ⟨rfl, rfl⟩, state, by simp⟩

/-- The marks of the first lost page of a copy (R371). -/
theorem poisoned_first {s : State} {copy : Nat} (first : (!s.integ.reported.contains copy) = true) (page ctx : Nat) :
    (s.poison copy page ctx).pages = s.pages ∧ (s.poison copy page ctx).integ.event.getLsbD 0 = true ∧
      (s.poison copy page ctx).integ.poisonRange = BitVec.ofNat 64 (page * 2 ^ 32 + page) ∧
      (∀ o ∈ (s.poison copy page ctx).objs, o.copy = copy → o.kind ≠ .volume → o.degraded = true) ∧
      (s.poison copy page ctx).cores = s.cores ∧ placing (s.poison copy page ctx) = placing s := by
  unfold State.poison
  dsimp only
  rw [if_pos first]
  refine ⟨rfl, ?_, rfl, fun o ho hc hk => ?_, rfl, ?_⟩
  · change (setBits _ 0).getLsbD 0 = true
    rw [getLsbD_setBits _ _ (by decide)]
    simp
  · obtain ⟨q, -, rfl⟩ := List.mem_map.mp ho
    by_cases e : q.copy = copy ∧ q.kind ≠ .volume
    · rw [if_pos e]
    · rw [if_neg e] at hc hk
      exact absurd ⟨hc, hk⟩ e
  · change (s.cores, s.copies, s.jobs.map Job.uncharged, (s.objs.map _).map Obj.unmarked) = placing s
    rw [List.map_map]
    unfold placing
    congr 3
    refine List.map_congr_left fun o _ => ?_
    dsimp only [Function.comp]
    split <;> rfl

theorem lostPagesArePoisoned : LostPagesArePoisoned := by
  intro s x h promoting claims none_ new
  obtain ⟨pages, objs, sec, copies, cores, event, reported⟩ := written_fields s x
  have side := placing_written s x
  have h' : (s.written x).page? x.copy x.page = some x := by rw [State.page?, pages]; exact h
  obtain ⟨y, hy, state, held⟩ := claimed_giveClaims (s := s.written x) ⟨x, h', promoting, claims⟩
  have side' := giveClaims_keeps placing (fun _ _ => rfl) (s.written x) (x.copy, x.page)
  have cores' := giveClaims_keeps State.cores (fun _ _ => rfl) (s.written x) (x.copy, x.page)
  have reported' := giveClaims_keeps (fun s => s.integ.reported) (fun _ _ => rfl) (s.written x) (x.copy, x.page)
  have run : exec (.promotionEnd x.copy x.page false) s = .next ((((((s.written x).giveClaims (x.copy, x.page)).modPage x.copy x.page
      (fun x => { x with state := .poisoned })).poison x.copy x.page x.charged).unpark (x.copy, x.page)).settle) := by
    rw [exec_promotionEnd, execPromotionEnd, h]
    dsimp only
    rw [if_neg (not_not.mpr promoting)]
    rw [written_eq, hy, if_neg (by simpa using held), Bool.false_and, Bool.false_and, if_neg Bool.false_ne_true]
  rw [run]
  have lost := page?_modPage hy (f := fun x => { x with state := .poisoned }) fun _ => ⟨rfl, rfl⟩
  have keep := modPage_eq hy (fun x => { x with state := .poisoned })
  generalize (s.written x).giveClaims (x.copy, x.page) = u at *
  have first : (!(u.modPage x.copy x.page (fun x => { x with state := .poisoned })).integ.reported.contains x.copy) = true := by
    rw [keep]
    dsimp only
    rw [reported', reported, new]
    rfl
  have stay : placing (u.modPage x.copy x.page (fun x => { x with state := .poisoned })) = placing s := by
    rw [keep]
    exact side'.trans side
  have cores_ : (u.modPage x.copy x.page (fun x => { x with state := .poisoned })).cores = s.cores := by
    rw [keep]
    exact cores'.trans cores
  generalize u.modPage x.copy x.page (fun x => { x with state := .poisoned }) = v at *
  obtain ⟨pages_, eventBit, range, marks, cores_', place⟩ := poisoned_first first x.page x.charged
  generalize v.poison x.copy x.page x.charged = w at *
  rw [unpark_none fun n hn => (placing_parkedOn (place.trans stay) n _).trans (none_ n hn)]
  refine ⟨_, rfl, ?_, ?_, ?_, ?_, ?_⟩
  · rw [State.pageState, State.page?, settle_pages, pages_]
    exact pageState_of_page? lost
  · rw [settle_integ]
    exact eventBit
  · rw [settle_integ]
    exact range
  · rw [settle_objs]
    exact marks
  · rw [settle_cores]
    exact cores_'.trans cores_

/-- Settles O32: a grant and a good end by the page they leave, a bad one by the marks of a lost page. -/
theorem promotionsEnd : Obligations.PromotionsEnd := ⟨promotionsRun, lostPagesArePoisoned⟩

end Sys2Proof.Machine
end

section
/-!
SUPPORT. Grants of an arbiter and cut-offs (R138, R144, R146, R147, R155).
-/

namespace Sys2Proof.Machine

open Sys2Proof.Safety

/-- One requester alone is the choice of its arbiter (R144). -/
theorem choose_alone (b : Arb) (r : GrantReq) : ∃ aged, b.choose [r] = some (r, aged) := by
  by_cases aged : b.ageLimit ≠ 0 ∧ ((b.queue [r]).find? (fun w => decide (b.ageLimit.toNat < w.2))).isSome
  · obtain ⟨w, hw⟩ := Option.isSome_iff_exists.mp aged.2
    obtain ⟨q, hq, -, h⟩ := choose_of_aged aged.1 hw
    rw [List.mem_singleton] at hq
    exact ⟨true, by rw [h, hq]⟩
  · have young : b.ageLimit = 0 ∨ ∀ w ∈ b.queue [r], w.2 ≤ b.ageLimit.toNat := by
      by_cases hz : b.ageLimit = 0
      · exact .inl hz
      · refine .inr fun w hw => ?_
        have none_ : (b.queue [r]).find? (fun w => decide (b.ageLimit.toNat < w.2)) = none := by
          rw [← Option.not_isSome_iff_eq_none]
          exact fun h => aged ⟨hz, h⟩
        simpa using List.find?_eq_none.mp none_ w hw
    have ne : [r].filter (fun q => q.cls.val == lowestClass [r]) ≠ [] := by
      obtain ⟨q, hq, e⟩ := (lowestClass_spec (List.cons_ne_nil r [])).1
      exact List.ne_nil_of_mem (List.mem_filter.mpr ⟨hq, by rw [e]; exact beq_self_eq_true _⟩)
    obtain ⟨q, hq, e, -⟩ := roundRobin_spec ((b.last.find? (fun x => x.1 == lowestClass [r])).map (fun x => x.2)) ne
    have := List.mem_singleton.mp (List.mem_of_mem_filter hq)
    exact ⟨false, by rw [choose_of_none_aged young, e, this]; rfl⟩

/-! ### A slot that keeps its transfer -/

theorem mem_of_lookupD {α : Type} {l : List (Nat × α)} {k : Nat} {v d : α} (h : lookupD l k d = v) (ne : v ≠ d) :
    (k, v) ∈ l := by
  induction l with
  | nil => exact absurd h.symm ne
  | cons x t ih =>
    rw [lookupD] at h
    split at h
    · rename_i e
      exact List.mem_cons.mpr (.inl (Prod.ext e.symm h.symm))
    · exact List.mem_cons_of_mem _ (ih h)

/-- Setting a slot to the transfer that it holds moves none. -/
theorem any_assocSet_same {α : Type} (P : Nat × α → Bool) {l : List (Nat × α)} {k : Nat} {v d : α}
    (h : lookupD l k d = v) (ne : v ≠ d) : (assocSet l k v).any P = l.any P := by
  induction l with
  | nil => exact absurd h.symm ne
  | cons x t ih =>
    have mem := mem_of_lookupD h ne
    rw [lookupD] at h
    rw [assocSet]
    split
    · rename_i lt
      rw [if_neg (by omega)] at h
      rw [List.any_cons, List.any_cons, ih h]
    · split
      · rename_i e
        rw [if_pos e] at h
        rw [List.any_cons, List.any_cons, ← h, ← e]
      · rw [List.any_cons]
        by_cases p : P (k, v) = true
        · rw [p, Bool.true_or, List.any_eq_true.mpr ⟨_, mem, p⟩]
        · rw [Bool.not_eq_true] at p
          rw [p, Bool.false_or]

/-- A core whose mover takes its turn at a transfer. -/
def Core.turned (c : Core) (slot : Nat) (y : Xfer) : Core := { c.setXfer slot y with turn := slot }

theorem beatHeld_turned {c : Core} {slot : Nat} {y : Xfer} (h : c.xfer slot = y) (active : y.state = .active)
    (m : Nat) : (c.turned slot y).beatHeld y m = c.beatHeld y m := by
  have ne : y ≠ {} := fun e => by rw [e] at active; cases active
  have older : ∀ l, (c.turned slot y).olderTouches y l = c.olderTouches y l := fun l => any_assocSet_same _ h ne
  unfold Core.beatHeld
  simp only [older]
  rfl

/-! ### The last beat of a COPY -/

/-- No local word is noted as bad, and T1 delivers what it holds, where nothing is marked. -/
theorem t1Marks_clean {s : State} (h : s.integ.t1Ecc = []) (owner off n : Nat) : s.t1Marks owner off n = [] := by
  rw [State.t1Marks, h]
  rfl

theorem advance_done {y : Xfer} (last : y.progress + 1 = y.beats) :
    y.advance.state = .done ∧ y.advance.progress = y.beats := by
  refine ⟨?_, last⟩
  rw [Xfer.advance]
  exact if_pos last.ge

/-- A job charged for a beat. -/
def Job.charged (j : Job) (acct : Acct) (rail : RailBytes) : Job := { j with acct := acct, rail := rail }

/-- The state charges a beat by counts and its job's account. -/
theorem chargeBeat_moves {s : State} {j : Job} (hj : s.job? j.ctx = some j) (n : Nat) (y : Xfer) :
    (s.chargeBeat n j y).cores = s.cores ∧ (s.chargeBeat n j y).integ = s.integ ∧
      ∃ acct rail, (s.chargeBeat n j y).job? j.ctx = some (j.charged acct rail) := by
  obtain ⟨f, hf, run⟩ : ∃ f : Job → Job, (∀ k, ∃ acct rail, f k = k.charged acct rail) ∧
      s.chargeBeat n j y = (s.count n 5 1).modJob j.ctx f := ⟨_, fun k => ⟨_, _, rfl⟩, rfl⟩
  obtain ⟨acct, rail, e⟩ := hf j
  have job := (job?_modJob (s.count n 5 1) j.ctx j.ctx f (fun k => by obtain ⟨_, _, e⟩ := hf k; rw [e]; rfl)).trans (if_pos rfl)
  refine ⟨rfl, rfl, acct, rail, ?_⟩
  rw [run, job, job?_congr (count_jobs s n 5 1), hj, Option.map_some, e]

/-- A transfer's last beat, of a COPY between the operand store and the writable area of its job. -/
structure LastBeat (u : State) (n slot : Nat) (j : Job) (y : Xfer) (a l : Nat) : Prop where
  job : (u.core n).job = some j.ctx
  here : u.job? j.ctx = some j
  held : (u.core n).xfer slot = y
  clean : (u.core n).osEcc = []
  marks : u.integ.t1Ecc = []
  flips : u.integ.flips = []
  active : y.state = .active
  copy : y.mode = .copy
  queue : y.direct = false
  last : y.progress + 1 = y.beats
  asked : y.asked ≤ y.progress
  unified : y.uAddrs y.progress = [a]
  near : y.lAddrs y.progress = [l]
  within : a + 64 ≤ j.slate.writableBytes
  low : j.slate.writableBytes ≤ 0x000000C000000000
  store : l + 64 ≤ 0x800000
  free : (u.core n).beatHeld y y.progress = false

namespace LastBeat
variable {u : State} {n slot : Nat} {j : Job} {y : Xfer} {a l : Nat} (h : LastBeat u n slot j y a l)
include h

theorem lt : n < u.cores.length := by
  by_contra out
  have := h.job
  rw [core_past _ _ (by omega)] at this
  cases this

theorem place (t : State) : t.place j a = (.writable, a) := place_writable t h.low (by have := h.within; omega)

/-- What the last beat leaves: its transfer DONE, `os` in the operand store and `m` in the writable area. -/
def Left (u : State) (n slot : Nat) (j : Job) (y : Xfer) (os m : Mem) (v : State) : Prop :=
  v.core n = { (u.core n).setXfer slot y.advance with os := os } ∧
    ∃ acct rail, v.job? j.ctx = some { j.charged acct rail with writable := m }

/-- A DONE transfer reaches for nothing. -/
theorem reach_done {v : State} {os m : Mem} (left : Left u n slot j y os m v) (begun : List (Nat × Nat)) :
    v.reach n slot begun = v := by
  obtain ⟨core, acct, rail, job⟩ := left
  have job' : (v.core n).job = some j.ctx := by rw [core]; exact h.job
  have slot' : (v.core n).xfer slot = y.advance := by
    rw [core]
    exact (lookupD_assocSet _ _ _ _ _).trans (if_pos rfl)
  unfold State.reach
  rw [job', Option.bind_some, job]
  dsimp only
  rw [if_pos (.inl (by rw [slot', (advance_done h.last).1]; decide))]

theorem moveBeats_done {v : State} {os m : Mem} (left : Left u n slot j y os m v) (k arb : Nat) :
    State.moveBeats k v n slot arb = v := by
  cases k with
  | zero => rfl
  | succ k =>
    obtain ⟨core, acct, rail, job⟩ := left
    have job' : (v.core n).job = some j.ctx := by rw [core]; exact h.job
    have slot' : (v.core n).xfer slot = y.advance := by
      rw [core]
      exact (lookupD_assocSet _ _ _ _ _).trans (if_pos rfl)
    rw [State.moveBeats, job', Option.bind_some, job]
    dsimp only
    rw [if_pos (.inl (by rw [slot', (advance_done h.last).1]; decide))]

/-- The last beat of a LOAD. -/
theorem loadBeat_left :
    Left u n slot j y (Mem.write (u.core n).os l (Mem.bytes j.writable a 64)) j.writable (u.loadBeat n slot j y) := by
  have place := h.place
  have piece : u.loadPiece j a = .bytes (Mem.bytes j.writable a 64) := by
    rw [State.loadPiece, place]
    dsimp only
    rw [State.t1Lost, t1Marks_clean h.marks, List.any_nil, if_neg Bool.false_ne_true, State.t1Deliver,
      t1Marks_clean h.marks]
    rfl
  have note : u.notePiece j a = u := by
    rw [State.notePiece, place]
    dsimp only
    rw [State.noteT1, t1Marks_clean h.marks]
    rfl
  obtain ⟨cores, integ, acct, rail, job⟩ := chargeBeat_moves h.here n y
  have lt : l < 0x01000000 := by have := h.store; omega
  have hf : ((u.chargeBeat n j y).flip (osFlip n)).armed = false := by
    rw [State.flip, integ, h.flips]
    rfl
  have core : (u.chargeBeat n j y).core n = u.core n := congrArg (fun l => l.getD n {}) cores
  have ne : Mem.bytes j.writable a 64 ≠ [] := List.ne_nil_of_length_pos (by rw [length_bytes]; decide)
  have run : u.loadBeat n slot j y = (((u.chargeBeat n j y).modCore n (fun c => { c with
      os := Mem.write c.os l (Mem.bytes j.writable a 64) })).modXfer n slot Xfer.advance).reach n slot (u.xferPages j y) := by
    unfold State.loadBeat
    dsimp only
    rw [h.unified, h.near]
    simp only [List.map_cons, List.map_nil, List.foldl_cons, List.foldl_nil, piece, note, List.find?_cons, List.find?_nil]
    rw [Xfer.assemble, h.copy]
    simp only [List.flatten_cons, List.flatten_nil, List.append_nil, List.headD_cons]
    rw [State.localWrite, if_pos lt, osWrite_clean (by rw [core]; exact h.clean) hf _ ne]
    rfl
  have left : Left u n slot j y (Mem.write (u.core n).os l (Mem.bytes j.writable a 64)) j.writable
      (((u.chargeBeat n j y).modCore n (fun c => { c with
        os := Mem.write c.os l (Mem.bytes j.writable a 64) })).modXfer n slot Xfer.advance) := by
    refine ⟨?_, acct, rail, job⟩
    have len : n < (u.chargeBeat n j y).cores.length := by rw [cores]; exact h.lt
    rw [State.modXfer, core_modCore _ _ _ _ (by simpa [State.modCore] using len), if_pos rfl, core_modCore _ _ _ _ len,
      if_pos rfl, core, ← h.held]
    rfl
  rw [run, h.reach_done left]
  exact left

/-- The last beat of a STORE. -/
theorem storeBeat_left (port : Nat) :
    Left u n slot j y (u.core n).os (Mem.write j.writable a (Mem.bytes (u.core n).os l 64)) (u.storeBeat n slot port j y) := by
  have place := h.place
  have lt : l < 0x01000000 := by have := h.store; omega
  have note : u.noteBeat n y y.progress = u := by
    rw [State.noteBeat, h.near, List.foldl_cons, List.foldl_nil, noteLocal_clean h.clean lt]
  have whole : (u.core n).beatLost y y.progress = false := by
    rw [Core.beatLost, h.near, List.any_cons, List.any_nil, localLost_clean h.clean lt]
    rfl
  have bytes : (u.core n).storeBytes y y.progress = Mem.bytes (u.core n).os l 64 := by
    rw [Core.storeBytes, h.near, Xfer.assemble, h.copy]
    simp only [List.map_cons, List.map_nil, List.flatten_cons, List.flatten_nil, List.append_nil]
    rw [Core.localRead, if_pos lt, osRead_clean h.clean]
  have away : u.remoteAt j a = none := by rw [State.remoteAt, place]
  obtain ⟨cores, integ, acct, rail, job⟩ := chargeBeat_moves h.here n y
  have t1 : ∀ w f, ((u.chargeBeat n j y).modJob j.ctx f).t1Write port n w = (u.chargeBeat n j y).modJob j.ctx f := by
    intro w f
    have none_ : ((u.chargeBeat n j y).modJob j.ctx f).t1Flip port n w = none := by
      rw [State.t1Flip, State.flip, show ((u.chargeBeat n j y).modJob j.ctx f).integ = u.integ from integ, h.flips]
      rfl
    rw [State.t1Write, none_]
    dsimp only
    rw [show ((u.chargeBeat n j y).modJob j.ctx f).integ = u.integ from integ, h.marks]
    rfl
  have run : u.storeBeat n slot port j y = ((((u.chargeBeat n j y).modJob j.ctx (fun j => { j with
      writable := Mem.write j.writable a (Mem.bytes (u.core n).os l 64) })).modXfer n slot Xfer.advance).reach n slot []) := by
    unfold State.storeBeat
    dsimp only
    rw [note, whole, if_neg Bool.false_ne_true, h.unified, bytes, List.headD_cons, away]
    dsimp only
    rw [t1]
  have left : Left u n slot j y (u.core n).os (Mem.write j.writable a (Mem.bytes (u.core n).os l 64))
      ((((u.chargeBeat n j y).modJob j.ctx (fun j => { j with
        writable := Mem.write j.writable a (Mem.bytes (u.core n).os l 64) })).modXfer n slot Xfer.advance)) := by
    have core : (u.chargeBeat n j y).core n = u.core n := congrArg (fun l => l.getD n {}) cores
    refine ⟨?_, acct, rail, ?_⟩
    · have len : n < (u.chargeBeat n j y).cores.length := by rw [cores]; exact h.lt
      refine (core_modCore _ _ _ _ ?_).trans ?_
      · exact len
      rw [if_pos rfl]
      change ((u.chargeBeat n j y).core n).setXfer slot (((u.chargeBeat n j y).core n).xfer slot).advance = _
      rw [core, h.held]
      rfl
    · refine ((job?_modJob _ _ _ _ (fun _ => by rfl)).trans (if_pos rfl)).trans ?_
      rw [job]
      rfl
  rw [run, h.reach_done left]
  exact left

/-- The bytes that the last beat moves. -/
theorem moveBeats_left {arb : Nat} (port : arb < 48) (k : Nat) : ∃ os m, Left u n slot j y os m (State.moveBeats (k + 1) u n slot arb) ∧
    (y.store = false → os = Mem.write (u.core n).os l (Mem.bytes j.writable a 64) ∧ m = j.writable) ∧
    (y.store = true → os = (u.core n).os ∧ m = Mem.write j.writable a (Mem.bytes (u.core n).os l 64)) := by
  have most : max y.progress y.asked = y.progress := max_eq_left h.asked
  have away : u.remoteAt j a = none := by rw [State.remoteAt, h.place]
  have t1 : u.resourceOf j y = .t1 := by
    unfold State.resourceOf
    dsimp only
    rw [most, h.unified, List.headD_cons, away]
    dsimp only
    rw [h.queue, Bool.false_and, if_neg Bool.false_ne_true]
  have free : u.barred n slot j y = none := by
    refine barred_none fun b hb => ?_
    rw [h.unified, List.mem_singleton] at hb
    rw [hb, State.mayTouch, State.unreachable, State.remoteAt, h.place]
    exact ⟨rfl, rfl⟩
  have goes : State.moveBeats (k + 1) u n slot arb = State.moveBeats k
      (if y.store then (u.count (32 + arb) (if y.store then 2 else 1) 1).storeBeat n slot arb j y
        else (u.count (32 + arb) (if y.store then 2 else 1) 1).loadBeat n slot j y) n slot arb := by
    rw [State.moveBeats, h.job, Option.bind_some, h.here]
    dsimp only
    rw [h.held, most, t1, free, if_neg]
    · simp only [h.active, h.free, Resource.served, ne_eq, not_true_eq_false, false_or, or_false, Bool.false_eq_true,
        decide_eq_false_iff_not]
      have := h.last
      omega
  have counted : LastBeat (u.count (32 + arb) (if y.store then 2 else 1) 1) n slot j y a l := by
    obtain ⟨h1, h2, h3, h4, h5, h6, h7, h8, h9, h10, h11, h12, h13, h14, h15, h16, h17⟩ := h
    exact ⟨h1, h2, h3, h4, h5, h6, h7, h8, h9, h10, h11, h12, h13, h14, h15, h16, h17⟩
  rw [goes]
  cases store : y.store with
  | false =>
    rw [store] at counted
    have left := counted.loadBeat_left
    rw [if_neg Bool.false_ne_true, counted.moveBeats_done left]
    exact ⟨_, _, left, fun _ => ⟨rfl, rfl⟩, fun e => (nomatch e)⟩
  | true =>
    rw [store] at counted
    have left := counted.storeBeat_left arb
    rw [if_pos rfl, counted.moveBeats_done left]
    exact ⟨_, _, left, fun e => (nomatch e), fun _ => ⟨rfl, rfl⟩⟩

end LastBeat

/-! ### The grant -/

theorem exec_arbiterGrant (arb : Fin 66) (reqs : List GrantReq) (beats : Nat) (s : State) :
    exec (.arbiterGrant arb reqs beats) s = execArbiterGrant arb reqs beats s := rfl

/-- A grant to a mover at a T1 port moves beats of its transfer. -/
theorem grant_moves {s : State} {arb : Fin 66} {r : GrantReq} {n : Nat} {y : Xfer} (requester : r.requester.val = n)
    (lt : n < 32) (asks : s.requests arb.val r = true) (port : arb.val < 48) (whole : (s.core n).spilling = 0)
    (held : (s.core n).xfer r.slot.val = y) (active : y.state = .active) (len : n < s.cores.length) (beats : Nat) :
    ∃ u, exec (.arbiterGrant arb [r] beats) s =
        .next ((State.moveBeats (min beats 32) u n r.slot.val arb.val).settlePages.settleCore n) ∧
      u.core n = (s.core n).turned r.slot.val y ∧ u.jobs = s.jobs ∧ u.integ = s.integ := by
  obtain ⟨aged, choice⟩ := choose_alone (s.arb arb.val) r
  have present : [r].filter (s.requests arb.val) = [r] := List.filter_eq_self.mpr fun q hq => by
    rw [List.mem_singleton.mp hq]
    exact asks
  obtain ⟨u, hu, cores, jobs, integ⟩ : ∃ u : State, u =
      (if aged then ((s.modArb arb.val (fun b => b.granted [r] r)).count (99 + arb.val) 1 1).count (99 + arb.val) 3 1
        else (s.modArb arb.val (fun b => b.granted [r] r)).count (99 + arb.val) 1 1) ∧
      u.cores = s.cores ∧ u.jobs = s.jobs ∧ u.integ = s.integ := by
    refine ⟨_, rfl, ?_, ?_, ?_⟩ <;> cases aged <;> rfl
  have core : u.core n = s.core n := congrArg (fun l => l.getD n {}) cores
  have len' : n < u.cores.length := by rw [cores]; exact len
  have out : u.outAt arb.val n r.cls.val = none := if_neg (by omega)
  refine ⟨((u.modXfer n r.slot.val (fun x => { x with state := .active })).modCore n (fun c => { c with turn := r.slot.val })), ?_, ?_, jobs, integ⟩
  · rw [exec_arbiterGrant, execArbiterGrant, present]
    dsimp only
    rw [choice]
    dsimp only
    rw [← hu, requester, out, if_neg (by decide), core, show (s.core n).spills arb.val = false by
      rw [Core.spills, whole]; rfl, Bool.and_false, if_neg Bool.false_ne_true, if_pos lt, burstBeats, if_pos port]
  · rw [core_modCore _ _ _ _ (by simpa [State.modXfer, State.modCore] using len'), if_pos rfl, State.modXfer,
      core_modCore _ _ _ _ len', if_pos rfl, core, held, ← active]
    rfl

/-- A COPY touches one place on either side. -/
theorem copy_addrs {y : Xfer} (copy : y.mode = .copy) (m : Nat) : (∃ a, y.uAddrs m = [a]) ∧ ∃ l, y.lAddrs m = [l] := by
  unfold Xfer.uAddrs Xfer.lAddrs Xfer.gather
  rw [copy]
  cases y.store <;> exact ⟨⟨_, rfl⟩, _, rfl⟩

/-- What follows the last beat leaves the core and the job as the beat left them. -/
theorem settled_left {v : State} {n : Nat} {j k : Job} {c : Core} (core : v.core n = c) (job : c.job = some j.ctx)
    (hold : c.hold = none) (here : v.job? j.ctx = some k) (mem : n ∈ k.cores) :
    (v.settlePages.settleCore n).core n = c ∧ (v.settlePages.settleCore n).job? j.ctx = some k := by
  have here' : v.settlePages.job? j.ctx = some k := here
  have core' : v.settlePages.core n = c := core
  rw [settleCore_calm (u := v.settlePages) (by rw [core']; exact job) here' mem (by rw [core']; exact hold)]
  exact ⟨by rw [core_settle]; exact core', (job?_congr (settle_jobs _) _).trans here'⟩

/-- A core after the last beat of its mover's turn. -/
theorem afterBeat_fields (c : Core) (slot : Nat) (y z : Xfer) (os : Mem) :
    let d : Core := { (c.turned slot y).setXfer slot z with os := os }
    d.job = c.job ∧ d.hold = c.hold ∧ d.sregs = c.sregs ∧ d.vregs = c.vregs ∧ d.lwb = c.lwb ∧ d.xfer slot = z :=
  ⟨rfl, rfl, rfl, rfl, rfl, (lookupD_assocSet _ _ _ _ _).trans (if_pos rfl)⟩

theorem grantMovesBeat : GrantMovesBeat := by
  intro s arb r n j beats requester asks unit mem hold wf wfj clean marks flips some_ whole
  dsimp only
  intro active copy queue last asked low within near free port
  obtain ⟨ctx, hc, hj, -, -⟩ := unitJob_eq unit
  obtain rfl := ctx_of_job? hj
  obtain ⟨y, hy⟩ : ∃ y, (s.core n.val).xfer r.slot.val = y := ⟨_, rfl⟩
  rw [hy] at active copy queue last asked within near free ⊢
  obtain ⟨⟨a, ha⟩, l, hl⟩ := copy_addrs copy y.progress
  rw [ha, List.headD_cons] at within ⊢
  rw [hl, List.headD_cons] at near ⊢
  obtain ⟨u, run, core, jobs, integ⟩ := grant_moves requester n.isLt asks port whole hy active (unitJob_lt unit) beats
  have beat : LastBeat u n.val r.slot.val j y a l := {
    job := by rw [core]; exact hc
    here := (job?_congr jobs _).trans hj
    held := by rw [core]; exact (lookupD_assocSet _ _ _ _ _).trans (if_pos rfl)
    clean := by rw [core]; exact clean
    marks := by rw [integ]; exact marks
    flips := by rw [integ]; exact flips
    active := active, copy := copy, queue := queue, last := last, asked := asked, unified := ha, near := hl
    within := within, low := low, store := near
    free := by rw [core, beatHeld_turned hy active]; exact free }
  obtain ⟨k, hk⟩ : ∃ k, min beats 32 = k + 1 := ⟨min beats 32 - 1, by omega⟩
  obtain ⟨os, m, ⟨core', acct, rail, job⟩, load, save⟩ := beat.moveBeats_left port k
  rw [hk] at run
  rw [core] at core' load save
  obtain ⟨sameJob, sameHold, sregs, vregs, lwb, slot⟩ := afterBeat_fields (s.core n.val) r.slot.val y y.advance os
  obtain ⟨left, here⟩ := settled_left core' (sameJob.trans hc) (sameHold.trans hold) job mem
  rw [← left] at sregs vregs lwb slot
  refine ⟨_, _, run, here, ?_, ?_, sregs, vregs, lwb, fun store => ?_, fun store => ?_⟩
  · rw [slot, (advance_done last).1]
  · rw [slot, (advance_done last).2]
  · obtain ⟨eos, em⟩ := load store
    refine ⟨em, fun i => ?_⟩
    rw [left]
    refine (congrArg (fun m => Sparse.get m i) eos).trans ?_
    refine (Sparse.get_write (scale_wf wf).2 l _ i).trans ?_
    rw [length_bytes]
    split
    · rw [getD_bytes wfj _ (by omega)]
    · rfl
  · obtain ⟨eos, em⟩ := save store
    refine ⟨by rw [left]; exact eos, fun i => ?_⟩
    refine (congrArg (fun m => Sparse.get m i) em).trans ?_
    refine (Sparse.get_write wfj a _ i).trans ?_
    rw [length_bytes]
    split
    · exact getD_bytes (scale_wf wf).2 _ (by omega)
    · rfl

/-! ### Cut-offs -/

theorem exec_holdCutOff (arb : Fin 66) (s : State) : exec (.holdCutOff arb) s = execHoldCutOff arb s := rfl

/-- The state in which a grant has ended: the arbiter marks the requester, and what it put on a wire is taken back. -/
def State.cutGrant (s : State) (arb : Nat) (g : Grant) : State :=
  let t := (s.modArb arb (fun b => { b with overrun := setBits b.overrun g.req.requester.val, grant := none })).count (99 + arb) 2 1
  match g.frame with
  | some f => t.abortFrame (arb - 57) g.req.requester.val f
  | none => t

theorem cutGrant_moves {s : State} {arb : Nat} (lt : arb < s.arbs.length) (g : Grant) :
    (s.cutGrant arb g).cores = s.cores ∧ (s.cutGrant arb g).jobs = s.jobs ∧
      (s.cutGrant arb g).arb arb = { s.arb arb with
        overrun := setBits (s.arb arb).overrun g.req.requester.val, grant := none } := by
  have set_ := (arb_modArb s arb arb (fun b => { b with overrun := setBits b.overrun g.req.requester.val, grant := none }) lt).trans
    (if_pos rfl)
  unfold State.cutGrant
  dsimp only
  split <;> exact ⟨rfl, rfl, set_⟩

theorem cutGrant_eq_none (s : State) (arb : Nat) {g : Grant} (h : g.frame = none) : s.cutGrant arb g =
    (s.modArb arb (fun b => { b with overrun := setBits b.overrun g.req.requester.val, grant := none })).count (99 + arb) 2 1 := by
  unfold State.cutGrant
  rw [h]

theorem cutGrant_eq_some (s : State) (arb : Nat) {g : Grant} {f : Frame} (h : g.frame = some f) : s.cutGrant arb g =
    ((s.modArb arb (fun b => { b with overrun := setBits b.overrun g.req.requester.val, grant := none })).count (99 + arb) 2
      1).abortFrame (arb - 57) g.req.requester.val f := by
  unfold State.cutGrant
  rw [h]

/-- A cut-off of a mover's grant. -/
theorem cutOff_marks {s : State} {arb : Fin 66} {g : Grant} {j : Job} (grant : (s.arb arb.val).grant = some g)
    (cut : (s.arb arb.val).cutEn = true) (limit : (s.arb arb.val).limit g.req.cls.val ≠ 0) (lt : g.req.requester.val < 32)
    (here : (s.core g.req.requester.val).job.bind s.job? = some j) (whole : g.spill = false)
    (active : ((s.core g.req.requester.val).xfer g.req.slot.val).state = .active)
    (inArbs : arb.val < s.arbs.length) :
    exec (.holdCutOff arb) s =
      let x := (s.core g.req.requester.val).xfer g.req.slot.val
      let t := ((s.cutGrant arb.val g).modXfer g.req.requester.val g.req.slot.val Xfer.cut).count g.req.requester.val 7 1
      if 16 ≤ x.cut.cutOffs then .next (t.failJob j.ctx .engineFault 2 x.pc).settle else .next t := by
  obtain ⟨cores, jobs, -⟩ := cutGrant_moves inArbs g
  have core : (s.cutGrant arb.val g).core g.req.requester.val = s.core g.req.requester.val :=
    congrArg (fun l => l.getD g.req.requester.val {}) cores
  have job : ((s.cutGrant arb.val g).core g.req.requester.val).job.bind (s.cutGrant arb.val g).job? = some j := by
    rw [core, show (s.cutGrant arb.val g).job? = s.job? from funext (job?_congr jobs)]
    exact here
  rw [exec_holdCutOff, execHoldCutOff, grant]
  dsimp only
  rw [if_neg (by rw [cut]; simpa using limit), whole, if_pos (by simpa using lt)]
  cases frame : g.frame with
  | none =>
    have e := cutGrant_eq_none s arb.val frame
    rw [← e, job]
    dsimp only
    rw [core, if_neg (not_not.mpr active)]
  | some f =>
    have e := cutGrant_eq_some s arb.val frame
    dsimp only
    rw [e] at job core ⊢
    rw [job]
    dsimp only
    rw [if_neg (by rw [core]; exact not_not.mpr active), core]

theorem cut_active {x : Xfer} (h : x.state = .active) : x.cut.state = .cutOff ∧ x.cut.progress = x.progress ∧
    x.cut.cutOffs = if x.progress = x.cutFrom then x.cutOffs + 1 else 1 :=
  ⟨if_pos h, rfl, rfl⟩

theorem cutOffsEndGrants : CutOffsEndGrants := by
  intro s arb g j inArbs grant cut limit lt inCores here
  dsimp only
  intro whole active
  have run := cutOff_marks grant cut limit lt here whole active inArbs
  dsimp only at run
  obtain ⟨cores, jobs, arbs⟩ := cutGrant_moves inArbs g
  have len : g.req.requester.val < (s.cutGrant arb.val g).cores.length := by rw [cores]; exact inCores
  have core : (s.cutGrant arb.val g).core g.req.requester.val = s.core g.req.requester.val :=
    congrArg (fun l => l.getD g.req.requester.val {}) cores
  refine ⟨fun few => ?_, fun many alive none_ => ?_⟩
  · rw [if_neg (by omega)] at run
    have slot : (((s.cutGrant arb.val g).modXfer g.req.requester.val g.req.slot.val Xfer.cut).core g.req.requester.val).xfer
        g.req.slot.val = ((s.core g.req.requester.val).xfer g.req.slot.val).cut := by
      rw [State.modXfer, core_modCore _ _ _ _ len, if_pos rfl, core]
      exact (lookupD_assocSet _ _ _ _ _).trans (if_pos rfl)
    obtain ⟨state, progress, count⟩ := cut_active active
    refine ⟨_, run, (congrArg Arb.grant arbs :), ?_, ?_⟩
    · refine (congrArg (fun b => b.overrun.getLsbD g.req.requester.val) arbs).trans ?_
      dsimp only
      rw [getLsbD_setBits _ _ (by omega)]
      simp
    · refine ⟨(congrArg Xfer.state slot).trans state, (congrArg Xfer.progress slot).trans progress,
        (congrArg Xfer.cutOffs slot).trans count⟩
  · rw [if_pos many] at run
    have hj : s.job? j.ctx = some j := by
      obtain ⟨ctx, -, h⟩ := Option.bind_eq_some_iff.mp here
      obtain rfl := ctx_of_job? h
      exact h
    have hj' : (((s.cutGrant arb.val g).modXfer g.req.requester.val g.req.slot.val Xfer.cut).count
        g.req.requester.val 7 1).job? j.ctx = some j := (job?_congr jobs _).trans hj
    exact ⟨_, run, failed_settle (failed_failJob hj' alive none_ .engineFault 2 _)⟩

/-- Settles O31: a grant by the beat that it moves, a cut-off by the transfer that it marks. -/
theorem grantsMoveAndEnd : Obligations.GrantsMoveAndEnd := ⟨grantMovesBeat, cutOffsEndGrants⟩

end Sys2Proof.Machine
end

section
/-!
SUPPORT. SR.WALK and SR.FILT (R228, R229, R292 to R296, R301 to R303).
-/

namespace Sys2Proof.Machine

open Sys2Proof.Safety

theorem exec_srWalk (n : Fin 32) (a : BitVec 5) (s : State) : exec (.srWalk n a) s = execSrWalk n a s := rfl
theorem exec_srFilt (n : Fin 32) (a : BitVec 5) (s : State) : exec (.srFilt n a) s = execSrFilt n a s := rfl

/-! ### What a search keeps -/

theorem get_append {w : Nat} (a b : Sparse w) (k : Nat) (h : ∀ c ∈ a, c.1 ≠ k) :
    Sparse.get (a ++ b) k = Sparse.get b k := by
  induction a with
  | nil => rfl
  | cons c t ih =>
    rw [List.cons_append]
    refine (if_neg (h c (by simp))).trans (ih fun d hd => h d (by simp [hd]))

theorem get_append_left {w : Nat} (a b : Sparse w) (k : Nat) (h : ∀ c ∈ b, c.1 ≠ k) :
    Sparse.get (a ++ b) k = Sparse.get a k := by
  induction a with
  | nil =>
    have := get_append b [] k h
    rw [List.append_nil] at this
    exact this
  | cons c t ih =>
    obtain ⟨i, v⟩ := c
    rw [List.cons_append]
    unfold Sparse.get
    rw [ih]

theorem ofList_ge {w : Nat} (base : Nat) (vs : List (BitVec w)) : ∀ c ∈ Sparse.ofList base vs, base ≤ c.1 ∧ c.1 < base + vs.length := by
  induction vs generalizing base with
  | nil => intro c hc; cases hc
  | cons v t ih =>
    intro c hc
    rw [Sparse.ofList] at hc
    rw [List.length_cons]
    split at hc
    · have := ih (base + 1) c hc
      omega
    · rcases List.mem_cons.mp hc with rfl | hc
      · simp
      · have := ih (base + 1) c hc
        omega

/-- A write leaves every byte outside it, whatever the form of the memory. -/
theorem get_write_outside (m : Mem) (base : Nat) (bs : List Byte) {k : Nat} (out : k < base ∨ base + bs.length ≤ k) :
    Sparse.get (Mem.write m base bs) k = Sparse.get m k := by
  have mid := ofList_ge base bs
  unfold Mem.write Sparse.splice
  rcases out with below | above
  · rw [get_append_left, get_keep m (fun i => decide (i < base)) (by simpa using below)]
    intro c hc
    rcases List.mem_append.mp hc with h | h
    · have := mid c h
      omega
    · have := of_decide_eq_true (List.mem_filter.mp h).2
      omega
  · rw [get_append, get_append, get_keep m (fun i => decide (base + bs.length ≤ i)) (by simpa using above)]
    · intro c hc
      have := mid c hc
      omega
    · intro c hc
      have := of_decide_eq_true (List.mem_filter.mp hc).2
      omega

/-- What a walk or a filter keeps: the registers of its core, the stored copies, and the lane buffers below the lists. -/
structure Searched (c : Core) (copies : List Copy) (n : Nat) (t : State) : Prop where
  lt : n < t.cores.length
  same : t.copies = copies
  sregs : (t.core n).sregs = c.sregs
  vregs : (t.core n).vregs = c.vregs
  clean : (t.core n).lwbEcc = []
  bounds : listsWf (t.core n).topk = true
  bytes : ∀ i, i % 8192 < 6144 → Sparse.get (t.core n).lwb i = Sparse.get c.lwb i

section
variable {c : Core} {copies : List Copy} {n : Nat} {t : State} (h : Searched c copies n t)
include h

/-- What moves neither the copies nor the cores keeps it. -/
theorem searched_beside {u : State} (cores : u.cores = t.cores) (same : u.copies = t.copies) : Searched c copies n u := by
  have core : u.core n = t.core n := congrArg (fun l => l.getD n {}) cores
  exact ⟨by rw [cores]; exact h.lt, same.trans h.same, by rw [core]; exact h.sregs, by rw [core]; exact h.vregs,
    by rw [core]; exact h.clean, by rw [core]; exact h.bounds, by rw [core]; exact h.bytes⟩

theorem searched_charge (ctx : Nat) (x : Copy) (off beats flash : Nat) :
    Searched c copies n (t.chargeDirect ctx x off beats flash) := searched_beside h rfl rfl

theorem searched_fresh : Searched c copies n t.fresh.2 := searched_beside h rfl rfl

theorem searched_osWrite (a : Nat) (bs : List Byte) : Searched c copies n (t.osWrite n a bs) := by
  have set_ : ∀ os ecc, Searched c copies n (t.setCore n { t.core n with os := os, osEcc := ecc }) := fun os ecc => by
    have core : (t.setCore n { t.core n with os := os, osEcc := ecc }).core n = { t.core n with os := os, osEcc := ecc } := by
      rw [core_setCore _ _ _ _ h.lt, if_pos rfl]
    exact ⟨by rw [setCore_length]; exact h.lt, h.same, by rw [core]; exact h.sregs, by rw [core]; exact h.vregs,
      by rw [core]; exact h.clean, by rw [core]; exact h.bounds, by rw [core]; exact h.bytes⟩
  unfold State.osWrite
  split
  · exact h
  · dsimp only
    split
    · exact searched_beside (set_ _ _) rfl rfl
    · exact set_ _ _

theorem searched_offer (lane : Nat) (e : W64) : Searched c copies n (t.offer n lane e) := by
  unfold State.offer
  dsimp only
  split
  · refine searched_beside (t := t.setList n lane (tkOffer (t.core n).topk.score (t.core n).topk.kLane e ((t.core n).tkList lane)).1)
      ?_ (count_cores _ _ _ _) (count_copies _ _ _ _)
    have kept : ((t.core n).tkList lane).length ≤ (t.core n).topk.kLane := by
      rw [← list_lists, length_list]
      exact count_le h.bounds
    have len := length_tkOffer (score := (t.core n).topk.score) (e := e) kept
    generalize (tkOffer (t.core n).topk.score (t.core n).topk.kLane e ((t.core n).tkList lane)).1 = l at *
    have small := len.trans (listsWf_iff.mp h.bounds).1
    have core : (t.setList n lane l).core n = (t.core n).withLists ((t.core n).lists.put lane l) := by
      rw [setList_eq h.lt, core_modCore _ _ _ _ h.lt, if_pos rfl]
    have put : (t.core n).lists.put lane l = { lwb := Mem.write (t.core n).lwb (listAt lane) ((l.map (fun e => leBytes 8 e.toNat)).flatten), ecc := [], topk := { (t.core n).topk with counts := Sparse.set (t.core n).topk.counts lane (BitVec.ofNat 16 l.length) } } := by
      unfold Lists.put Core.lists
      dsimp only
      rw [h.clean, codedWrite_clean]
    rw [put] at core
    refine ⟨?_, ?_, ?_, ?_, ?_, ?_, fun i hi => ?_⟩
    · rw [setList_eq h.lt, State.modCore, setCore_length]; exact h.lt
    · rw [setList_eq h.lt]; exact h.same
    · rw [core]; exact h.sregs
    · rw [core]; exact h.vregs
    · rw [core]; rfl
    · rw [core]
      refine listsWf_iff.mpr ⟨(listsWf_iff.mp h.bounds).1, fun p hp => ?_⟩
      rcases mem_set hp with old | rfl
      · exact (listsWf_iff.mp h.bounds).2 p old
      · change (BitVec.ofNat 16 l.length).toNat ≤ (t.core n).topk.kLane
        rw [BitVec.toNat_ofNat]
        omega
    · rw [core]
      refine (get_write_outside _ _ _ ?_).trans (h.bytes i hi)
      rw [length_entryBytes]
      unfold listAt
      omega
  · exact h

end

/-! ### The walk -/

/-- A walk whose state keeps what a search keeps. -/
theorem searched_broadcast {c : Core} {copies : List Copy} {w : Walk} {k : WalkCtx} (h : Searched c copies k.core w.st) (j : Nat) :
    Searched c copies k.core (w.broadcast k j).st := by
  unfold Walk.broadcast
  dsimp only
  exact List.foldlRecOn _ _ (searched_charge h _ _ _ _ _) fun t ht l _ => searched_offer ht _ _

/-- Expanding an entry moves neither the state nor the rounds of a walk. -/
theorem expand_keeps (w : Walk) (k : WalkCtx) (front : List Nat) (lane : Nat) :
    (w.expand k front lane).1.st = w.st ∧ (w.expand k front lane).1.rounds = w.rounds := by
  unfold Walk.expand
  split
  · exact ⟨rfl, rfl⟩
  · dsimp only
    refine List.foldlRecOn (motive := fun r : Walk × List Nat => r.1.st = w.st ∧ r.1.rounds = w.rounds) _ _ ⟨rfl, rfl⟩ fun r hr a _ => ?_
    dsimp only
    unfold Walk.resolve
    dsimp only
    split <;> exact hr

/-- A round of a walk. -/
theorem searched_round {c : Core} {copies : List Copy} {w : Walk} {k : WalkCtx} (h : Searched c copies k.core w.st) :
    Searched c copies k.core (w.round k).st ∧ (w.round k).rounds = w.rounds + 1 := by
  unfold Walk.round
  dsimp only
  have opened := List.foldlRecOn (motive := fun r : Walk × List Nat => r.1.st = w.st ∧ r.1.rounds = w.rounds) k.lanes
    (fun r l => r.1.expand k r.2 l.1) (b := (w, [])) ⟨rfl, rfl⟩ fun r hr l _ => by
      obtain ⟨st, rounds⟩ := expand_keeps r.1 k r.2 l.1
      exact ⟨st.trans hr.1, rounds.trans hr.2⟩
  generalize k.lanes.foldl (fun r l => r.1.expand k r.2 l.1) (w, []) = r at *
  obtain ⟨st, rounds⟩ := opened
  have spread := List.foldlRecOn (motive := fun v : Walk => Searched c copies k.core v.st ∧ v.rounds = w.rounds) r.2
    (fun w j => if w.visited.contains j then w else w.broadcast k j) (b := r.1) ⟨by rw [st]; exact h, rounds⟩
    fun v hv j _ => by
      split
      · exact hv
      · exact ⟨searched_broadcast hv.1 j, hv.2⟩
  exact ⟨spread.1, congrArg (· + 1) spread.2⟩

/-- The rounds of a walk. -/
theorem searched_run {c : Core} {copies : List Copy} {k : WalkCtx} (n : Nat) {w : Walk} (h : Searched c copies k.core w.st) :
    Searched c copies k.core (Walk.run n w k).st ∧ (Walk.run n w k).rounds ≤ w.rounds + n := by
  induction n generalizing w with
  | zero => exact ⟨h, le_rfl⟩
  | succ n ih =>
    rw [Walk.run]
    split
    · obtain ⟨next, one⟩ := searched_round h
      obtain ⟨last, few⟩ := ih next
      exact ⟨last, by omega⟩
    · exact ⟨h, by omega⟩

/-- The whole walk. -/
theorem searched_walk {c : Core} {copies : List Copy} {s : State} {k : WalkCtx} (h : Searched c copies k.core s)
    (entry rounds : Nat) : Searched c copies k.core (walkFrom s k entry rounds).st ∧
      (walkFrom s k entry rounds).rounds ≤ rounds := by
  have cleared : Searched c copies k.core (s.modCore k.core (fun c => { c with topk := { c.topk with
      counts := c.topk.counts.filter (fun l => !(k.lanes.any (fun q => q.1 == l.1))) } })) := by
    have core := core_modCore s k.core k.core (fun c => { c with topk := { c.topk with
      counts := c.topk.counts.filter (fun l => !(k.lanes.any (fun q => q.1 == l.1))) } }) h.lt
    rw [if_pos rfl] at core
    refine ⟨by simpa [State.modCore] using h.lt, h.same, ?_, ?_, ?_, ?_, ?_⟩
    · rw [core]; exact h.sregs
    · rw [core]; exact h.vregs
    · rw [core]; exact h.clean
    · rw [core]
      exact listsWf_iff.mpr ⟨(listsWf_iff.mp h.bounds).1, fun p hp =>
        (listsWf_iff.mp h.bounds).2 p (List.mem_of_mem_filter hp)⟩
    · rw [core]; exact h.bytes
  unfold walkFrom
  dsimp only
  generalize s.modCore k.core _ = t at *
  have first : ∀ e, Searched c copies k.core ((Walk.resolve { st := t } k e).2).st ∧
      ((Walk.resolve { st := t } k e).2).rounds = 0 := fun e => by
    unfold Walk.resolve
    dsimp only
    split <;> exact ⟨cleared, rfl⟩
  obtain ⟨st, zero⟩ := first entry
  obtain ⟨last, few⟩ := searched_run rounds (searched_broadcast st (Walk.resolve { st := t } k entry).1)
  refine ⟨last, few.trans ?_⟩
  change ((Walk.resolve { st := t } k entry).2).rounds + rounds ≤ rounds
  omega

theorem searched_finish {c : Core} {copies : List Copy} {w : Walk} {k : WalkCtx} (h : Searched c copies k.core w.st)
    (d : List Byte) : Searched c copies k.core (w.finish k d) := by
  unfold Walk.finish
  dsimp only
  exact searched_osWrite (searched_fresh (searched_osWrite (searched_osWrite (searched_charge h _ _ _ _ _) _ _) _ _)) _ _

/-! ### A core on which nothing holds a search -/

/-- Nothing is in flight on a core. -/
structure Still (c : Core) : Prop where
  opening : c.opening = none
  tiles : c.tiles = []
  sweeps : c.sweeps = []
  xfers : c.xfers = []

theorem still_free {c : Core} (h : Still c) (a n : Nat) : c.readHeld a n = false ∧ c.writeHeld a n = false := by
  have runs : c.dueRuns = [] := by
    unfold Core.dueRuns
    rw [h.opening, h.tiles, h.sweeps]
    rfl
  have open_ : c.openTiles = [] := by
    unfold Core.openTiles
    rw [h.opening, h.tiles]
    rfl
  unfold Core.readHeld Core.writeHeld Core.dueWrites Core.tileInputs Core.dueReads
  rw [runs, open_, h.xfers]
  exact ⟨rfl, rfl⟩

/-- The index that an address names is the same where objects and copies are. -/
theorem indexAt_of_body {s t : State} (h : body t = body s) (j : Job) (a : Nat) : t.indexAt j a = s.indexAt j a := by
  have e : ∀ u : State, u.indexAt j a = (body u).indexAt j a := fun _ => rfl
  rw [e t, h, ← e s]

/-- Marks of no word of a clean lane buffer or operand store. -/
theorem noteLocals_clean {s : State} {n : Nat} (os : (s.core n).osEcc = []) (lwb : (s.core n).lwbEcc = [])
    (l : List (Nat × Nat)) : l.foldl (fun s r => s.noteLocal n r.1 r.2) s = s := by
  induction l with
  | nil => rfl
  | cons r t ih =>
    have : s.noteLocal n r.1 r.2 = s := by
      unfold State.noteLocal
      dsimp only
      rw [os, lwb]
      split <;> rfl
    rw [List.foldl_cons, this, ih]

theorem localsLost_clean {c : Core} (os : c.osEcc = []) (lwb : c.lwbEcc = []) (l : List (Nat × Nat)) :
    l.any (fun r => c.localLost r.1 r.2) = false := by
  rw [List.any_eq_false]
  intro r _
  unfold Core.localLost
  rw [os, lwb]
  split <;> exact Bool.false_ne_true

theorem searched_retire {s : State} {n : Fin 32} {j : Job} (h : Issues s n j) (clean : (s.core n.val).lwbEcc = [])
    (lists : listsWf (s.core n.val).topk = true) : Searched (s.core n.val) s.copies n.val (s.retire n.val j 8) := by
  have e := core_retire s n.val j 8 n.val
  have b := body_retire s n.val j 8
  exact {
    lt := by rw [length_of_body b]; exact issues_lt h
    same := (congrArg State.copies b :)
    sregs := (congrArg Core.sregs e :)
    vregs := (congrArg Core.vregs e :)
    clean := (congrArg Core.lwbEcc e :).trans clean
    bounds := (congrArg (fun c : Core => listsWf c.topk) e :).trans lists
    bytes := fun i _ => (congrArg (fun c : Core => Sparse.get c.lwb i) e :) }

/-- SR.WALK, where nothing holds it and its descriptor and queries are good, is its walk. -/
theorem srWalk_runs {s : State} {n : Fin 32} {j : Job} {a : BitVec 5} {x : Copy} (h : Issues s n j)
    (clean : (s.core n.val).osEcc = []) (lclean : (s.core n.val).lwbEcc = []) (still : Still (s.core n.val))
    (feeds : (s.core n.val).feeds = false) {at_ : Nat} (ha : ((s.core n.val).sreg a).toNat = at_)
    (aligned : at_ % 64 = 0) (inside : at_ + 64 ≤ 0x800000) {d : List Byte} (hd : d = Mem.bytes (s.core n.val).os at_ 64)
    (index : s.indexAt j (fieldAt d 0 8) = some x) (good : walkGood (s.core n.val) x d = true)
    {k : WalkCtx} (hk : k = { core := n.val, ctx := j.ctx, copy := x, lanes := (s.core n.val).walkLanes x d })
    {w : Walk} (hw : w = walkFrom (s.retire n.val j 8) k
      (if fieldAt d 0x1C 4 = 0xFFFFFFFF then x.field 0x0C 4 else fieldAt d 0x1C 4) (fieldAt d 0x0D 1))
    (found : w.lost k = none) : exec (.srWalk n a) s = .next (w.finish k d) := by
  have e := core_retire s n.val j 8 n.val
  have sr : ((s.retire n.val j 8).core n.val).sreg a = (s.core n.val).sreg a := (congrArg (fun c => Core.sreg c a) e :)
  have clean' : ((s.retire n.val j 8).core n.val).osEcc = [] := (congrArg Core.osEcc e :).trans clean
  have lclean' : ((s.retire n.val j 8).core n.val).lwbEcc = [] := (congrArg Core.lwbEcc e :).trans lclean
  have os : ((s.retire n.val j 8).core n.val).os = (s.core n.val).os := (congrArg Core.os e :)
  have good' : walkGood ((s.retire n.val j 8).core n.val) x d = true := (congrArg (fun c => walkGood c x d) e :).trans good
  have lanes : ((s.retire n.val j 8).core n.val).walkLanes x d = (s.core n.val).walkLanes x d :=
    (congrArg (fun c => Core.walkLanes c x d) e :)
  have index' := (indexAt_of_body (body_retire s n.val j 8) j (fieldAt d 0 8)).trans index
  have low : at_ < 0x01000000 := by omega
  have bad : descAtBad at_ = false := by
    rw [descAtBad, osBytes, decide_eq_false (by omega), decide_eq_false (by omega)]
    rfl
  rw [exec_srWalk, execSrWalk]
  refine (issue_next h (len := 8) h.2 rfl ?_ _).trans ?_
  · dsimp only
    have free : ∀ o : Option Copy, o.any (fun x => (walkRegions x ((s.core n.val).localRead at_ 64)).any
        (fun r => (s.core n.val).writeHeld r.1 r.2)) = false := fun o => by
      cases o with
      | none => rfl
      | some x => exact List.any_eq_false.mpr fun r _ => by rw [(still_free still _ _).2]; exact Bool.false_ne_true
    rw [ha, still.opening, feeds, (still_free still _ _).1, queryHeld, still.xfers, free]
    simp
  · dsimp only
    rw [sr, ha, bad, if_neg Bool.false_ne_true, noteLocal_clean clean' low, localLost_clean clean' low,
      if_neg Bool.false_ne_true, localRead_clean clean' low, os, ← hd, index']
    dsimp only
    rw [good', Bool.not_true, if_neg Bool.false_ne_true, noteLocals_clean clean' lclean', localsLost_clean clean' lclean',
      if_neg Bool.false_ne_true, lanes, ← hk, ← hw, found]

theorem walkCompletes : WalkCompletes := by
  intro s n j a x h clean lclean lists
  dsimp only
  intro aligned inside opening feeds xfers tiles sweeps index good found
  have run := srWalk_runs h clean lclean ⟨opening, tiles, sweeps, xfers⟩ feeds rfl aligned inside rfl index good rfl rfl found
  obtain ⟨kept, few⟩ := searched_walk (k := { core := n.val, ctx := j.ctx, copy := x, lanes := (s.core n.val).walkLanes x (Mem.bytes (s.core n.val).os ((s.core n.val).sreg a).toNat 64) }) (searched_retire h lclean lists)
    (if fieldAt (Mem.bytes (s.core n.val).os ((s.core n.val).sreg a).toNat 64) 0x1C 4 = 0xFFFFFFFF then x.field 0x0C 4
      else fieldAt (Mem.bytes (s.core n.val).os ((s.core n.val).sreg a).toNat 64) 0x1C 4)
    (fieldAt (Mem.bytes (s.core n.val).os ((s.core n.val).sreg a).toNat 64) 0x0D 1)
  obtain ⟨-, same, sregs, vregs, -, -, bytes⟩ := searched_finish kept
    (Mem.bytes (s.core n.val).os ((s.core n.val).sreg a).toNat 64)
  exact ⟨run, sregs, bytes, vregs, same, few⟩

/-! ### The filter -/

/-- What a filter step keeps: its list holds at most what was asked, it has examined no more entries than it met, and the
cores stay. -/
structure Filtered (s : State) (k seen : Nat) (f : FiltStep) : Prop where
  out : f.out.length ≤ k
  examined : f.examined ≤ seen
  cores : f.st.cores = s.cores

/-- One entry. -/
theorem filtered_entry {s : State} {k seen : Nat} {f : FiltStep} (h : Filtered s k seen f) (ctx : Nat) (x : Copy)
    (filter : Option (List Byte)) (e : W64) : Filtered s k (seen + 1) (f.entry ctx x filter k e) := by
  obtain ⟨out, examined, cores⟩ := h
  unfold FiltStep.entry
  split
  · exact ⟨out, by omega, cores⟩
  · rename_i open_
    have room : f.out.length < k := by
      by_contra full
      exact open_ (.inl (by omega))
    have ident : ∀ tag, (((({ f with examined := f.examined + 1 } : FiltStep)).ident ctx x tag).1.out = f.out ∧
        ((({ f with examined := f.examined + 1 } : FiltStep)).ident ctx x tag).1.examined = f.examined + 1 ∧
        ((({ f with examined := f.examined + 1 } : FiltStep)).ident ctx x tag).1.st.cores = f.st.cores) := by
      intro tag
      unfold FiltStep.ident
      dsimp only
      split
      · exact ⟨rfl, rfl, rfl⟩
      · split
        · exact ⟨rfl, rfl, rfl⟩
        · split <;> exact ⟨rfl, rfl, rfl⟩
    obtain ⟨o, ex, co⟩ := ident (tkTag e)
    dsimp only
    split
    · rename_i g hg
      rw [hg] at o ex co
      dsimp only at o ex co
      exact ⟨by rw [o]; exact out, by omega, co.trans cores⟩
    · rename_i g n hg
      rw [hg] at o ex co
      dsimp only at o ex co
      have few : g.out.length < k := by rw [o]; exact room
      split
      · exact ⟨few.le, by dsimp only; omega, co.trans cores⟩
      · split
        · exact ⟨few, by dsimp only; omega, co.trans cores⟩
        · split
          · exact ⟨few.le, by dsimp only; omega, co.trans cores⟩
          · split
            · exact ⟨few, by dsimp only; omega, co.trans cores⟩
            · exact ⟨few.le, by dsimp only; omega, co.trans cores⟩

/-- The entries of a filter step. -/
theorem filtered_entries {s : State} {k : Nat} (ctx : Nat) (x : Copy) (filter : Option (List Byte)) (es : List W64)
    {seen : Nat} {f : FiltStep} (h : Filtered s k seen f) :
    Filtered s k (seen + es.length) (es.foldl (fun f e => f.entry ctx x filter k e) f) := by
  induction es generalizing seen f with
  | nil => exact h
  | cons e t ih =>
    rw [List.foldl_cons, List.length_cons, show seen + (t.length + 1) = seen + 1 + t.length by omega]
    exact ih (filtered_entry h ctx x filter e)

/-- The reads of a good filter descriptor lie in the operand store. -/
theorem filtReads_clean {s : State} {n : Nat} {c : Core} {d : List Byte} (good : filtGood c d = true)
    (clean : (s.core n).osEcc = []) : (filtReads d).foldl (fun s r => s.noteLocal n r.1 r.2) s = s ∧
      (filtReads d).any (fun r => (s.core n).localLost r.1 r.2) = false := by
  have all : (filtRegions d).all (fun r => decide (r.1 + r.2 ≤ osBytes) && !c.holdRefused r.1 r.2) = true := by
    unfold filtGood at good
    simp only [Bool.and_eq_true] at good
    tauto
  have low : ∀ r ∈ filtReads d, r.1 < 0x01000000 := fun r hr => by
    have mem : r ∈ filtRegions d := by
      unfold filtReads at hr
      unfold filtRegions
      simp only [List.mem_append, List.mem_cons, List.not_mem_nil, or_false] at hr ⊢
      exact hr.imp .inl id
    have := List.all_eq_true.mp all r mem
    rw [Bool.and_eq_true, decide_eq_true_eq, osBytes] at this
    omega
  refine ⟨?_, List.any_eq_false.mpr fun r hr => by rw [localLost_clean clean (low r hr)]; exact Bool.false_ne_true⟩
  refine List.foldlRecOn (motive := fun t => t = s) _ _ rfl fun t ht r hr => ?_
  rw [ht, noteLocal_clean clean (low r hr)]

/-- SR.FILT, where nothing holds it and its descriptor is good, is its filter step. -/
theorem srFilt_runs {s : State} {n : Fin 32} {j : Job} {a : BitVec 5} {x : Copy} (h : Issues s n j)
    (clean : (s.core n.val).osEcc = []) (still : Still (s.core n.val)) {at_ : Nat} (ha : ((s.core n.val).sreg a).toNat = at_)
    (aligned : at_ % 32 = 0) (inside : at_ + 32 ≤ 0x800000) {d : List Byte} (hd : d = Mem.bytes (s.core n.val).os at_ 32)
    (index : s.indexAt j (fieldAt d 0 8) = some x) (good : filtGood (s.core n.val) d = true) {f : FiltStep}
    (hf : f = ((pieces 8 (Mem.bytes (s.core n.val).os (fieldAt d 8 4) (8 * fieldAt d 0x0C 4))).map
      (fun p => BitVec.ofNat 64 (le p))).foldl (fun (f : FiltStep) e => f.entry j.ctx x
        (if fieldAt d 0x10 4 = 0xFFFFFFFF then none else some (Mem.bytes (s.core n.val).os (fieldAt d 0x10 4) 256))
        (fieldAt d 0x18 2) e) { st := s.retire n.val j 8 })
    (found : f.lost = none) (within : f.outside = none) :
    exec (.srFilt n a) s = .next (f.st.osWrite n.val (fieldAt d 0x14 4) (f.result d)) := by
  have e := core_retire s n.val j 8 n.val
  have sr : ((s.retire n.val j 8).core n.val).sreg a = (s.core n.val).sreg a := (congrArg (fun c => Core.sreg c a) e :)
  have clean' : ((s.retire n.val j 8).core n.val).osEcc = [] := (congrArg Core.osEcc e :).trans clean
  have os : ((s.retire n.val j 8).core n.val).os = (s.core n.val).os := (congrArg Core.os e :)
  have good' : filtGood ((s.retire n.val j 8).core n.val) d = true := (congrArg (fun c => filtGood c d) e :).trans good
  have index' := (indexAt_of_body (body_retire s n.val j 8) j (fieldAt d 0 8)).trans index
  have low : at_ < 0x01000000 := by omega
  have bad : filtAtBad at_ = false := by
    rw [filtAtBad, osBytes, aligned, decide_eq_false (by omega)]
    rfl
  rw [exec_srFilt, execSrFilt]
  refine (issue_next h (len := 8) h.2 rfl ?_ _).trans ?_
  · dsimp only
    have free : ∀ l : List (Nat × Nat), l.any (fun r => (s.core n.val).readHeld r.1 r.2) = false := fun l =>
      List.any_eq_false.mpr fun r _ => by rw [(still_free still _ _).1]; exact Bool.false_ne_true
    rw [free, (still_free still _ _).1, (still_free still _ _).2]
    simp
  · obtain ⟨note, whole⟩ := filtReads_clean good clean'
    have named : (if filtNamed d then some (Mem.bytes (s.core n.val).os (fieldAt d 0x10 4) 256) else none) =
        if fieldAt d 0x10 4 = 0xFFFFFFFF then none else some (Mem.bytes (s.core n.val).os (fieldAt d 0x10 4) 256) := by
      unfold filtNamed
      by_cases e : fieldAt d 0x10 4 = 0xFFFFFFFF
      · rw [if_pos e, if_neg (by simpa using e)]
      · rw [if_neg e, if_pos (by simpa using e)]
    dsimp only
    rw [sr, ha, bad, if_neg Bool.false_ne_true, noteLocal_clean clean' low, localLost_clean clean' low,
      if_neg Bool.false_ne_true, osRead_clean clean', os, ← hd, index']
    dsimp only
    rw [good', Bool.not_true, if_neg Bool.false_ne_true, note, whole, if_neg Bool.false_ne_true, osRead_clean clean',
      osRead_clean clean', os, named, ← hf, found, within]

theorem sregs_osWrite {s : State} {n : Nat} (lt : n < s.cores.length) (a : Nat) (bs : List Byte) :
    ((s.osWrite n a bs).core n).sregs = (s.core n).sregs := by
  have set_ : ∀ os ecc, ((s.setCore n { s.core n with os := os, osEcc := ecc }).core n).sregs = (s.core n).sregs :=
    fun os ecc => by rw [core_setCore _ _ _ _ lt, if_pos rfl]
  unfold State.osWrite
  split
  · rfl
  · dsimp only
    split
    · exact set_ _ _
    · exact set_ _ _

theorem filterCompletes : FilterCompletes := by
  intro s n j a x h clean
  dsimp only
  intro aligned inside xfers tiles opening sweeps index good found within
  have run := srFilt_runs h clean ⟨opening, tiles, sweeps, xfers⟩ rfl aligned inside rfl index good rfl found within
  refine ⟨run, ?_⟩
  obtain ⟨out, examined, cores⟩ := filtered_entries (s := s.retire n.val j 8) j.ctx x _ _
    (⟨Nat.zero_le _, le_rfl, rfl⟩ : Filtered (s.retire n.val j 8) _ 0 { st := s.retire n.val j 8 })
  have core := congrArg (fun l => l.getD n.val {}) cores
  refine ⟨out, examined.trans (by omega), ?_⟩
  rw [sregs_osWrite (by rw [cores, length_of_body (body_retire s n.val j 8)]; exact issues_lt h)]
  exact (congrArg Core.sregs core).trans (congrArg Core.sregs (core_retire s n.val j 8 n.val) :)

/-- Settles O25: a walk by its rounds, a filter step by its entries. -/
theorem searchInstructions : Obligations.SearchInstructions := ⟨walkCompletes, filterCompletes⟩

end Sys2Proof.Machine
end

section
/-!
SUPPORT. The commands of the admin queue (R47, R48, R71 to R77).
-/

namespace Sys2Proof.Machine

open Sys2Proof.Safety

/-! ### A reset that frees identifiers (R74, R291) -/

/-- An admin queue and an I/O queue with nothing in it. -/
def adminQueue : Queue :=
  { id := 0, pod := 0, cls := 0, sqLog2 := 6, cqLog2 := 6, sqOffset := 0, cqAddr := 0x100000, vector := 0 }
def ioQueue : Queue :=
  { id := 1, pod := 1, cls := 1, sqLog2 := 6, cqLog2 := 6, sqOffset := 4096, cqAddr := 0x200000, vector := 1 }

/-- A command of the admin queue. -/
def adminCmd (opcode p0 : Nat) : Cmd :=
  { uid := 7, queue := 0, opcode := opcode, tag := 3, fence := false, noIntr := false, hostTime := 0, object := 0
    p0 := p0, p1 := 0, p2 := 0, payload := [], whole := true, nextIndex := 1, begun := false, posted := 0
    seqNo := none, progress := 0, verdict := none, finished := false }

/-- An index one of whose identifiers is RETIRED, the command that it waited for completed. -/
def retiredIndex : Copy :=
  { id := 0, kind := .index, size := 4096, mem := [], index := { retired := [{ ident := 5, waits := [6] }] } }

/-- A module with a RESET_QUEUE of the empty I/O queue, and such an index. -/
def resetAwaits : State := { State.reset with
  hw := { phase := .running, perst := false, started := true, startStep := 7 }
  link := { linkUp := true, session := true, ide := true, queues := [adminQueue, ioQueue], cmds := [adminCmd 3 1]
            nextUid := 8, admin := { ready := true, enable := true } }
  sec := { State.reset.sec with lc := .service }
  copies := [retiredIndex] }

/-- The RETIRED identifiers of a module. -/
def retiredIdents (s : State) : List (List Retired) := s.copies.map (fun c => c.index.retired)

theorem runs_resetAwaits : Runs resetAwaits 7 0x03 (adminCmd 3 1) := by
  refine ⟨by decide, rfl, by decide, by decide⟩

/-- The reset makes the identifier FREE. -/
theorem reset_frees : retiredIdents ((resetAwaits.resetQueue (adminCmd 3 1) false).settle) = [[]] := by
  rw [retiredIdents, settle_copies]
  decide

/-- Refutes O35: a RESET_QUEUE also makes those RETIRED identifiers FREE whose wait is over (R291), which changes the
stored copy of their index. -/
theorem not_adminCommands : ¬ Obligations.AdminCommands := by
  intro h
  obtain ⟨-, queues, -⟩ := h resetAwaits 7 (adminCmd 3 1)
  obtain ⟨t, run, same, -⟩ := (queues ioQueue (by decide) rfl (by decide) (by decide)).2 runs_resetAwaits
  rw [show exec (.resetQueue 7) resetAwaits = execResetQueue 7 resetAwaits from rfl, execResetQueue,
    onCmd_runs runs_resetAwaits] at run
  cases run
  have copies := congrArg State.copies same
  have idents : retiredIdents ((resetAwaits.resetQueue (adminCmd 3 1) false).settle) = retiredIdents resetAwaits :=
    congrArg (List.map (fun c : Copy => c.index.retired)) copies
  rw [reset_frees] at idents
  exact absurd idents (by decide)

end Sys2Proof.Machine
end

section
/-!
SUPPORT. BIND (R79 to R88).
-/

namespace Sys2Proof.Machine

open Sys2Proof.Safety

/-! ### Wiped cores (R84) -/

/-- A wipe keeps what does not speak of cores, the Spool, marks and counts. -/
theorem wipeCore_keeps {β : Type} (g : State → β)
    (hd : ∀ (s : State) f d, g { s with free := f, dailies := d } = g s) (hs : ∀ (s : State) x, g { s with spool := x } = g s)
    (hc : ∀ (s : State) x, g { s with cores := x } = g s) (hi : ∀ (s : State) x, g { s with integ := x } = g s)
    (s : State) (n : Nat) : g (s.wipeCore n) = g s := by
  unfold State.wipeCore
  dsimp only
  exact (t1Forget_keeps g hi _ _).trans ((hc _ _).trans ((hs _ _).trans ((hs (s.foldBlock n) _).trans (foldBlock_keeps g hd s n))))

/-- What a wipe leaves of a core. -/
def blankCore (c : Core) : Core := { pod := c.pod, faultCount := c.faultCount, sampled := c.sampled, exact := c.exact }

theorem wipeCore_cores (s : State) (n : Nat) : (s.wipeCore n).cores = s.cores.set n (blankCore (s.core n)) := by
  have e := foldBlock_cores s n
  unfold State.wipeCore
  dsimp only
  refine (t1Forget_keeps State.cores (fun _ _ => rfl) _ _).trans ?_
  have core : ((s.foldBlock n).dropRemote n).core n = s.core n := congrArg (fun l => l.getD n {}) e
  rw [core]
  exact congrArg (fun l => List.set l n _) e

/-- A core that is wiped for a Pod (R84). -/
def State.wipedFor (s : State) (n p : Nat) : State := (s.wipeCore n).modCore n (fun c => { c with pod := some p })

theorem core_wipedFor {s : State} {n : Nat} (lt : n < s.cores.length) (p k : Nat) :
    (s.wipedFor n p).core k = if k = n then wiped (s.core n) p else s.core k := by
  have lt' : n < (s.wipeCore n).cores.length := by rw [wipeCore_cores, List.length_set]; exact lt
  have core : ∀ k, (s.wipeCore n).core k = if k = n then blankCore (s.core n) else s.core k := fun k => by
    refine (congrArg (fun l => l.getD k {}) (wipeCore_cores s n)).trans ?_
    exact core_setCore s n k _ lt
  rw [State.wipedFor, core_modCore _ _ _ _ lt', core, core, if_pos rfl]
  split <;> rfl

theorem length_wipedFor (s : State) (n p : Nat) : (s.wipedFor n p).cores.length = s.cores.length := by
  rw [State.wipedFor, State.modCore, setCore_length, wipeCore_cores, List.length_set]

/-- Cores that move are wiped, and no other changes (R84). -/
theorem core_moveCores {p : Nat} (l : List Nat) {s : State} (inside_ : ∀ n ∈ l, n < s.cores.length) (k : Nat) :
    (s.moveCores l p).core k = if k ∈ l then wiped (s.core k) p else s.core k := by
  induction l generalizing s with
  | nil => simp [State.moveCores]
  | cons a t ih =>
    have first := core_wipedFor (inside_ a (by simp)) p
    have rest := ih (s := s.wipedFor a p) fun n hn => by rw [length_wipedFor]; exact inside_ n (by simp [hn])
    change ((s.wipedFor a p).moveCores t p).core k = _
    rw [rest, first]
    by_cases e : k = a
    · subst e
      rw [if_pos rfl, if_pos List.mem_cons_self]
      split <;> rfl
    · rw [if_neg e]
      simp [e]

/-- What moving cores keeps. -/
theorem moveCores_keeps {β : Type} (g : State → β)
    (hd : ∀ (s : State) f d, g { s with free := f, dailies := d } = g s) (hs : ∀ (s : State) x, g { s with spool := x } = g s)
    (hc : ∀ (s : State) x, g { s with cores := x } = g s) (hi : ∀ (s : State) x, g { s with integ := x } = g s)
    (s : State) (l : List Nat) (p : Nat) : g (s.moveCores l p) = g s :=
  foldl_keeps g _ (fun s n => (hc _ _).trans (wipeCore_keeps g hd hs hc hi s n)) _ _

/-! ### The operations -/

theorem bind_core {s : State} (len : s.cores.length = 32) {b : Bind} : ∀ n ∈ b.cores, n < s.cores.length := fun n hn => by
  rw [len]
  exact List.mem_range.mp (List.mem_of_mem_filter hn)

/-- A payload that is no descriptor is refused (R82, R87). -/
theorem bind_refuses {s : State} {u : Nat} {c : Cmd} (h : Runs s u 0x06 c)
    (bad : c.payload.length ≠ 64 ∨ (parseBind c.payload).valid = false) (op : Nat) (reasons : Bind → List (Nat × Bool))
    (bound : Bind → Nat) (effect : Bind → State → State) : ∃ t, s.bind u op reasons bound effect = .next t ∧
      Ends s u { status := .badPacket, result1 := 0x50 } t := by
  refine ⟨_, onCmd_runs h _, ?_⟩
  dsimp only
  rw [if_pos bad, State.refuse, State.fail, uid_of_cmd? h.1]
  rfl

theorem createPod_bound {s : State} {u : Nat} {c : Cmd} {b : Bind} (h : Binds s u 1 c b) (new : s.pod? b.dst = none) :
    Bound (.createPod u) s u 1000 (fun w => w.pods = s.pods ++ [{ id := b.dst, granules := 0, slots := 0 }] ∧
      { w with pods := s.pods, free := s.free } = s) := by
  refine bound_of_binds (effect := fun b s => { s with pods := s.pods ++ [{ id := b.dst, granules := 0, slots := 0 }] }) h
    (show exec (.createPod u) s = execCreatePod u s from rfl) ?_ ⟨rfl, rfl⟩
  simp [firstReason, new]

/-- What a Pod that is removed leaves. -/
theorem removePod_leaves {s : State} {x z : Pod} {d : Nat} (id : x.id = d) (ne : d ≠ 0) (hz : s.pod? 0 = some z)
    (len : s.cores.length = 32) :
    let w := s.removePod x
    w.pod? d = none ∧ w.pod? 0 = some { z with granules := z.granules + x.granules, slots := z.slots + x.slots } ∧
      w.link = s.link ∧ w.objs = s.objs ∧ w.jobs = s.jobs ∧ w.copies = s.copies ∧ w.pages = s.pages ∧
      w.media = s.media ∧ (∀ p, p ≠ 0 → p ≠ d → w.pod? p = s.pod? p) ∧
      ∀ n < 32, w.core n = if (s.core n).pod = some d then wiped (s.core n) 0 else s.core n := by
  subst id
  have keeps : ∀ {β : Type} (g : State → β), (∀ (s : State) f d, g { s with free := f, dailies := d } = g s) →
      (∀ (s : State) x, g { s with spool := x } = g s) → (∀ (s : State) x, g { s with cores := x } = g s) →
      (∀ (s : State) x, g { s with integ := x } = g s) → g (s.moveCores (s.podCores x.id) 0) = g s :=
    fun g a b c d => moveCores_keeps g a b c d s _ _
  have pods := keeps State.pods (fun _ _ _ => rfl) (fun _ _ => rfl) (fun _ _ => rfl) fun _ _ => rfl
  have pod : ∀ p, p ≠ x.id → (s.removePod x).pod? p = if p = 0
      then (s.pod? p).map (fun z => { z with granules := z.granules + x.granules, slots := z.slots + x.slots }) else s.pod? p := by
    intro p hp
    have moved := pod?_modPod (s.moveCores (s.podCores x.id) 0) 0 p
      (fun z => { z with granules := z.granules + x.granules, slots := z.slots + x.slots }) fun _ => rfl
    have same : (s.moveCores (s.podCores x.id) 0).pod? p = s.pod? p := by rw [State.pod?, pods, State.pod?]
    rw [same] at moved
    refine Eq.trans ?_ moved
    refine (List.find?_filter ..).trans ?_
    refine congrArg (fun q => List.find? q _) (funext fun y => ?_)
    by_cases e : y.id = p
    · simp [e, hp]
    · simp [e]
  dsimp only
  refine ⟨?_, ?_, ?_, ?_, ?_, ?_, ?_, ?_, fun p h0 hd => ?_, fun n hn => ?_⟩
  · refine List.find?_eq_none.mpr fun y hy => ?_
    have := (List.mem_filter.mp hy).2
    simpa using this
  · rw [pod 0 (Ne.symm ne), if_pos rfl, hz]
    rfl
  · exact keeps State.link (fun _ _ _ => rfl) (fun _ _ => rfl) (fun _ _ => rfl) fun _ _ => rfl
  · exact keeps State.objs (fun _ _ _ => rfl) (fun _ _ => rfl) (fun _ _ => rfl) fun _ _ => rfl
  · exact keeps State.jobs (fun _ _ _ => rfl) (fun _ _ => rfl) (fun _ _ => rfl) fun _ _ => rfl
  · exact keeps State.copies (fun _ _ _ => rfl) (fun _ _ => rfl) (fun _ _ => rfl) fun _ _ => rfl
  · exact keeps State.pages (fun _ _ _ => rfl) (fun _ _ => rfl) (fun _ _ => rfl) fun _ _ => rfl
  · exact keeps State.media (fun _ _ _ => rfl) (fun _ _ => rfl) (fun _ _ => rfl) fun _ _ => rfl
  · rw [pod p hd, if_neg h0]
  · have mem : n ∈ s.podCores x.id ↔ (s.core n).pod = some x.id := by
      simp [State.podCores, hn]
    refine (core_moveCores (s.podCores x.id) (fun k hk => ?_) n).trans ?_
    · rw [len]
      exact List.mem_range.mp (List.mem_of_mem_filter hk)
    · simp only [mem]

theorem deletePod_bound {s : State} {u : Nat} {c : Cmd} {b : Bind} (h : Binds s u 2 c b) {x z : Pod} (ne : b.dst ≠ 0)
    (hx : s.pod? b.dst = some x) (hz : s.pod? 0 = some z) (id : x.id = b.dst) (unused : s.podInUse b.dst = false)
    (len : s.cores.length = 32) :
    Bound (.deletePod u) s u (2000 + 1500 * x.granules) (fun w =>
      w.pod? b.dst = none ∧ w.pod? 0 = some { z with granules := z.granules + x.granules, slots := z.slots + x.slots } ∧
        w.link = s.link ∧ w.objs = s.objs ∧ w.jobs = s.jobs ∧ w.copies = s.copies ∧ w.pages = s.pages ∧
        w.media = s.media ∧ (∀ p, p ≠ 0 → p ≠ b.dst → w.pod? p = s.pod? p) ∧
        ∀ n < 32, w.core n = if (s.core n).pod = some b.dst then wiped (s.core n) 0 else s.core n) := by
  have hexec : exec (.deletePod u) s = execDeletePod u s := rfl
  unfold execDeletePod at hexec
  have bound := bound_of_binds (f := fun w => w.pod? b.dst = none ∧
      w.pod? 0 = some { z with granules := z.granules + x.granules, slots := z.slots + x.slots } ∧
        w.link = s.link ∧ w.objs = s.objs ∧ w.jobs = s.jobs ∧ w.copies = s.copies ∧ w.pages = s.pages ∧
        w.media = s.media ∧ (∀ p, p ≠ 0 → p ≠ b.dst → w.pod? p = s.pod? p) ∧
        ∀ n < 32, w.core n = if (s.core n).pod = some b.dst then wiped (s.core n) 0 else s.core n) h hexec ?_ ?_
  · rw [hx, Option.map_some, Option.getD_some] at bound
    exact bound
  · simp [firstReason, hx, ne, unused]
  · rw [hx]
    exact removePod_leaves id ne hz len

theorem moveCores_bound {s : State} {u : Nat} {c : Cmd} {b : Bind} (h : Binds s u 3 c b) (pods : s.noPod b = false)
    (len : s.cores.length = 32)
    (free : ∀ n ∈ b.cores, (s.core n).pod = some b.src ∧ (s.core n).job = none ∧ s.coreFenced n = false) :
    Bound (.moveCores u) s u 2000 (fun w =>
      (∀ n < 32, w.core n = if n ∈ b.cores then wiped (s.core n) b.dst else s.core n) ∧
      w.pods = s.pods ∧ w.objs = s.objs ∧ w.jobs = s.jobs ∧ w.link = s.link ∧ w.copies = s.copies ∧
      w.pages = s.pages ∧ w.media = s.media) := by
  have hexec : exec (.moveCores u) s = execMoveCores u s := rfl
  unfold execMoveCores at hexec
  have keeps : ∀ {β : Type} (g : State → β), (∀ (s : State) f d, g { s with free := f, dailies := d } = g s) →
      (∀ (s : State) x, g { s with spool := x } = g s) → (∀ (s : State) x, g { s with cores := x } = g s) →
      (∀ (s : State) x, g { s with integ := x } = g s) → g (s.moveCores b.cores b.dst) = g s :=
    fun g a c d e => moveCores_keeps g a c d e s _ _
  refine bound_of_binds h hexec ?_ ⟨fun n _ => core_moveCores b.cores (bind_core len) n, ?_, ?_, ?_, ?_, ?_, ?_, ?_⟩
  · have owned : b.cores.any (fun n => !s.coreFenced n && (s.core n).pod != some b.src) = false :=
      List.any_eq_false.mpr fun n hn => by simp [(free n hn).1]
    have idle : b.cores.any (fun n => (s.core n).job.isSome) = false :=
      List.any_eq_false.mpr fun n hn => by simp [(free n hn).2.1]
    have sound : b.cores.any s.coreFenced = false := List.any_eq_false.mpr fun n hn => by simp [(free n hn).2.2]
    simp only [firstReason, pods, owned, idle, sound, List.find?_cons, List.find?_nil, Option.map_none]
  · exact keeps State.pods (fun _ _ _ => rfl) (fun _ _ => rfl) (fun _ _ => rfl) fun _ _ => rfl
  · exact keeps State.objs (fun _ _ _ => rfl) (fun _ _ => rfl) (fun _ _ => rfl) fun _ _ => rfl
  · exact keeps State.jobs (fun _ _ _ => rfl) (fun _ _ => rfl) (fun _ _ => rfl) fun _ _ => rfl
  · exact keeps State.link (fun _ _ _ => rfl) (fun _ _ => rfl) (fun _ _ => rfl) fun _ _ => rfl
  · exact keeps State.copies (fun _ _ _ => rfl) (fun _ _ => rfl) (fun _ _ => rfl) fun _ _ => rfl
  · exact keeps State.pages (fun _ _ _ => rfl) (fun _ _ => rfl) (fun _ _ => rfl) fun _ _ => rfl
  · exact keeps State.media (fun _ _ _ => rfl) (fun _ _ => rfl) (fun _ _ => rfl) fun _ _ => rfl

/-- Two Pods that exist are known (R87). -/
theorem noPod_false {s : State} {b : Bind} {x y : Pod} (hx : s.pod? b.src = some x) (hy : s.pod? b.dst = some y)
    (op : b.op ≠ 5 ∧ b.op ≠ 6) : s.noPod b = false := by
  simp [State.noPod, hx, hy, op]

/-- Two Pods of which one gives to the other. -/
theorem pods_given {s : State} {a d : Nat} {x y : Pod} (ne : a ≠ d) (hx : s.pod? a = some x) (hy : s.pod? d = some y)
    {f g : Pod → Pod} (hf : ∀ p, (f p).id = p.id) (hg : ∀ p, (g p).id = p.id) :
    ((s.modPod a f).modPod d g).pod? a = some (f x) ∧ ((s.modPod a f).modPod d g).pod? d = some (g y) ∧
      ∀ p, p ≠ a → p ≠ d → ((s.modPod a f).modPod d g).pod? p = s.pod? p := by
  have e : ∀ p, ((s.modPod a f).modPod d g).pod? p = if p = d then ((s.modPod a f).pod? p).map g else (s.modPod a f).pod? p :=
    fun p => pod?_modPod _ _ _ _ hg
  have i : ∀ p, (s.modPod a f).pod? p = if p = a then (s.pod? p).map f else s.pod? p := fun p => pod?_modPod _ _ _ _ hf
  refine ⟨?_, ?_, fun p ha hd => ?_⟩
  · rw [e, if_neg ne, i, if_pos rfl, hx]
    rfl
  · rw [e, if_pos rfl, i, if_neg (Ne.symm ne), hy]
    rfl
  · rw [e, if_neg hd, i, if_neg ha]

theorem moveT1_bound {s : State} {u : Nat} {c : Cmd} {b : Bind} (h : Binds s u 4 c b) {x y : Pod}
    (hx : s.pod? b.src = some x) (hy : s.pod? b.dst = some y) (can : s.canGive b.src (b.amount / 0x10000000) = true) :
    Bound (.moveT1 u) s u (1500 * (b.amount / 0x10000000)) (fun w =>
      (b.src = b.dst → w.pods = s.pods ∧ w.pages = s.pages) ∧
      (b.src ≠ b.dst → w.pod? b.src = some { x with granules := x.granules - b.amount / 0x10000000 } ∧
      w.pod? b.dst = some { y with granules := y.granules + b.amount / 0x10000000 }) ∧
      (∀ p, p ≠ b.src → p ≠ b.dst → w.pod? p = s.pod? p) ∧
      w.cores = s.cores ∧ w.objs = s.objs ∧ w.jobs = s.jobs ∧ w.link = s.link ∧ w.copies = s.copies ∧
      w.media = s.media) := by
  have hexec : exec (.moveT1 u) s = execMoveT1 u s := rfl
  unfold execMoveT1 at hexec
  have op := h.2.2.2.2
  refine bound_of_binds (bound := fun b => 1500 * (b.amount / granuleBytes)) h hexec ?_ ?_
  · simp [firstReason, noPod_false hx hy (by omega), granuleBytes, can]
  · dsimp only
    by_cases same : b.src = b.dst
    · rw [if_pos same]
      exact ⟨fun _ => ⟨rfl, rfl⟩, fun ne => absurd same ne, fun _ _ _ => rfl, rfl, rfl, rfl, rfl, rfl, rfl⟩
    · rw [if_neg same]
      have off : ∀ (t : State) (f : Pod → Pod), ((t.fitShare s.pages.length b.src).modPod b.dst f).offPages =
          (t.modPod b.dst f).offPages := fun t f =>
        congrArg (fun w : State => w.modPod b.dst f) (offPages_fitShare s.pages.length t b.src)
      have view := off (s.modPod b.src (fun x => { x with granules := x.granules - b.amount / granuleBytes }))
        (fun x => { x with granules := x.granules + b.amount / granuleBytes })
      obtain ⟨given, taken, others⟩ := pods_given same hx hy
        (f := fun x => { x with granules := x.granules - b.amount / granuleBytes })
        (g := fun x => { x with granules := x.granules + b.amount / granuleBytes }) (fun _ => rfl) fun _ => rfl
      have pod : ∀ p, ((s.giveT1 b.src (b.amount / granuleBytes)).modPod b.dst (fun x => { x with granules :=
          x.granules + b.amount / granuleBytes })).pod? p = ((s.modPod b.src (fun x => { x with granules :=
          x.granules - b.amount / granuleBytes })).modPod b.dst (fun x => { x with granules := x.granules +
          b.amount / granuleBytes })).pod? p := fun p => (congrArg (fun w : State => w.pod? p) view :)
      refine ⟨fun e => absurd e same, fun _ => ⟨(pod _).trans given, (pod _).trans taken⟩,
        fun p ha hd => (pod p).trans (others p ha hd), ?_, ?_, ?_, ?_, ?_, ?_⟩
      · exact (congrArg State.cores view :)
      · exact (congrArg State.objs view :)
      · exact (congrArg State.jobs view :)
      · exact (congrArg State.link view :)
      · exact (congrArg State.copies view :)
      · exact (congrArg State.media view :)

theorem moveQueue_bound {s : State} {u : Nat} {c : Cmd} {b : Bind} (h : Binds s u 6 c b) {q : Queue}
    (pods : s.noPod b = false) (hq : s.queue? b.handle = some q) (pod : q.pod = b.src) (empty : s.cmdsOf b.handle = []) :
    Bound (.moveQueue u) s u 1000 (fun w => w.queue? b.handle = some { q with pod := b.dst } ∧
      (∀ k, k ≠ b.handle → w.queue? k = s.queue? k) ∧ w.link.cmds = s.link.cmds ∧
      { w with link := s.link, free := s.free } = s) := by
  have hexec : exec (.moveQueue u) s = execMoveQueue u s := rfl
  unfold execMoveQueue at hexec
  refine bound_of_binds h hexec ?_ ?_
  · simp [firstReason, pods, hq, pod, empty]
  · have id := id_of_queue? hq
    have run : s.modQueue b.handle (fun q => { q with pod := b.dst }) = s.setQueue { q with pod := b.dst } := by
      rw [State.modQueue, hq]
    rw [run]
    have queue : ∀ k, (s.setQueue { q with pod := b.dst }).queue? k = _ := fun k => queue?_setQueue s { q with pod := b.dst } k
    refine ⟨?_, fun k hk => ?_, rfl, rfl⟩
    · refine (queue b.handle).trans ?_
      simp [id, hq]
    · refine (queue k).trans ?_
      simp [id, hk]

theorem moveSlots_bound {s : State} {u : Nat} {c : Cmd} {b : Bind} (h : Binds s u 7 c b) {x y : Pod}
    (hx : s.pod? b.src = some x) (hy : s.pod? b.dst = some y) (free : b.amount ≤ s.unreserved b.src)
    (room : b.dst ≠ 0 → b.dst ≠ b.src → y.slots + b.amount ≤ 128) :
    Bound (.moveSlots u) s u 1000 (fun w =>
      (b.src = b.dst → w.pods = s.pods) ∧
      (b.src ≠ b.dst → w.pod? b.src = some { x with slots := x.slots - b.amount } ∧
      w.pod? b.dst = some { y with slots := y.slots + b.amount }) ∧
      (∀ p, p ≠ b.src → p ≠ b.dst → w.pod? p = s.pod? p) ∧
      { w with pods := s.pods, free := s.free } = s) := by
  have hexec : exec (.moveSlots u) s = execMoveSlots u s := rfl
  unfold execMoveSlots at hexec
  have op := h.2.2.2.2
  refine bound_of_binds h hexec ?_ ?_
  · have full : (b.dst != 0 && b.dst != b.src && decide (128 < ((s.pod? b.dst).map (fun x => x.slots)).getD 0 + b.amount)) =
        false := by
      rw [hy, Option.map_some, Option.getD_some]
      by_cases h0 : b.dst = 0
      · simp [h0]
      · by_cases hs : b.dst = b.src
        · simp [hs]
        · simp [room h0 hs]
    simp [firstReason, noPod_false hx hy (by omega), full, Nat.not_lt.mpr free]
  · by_cases same : b.src = b.dst
    · rw [if_pos same]
      exact ⟨fun _ => rfl, fun ne => absurd same ne, fun _ _ _ => rfl, rfl⟩
    · rw [if_neg same]
      obtain ⟨given, taken, others⟩ := pods_given same hx hy (f := fun x => { x with slots := x.slots - b.amount })
        (g := fun x => { x with slots := x.slots + b.amount }) (fun _ => rfl) fun _ => rfl
      exact ⟨fun e => absurd e same, fun _ => ⟨given, taken⟩, others, rfl⟩

/-- Whatever its operation, a BIND whose payload is no descriptor is refused (R82). -/
theorem bind_invalid {s : State} {u : Nat} {c : Cmd} (h : Runs s u 0x06 c)
    (bad : c.payload.length ≠ 64 ∨ (parseBind c.payload).valid = false) {i : Instr}
    (hi : i ∈ [Instr.createPod u, .deletePod u, .moveCores u, .moveT1 u, .moveObject u, .moveQueue u, .moveSlots u]) :
    ∃ t, exec i s = .next t ∧ Ends s u { status := .badPacket, result1 := 0x50 } t := by
  simp only [List.mem_cons, List.not_mem_nil, or_false] at hi
  rcases hi with rfl | rfl | rfl | rfl | rfl | rfl | rfl
  · rw [show exec (.createPod u) s = execCreatePod u s from rfl, execCreatePod]
    exact bind_refuses h bad _ _ _ _
  · rw [show exec (.deletePod u) s = execDeletePod u s from rfl, execDeletePod]
    exact bind_refuses h bad _ _ _ _
  · rw [show exec (.moveCores u) s = execMoveCores u s from rfl, execMoveCores]
    exact bind_refuses h bad _ _ _ _
  · rw [show exec (.moveT1 u) s = execMoveT1 u s from rfl, execMoveT1]
    exact bind_refuses h bad _ _ _ _
  · rw [show exec (.moveObject u) s = execMoveObject u s from rfl, execMoveObject]
    exact bind_refuses h bad _ _ _ _
  · rw [show exec (.moveQueue u) s = execMoveQueue u s from rfl, execMoveQueue]
    exact bind_refuses h bad _ _ _ _
  · rw [show exec (.moveSlots u) s = execMoveSlots u s from rfl, execMoveSlots]
    exact bind_refuses h bad _ _ _ _

/-- Settles O37, by each operation of BIND. -/
theorem podsChange : Obligations.PodsChange := by
  intro s u op c b
  refine ⟨fun h bad i hi => bind_invalid h bad hi, fun h => ⟨fun e new => ?_, fun x z e ne hx hz id unused len => ?_,
    fun e pods len free => ?_, fun x y e hx hy can => ?_, fun q e pods hq pod empty => ?_, fun x y e hx hy free room => ?_⟩⟩
  all_goals subst e
  · exact createPod_bound h new
  · exact deletePod_bound h ne hx hz id unused len
  · exact moveCores_bound h pods len free
  · exact moveT1_bound h hx hy can
  · exact moveQueue_bound h pods hq pod empty
  · exact moveSlots_bound h hx hy free room

end Sys2Proof.Machine
end

section
/-!
SUPPORT. Volumes: allocation, the map journal and staged sectors (R61 to R68, R316 to R320, R331, R386).
-/
namespace Sys2Proof.Machine
open Sys2Proof.Safety

/-! ### Allocation (R316) -/

theorem takeGaps_zero (lb : Nat) (gaps : List (Nat × Nat)) : (takeGaps lb 0 gaps).1 = [] := by
  cases gaps <;> rfl

/-- Runs taken from gaps cover what is asked for, as far as the gaps reach. -/
theorem sum_takeGaps (lb n : Nat) (gaps : List (Nat × Nat)) :
    ((takeGaps lb n gaps).1.map (fun x => x.2.2)).sum = min n (gaps.map (fun g => g.2)).sum := by
  induction gaps generalizing lb n with
  | nil => simp [takeGaps]
  | cons g t ih =>
    rw [takeGaps]
    split
    · next h => simp [h]
    · split
      · simp only [List.map_cons, List.map_nil, List.sum_cons, List.sum_nil]; omega
      · simp only [List.map_cons, List.sum_cons, ih]; omega

/-- Runs taken from gaps are numbered within the range that they are taken for. -/
theorem takeGaps_within (lb n : Nat) (gaps : List (Nat × Nat)) :
    ∀ x ∈ (takeGaps lb n gaps).1, lb ≤ x.1 ∧ x.1 < lb + n := by
  induction gaps generalizing lb n with
  | nil => simp [takeGaps]
  | cons g t ih =>
    rw [takeGaps]
    split
    · simp
    · split
      · simp only [List.mem_singleton, forall_eq]; omega
      · intro x hx
        rcases List.mem_cons.mp hx with rfl | hx
        · dsimp only; omega
        · have := ih _ _ x hx; omega

/-- Runs in ascending order of their first logical block. -/
def Ascending (runs : List (Nat × Nat × Nat)) : Prop := runs.Pairwise (fun a b => a.2.1 ≤ b.2.1)

theorem mem_insertRun {r x : Nat × Nat × Nat} {l : List (Nat × Nat × Nat)} : x ∈ insertRun r l ↔ x = r ∨ x ∈ l := by
  induction l with
  | nil => simp [insertRun]
  | cons y t ih =>
    rw [insertRun]
    split
    · simp
    · simp only [List.mem_cons, ih]; tauto

theorem ascending_insertRun {l : List (Nat × Nat × Nat)} (h : Ascending l) (r : Nat × Nat × Nat) :
    Ascending (insertRun r l) := by
  induction l with
  | nil => simp [insertRun, Ascending]
  | cons y t ih =>
    obtain ⟨hy, ht⟩ := List.pairwise_cons.mp h
    rw [insertRun]
    split
    · next lt =>
      refine List.pairwise_cons.mpr ⟨fun x hx => ?_, h⟩
      rcases List.mem_cons.mp hx with rfl | hx
      · exact lt.le
      · exact lt.le.trans (hy x hx)
    · next ge =>
      refine List.pairwise_cons.mpr ⟨fun x hx => ?_, ih ht⟩
      rcases mem_insertRun.mp hx with rfl | hx
      · omega
      · exact hy x hx

/-- The gaps that ascending runs leave lie one behind the other. -/
theorem sum_gapsFrom {runs : List (Nat × Nat × Nat)} (h : Ascending runs) {a lo : Nat} (ha : a ≤ lo)
    (hr : ∀ r ∈ runs, a ≤ r.2.1) : ((gapsFrom lo runs).map (fun g => g.2)).sum ≤ wholeLblocks - a := by
  induction runs generalizing a lo with
  | nil =>
    rw [gapsFrom]
    split
    · simp only [List.map_cons, List.map_nil, List.sum_cons, List.sum_nil]; omega
    · simp
  | cons r t ih =>
    obtain ⟨hrt, ht⟩ := List.pairwise_cons.mp h
    have rest := ih ht (Nat.le_add_right r.2.1 r.2.2) hrt
    have first := hr r List.mem_cons_self
    rw [gapsFrom]
    split
    · simp only [List.map_cons, List.sum_cons]; omega
    · omega

theorem freeWhole_le (s : State) : s.freeWhole ≤ wholeLblocks := by
  have asc : Ascending (s.media.runs.foldl (fun l r => insertRun r l) []) :=
    List.foldlRecOn s.media.runs _ List.Pairwise.nil (fun l h r _ => ascending_insertRun h r)
  exact sum_gapsFrom asc (Nat.zero_le 0) (fun _ _ => Nat.zero_le _)

/-- An allocation with room, whose short part is its last one, adds runs for its logical blocks and no more. -/
theorem allocate_runs {s : State} {lb n : Nat} {short : Option Nat} (room : s.hasRoom n short = true)
    (hs : ∀ i, short = some i → n = i + 1) : ∃ r,
      s.allocate lb n short = { s with media := { s.media with runs := s.media.runs ++ r } } ∧
      (r.map (fun x => x.2.2)).sum = n ∧ ∀ x ∈ r, lb ≤ x.1 ∧ x.1 < lb + n := by
  have room := of_decide_eq_true room
  have whole : n ≤ s.freeWhole → ((takeGaps lb n s.gaps).1.map (fun x => x.2.2)).sum = n := fun le => by
    rw [sum_takeGaps]; exact min_eq_left le
  cases short with
  | none => exact ⟨_, rfl, whole (by simpa using room), takeGaps_within lb n s.gaps⟩
  | some i =>
    obtain rfl := hs i rfl
    by_cases lt : s.freeWhole < i + 1
    · have most : s.freeWhole = i := by split at room <;> omega
      refine ⟨(takeGaps lb i s.gaps).1 ++ [(lb + i, wholeLblocks, 1)], ?_, ?_, fun x hx => ?_⟩
      · simp only [State.allocate, if_pos lt, Nat.add_sub_cancel_left, Nat.sub_self, takeGaps_zero, List.append_nil]
      · have := sum_takeGaps lb i s.gaps
        rw [show (s.gaps.map (fun g => g.2)).sum = i from most, min_self] at this
        simp [this]
      · rcases List.mem_append.mp hx with hx | hx
        · have := takeGaps_within lb i s.gaps x hx; omega
        · rw [List.mem_singleton.mp hx]; dsimp only; omega
    · exact ⟨_, by simp only [State.allocate, if_neg lt], whole (by omega), takeGaps_within lb (i + 1) s.gaps⟩

theorem volumeShort_last {n i : Nat} (h : volumeShort n = some i) : ceilDiv n 65536 = i + 1 := by
  unfold volumeShort at h
  split at h
  · next part =>
    obtain rfl := (Option.some.inj h)
    have := part.1
    show (n + 65536 - 1) / 65536 = n / 65536 + 1
    change n % 65536 ≠ 0 at this
    omega
  · cases h

/-- The parts of a volume with room are fewer than the logical block numbers that one owner has. -/
theorem parts_lt {s : State} {n : Nat} {short : Option Nat} (room : s.hasRoom n short = true) : n < 2097152 := by
  have room := of_decide_eq_true room
  have := freeWhole_le s
  have : wholeLblocks = 1907348 := rfl
  split at room <;> omega

/-! ### Creation (R316, R386) -/

/-- A new handle names its kind and its number. -/
theorem newHandle_names (s : State) {kind num : Nat} (hn : num < 4096) :
    (s.newHandle kind num).1 / 2 ^ 56 = kind ∧ (s.newHandle kind num).1 % 4096 = num := by
  have le : ∃ g < 2 ^ 44, (s.newHandle kind num).1 = kind * 2 ^ 56 + g * 2 ^ 12 + num := by
    refine ⟨_, ?_, rfl⟩
    split
    · exact Nat.mod_lt _ (by decide)
    · decide
  obtain ⟨g, lt, e⟩ := le
  rw [e]
  omega

/-- A programmed key slot is the last of the table. -/
theorem addKey_slot (s : State) (h : Nat) (copy : Option Nat) : ∃ k : KeySlot,
    (s.addKey h copy).sec.keyTable = s.sec.keyTable ++ [k] ∧ k.handle = h ∧ k.copy = copy := ⟨_, rfl, rfl, rfl⟩

theorem volumeCreated {s : State} {u n : Nat} {c : Cmd} (hr : Runs s u 0x07 c) (he : s.sec.err = .none)
    (hw : s.media.wearState ≠ 3) (hp : (s.pod? (bits c.p0 15 0)).isSome = true)
    (room : s.hasRoom (ceilDiv c.p1 65536) (volumeShort c.p1) = true) (hv : s.volumeFree n = true) :
    ∃ (t w : State) (h : Nat) (r : List (Nat × Nat × Nat)), exec (.createVolume u n) s = .next t ∧ Ends w u { status := .ok, result0 := h } t ∧
      h / 2 ^ 56 = 1 ∧ h % 4096 = n ∧
      w.objs = s.objs ++ [{ handle := h, kind := .volume, num := n, pod := bits c.p0 15 0, sectors := c.p1 }] ∧
      (∃ k : KeySlot, w.sec.keyTable = s.sec.keyTable ++ [k] ∧ k.handle = h ∧ k.copy = none) ∧
      w.media = { s.media with runs := s.media.runs ++ r } ∧
      (r.map (fun x => x.2.2)).sum = ceilDiv c.p1 65536 ∧ (∀ x ∈ r, x.1 / 2097152 = n) ∧
      w.link = s.link ∧ w.cores = s.cores := by
  obtain ⟨r, alloc, sum, within⟩ := allocate_runs (lb := lbNum n 0) room (fun i h => volumeShort_last h)
  have lt : n < 4096 := by
    have := (Bool.and_eq_true_iff.mp hv).1
    exact of_decide_eq_true this
  have names := newHandle_names (s.allocate (lbNum n 0) (ceilDiv c.p1 65536) (volumeShort c.p1)) (kind := 1) lt
  have run : exec (.createVolume u n) s = .next
      (let o := (s.allocate (lbNum n 0) (ceilDiv c.p1 65536) (volumeShort c.p1)).addObject .volume n
        (bits c.p0 15 0) c.p1 0
       (((o.2.addKey o.1 none).complete u { status := .ok, result0 := o.1 }).settle)) := by
    show execCreateVolume u n s = _
    rw [execCreateVolume, onCmd_runs hr]
    have creates : s.creates = true := decide_eq_true he
    rw [if_neg (by simp [creates]), if_neg hw, if_neg (by cases h : s.pod? (bits c.p0 15 0) <;> simp_all),
      if_neg (by rw [show ceilDiv c.p1 lbSectors = ceilDiv c.p1 65536 from rfl, room]; decide),
      if_neg (by rw [hv]; decide)]
    dsimp only
    rw [State.fail, uid_of_cmd? hr.1]
    rfl
  refine ⟨_, _, _, r, run, rfl, names.1, names.2, ?_, ?_, ?_, sum, fun x hx => ?_, ?_, ?_⟩
  · rw [addKey_objs, alloc]; rfl
  · rw [alloc]; exact addKey_slot _ _ _
  · rw [addKey_media, alloc]; rfl
  · have := within x hx
    have := parts_lt room
    simp only [lbNum] at *
    omega
  · rw [addKey_link, alloc]; rfl
  · rw [addKey_cores, alloc]; rfl

/-! ### What the map and its journal leave alone (R318, R323 to R326) -/

/-- All of a state but its media, of which only the staging counts, the counters and the flip-masks. -/
def State.offMap (s : State) : State :=
  { s with media := { staging := s.media.staging }, integ := {}, dailies := {} }

@[simp] theorem offMap_setSb (s : State) (b : SBlock) : (s.setSb b).offMap = s.offMap := rfl
@[simp] theorem offMap_setLb (s : State) (l : LBlock) : (s.setLb l).offMap = s.offMap := rfl
@[simp] theorem offMap_count (s : State) (b e n : Nat) : (s.count b e n).offMap = s.offMap := rfl
@[simp] theorem offMap_queueRec (s : State) (r : JRec) : (s.queueRec r).offMap = s.offMap := rfl

@[simp] theorem offMap_jrec (s : State) (type lb new old : Nat) (locs : List SbLoc) (loc : Option SbLoc) :
    (s.jrec type lb new old locs loc).offMap = s.offMap := rfl

@[simp] theorem offMap_release_ (s : State) (locs : List SbLoc) (jseq : Nat) :
    (s.release_ locs jseq).offMap = s.offMap := by
  refine foldl_keeps State.offMap _ ?_ locs s
  intros; rfl

@[simp] theorem offMap_mapWrite (s : State) (req : Nat) : (s.mapWrite req).offMap = s.offMap := by
  unfold State.mapWrite
  dsimp only
  split <;> rfl

@[simp] theorem offMap_finishMerge (s : State) (l : LBlock) (m : Merge) : (s.finishMerge l m).offMap = s.offMap := by
  unfold State.finishMerge
  refine (foldl_keeps State.offMap _ ?_ _ _).trans ?_
  · intros; rfl
  · refine (offMap_setLb _ _).trans ((foldl_keeps State.offMap _ ?_ _ _).trans (offMap_release_ _ _ _))
    intros; rfl

@[simp] theorem offMap_takeEffect (s : State) (r : JRec) : (s.takeEffect r).offMap = s.offMap := by
  unfold State.takeEffect
  split
  · split
    · exact offMap_finishMerge _ _ _
    · rfl
  · rfl

@[simp] theorem offMap_program (s : State) (r : JRec) : (s.program r).offMap = s.offMap := by
  unfold State.program
  rw [offMap_takeEffect, offMap_count]
  show State.offMap (ite _ _ _) = _
  split
  · rfl
  · exact offMap_mapWrite _ _

@[simp] theorem offMap_programNext (n : Nat) (s : State) : (s.programNext n).offMap = s.offMap := by
  induction n generalizing s with
  | zero => rfl
  | succ n ih =>
    rw [State.programNext]
    split
    · rw [ih, offMap_program]
    · rfl

@[simp] theorem offMap_sync (s : State) : s.sync.offMap = s.offMap := offMap_programNext _ _

@[simp] theorem offMap_abandonMerge (s : State) (l : LBlock) : (s.abandonMerge l).offMap = s.offMap := by
  unfold State.abandonMerge
  split
  · rfl
  · exact offMap_release_ _ _ _

@[simp] theorem offMap_unmap (s : State) (lb : Nat) : (s.unmap lb).offMap = s.offMap := by
  unfold State.unmap
  split
  · rfl
  · split
    · rfl
    · exact (offMap_release_ _ _ _).trans (offMap_abandonMerge _ _)

@[simp] theorem offMap_unmapOwner (s : State) (owner : Nat) : (s.unmapOwner owner).offMap = s.offMap := by
  unfold State.unmapOwner
  dsimp only
  rw [offMap_sync]
  exact foldl_keeps State.offMap _ offMap_unmap _ _

/-! ### Deletion (R317, R386) -/

theorem kind_of_volume? {s : State} {h : Nat} {o : Obj} (ho : s.volume? h = some o) :
    s.obj? h = some o ∧ o.kind = .volume := by
  unfold State.volume? at ho
  split at ho
  · split at ho
    · cases ho; exact ⟨by assumption, by assumption⟩
    · cases ho
  · cases ho

/-- The state without a volume: its key gone, its logical blocks unmapped, its sectors no longer staged (R317). -/
def State.withoutVolume (s : State) (o : Obj) : State :=
  let s := (s.dropObject o).unmapOwner o.num
  { s with media := { s.media with staging := s.media.staging.filter (fun e => e.lb / 2097152 != o.num) } }

/-- Without a volume the state differs as without the object, and in its media. -/
theorem withoutVolume_keeps (s : State) (o : Obj) : (s.withoutVolume o).cores = s.cores ∧
    (s.withoutVolume o).link = s.link ∧ (s.withoutVolume o).jobs = s.jobs ∧
    (s.withoutVolume o).objs = s.objs.filter (fun x => x.handle != o.handle) ∧
    (s.withoutVolume o).sec = (s.dropObject o).sec := by
  have off := offMap_unmapOwner (s.dropObject o) o.num
  exact ⟨(congrArg State.cores off :), (congrArg State.link off :), (congrArg State.jobs off :),
    (congrArg State.objs off :), (congrArg State.sec off :)⟩

/-- The key of a volume goes with it. -/
theorem keys_dropObject {s : State} {o : Obj} (h : o.kind = .volume) :
    ∀ k ∈ (s.dropObject o).sec.keyTable, k.copy = none → k.handle ≠ o.handle := by
  intro k hk copy
  rw [State.dropObject, h] at hk
  have served := (List.mem_filter.mp hk).2
  simpa [KeySlot.serves, h, copy] using served

theorem exec_deleteVolume {s : State} {u : Nat} {c : Cmd} {o : Obj} (ho : s.volume? c.object = some o)
    (hr : Runs s u 0x08 c) :
    exec (.deleteVolume u) s = .next ((s.withoutVolume o).complete u { status := .ok }).settle := by
  show execDeleteVolume u s = _
  rw [execDeleteVolume, onCmd_runs hr, ho, ← uid_of_cmd? hr.1]
  rfl

theorem volumeDeleted {s : State} {u : Nat} {c : Cmd} {o : Obj} (ho : s.volume? c.object = some o)
    (hr : Runs s u 0x08 c) : ∃ t w, exec (.deleteVolume u) s = .next t ∧ Ends w u { status := .ok } t ∧
      w.objs = s.objs.filter (fun x => x.handle != c.object) ∧
      (∀ k ∈ w.sec.keyTable, k.copy = none → k.handle ≠ c.object) ∧
      (∀ e ∈ w.media.staging, e.lb / 2097152 ≠ o.num) ∧ w.cores = s.cores ∧ w.link = s.link ∧ w.jobs = s.jobs := by
  obtain ⟨found, kind⟩ := kind_of_volume? ho
  obtain ⟨cores, link, jobs, objs, sec⟩ := withoutVolume_keeps s o
  rw [← handle_of_obj? found]
  refine ⟨_, _, exec_deleteVolume ho hr, rfl, objs, sec ▸ keys_dropObject kind, fun e he => ?_, cores, link, jobs⟩
  have unnamed := (List.mem_filter.mp he).2
  simpa using unnamed

/-! ### READ (R61, R64, R68) -/

/-- The longest run of good places from the first on, where there is a first bad one. -/
theorem takeWhile_range {p : Nat → Bool} {k n : Nat} (good : ∀ i < k, p i = true) (hk : k < n) (bad : p k = false) :
    (List.range n).takeWhile p = List.range k := by
  obtain ⟨m, rfl⟩ : ∃ m, n = k + (m + 1) := ⟨n - k - 1, by omega⟩
  rw [List.range_add, List.takeWhile_append_of_pos (fun i hi => good i (List.mem_range.mp hi)),
    List.range_succ_eq_map]
  simp [bad]

theorem takeWhile_range_all {p : Nat → Bool} {n : Nat} (good : ∀ i < n, p i = true) :
    (List.range n).takeWhile p = List.range n :=
  List.takeWhile_eq_self_iff.mpr (fun i hi => good i (List.mem_range.mp hi))

/-- A counted read changes a superblock's counts and nothing else. -/
theorem noteRead_sblocks (s : State) (lb sec : Nat) :
    ∃ b, s.noteRead lb sec = { s with media := { s.media with sblocks := b } } := by
  unfold State.noteRead
  split
  · exact ⟨s.media.sblocks, rfl⟩
  · split
    · exact ⟨_, rfl⟩
    · exact ⟨s.media.sblocks, rfl⟩

theorem noteReads_sblocks {α : Type} (at_ : α → Nat × Nat) (l : List α) (s : State) :
    ∃ b, l.foldl (fun s i => s.noteRead (at_ i).1 (at_ i).2) s = { s with media := { s.media with sblocks := b } } := by
  induction l generalizing s with
  | nil => exact ⟨s.media.sblocks, rfl⟩
  | cons a t ih =>
    obtain ⟨b, e⟩ := noteRead_sblocks s (at_ a).1 (at_ a).2
    obtain ⟨b', e'⟩ := ih (s.noteRead (at_ a).1 (at_ a).2)
    exact ⟨b', by rw [List.foldl_cons, e', e]⟩

/-- Sector `i` of the range that a command names, as it reads. -/
def State.readAt (s : State) (o : Obj) (c : Cmd) (i : Nat) : Sector :=
  s.sectorOf (o.num * 2097152 + (c.p0 + i) / 65536) ((c.p0 + i) % 65536)

/-- The bytes of the first `k` sectors of the range that a command names. -/
def State.readBytes (s : State) (o : Obj) (c : Cmd) (k : Nat) : List Byte :=
  ((List.range k).map (fun i => Mem.bytes (s.readAt o c i).data 0 4096)).flatten

/-- A READ that may act delivers its good sectors up to the first bad one, and counts their reads. -/
theorem exec_read {s : State} {u : Nat} {c : Cmd} {o : Obj} (ho : s.volume? c.object = some o) (hr : Runs s u 0x10 c)
    (hb : c.p0 + c.p1 ≤ o.sectors) (hq : s.overtakes c = false) (hd : o.degraded = false) {k : Nat}
    (hk : (List.range c.p1).takeWhile (fun i => !(s.readAt o c i).bad) = List.range k) : ∃ b,
    exec (.read u) s = .next ((State.complete { s with media := { s.media with sblocks := b } } u
      (if k = c.p1 then { status := .ok, payload := s.readBytes o c k }
       else { status := .mediaUncorrectable, result0 := c.p0 + k, payload := s.readBytes o c k })).settle) := by
  obtain ⟨b, e⟩ := noteReads_sblocks (fun i => o.sector (c.p0 + i)) (List.range k) s
  refine ⟨b, ?_⟩
  have within : o.beyond c = false := decide_eq_false (by omega)
  show execRead u s = _
  rw [execRead, onCmd_runs hr, ho]
  dsimp only
  rw [if_neg (by simp [within]), if_neg (by simp [hq]), hd]
  have good : (List.range c.p1).takeWhile (fun i =>
      !(false || (s.sectorOf (o.sector (c.p0 + i)).1 (o.sector (c.p0 + i)).2).bad)) = List.range k := hk
  rw [good, e, List.length_range, uid_of_cmd? hr.1]
  split <;> rfl

theorem volumeReads {s : State} {u : Nat} {c : Cmd} {o : Obj} (ho : s.volume? c.object = some o) (hr : Runs s u 0x10 c)
    (hb : c.p0 + c.p1 ≤ o.sectors) (hq : s.overtakes c = false) (hd : o.degraded = false)
    (good : ∀ i < c.p1, (s.readAt o c i).bad = false) :
    ∃ t w, exec (.read u) s = .next t ∧ w.link = s.link ∧ w.cores = s.cores ∧ w.objs = s.objs ∧
      w.media.lblocks = s.media.lblocks ∧ w.media.staging = s.media.staging ∧
      Ends w u { status := .ok, payload := s.readBytes o c c.p1 } t := by
  obtain ⟨b, run⟩ := exec_read ho hr hb hq hd (takeWhile_range_all (fun i hi => by simp [good i hi]))
  rw [if_pos rfl] at run
  exact ⟨_, { s with media := { s.media with sblocks := b } }, run, rfl, rfl, rfl, rfl, rfl, rfl⟩

theorem badSectorEndsRead {s : State} {u : Nat} {c : Cmd} {o : Obj} (ho : s.volume? c.object = some o)
    (hr : Runs s u 0x10 c) (hb : c.p0 + c.p1 ≤ o.sectors) (hq : s.overtakes c = false) (hd : o.degraded = false)
    {k : Nat} (hk : k < c.p1) (good : ∀ i < k, (s.readAt o c i).bad = false) (bad : (s.readAt o c k).bad = true) :
    ∃ t w, exec (.read u) s = .next t ∧ w.link = s.link ∧ w.media.lblocks = s.media.lblocks ∧
      Ends w u { status := .mediaUncorrectable, result0 := c.p0 + k, payload := s.readBytes o c k } t := by
  obtain ⟨b, run⟩ := exec_read ho hr hb hq hd (takeWhile_range (fun i hi => by simp [good i hi]) hk (by simp [bad]))
  rw [if_neg hk.ne] at run
  exact ⟨_, { s with media := { s.media with sblocks := b } }, run, rfl, rfl, rfl⟩

/-! ### Sectors and staging (R68, R319) -/

theorem sectorOf_congr {s t : State} (hl : t.media.lblocks = s.media.lblocks)
    (hs : t.media.staging = s.media.staging) (lb k : Nat) : t.sectorOf lb k = s.sectorOf lb k := by
  unfold State.sectorOf State.lblock State.lblock?
  rw [hl, hs]

/-- A sector staged last is what its place reads; every other place reads as before. -/
theorem sectorOf_stage {s t : State} {e : Staged} (hl : t.media.lblocks = s.media.lblocks)
    (hs : t.media.staging = s.media.staging ++ [e]) (lb k : Nat) : t.sectorOf lb k =
      if lb = e.lb ∧ k = e.sector then LogEntry.over { sector := e.sector, data := e.data } (s.sectorOf lb k)
      else s.sectorOf lb k := by
  unfold State.sectorOf State.lblock State.lblock? newest entriesOf
  rw [hl, hs]
  by_cases hlb : lb = e.lb
  · by_cases hk : k = e.sector
    · simp [List.filter_append, hlb, hk]
    · simp [List.filter_append, hlb, hk, Ne.symm hk]
  · simp [List.filter_append, hlb, Ne.symm hlb]

/-! ### WRITE (R63, R319) -/

/-- The bytes of a memory made of bytes. -/
theorem bytes_ofList (bs : List Byte) : Mem.bytes (Sparse.ofList 0 bs) 0 bs.length = bs := by
  rw [bytes_cells]
  refine List.ext_getElem (by simp) fun i hi lt => ?_
  simp [Sparse.get_ofList, lt]

/-- A WRITE whose sectors are all staged stages no more. -/
theorem stageWrite_done {s : State} {u : Nat} {c : Cmd} (hc : s.cmd? u = some c)
    (done : c.payload.length / 4096 ≤ c.progress) (n : Nat) (o : Obj) : State.stageWrite n s o u = s := by
  cases n with
  | zero => rfl
  | succ n => rw [State.stageWrite, hc]; exact if_pos (Or.inr done)

/-- The next sector of a WRITE, as it enters the staging. -/
def Obj.staged (o : Obj) (c : Cmd) : Staged :=
  let at_ := o.sector (c.p0 + c.progress)
  { lb := at_.1, sector := at_.2, uid := some c.uid
    data := some (o.encrypted at_ { data := Sparse.ofList 0 ((c.payload.drop (4096 * c.progress)).take 4096) }) }

/-- A WRITE with its next sector, at place `at_`, staged, which held `before`. -/
def Cmd.stagedNext (at_ : Nat × Nat) (before : Sector) (c : Cmd) : Cmd :=
  { c with progress := c.progress + 1, begun := true
           undo := if c.whole then c.undo else c.undo ++ [(at_.1, at_.2, before)] }

/-- The state with the next sector of WRITE `c` staged. -/
def State.stagedNext (s : State) (o : Obj) (c : Cmd) : State :=
  let at_ := o.sector (c.p0 + c.progress)
  let s := s.modCmd c.uid (Cmd.stagedNext at_ (s.sectorOf at_.1 at_.2))
  { s with media := { s.media with staging := s.media.staging ++ [o.staged c] } }

theorem stageSector_unarmed {s : State} (h : (s.flip 80).armed = false) (bs : List Byte) :
    s.stageSector bs = ({ data := Sparse.ofList 0 bs }, s) := by
  unfold State.stageSector
  simp [h]

/-- A step of staging, with room and nothing armed. -/
theorem stageWrite_next {s : State} {u : Nat} {c : Cmd} {o : Obj} (hc : s.cmd? u = some c) (hf : c.finished = false)
    (more : c.progress < c.payload.length / 4096) (ha : (s.flip 80).armed = false)
    (hw : s.wornOut (o.sector (c.p0 + c.progress)).1 = false)
    (room : s.stageRoom (o.sector (c.p0 + c.progress)).1 = true) (n : Nat) :
    State.stageWrite (n + 1) s o u = State.stageWrite n (s.stagedNext o c) o u := by
  obtain rfl := uid_of_cmd? hc
  rw [State.stageWrite, hc]
  dsimp only
  rw [if_neg (by simp [hf]; omega), if_neg (by simp [hw]), if_neg (by simp [room]), stageSector_unarmed ha]
  rfl

theorem exec_stagedWrite {s : State} {u : Nat} {c : Cmd} {o : Obj} (ho : s.volume? c.object = some o)
    (hr : Runs s u 0x11 c) (hb : c.p0 + c.p1 ≤ o.sectors) (hq : s.overtakes c = false) (hro : o.readOnly = false)
    (last : c.progress + 1 = c.payload.length / 4096) (hh : s.hw.holdupWeak = false) (ha : (s.flip 80).armed = false)
    (hw : s.wornOut (o.sector (c.p0 + c.progress)).1 = false)
    (room : s.stageRoom (o.sector (c.p0 + c.progress)).1 = true) :
    exec (.write u) s =
      .next ((s.stagedNext o c).complete u { status := .ok, result0 := c.progress + 1 }).settle := by
  obtain ⟨hc, _, hm, _⟩ := id hr
  obtain rfl := uid_of_cmd? hc
  simp only [State.mayBegin, Bool.and_eq_true, Bool.not_eq_true', Option.isNone_iff_eq_none] at hm
  obtain ⟨⟨⟨hf, hv⟩, hwhole⟩, _⟩ := hm
  have within : o.beyond c = false := decide_eq_false (by omega)
  have after : ∃ x, (s.stagedNext o c).cmd? c.uid = some (c.stagedNext (o.sector (c.p0 + c.progress)) x) := by
    refine ⟨s.sectorOf (o.sector (c.p0 + c.progress)).1 (o.sector (c.p0 + c.progress)).2,
      (cmd?_modCmd s c.uid c.uid (Cmd.stagedNext _ _) (fun _ => rfl)).trans ?_⟩
    rw [hc]; simp
  obtain ⟨x, after⟩ := after
  have done : (c.stagedNext (o.sector (c.p0 + c.progress)) x).payload.length / 4096 ≤ c.progress + 1 := last.ge
  rw [exec_write hr, State.write, ho]
  dsimp only
  rw [if_neg (by simp [within]), if_neg (by simp [hro]), if_neg (by simp [hq]), ← last,
    stageWrite_next hc hf (by omega) ha hw room, stageWrite_done after done, after]
  dsimp only
  rw [if_neg, if_neg (by rw [show (s.stagedNext o c).hw = s.hw from rfl, hh]; decide),
    show (c.stagedNext (o.sector (c.p0 + c.progress)) x).verdict = none from hv]
  · rfl
  · rw [show (c.stagedNext (o.sector (c.p0 + c.progress)) x).finished = c.finished from rfl, hf,
      show (c.stagedNext (o.sector (c.p0 + c.progress)) x).whole = c.whole from rfl, hwhole,
      show (c.stagedNext (o.sector (c.p0 + c.progress)) x).progress = c.progress + 1 from rfl]
    simpa using done

theorem volumeWritten {s : State} {u : Nat} {c : Cmd} {o : Obj} (ho : s.volume? c.object = some o)
    (hr : Runs s u 0x11 c) (hb : c.p0 + c.p1 ≤ o.sectors) (hq : s.overtakes c = false) (hro : o.readOnly = false)
    (last : c.progress + 1 = c.payload.length / 4096) (hh : s.hw.holdupWeak = false) (ha : (s.flip 80).armed = false)
    {lb sec : Nat} (at_ : o.sector (c.p0 + c.progress) = (lb, sec)) (hw : s.wornOut lb = false)
    (room : s.stageRoom lb = true) :
    ∃ t w, exec (.write u) s = .next t ∧ Ends w u { status := .ok, result0 := c.progress + 1 } t ∧
      w.media.lblocks = s.media.lblocks ∧ w.cores = s.cores ∧ w.objs = s.objs ∧ w.jobs = s.jobs ∧
      Mem.bytes (w.sectorOf lb sec).data 0 4096 = (c.payload.drop (4096 * c.progress)).take 4096 ∧
      (w.sectorOf lb sec).bad = false ∧
      ∀ l k, l ≠ lb ∨ k ≠ sec → w.sectorOf l k = s.sectorOf l k := by
  have run := exec_stagedWrite ho hr hb hq hro last hh ha (by rw [at_]; exact hw) (by rw [at_]; exact room)
  have read : ∀ l k, (s.stagedNext o c).sectorOf l k = _ :=
    sectorOf_stage (s := s) (e := o.staged c) rfl rfl
  have place : (o.staged c).lb = lb ∧ (o.staged c).sector = sec :=
    ⟨congrArg Prod.fst at_, congrArg Prod.snd at_⟩
  rw [place.1, place.2] at read
  have own := read lb sec
  rw [if_pos ⟨rfl, rfl⟩] at own
  refine ⟨_, s.stagedNext o c, run, rfl, rfl, rfl, rfl, rfl, ?_, ?_, fun l k away => ?_⟩
  · rw [own]
    have full : ((c.payload.drop (4096 * c.progress)).take 4096).length = 4096 := by
      rw [List.length_take, List.length_drop]; omega
    exact (congrArg (Mem.bytes _ 0) full.symm).trans (bytes_ofList _)
  · rw [own]; rfl
  · rw [read, if_neg (by tauto)]

end Sys2Proof.Machine
end

section
/-!
SUPPORT. DISCARD and SECURE_DISCARD (R331).
-/
namespace Sys2Proof.Machine
open Sys2Proof.Safety

/-! ### Ranges in one logical block (R331) -/

theorem lbSectors_eq : lbSectors = 65536 := rfl

/-- A range that lies in one logical block has one part. -/
theorem partsOf_one {p n : Nat} (hn : n ≠ 0) (same : (p + n - 1) / 65536 = p / 65536) : partsOf p n = [p / 65536] := by
  rw [partsOf, if_neg hn]
  show (List.range ((p + n - 1) / 65536 + 1 - p / 65536)).map (fun i => p / 65536 + i) = _
  rw [same, Nat.add_sub_cancel_left]
  rfl

theorem rangeIn_one {p n : Nat} (fits : p % 65536 + n ≤ 65536) : rangeIn p n (p / 65536) = (p % 65536, n) := by
  have lo : max p (p / 65536 * 65536) = p := by omega
  have hi : min (p + n) ((p / 65536 + 1) * 65536) = p + n := by omega
  show (max p (p / 65536 * 65536) - p / 65536 * 65536,
    min (p + n) ((p / 65536 + 1) * 65536) - max p (p / 65536 * 65536)) = _
  rw [lo, hi]
  exact Prod.ext (by dsimp only; omega) (by dsimp only; omega)

/-- One sector is a part of its logical block. -/
theorem partSectors_one (p : Nat) : partSectors p 1 = [(p / 65536, p % 65536)] := by
  unfold partSectors
  rw [partsOf_one one_ne_zero rfl]
  dsimp only
  rw [if_pos (show [p / 65536].length ≤ 1 from le_refl 1), List.filter_cons_of_pos (by rw [rangeIn_one (by omega)]; simp [lbSectors_eq])]
  simp [rangeIn_one (p := p) (n := 1) (by omega)]

/-- A whole logical block has no sectors to trim. -/
theorem partSectors_whole {p : Nat} (h : p % 65536 = 0) : partSectors p 65536 = [] := by
  unfold partSectors
  rw [partsOf_one (by decide) (by omega)]
  dsimp only
  rw [if_pos (show [p / 65536].length ≤ 1 from le_refl 1), List.filter_cons_of_neg (by rw [rangeIn_one (by omega)]; simp [lbSectors_eq])]
  rfl

/-! ### Discards that may act -/

/-- Nothing of R61, R67 and R331 stops a discard. -/
theorem onDiscard_acts {s : State} {c : Cmd} {o : Obj} (ho : s.volume? c.object = some o)
    (hb : c.p0 + c.p1 ≤ o.sectors) (hr : ¬(o.readOnly = true ∧ c.begun = false ∧ partSectors c.p0 c.p1 ≠ []))
    (hq : s.overtakes c = false) (hm : ¬(c.begun = false ∧ s.merging o c = true)) (f : Obj → State) :
    s.onDiscard c f = f o := by
  have within : o.beyond c = false := decide_eq_false (by omega)
  rw [State.onDiscard, ho]
  dsimp only
  rw [if_neg (by simp [within]), if_neg hr, if_neg]
  rintro (h | h)
  · rw [hq] at h; cases h
  · exact hm h

theorem sync_rests {s : State} (h : s.media.waiting = []) : s.sync = s := by
  rw [State.sync, h]; rfl

/-- A discard of which nothing is left does nothing more. -/
theorem discardFrom_done {s : State} {c : Cmd} {o : Obj} (hb : c.begun = true)
    (done : c.progress = (partSectors c.p0 c.p1).length) : s.discardFrom o c = s := by
  rw [State.discardFrom, if_pos hb, done, List.drop_length]
  rfl

/-- A trim entry of a discard. -/
def Obj.trim (o : Obj) (u part sec : Nat) : Staged := { lb := lbNum o.num part, sector := sec, data := none, uid := some u }

/-- The state with the one sector of a discard trimmed. -/
def State.trimmed (s : State) (o : Obj) (c : Cmd) : State :=
  let s := (s.modCmd c.uid (fun c => { c with begun := true })).modCmd c.uid
    (fun c => { c with progress := c.progress + 1 })
  { s with media := { s.media with
      staging := s.media.staging ++ [o.trim c.uid (c.p0 / 65536) (c.p0 % 65536)] } }

theorem unmapWhole_one {s : State} {c : Cmd} (o : Obj) (h1 : c.p1 = 1) : s.unmapWhole o c = s := by
  rw [State.unmapWhole, h1, partsOf_one one_ne_zero rfl, List.filter_cons_of_neg (by rw [rangeIn_one (by omega)]; simp [lbSectors_eq])]
  rfl

/-- A discard of one sector stages its trim entry. -/
theorem discardFrom_one {s : State} {c : Cmd} {o : Obj} (h1 : c.p1 = 1) (hb : c.begun = false) (hp : c.progress = 0)
    (room : s.logRoom (lbNum o.num (c.p0 / 65536)) = true) : s.discardFrom o c = s.trimmed o c := by
  rw [State.discardFrom, if_neg (by simp [hb]), unmapWhole_one o h1, hp, h1, partSectors_one, List.drop_zero]
  show State.stageTrims 1 _ o c.uid _ = _
  rw [State.stageTrims]
  exact if_neg (fun full => absurd (room.symm.trans full) (by decide))

/-- A discard with an entry in the staging waits for its program. -/
theorem stagedDone_staged {s : State} {u : Nat} (h : s.media.staging.any (fun e => e.uid == some u) = true) :
    s.stagedDone u = s := by
  unfold State.stagedDone
  split
  · rfl
  · rw [if_pos h]

theorem trimmed_staged (s : State) (o : Obj) (c : Cmd) :
    (s.trimmed o c).media.staging.any (fun e => e.uid == some c.uid) = true := by
  show (s.media.staging ++ [_]).any _ = true
  simp [Obj.trim]

/-- After a trim its sector reads as zeros, bad as it was, and every other sector as before. -/
theorem sectorOf_trimmed (s : State) (o : Obj) (c : Cmd) (lb k : Nat) : (s.trimmed o c).sectorOf lb k =
    if lb = lbNum o.num (c.p0 / 65536) ∧ k = c.p0 % 65536 then { zeroSector with bad := (s.sectorOf lb k).bad }
    else s.sectorOf lb k :=
  sectorOf_stage (s := s) (t := s.trimmed o c) (e := o.trim c.uid (c.p0 / 65536) (c.p0 % 65536)) rfl rfl lb k

/-! ### DISCARD -/

section
variable {s : State} {u : Nat} {c : Cmd} {o : Obj}

theorem exec_discard (ho : s.volume? c.object = some o) (hr : Runs s u 0x12 c)
    (hb : c.p0 + c.p1 ≤ o.sectors) (hro : ¬(o.readOnly = true ∧ c.begun = false ∧ partSectors c.p0 c.p1 ≠ []))
    (hq : s.overtakes c = false) (hm : ¬(c.begun = false ∧ s.merging o c = true)) :
    exec (.discard u) s = .next (((s.discardFrom o c).sync.stagedDone u).settle) := by
  show execDiscard u s = _
  rw [execDiscard, onCmd_runs hr, onDiscard_acts ho hb hro hq hm, uid_of_cmd? hr.1]

theorem sectorDiscarded (ho : s.volume? c.object = some o) (hr : Runs s u 0x12 c)
    (hb : c.p0 + c.p1 ≤ o.sectors) (hq : s.overtakes c = false) (h1 : c.p1 = 1) (hn : c.begun = false)
    (hp : c.progress = 0) (hro : o.readOnly = false) (hm : s.merging o c = false)
    (room : s.logRoom (o.num * 2097152 + c.p0 / 65536) = true) (hw : s.media.waiting = []) :
    ∃ t, exec (.discard u) s = .next t ∧
      (t.sectorOf (o.num * 2097152 + c.p0 / 65536) (c.p0 % 65536)).data = [] ∧
      (t.sectorOf (o.num * 2097152 + c.p0 / 65536) (c.p0 % 65536)).bad =
        (s.sectorOf (o.num * 2097152 + c.p0 / 65536) (c.p0 % 65536)).bad ∧
      t.cores = s.cores ∧ t.jobs = s.jobs ∧
      ∀ l k, l ≠ o.num * 2097152 + c.p0 / 65536 ∨ k ≠ c.p0 % 65536 → t.sectorOf l k = s.sectorOf l k := by
  obtain rfl := uid_of_cmd? hr.1
  have run := exec_discard ho hr hb (by simp [hro]) hq (by simp [hm])
  rw [discardFrom_one h1 hn hp room, sync_rests (s := s.trimmed o c) hw, stagedDone_staged (trimmed_staged s o c)] at run
  have read : ∀ l k, (s.trimmed o c).settle.sectorOf l k = (s.trimmed o c).sectorOf l k := fun l k =>
    sectorOf_congr (by rw [settle_media]) (by rw [settle_media]) l k
  refine ⟨_, run, ?_, ?_, by rw [settle_cores]; rfl, by rw [settle_jobs]; rfl, fun l k away => ?_⟩
  · rw [read, sectorOf_trimmed, if_pos ⟨rfl, rfl⟩]; rfl
  · rw [read, sectorOf_trimmed, if_pos ⟨rfl, rfl⟩]
  · rw [read, sectorOf_trimmed, if_neg (by rintro ⟨rfl, rfl⟩; simp [lbNum] at away)]

theorem discardEnds (ho : s.volume? c.object = some o) (hr : Runs s u 0x12 c)
    (hb : c.p0 + c.p1 ≤ o.sectors) (hq : s.overtakes c = false) (h1 : c.p1 = 1) (hn : c.begun = true)
    (hp : c.progress = 1) (hs : ∀ e ∈ s.media.staging, e.uid ≠ some u) (hw : s.media.waiting = []) :
    ∃ t, exec (.discard u) s = .next t ∧ Ends s u { status := .ok } t := by
  have done : c.progress = (partSectors c.p0 c.p1).length := by rw [hp, h1, partSectors_one]; rfl
  have run := exec_discard ho hr hb (by simp [hn]) hq (by simp [hn])
  have none : s.unmapQueued c = false := by rw [State.unmapQueued, ho, hw]; simp
  rw [discardFrom_done hn done, sync_rests hw] at run
  refine ⟨_, run, ?_⟩
  have unstaged : s.media.staging.any (fun e => e.uid == some u) = false :=
    List.any_eq_false.mpr (fun e he => by simpa using hs e he)
  rw [State.stagedDone, hr.1]
  dsimp only
  rw [if_neg (by simp [unstaged]), if_pos ⟨hr.2.1, hn, done, none⟩]
  rfl
end

/-! ### DISCARD of a whole logical block -/

/-- What completing the commands of dropped sectors leaves alone. -/
theorem inside_stagedDone (s : State) (u : Nat) : inside (s.stagedDone u) = inside s := by
  unfold State.stagedDone
  split
  · rfl
  · split
    · rfl
    · split
      · exact inside_complete _ _ _
      · split
        · exact inside_complete _ _ _
        · rfl

theorem inside_unstage (s : State) (named : Staged → Bool) : inside (s.unstage named) =
    inside { s with media := { s.media with staging := s.media.staging.filter (fun e => !named e) } } :=
  foldl_keeps inside _ inside_stagedDone _ _

theorem media_unstage (s : State) (named : Staged → Bool) : (s.unstage named).media =
    { s.media with staging := s.media.staging.filter (fun e => !named e) } :=
  (congrArg State.media (inside_unstage s named) :)

/-- A logical block that is UNWRITTEN. -/
def Unwritten (s : State) (lb : Nat) : Prop := ∀ l ∈ s.media.lblocks, l.num ≠ lb

theorem unwritten_setLb {s : State} {lb : Nat} (h : Unwritten s lb) {l : LBlock} (hl : l.num ≠ lb) :
    Unwritten (s.setLb l) lb := by
  intro x hx
  unfold State.setLb at hx
  dsimp only at hx
  split at hx
  · obtain ⟨y, hy, rfl⟩ := List.mem_map.mp hx
    split
    · exact hl
    · exact h y hy
  · rcases List.mem_append.mp hx with hx | hx
    · exact h x hx
    · rw [List.mem_singleton.mp hx]; exact hl

/-- A logical block whose merge is committed. -/
def LBlock.committed (l : LBlock) (m : Merge) : LBlock :=
  { l with
    mapped := m.locs, seq := m.seq, merge := none, foldedThrough := l.folds m.frozen
    content := foldContent l.content (chainEntries m.frozen) }

theorem lblocks_setLb {s t : State} (h : t.media.lblocks = s.media.lblocks) (l : LBlock) :
    (t.setLb l).media.lblocks = (s.setLb l).media.lblocks := by
  unfold State.setLb State.lblock?
  dsimp only
  rw [h]

theorem lblocks_release_ (s : State) (locs : List SbLoc) (jseq : Nat) :
    (s.release_ locs jseq).media.lblocks = s.media.lblocks := by
  refine foldl_keeps (fun s => s.media.lblocks) _ ?_ locs s
  intros; rfl

/-- The commit of a merge writes the logical block that it merges. -/
theorem lblocks_finishMerge (s : State) (l : LBlock) (m : Merge) :
    (s.finishMerge l m).media.lblocks = (s.setLb (l.committed m)).media.lblocks := by
  unfold State.finishMerge
  refine (foldl_keeps (fun s => s.media.lblocks) _ ?_ _ _).trans (lblocks_setLb
    (.trans ?_ (lblocks_release_ s (l.mapped ++ m.frozen.map (fun b => b.loc)) m.jseq)) _)
  · intros; rfl
  · refine foldl_keeps (fun s => s.media.lblocks) _ ?_ _ _
    intros; rfl

theorem media_mapWrite (s : State) (req : Nat) : (s.mapWrite req).media = s.media := by
  unfold State.mapWrite
  dsimp only
  split <;> rfl

/-- A record may commit the merge of a logical block, which it writes. -/
theorem lblocks_program (s : State) (r : JRec) : (s.program r).media.lblocks = s.media.lblocks ∨
    ∃ l ∈ s.media.lblocks, ∃ m, l.merge = some m ∧ m.closed = true ∧ m.jseq = r.jseq ∧
      (s.program r).media.lblocks = (s.setLb (l.committed m)).media.lblocks := by
  have effect : ∀ w : State, w.media.lblocks = s.media.lblocks →
      (w.takeEffect r).media.lblocks = s.media.lblocks ∨ ∃ l ∈ s.media.lblocks, ∃ m, l.merge = some m ∧ m.closed = true ∧ m.jseq = r.jseq ∧
        (w.takeEffect r).media.lblocks = (s.setLb (l.committed m)).media.lblocks := by
    intro w hw
    unfold State.takeEffect
    split
    · next l found =>
      have mine := List.find?_some found
      split
      · next m hm =>
        refine .inr ⟨l, hw ▸ List.mem_of_find?_eq_some found, m, hm, ?_⟩
        have mine : m.closed = true ∧ m.jseq = r.jseq := by simpa [hm] using mine
        exact ⟨mine.1, mine.2, (lblocks_finishMerge w l m).trans (lblocks_setLb hw _)⟩
      · exact .inl hw
    · exact .inl hw
  unfold State.program
  apply effect
  show (State.media (ite _ _ _)).lblocks = _
  split
  · rfl
  · rw [media_mapWrite]

theorem unwritten_program {s : State} {lb : Nat} (h : Unwritten s lb) (r : JRec) : Unwritten (s.program r) lb := by
  unfold Unwritten
  rcases lblocks_program s r with e | ⟨l, hl, m, -, -, -, e⟩
  · rw [e]; exact h
  · rw [e]; exact unwritten_setLb h (l := l.committed m) (h l hl)

theorem unwritten_programNext {lb : Nat} (n : Nat) {s : State} (h : Unwritten s lb) : Unwritten (s.programNext n) lb := by
  induction n generalizing s with
  | zero => exact h
  | succ n ih =>
    rw [State.programNext]
    split
    · exact ih (unwritten_program h _)
    · exact h

/-- A logical block with a superblock of its own is UNWRITTEN after its unmap. -/
theorem unwritten_unmap {s : State} {lb : Nat} (h : (s.lblock lb).locs ≠ []) : Unwritten (s.unmap lb) lb := by
  unfold State.unmap
  unfold State.lblock at h
  split
  · next none => rw [none] at h; exact absurd rfl h
  · next l some =>
    rw [some] at h
    rw [if_neg (by exact h)]
    intro x hx
    simpa using (List.mem_filter.mp hx).2

/-- An UNWRITTEN logical block with nothing staged reads as zeros. -/
theorem sectorOf_unwritten {s : State} {lb : Nat} (h : Unwritten s lb) (hs : ∀ e ∈ s.media.staging, e.lb ≠ lb)
    (k : Nat) : s.sectorOf lb k = zeroSector := by
  have none : s.lblock? lb = none := List.find?_eq_none.mpr (fun l hl => by simpa using h l hl)
  have unstaged : s.media.staging.filter (fun e => e.lb == lb) = [] :=
    List.filter_eq_nil_iff.mpr (fun e he => by simpa using hs e he)
  unfold State.sectorOf State.lblock
  rw [none, unstaged]
  rfl

theorem staging_of_offMap {s t : State} (h : t.offMap = s.offMap) : t.media.staging = s.media.staging :=
  (congrArg (fun x : State => x.media.staging) h :)

section
variable {s : State} {u : Nat} {c : Cmd} {o : Obj}

theorem unmapWhole_block (h1 : c.p1 = 65536) (h0 : c.p0 % 65536 = 0) : s.unmapWhole o c =
    (s.unstage (fun e => e.lb == lbNum o.num (c.p0 / 65536))).unmap (lbNum o.num (c.p0 / 65536)) := by
  rw [State.unmapWhole, h1, partsOf_one (by decide) (by omega),
    List.filter_cons_of_pos (by rw [rangeIn_one (by omega)]; simp [lbSectors_eq])]
  rfl

theorem blockDiscarded (ho : s.volume? c.object = some o) (hr : Runs s u 0x12 c)
    (hb : c.p0 + c.p1 ≤ o.sectors) (hq : s.overtakes c = false) (h1 : c.p1 = 65536) (h0 : c.p0 % 65536 = 0)
    (hn : c.begun = false) (hm : s.merging o c = false)
    (mapped : (s.lblock (o.num * 2097152 + c.p0 / 65536)).locs ≠ []) :
    ∃ t, exec (.discard u) s = .next t ∧ t.cores = s.cores ∧ t.jobs = s.jobs ∧
      ∀ k < 65536, (t.sectorOf (o.num * 2097152 + c.p0 / 65536) k).data = [] ∧
        (t.sectorOf (o.num * 2097152 + c.p0 / 65536) k).bad = false := by
  have whole : partSectors c.p0 c.p1 = [] := by rw [h1]; exact partSectors_whole h0
  have run := exec_discard ho hr hb (by simp [whole]) hq (by simp [hm])
  rw [State.discardFrom, if_neg (by simp [hn]), whole, List.drop_nil, unmapWhole_block h1 h0] at run
  have dropped := inside_unstage (s.modCmd c.uid (fun c => { c with begun := true }))
    (fun e => e.lb == lbNum o.num (c.p0 / 65536))
  generalize State.unstage _ _ = x at run dropped
  have media : x.media =
      { s.media with staging := s.media.staging.filter (fun e => !(e.lb == lbNum o.num (c.p0 / 65536))) } := (congrArg State.media dropped :)
  have off : (x.unmap (lbNum o.num (c.p0 / 65536))).sync.offMap = x.offMap :=
    (offMap_sync _).trans (offMap_unmap _ _)
  have gone : Unwritten (x.unmap (lbNum o.num (c.p0 / 65536))).sync (lbNum o.num (c.p0 / 65536)) := by
    refine unwritten_programNext _ (unwritten_unmap ?_)
    unfold State.lblock State.lblock?
    rw [media]
    exact mapped
  replace run : exec (.discard u) s =
    .next (((x.unmap (lbNum o.num (c.p0 / 65536))).sync.stagedDone u).settle) := run
  generalize (x.unmap (lbNum o.num (c.p0 / 65536))).sync = y at run off gone
  have still := inside_stagedDone y u
  refine ⟨_, run, ?_, ?_, fun k _ => ?_⟩
  · rw [settle_cores]
    exact (congrArg State.cores still :).trans ((congrArg State.cores off :).trans (congrArg State.cores dropped :))
  · rw [settle_jobs]
    exact (congrArg State.jobs still :).trans ((congrArg State.jobs off :).trans (congrArg State.jobs dropped :))
  · have unstaged : ∀ e ∈ y.media.staging, e.lb ≠ lbNum o.num (c.p0 / 65536) := by
      intro e he
      rw [staging_of_offMap off, media] at he
      simpa using (List.mem_filter.mp he).2
    have after : ((y.stagedDone u).settle).media = y.media := by
      rw [settle_media]
      exact (congrArg State.media still :)
    have zeros := sectorOf_unwritten gone unstaged k
    rw [sectorOf_congr (s := y) (by rw [after]) (by rw [after])]
    exact zeros ▸ ⟨rfl, rfl⟩
end

/-! ### SECURE_DISCARD -/

/-- Entries that trim a sector leave it as bad as it was. -/
theorem bad_newest_trims {es : List LogEntry} {sec : Nat} (h : ∀ e ∈ es, e.sector = sec → e.data = none) (old : Sector) :
    (newest es sec old).bad = old.bad := by
  refine List.foldlRecOn (motive := fun x : Sector => x.bad = old.bad) _ _ rfl fun x hx e he => ?_
  obtain ⟨mem, at_⟩ := List.mem_filter.mp he
  rw [LogEntry.over, h e mem (by simpa using at_)]
  exact hx

/-- Dropped entries of one sector are not missed at another. -/
theorem newest_filter {es : List Staged} {named : Staged → Bool} {sec : Nat}
    (h : ∀ e ∈ es, named e = true → e.sector ≠ sec) (old : Sector) :
    newest (entriesOf (es.filter (fun e => !named e))) sec old = newest (entriesOf es) sec old := by
  unfold newest entriesOf
  congr 1
  rw [List.filter_map, List.filter_map, List.filter_filter]
  congr 1
  refine List.filter_congr fun e he => ?_
  by_cases n : named e = true
  · simp [n, h e he n]
  · simp [n]

/-- Fewer staged entries need no more log blocks. -/
theorem logsWith_staged {s t : State} (hl : t.media.lblocks = s.media.lblocks)
    (hs : t.media.staging.Sublist s.media.staging) (lb k : Nat) : t.logsWith lb k ≤ s.logsWith lb k := by
  have blocks : ∀ x, t.lblock x = s.lblock x := fun x => by unfold State.lblock State.lblock?; rw [hl]
  unfold State.logsWith State.logsUsed
  dsimp only
  rw [hl, ← List.sum_toFinset _ (List.nodup_dedup _), ← List.sum_toFinset _ (List.nodup_dedup _)]
  refine Nat.add_le_add_left (le_trans (Finset.sum_le_sum_of_subset ?_) (Finset.sum_le_sum fun x _ => ?_)) _
  · intro x hx
    simp only [List.mem_toFinset, List.mem_dedup, List.mem_cons, List.mem_map] at hx ⊢
    rcases hx with rfl | ⟨e, he, rfl⟩
    · exact .inl rfl
    · exact .inr ⟨e, hs.subset he, rfl⟩
  · rw [blocks]
    have fewer := (hs.filter (fun e => e.lb == x)).length_le
    unfold LBlock.logsFor ceilDiv
    exact Nat.sub_le_sub_right (Nat.div_le_div_right (by omega)) _

theorem logRoom_staged {s t : State} (hl : t.media.lblocks = s.media.lblocks)
    (hs : t.media.staging.Sublist s.media.staging) {lb : Nat} (room : s.logRoom lb = true) : t.logRoom lb = true := by
  have blocks : t.lblock lb = s.lblock lb := by unfold State.lblock State.lblock?; rw [hl]
  have fewer := (hs.filter (fun e => e.lb == lb)).length_le
  have logs := logsWith_staged hl hs lb 1
  simp only [State.logRoom, State.chainRoom, Bool.and_eq_true, decide_eq_true_eq, blocks] at room ⊢
  omega

/-- The staged sectors that a SECURE_DISCARD overwrites. -/
def Obj.overwrites (o : Obj) (c : Cmd) (e : Staged) : Bool :=
  (partsOf c.p0 c.p1).any (fun p =>
    let r := rangeIn c.p0 c.p1 p
    e.lb == lbNum o.num p && e.data.isSome && decide (r.1 ≤ e.sector) && decide (e.sector < r.1 + r.2))

/-- What SECURE_DISCARD does at the end: it completes when nothing of the sectors is left. -/
def State.endSecure (s : State) (o : Obj) (u : Nat) : State :=
  match s.cmd? u with
  | none => s
  | some c =>
    if c.progress < (partSectors c.p0 c.p1).length ∨ s.unmapQueued c = true ∨
        (partsOf c.p0 c.p1).any (fun p => s.residue (lbNum o.num p)) = true then s
    else s.ok c

section
variable {s : State} {u : Nat} {c : Cmd} {o : Obj}

theorem overwrites_one (h1 : c.p1 = 1) (e : Staged) : o.overwrites c e = true ↔
    e.lb = lbNum o.num (c.p0 / 65536) ∧ e.data.isSome = true ∧ e.sector = c.p0 % 65536 := by
  rw [Obj.overwrites, h1, partsOf_one one_ne_zero rfl]
  simp only [List.any_cons, List.any_nil, Bool.or_false, rangeIn_one (p := c.p0) (n := 1) (by omega), Bool.and_eq_true,
    beq_iff_eq, decide_eq_true_eq, and_assoc]
  constructor
  · rintro ⟨a, b, d, e⟩; exact ⟨a, b, by omega⟩
  · rintro ⟨a, b, d⟩; exact ⟨a, b, by omega, by omega⟩

theorem exec_secureDiscard (ho : s.volume? c.object = some o) (hr : Runs s u 0x13 c)
    (hb : c.p0 + c.p1 ≤ o.sectors) (hro : ¬(o.readOnly = true ∧ c.begun = false ∧ partSectors c.p0 c.p1 ≠ []))
    (hq : s.overtakes c = false) (hm : ¬(c.begun = false ∧ s.merging o c = true)) :
    exec (.secureDiscard u) s = .next (((State.discardFrom (if c.begun = true then s else s.unstage (o.overwrites c)) o c).sync.endSecure
      o u).settle) := by
  obtain rfl := uid_of_cmd? hr.1
  show execSecureDiscard _ s = _
  rw [execSecureDiscard, onCmd_runs hr, onDiscard_acts ho hb hro hq hm]
  rfl

/-- The end of a SECURE_DISCARD completes commands and no more. -/
theorem inside_endSecure (s : State) (o : Obj) (u : Nat) : inside (s.endSecure o u) = inside s := by
  unfold State.endSecure
  split
  · rfl
  · split
    · rfl
    · exact inside_ok _ _

theorem sectorOverwritten (ho : s.volume? c.object = some o) (hr : Runs s u 0x13 c)
    (hb : c.p0 + c.p1 ≤ o.sectors) (hq : s.overtakes c = false) (h1 : c.p1 = 1) (hn : c.begun = false)
    (hp : c.progress = 0) (hro : o.readOnly = false) (hm : s.merging o c = false)
    (room : s.logRoom (o.num * 2097152 + c.p0 / 65536) = true) (hw : s.media.waiting = []) :
    ∃ t, exec (.secureDiscard u) s = .next t ∧
      (t.sectorOf (o.num * 2097152 + c.p0 / 65536) (c.p0 % 65536)).data = [] ∧
      (t.sectorOf (o.num * 2097152 + c.p0 / 65536) (c.p0 % 65536)).bad =
        ((s.lblock (o.num * 2097152 + c.p0 / 65536)).onMedia (c.p0 % 65536)).bad ∧ t.cores = s.cores ∧ t.jobs = s.jobs ∧
      (∀ e ∈ t.media.staging, e.lb = o.num * 2097152 + c.p0 / 65536 → e.sector = c.p0 % 65536 → e.data = none) ∧
      ∀ l k, l ≠ o.num * 2097152 + c.p0 / 65536 ∨ k ≠ c.p0 % 65536 → t.sectorOf l k = s.sectorOf l k := by
  have run := exec_secureDiscard ho hr hb (by simp [hro]) hq (by simp [hm])
  rw [if_neg (by simp [hn])] at run
  have dropped := inside_unstage s (o.overwrites c)
  generalize s.unstage (o.overwrites c) = x at run dropped
  have media : x.media = { s.media with staging := s.media.staging.filter (fun e => !o.overwrites c e) } :=
    (congrArg State.media dropped :)
  have room := logRoom_staged (t := x) (by rw [media]) (by rw [media]; exact List.filter_sublist) room
  rw [discardFrom_one h1 hn hp room, sync_rests (s := x.trimmed o c) (by show x.media.waiting = []; rw [media]; exact hw)] at run
  have still := inside_endSecure (x.trimmed o c) o u
  have after : (((x.trimmed o c).endSecure o u).settle).media = (x.trimmed o c).media := by
    rw [settle_media]
    exact (congrArg State.media still :)
  have read : ∀ l k, (((x.trimmed o c).endSecure o u).settle).sectorOf l k = (x.trimmed o c).sectorOf l k :=
    sectorOf_congr (by rw [after]) (by rw [after])
  have blocks : ∀ l, x.lblock l = s.lblock l := fun l => by unfold State.lblock State.lblock?; rw [media]
  have left : ∀ e ∈ x.media.staging, e.lb = lbNum o.num (c.p0 / 65536) → e.sector = c.p0 % 65536 → e.data = none := by
    intro e he hl hk
    rw [media] at he
    have kept := (List.mem_filter.mp he).2
    by_contra some
    simp [(overwrites_one h1 e).mpr ⟨hl, Option.isSome_iff_ne_none.mpr some, hk⟩] at kept
  refine ⟨_, run, ?_, ?_, ?_, ?_, ?_, fun l k away => ?_⟩
  · rw [read, sectorOf_trimmed, if_pos ⟨rfl, rfl⟩]; rfl
  · rw [read, sectorOf_trimmed, if_pos ⟨rfl, rfl⟩]
    show (x.sectorOf _ _).bad = _
    rw [State.sectorOf, bad_newest_trims, blocks]
    intro e he at_
    obtain ⟨y, hy, rfl⟩ := List.mem_map.mp he
    obtain ⟨mem, lb⟩ := List.mem_filter.mp hy
    exact left y mem (beq_iff_eq.mp lb) at_
  · rw [settle_cores]
    exact (congrArg State.cores still :).trans (congrArg State.cores dropped :)
  · rw [settle_jobs]
    exact (congrArg State.jobs still :).trans (congrArg State.jobs dropped :)
  · intro e he hl hk
    rw [after] at he
    rcases List.mem_append.mp he with he | he
    · exact left e he hl hk
    · rw [List.mem_singleton.mp he]; rfl
  · rw [read, sectorOf_trimmed, if_neg (by rintro ⟨rfl, rfl⟩; simp [lbNum] at away)]
    rw [State.sectorOf, State.sectorOf, blocks, media, List.filter_comm]
    refine newest_filter (fun e he hit => ?_) _
    obtain ⟨hl, -, hk⟩ := (overwrites_one h1 e).mp hit
    have same : e.lb = l := by simpa using (List.mem_filter.mp he).2
    rintro rfl
    rcases away with away | away
    · exact away (same ▸ hl)
    · exact away hk

theorem secureDiscardEnds (ho : s.volume? c.object = some o) (hr : Runs s u 0x13 c)
    (hb : c.p0 + c.p1 ≤ o.sectors) (hq : s.overtakes c = false) (hn : c.begun = true)
    (done : c.progress = (partSectors c.p0 c.p1).length) (hw : s.media.waiting = [])
    (clean : ∀ p ∈ partsOf c.p0 c.p1, s.residue (o.num * 2097152 + p) = false) :
    ∃ t, exec (.secureDiscard u) s = .next t ∧ Ends s u { status := .ok } t := by
  have run := exec_secureDiscard ho hr hb (by simp [hn]) hq (by simp [hn])
  have none : s.unmapQueued c = false := by rw [State.unmapQueued, ho, hw]; simp
  rw [if_pos hn, discardFrom_done hn done, sync_rests hw] at run
  refine ⟨_, run, ?_⟩
  have gone : (partsOf c.p0 c.p1).any (fun p => s.residue (lbNum o.num p)) = false :=
    List.any_eq_false.mpr (fun p hp => by
      rw [show s.residue (lbNum o.num p) = false from clean p hp]
      decide)
  rw [State.endSecure, hr.1]
  dsimp only
  rw [if_neg (by simp [done, none, gone]), State.ok, uid_of_cmd? hr.1]
  rfl
end

/-- Settles O39, command by command. -/
theorem volumeCommands : Obligations.VolumeCommands := by
  intro s u c o
  refine ⟨fun n hr he hw hp room hv => volumeCreated hr he hw hp room hv, fun ho => ⟨volumeDeleted ho, ?_, ?_, ?_, ?_, ?_, ?_⟩⟩
  · intro hr hb hq hd
    exact ⟨fun good => volumeReads ho hr hb hq hd good, fun k hk good bad => badSectorEndsRead ho hr hb hq hd hk good bad⟩
  · intro hr hb hq hro last hh ha
    exact fun hw room => volumeWritten ho hr hb hq hro last hh ha rfl hw room
  · intro hr hb hq h1
    exact ⟨fun hn hp hro hm room hw => sectorDiscarded ho hr hb hq h1 hn hp hro hm room hw,
      fun hn hp hs hw => discardEnds ho hr hb hq h1 hn hp hs hw⟩
  · intro hr hb hq h1 h0 hn hm
    exact fun mapped => blockDiscarded ho hr hb hq h1 h0 hn hm mapped
  · intro hr hb hq h1 hn hp hro hm
    exact fun room hw => sectorOverwritten ho hr hb hq h1 hn hp hro hm room hw
  · intro hr hb hq hn done hw clean
    exact secureDiscardEnds ho hr hb hq hn done hw clean

end Sys2Proof.Machine
end

section
/-!
SUPPORT. Stored copies: what placing them in flash moves, their creation and their removal (R118, R119, R149, R316).
-/
namespace Sys2Proof.Machine
open Sys2Proof.Safety

/-! ### Placing bytes in flash (R118, R316) -/

/-- All of a state but the map of the media, the counters, the flip-masks, the clock and the stored copies. -/
def State.offCopies (s : State) : State := { s.offMap with clock := 0, copies := [] }

theorem offCopies_of_offMap {s t : State} (h : t.offMap = s.offMap) : t.offCopies = s.offCopies :=
  congrArg (fun w : State => { w with clock := 0, copies := [] }) h

/-- A copy without the place of its pages in flash. -/
def Copy.unplaced (c : Copy) : Copy := { c with t2 := [], t3 := [] }

theorem Copy.eq_of_unplaced {c d : Copy} (h : c.unplaced = d.unplaced) : c = { d with t2 := c.t2, t3 := c.t3 } :=
  congrArg (fun x : Copy => { x with t2 := c.t2, t3 := c.t3 }) h

/-- State `t` is `s` but for its flash, and for where the pages of the copy with identifier `id` lie there. -/
structure Places (id : Nat) (s t : State) : Prop where
  rest : t.offCopies = s.offCopies
  copies : ∃ f : Copy → Copy, (∀ c, (f c).unplaced = c.unplaced) ∧
    t.copies = s.copies.map (fun c => if c.id == id then f c else c)

namespace Places
variable {id : Nat} {s t w : State}

theorem of_rest (hc : t.copies = s.copies) (h : t.offCopies = s.offCopies) : Places id s t :=
  ⟨h, fun c => c, fun _ => rfl, by simp [hc]⟩

theorem of_map (h : t.offMap = s.offMap) : Places id s t :=
  of_rest (congrArg State.copies h :) (offCopies_of_offMap h)

theorem refl (s : State) : Places id s s := of_map rfl

theorem trans (h : Places id s t) (g : Places id t w) : Places id s w := by
  obtain ⟨f, hf, ef⟩ := h.copies
  obtain ⟨k, hk, ek⟩ := g.copies
  refine ⟨g.rest.trans h.rest, fun c => k (f c), fun c => (hk _).trans (hf c), ?_⟩
  rw [ek, ef, List.map_map]
  refine List.map_congr_left fun c _ => ?_
  have same : (f c).id = c.id := (congrArg Copy.id (hf c) :)
  by_cases e : c.id = id
  · simp [e, same]
  · simp [e]

theorem foldl {α : Type} {f : State → α → State} (h : ∀ s a, Places id s (f s a)) (l : List α) (s : State) :
    Places id s (l.foldl f s) := by
  induction l generalizing s with
  | nil => exact refl s
  | cons a t ih => exact (h s a).trans (ih _)

end Places

@[simp] theorem offMap_newSeq (s : State) : s.newSeq.2.offMap = s.offMap := rfl

@[simp] theorem offMap_takeDuty (s : State) (loc : SbLoc) (d : SbDuty) : (s.takeDuty loc d).offMap = s.offMap := by
  unfold State.takeDuty
  split
  · rfl
  · split <;> rfl

@[simp] theorem offMap_openSb (s : State) (loc : SbLoc) (d : SbDuty) (role : SbRole) (lb : Nat) (j : Option Nat) :
    (s.openSb loc d role lb j).2.offMap = s.offMap := by
  show State.offMap (State.setSb _ _) = _
  rw [offMap_setSb, offMap_newSeq, offMap_takeDuty]

@[simp] theorem offMap_openTier (s : State) (lb : Nat) (t2 : Bool) : (s.openTier lb t2).offMap = s.offMap := by
  unfold State.openTier
  show State.offMap (State.queueRec _ _) = _
  rw [offMap_queueRec, offMap_setLb]
  refine List.foldlRecOn (motive := fun x : State × List SbLoc => x.1.offMap = s.offMap) _ _ rfl fun x hx _ _ => ?_
  show State.offMap (State.setSb _ _) = _
  rw [offMap_setSb, offMap_openSb, hx]

theorem places_modCopy (s : State) {id : Nat} {f : Copy → Copy} (h : ∀ c, (f c).unplaced = c.unplaced) :
    Places id s (s.modCopy id f) := ⟨rfl, f, h, rfl⟩

theorem places_openTier (s : State) (id lb : Nat) (t2 : Bool) : Places id s (s.openTier lb t2) :=
  .of_map (offMap_openTier s lb t2)

theorem places_placePart (s : State) (id first n : Nat) : Places id s (s.placePart id first n) := by
  have tier : ∀ (p : Prop) [Decidable p] (w : State) (lb : Nat) (t2 : Bool),
      Places id w (if p then w.openTier lb t2 else w) := fun p _ w lb t2 => by
    split
    · exact places_openTier w id lb t2
    · exact .refl w
  unfold State.placePart
  split
  · exact .refl s
  · exact ((tier _ s _ true).trans (tier _ _ _ false)).trans (places_modCopy _ (fun _ => rfl))

theorem places_placeRun (n : Nat) (s : State) (id first k : Nat) : Places id s (State.placeRun n s id first k) := by
  induction n generalizing s first k with
  | zero => exact .refl s
  | succ n ih =>
    rw [State.placeRun]
    split
    · exact .refl s
    · dsimp only
      split
      · exact .refl s
      · exact (places_placePart s id _ _).trans (ih _ _ _)

theorem places_placePages (s : State) (id : Nat) (r : Nat × Nat) : Places id s (s.placePages id r) :=
  places_placeRun _ s id _ _

theorem places_sync (s : State) (id : Nat) : Places id s s.sync := .of_map (offMap_sync s)

/-- A new copy, as it is stored before its pages are placed. -/
def State.withCopy (s : State) (c : Copy) : State :=
  { s with copies := s.copies ++ [c], nextCopy := s.nextCopy + 1 }

/-- A stored copy added to the state is the last, under the next identifier. -/
theorem places_addCopy (s : State) (c : Copy) (order : List (Nat × Nat)) :
    Places s.nextCopy (s.withCopy { c with id := s.nextCopy, t2 := [], t3 := [] }) (s.addCopy c order) := by
  unfold State.addCopy
  refine .trans (.of_rest ?_ ?_) (.trans (.foldl (fun s lb => places_openTier s _ lb false) _ _)
    (.trans (.foldl (fun s r => places_placePages s _ r) _ _) (places_sync _ _)))
  · rfl
  · rfl

/-- Under a fresh identifier the other copies stay. -/
theorem copies_addCopy {s : State} (fresh : ∀ x ∈ s.copies, x.id < s.nextCopy) (c : Copy) (order : List (Nat × Nat)) :
    ∃ x : Copy, (s.addCopy c order).copies = s.copies ++ [x] ∧ x.unplaced = { c with id := s.nextCopy }.unplaced := by
  obtain ⟨f, hf, e⟩ := (places_addCopy s c order).copies
  refine ⟨f { c with id := s.nextCopy, t2 := [], t3 := [] }, ?_, hf _⟩
  rw [e]
  show (s.copies ++ [_]).map _ = _
  rw [List.map_append, List.map_singleton, if_pos (by simp)]
  congr 1
  refine (List.map_congr_left fun x hx => ?_).trans (List.map_id _)
  exact if_neg (by simpa using (fresh x hx).ne)

/-- What placing bytes in flash leaves alone. -/
theorem Places.keeps {id : Nat} {s t : State} (h : Places id s t) : t.link = s.link ∧ t.cores = s.cores ∧
    t.jobs = s.jobs ∧ t.objs = s.objs ∧ t.sec = s.sec := by
  have h := h.rest
  exact ⟨(congrArg State.link h :), (congrArg State.cores h :), (congrArg State.jobs h :), (congrArg State.objs h :),
    (congrArg State.sec h :)⟩

/-! ### LOAD_MODEL (R119, R255 to R257) -/

/-- A command that may act has arrived whole, so that no chain begins with it. -/
theorem beginChain_runs {s : State} {u op : Nat} {c : Cmd} (h : Runs s u op c) (op' : Nat) :
    s.beginChain u op' = s := by
  obtain ⟨hc, -, hm, -⟩ := h
  have whole : c.whole = true := by
    simp only [State.mayBegin, Bool.and_eq_true] at hm
    exact hm.1.2
  rw [State.beginChain, hc]
  exact if_neg (by simp [whole])

theorem lt_of_objectFree {s : State} {n : Nat} (h : s.objectFree n = true) : n < 4096 :=
  of_decide_eq_true (Bool.and_eq_true_iff.mp h).1

section
variable {s : State} {u n : Nat} {c : Cmd} {q : Queue}

theorem loadModelRefused (hr : Runs s u 0x20 c) (hq : s.queue? c.queue = some q) (he : s.sec.err = .none) {f : Flaw}
    (hf : imageFlaw c.payload c.p0 = some f) : ∃ t, exec (.loadModel u n) s = .next t ∧
      Ends s u { status := .badPacket, result0 := f.1, result1 := f.2 } t := by
  have creates : s.creates = true := decide_eq_true he
  refine ⟨_, ?_, rfl⟩
  show execLoadModel u n s = _
  rw [execLoadModel, beginChain_runs hr, onCmd_runs hr, hq]
  dsimp only
  rw [if_neg (by simp [creates]), hf, ← uid_of_cmd? hr.1]
  rfl

/-- The state with an image stored as a new copy (R118, R316). -/
def State.withImage (s : State) (image : List Byte) : State :=
  s.addCopy
    { id := s.nextCopy, kind := .model, size := image.length, mem := Sparse.ofList 0 image
      digest := Config.sha3 image, lblocks := (spanParts [(0, image.length)]).length } [(0, image.length)]

/-- The new copy of an image, and what storing it leaves alone. -/
theorem withImage_stores {s : State} (fresh : ∀ x ∈ s.copies, x.id < s.nextCopy) (image : List Byte) :
    (∃ x : Copy, (s.withImage image).copies = s.copies ++ [x] ∧ x.id = s.nextCopy ∧ x.kind = .model ∧ x.size = image.length ∧
      x.mem = Sparse.ofList 0 image) ∧ (s.withImage image).link = s.link ∧ (s.withImage image).cores = s.cores ∧
      (s.withImage image).jobs = s.jobs ∧ (s.withImage image).objs = s.objs ∧ (s.withImage image).sec = s.sec := by
  unfold State.withImage
  refine ⟨?_, (places_addCopy s _ _).keeps⟩
  obtain ⟨x, copies, same⟩ := copies_addCopy fresh
    { id := s.nextCopy, kind := .model, size := image.length, mem := Sparse.ofList 0 image
      digest := Config.sha3 image, lblocks := (spanParts [(0, image.length)]).length } [(0, image.length)]
  exact ⟨x, copies, congrArg Copy.id same, congrArg Copy.kind same, congrArg Copy.size same, congrArg Copy.mem same⟩

/-- The state with a new object of the last stored copy, under a new handle with its key (R386). -/
def State.withNewObject (s : State) (kind : ObjKind) (num pod copy : Nat) : State :=
  let o := s.addObject kind num pod 0 copy
  o.2.addKey o.1 (some copy)

theorem loadModelStores (hr : Runs s u 0x20 c) (hq : s.queue? c.queue = some q) (he : s.sec.err = .none)
    (hf : imageFlaw c.payload c.p0 = none) (hw : s.media.wearState ≠ 3)
    (own : s.sharedCopy q.pod (Config.sha3 c.payload) = none) (fresh : ∀ x ∈ s.copies, x.id < s.nextCopy)
    (room : s.hasRoom (spanParts [(0, c.payload.length)]).length (shortPart (spanParts [(0, c.payload.length)])) = true)
    (hn : s.objectFree n = true) :
    ∃ (t w : State) (h : Nat) (x : Copy), exec (.loadModel u n) s = .next t ∧ Ends w u { status := .ok, result0 := h } t ∧
      h / 2 ^ 56 = 2 ∧ h % 4096 = n ∧ w.copies = s.copies ++ [x] ∧ x.id = s.nextCopy ∧ x.kind = .model ∧
      x.size = c.payload.length ∧ (∀ i, Sparse.get x.mem i = c.payload.getD i 0) ∧
      w.objs = s.objs ++ [{ handle := h, kind := .model, num := n, pod := q.pod, copy := x.id }] ∧
      (∃ k : KeySlot, w.sec.keyTable = s.sec.keyTable ++ [k] ∧ k.handle = h ∧ k.copy = some x.id) ∧
      w.link = s.link ∧ w.cores = s.cores ∧ w.jobs = s.jobs := by
  have creates : s.creates = true := decide_eq_true he
  have run : exec (.loadModel u n) s = .next (((s.withImage c.payload).withNewObject .model n q.pod s.nextCopy).complete u
      { status := .ok, result0 := ((s.withImage c.payload).newHandle 2 n).1 }).settle := by
    show execLoadModel u n s = _
    rw [execLoadModel, beginChain_runs hr, onCmd_runs hr, hq]
    dsimp only
    rw [if_neg (by simp [creates]), hf]
    dsimp only
    rw [if_neg hw, own]
    dsimp only
    rw [if_neg (by simp [room]), if_neg (by simp [hn]), ← uid_of_cmd? hr.1]
    unfold State.withNewObject State.withImage State.fail
    rfl
  have names := newHandle_names (s.withImage c.payload) (kind := 2) (lt_of_objectFree hn)
  obtain ⟨⟨x, copies, id, kind, size, mem⟩, link, cores, jobs, objs, sec⟩ := withImage_stores fresh c.payload
  generalize s.withImage c.payload = w at *
  refine ⟨_, _, _, x, run, rfl, names.1, names.2, copies, id, kind, size, ?_, ?_, ?_, link, cores, jobs⟩
  · intro i
    rw [mem, Sparse.get_ofList]
    split
    · rfl
    · next out => rw [List.getD_eq_default _ _ (by omega)]
  · rw [id, ← objs]; rfl
  · rw [id, ← sec]; exact addKey_slot _ _ _

theorem loadModelShares (hr : Runs s u 0x20 c) (hq : s.queue? c.queue = some q) (he : s.sec.err = .none)
    (hf : imageFlaw c.payload c.p0 = none) (hw : s.media.wearState ≠ 3) {x : Copy}
    (shared : s.sharedCopy q.pod (Config.sha3 c.payload) = some x) (hn : s.objectFree n = true)
    (fresh : ∀ o ∈ s.objs, o.handle ≠ (s.newHandle 2 n).1) :
    ∃ (t w : State) (h : Nat) (d : Bool), exec (.loadModel u n) s = .next t ∧ Ends w u { status := .ok, result0 := h } t ∧
      h / 2 ^ 56 = 2 ∧ h % 4096 = n ∧ w.copies = s.copies ∧ w.media = s.media ∧
      w.objs = s.objs ++ [{ handle := h, kind := .model, num := n, pod := q.pod, copy := x.id, degraded := d }] ∧
      w.sec = s.sec ∧ w.link = s.link ∧ w.cores = s.cores ∧ w.jobs = s.jobs := by
  have creates : s.creates = true := decide_eq_true he
  have names := newHandle_names s (kind := 2) (lt_of_objectFree hn)
  generalize hh : (s.newHandle 2 n).1 = h at fresh names
  have run : ∃ d, exec (.loadModel u n) s = .next ((((s.addObject .model n q.pod 0 x.id).2.modObj h
      (fun y => { y with degraded := d })).complete u { status := .ok, result0 := h }).settle) := by
    refine ⟨s.objs.any (fun y => y.copy == x.id && y.kind == .model && y.degraded), ?_⟩
    show execLoadModel u n s = _
    rw [execLoadModel, beginChain_runs hr, onCmd_runs hr, hq]
    dsimp only
    rw [if_neg (by simp [creates]), hf]
    dsimp only
    rw [if_neg hw, shared]
    dsimp only
    rw [if_neg (by simp [hn]), ← uid_of_cmd? hr.1, ← hh]
    rfl
  obtain ⟨d, run⟩ := run
  refine ⟨_, _, h, d, run, rfl, names.1, names.2, rfl, rfl, ?_, rfl, rfl, rfl, rfl⟩
  show (s.objs ++ [_]).map _ = _
  rw [List.map_append, List.map_singleton]
  refine congr (congrArg _ ((List.map_congr_left fun o ho => ?_).trans (List.map_id _))) ?_
  · exact if_neg (by simpa using fresh o ho)
  · subst hh
    exact congrArg (fun x => [x]) (if_pos (beq_self_eq_true _))
end

/-! ### UNLOAD_MODEL (R149) -/

/-- Requests of a Pod for pages of a copy are dropped from the page table alone. -/
@[simp] theorem offPages_dropRequests (s : State) (p copy : Nat) : (s.dropRequests p copy).offPages = s.offPages := by
  unfold State.dropRequests
  split <;> rfl

/-- No page begins to be promoted because requests are dropped. -/
theorem promoting_dropRequests {s : State} {copy : Nat} (h : s.promoting copy = false) (p c : Nat) :
    (s.dropRequests p c).promoting copy = false := by
  unfold State.dropRequests
  split
  · exact h
  · refine List.any_eq_false.mpr fun y hy => ?_
    obtain ⟨x, hx, e⟩ := List.mem_filterMap.mp hy
    have same : y.copy = x.copy ∧ y.state = x.state := by
      split at e
      · cases e; exact ⟨rfl, rfl⟩
      · dsimp only at e
        split at e
        · split at e
          · cases e
          · cases e; exact ⟨rfl, rfl⟩
        · cases e; exact ⟨rfl, rfl⟩
    rw [same.1, same.2]
    exact List.any_eq_false.mp h x hx

/-- The state with an object removed, and with its last handle its copy (R149). -/
def State.removed (s : State) (u : Nat) (o : Obj) : State :=
  let s := ((s.dropObject o).dropRequests o.pod o.copy).modCmd u
    (fun c => { c with begun := true, progress := o.copy * 65 + o.pod + 1 })
  let s := s.dropClaims o.pod o.copy
  if s.objs.any (fun x => x.kind != .volume && x.copy == o.copy) then s else s.dropCopy o.copy

/-- A removal with no page under promotion and no transfer parked goes to its end at once. -/
theorem remove_ends {s : State} {c : Cmd} {o : Obj} (hp : s.promoting o.copy = false) (hn : NoneParked s) :
    s.remove c o = (s.removed c.uid o).ok c := by
  have same : ∀ n, ((s.dropObject o).dropRequests o.pod o.copy).core n = s.core n := fun n =>
    (core_of_offPages (offPages_dropRequests _ _ _) n).trans rfl
  have unparked : ((s.dropObject o).dropRequests o.pod o.copy).failGone = (s.dropObject o).dropRequests o.pod o.copy :=
    failGone_of_unparked fun n hn' p hp' => hn n hn' p (by rw [← same]; exact hp')
  have idle : ((s.dropObject o).dropRequests o.pod o.copy).promoting o.copy = false :=
    promoting_dropRequests (s := s.dropObject o) hp _ _
  unfold State.remove State.endRemoval State.removed
  dsimp only
  rw [unparked]
  exact if_neg (fun h => absurd (idle.symm.trans h) (by decide))

theorem dropCopy_drops (s : State) (copy : Nat) : (s.dropCopy copy).copies = s.copies.filter (fun x => x.id != copy) ∧
    (∀ x ∈ (s.dropCopy copy).pages, x.copy ≠ copy) ∧ (s.dropCopy copy).objs = s.objs ∧
    (s.dropCopy copy).sec = s.sec ∧ (s.dropCopy copy).cores = s.cores ∧ (s.dropCopy copy).jobs = s.jobs := by
  have off := offMap_unmapOwner s (4096 + copy)
  generalize hw : s.unmapOwner (4096 + copy) = w at off
  have e : s.dropCopy copy = { w with
    copies := w.copies.filter (fun c => c.id != copy), pages := w.pages.filter (fun x => x.copy != copy)
    integ := { w.integ with reported := w.integ.reported.filter (fun c => c != copy) } } := by rw [← hw]; rfl
  rw [e]
  have copies : w.copies = s.copies := (congrArg State.copies off :)
  refine ⟨by rw [← copies], fun x hx => ?_, (congrArg State.objs off :), (congrArg State.sec off :),
    (congrArg State.cores off :), (congrArg State.jobs off :)⟩
  simpa using (List.mem_filter.mp hx).2

/-- Whether another object names the copy of one that goes. -/
def State.shares (s : State) (o : Obj) : Bool :=
  (s.dropObject o).objs.any (fun x => x.kind != .volume && x.copy == o.copy)

theorem removed_drops (s : State) (u : Nat) (o : Obj) :
    (s.removed u o).objs = (s.dropObject o).objs ∧ (s.removed u o).sec = (s.dropObject o).sec ∧
    (s.removed u o).cores = s.cores ∧ (s.removed u o).jobs = s.jobs ∧
    (s.shares o = true → (s.removed u o).copies = s.copies) ∧
    (s.shares o = false → (s.removed u o).copies = s.copies.filter (fun x => x.id != o.copy) ∧
      ∀ x ∈ (s.removed u o).pages, x.copy ≠ o.copy) := by
  have off : ((((s.dropObject o).dropRequests o.pod o.copy).modCmd u
      (fun c => { c with begun := true, progress := o.copy * 65 + o.pod + 1 })).dropClaims o.pod o.copy).offPages =
      State.offPages { s.dropObject o with link := (((s.dropObject o).dropRequests o.pod o.copy).modCmd u
        (fun c => { c with begun := true, progress := o.copy * 65 + o.pod + 1 })).link } := by
    rw [offPages_dropClaims]
    have same := offPages_dropRequests (s.dropObject o) o.pod o.copy
    generalize (s.dropObject o).dropRequests o.pod o.copy = w at *
    exact congrArg (fun x : State => { x with link := (w.modCmd u
      (fun c => { c with begun := true, progress := o.copy * 65 + o.pod + 1 })).link }) same
  unfold State.removed
  dsimp only
  generalize State.dropClaims _ o.pod o.copy = w at off ⊢
  have objs : w.objs = (s.dropObject o).objs := (congrArg State.objs off :)
  have sec : w.sec = (s.dropObject o).sec := (congrArg State.sec off :)
  have cores : w.cores = s.cores := (congrArg State.cores off :)
  have jobs : w.jobs = s.jobs := (congrArg State.jobs off :)
  have copies : w.copies = s.copies := (congrArg State.copies off :)
  have any : w.objs.any (fun x => x.kind != .volume && x.copy == o.copy) = s.shares o := by rw [objs]; rfl
  rw [any]
  cases s.shares o with
  | true => exact ⟨objs, sec, cores, jobs, fun _ => copies, fun h => by cases h⟩
  | false =>
    obtain ⟨hc, hp, ho, hs, hco, hj⟩ := dropCopy_drops w o.copy
    rw [copies] at hc
    exact ⟨ho.trans objs, hs.trans sec, hco.trans cores, hj.trans jobs, fun h => (by cases h), fun _ => ⟨hc, hp⟩⟩

/-- The key of a model or an index goes with the last handle of its copy. -/
theorem keys_dropLast {s : State} {o : Obj} (h : o.kind ≠ .volume) :
    if s.shares o = true then (s.dropObject o).sec = s.sec
    else ∀ k ∈ (s.dropObject o).sec.keyTable, k.copy ≠ some o.copy := by
  have last : (o.kind == .volume || (s.objs.filter (fun x => x.handle != o.handle)).all
      (fun x => x.kind == .volume || x.copy != o.copy)) = !s.shares o := by
    rw [show (o.kind == .volume) = false from beq_eq_false_iff_ne.mpr h, Bool.false_or, State.shares, List.any_eq_not_all_not,
      Bool.not_not]
    refine congrArg (List.all _) (funext fun x => ?_)
    cases x.kind <;> simp <;> rfl
  have sec : (s.dropObject o).sec = if (!s.shares o) = true then { s.sec with
      keyTable := s.sec.keyTable.filter (fun k => !k.serves o), cfLastOp := 2, cfResult := 0 } else s.sec := by
    rw [← last]; rfl
  rw [sec]
  cases s.shares o with
  | true => rfl
  | false =>
    intro k hk copy
    have served := (List.mem_filter.mp hk).2
    simp [KeySlot.serves, h, copy] at served

section
variable {s : State} {u : Nat} {c : Cmd} {o : Obj}

theorem modelUnloaded (hr : Runs s u 0x21 c) (h0 : c.progress = 0) (ho : s.obj? c.object = some o)
    (hu : s.objectInUse c = false) (hp : s.promoting o.copy = false) (hn : NoneParked s) :
    ∃ t w : State, exec (.unloadModel u) s = .next t ∧ Ends w u { status := .ok } t ∧
      w.objs = s.objs.filter (fun x => x.handle != c.object) ∧
      (o.kind ≠ .volume →
        if w.objs.any (fun x => x.kind != .volume && x.copy == o.copy) then w.sec = s.sec
        else ∀ k ∈ w.sec.keyTable, k.copy ≠ some o.copy) ∧
      (w.objs.any (fun x => x.kind != .volume && x.copy == o.copy) = true → w.copies = s.copies) ∧
      (w.objs.any (fun x => x.kind != .volume && x.copy == o.copy) = false →
        w.copies = s.copies.filter (fun x => x.id != o.copy) ∧ ∀ x ∈ w.pages, x.copy ≠ o.copy) ∧
      w.cores = s.cores ∧ w.jobs = s.jobs := by
  obtain rfl := uid_of_cmd? hr.1
  have run : exec (.unloadModel c.uid) s = .next (((s.removed c.uid o).complete c.uid { status := .ok }).settle) := by
    show execUnloadModel c.uid s = _
    rw [execUnloadModel, onCmd_runs hr, if_neg (by simp [h0]), ho]
    dsimp only
    rw [if_neg (by simp [hu]), remove_ends hp hn]
    rfl
  obtain ⟨objs, sec, cores, jobs, kept, dropped⟩ := removed_drops s c.uid o
  refine ⟨_, s.removed c.uid o, run, rfl, ?_, ?_, ?_, ?_, cores, jobs⟩
  · rw [objs, dropObject_objs, handle_of_obj? ho]
  · intro kind
    rw [objs, sec]
    exact keys_dropLast kind
  · rw [objs]; exact kept
  · rw [objs]; exact dropped
end

/-- Settles O42, command by command. -/
theorem modelCommands : Obligations.ModelCommands := by
  intro s u n c
  refine ⟨fun q hr hq he => ⟨fun f hf => loadModelRefused hr hq he hf, ?_, ?_⟩, ?_⟩
  · intro hf hw own fresh room hn
    exact loadModelStores hr hq he hf hw own fresh room hn
  · intro x hf hw shared hn fresh
    exact loadModelShares hr hq he hf hw shared hn fresh
  · intro o hr h0 ho hu hp hn
    exact modelUnloaded hr h0 ho hu hp hn

end Sys2Proof.Machine
end

section
/-!
SUPPORT. The commands of an index: building, changing, compacting and deleting it (R279 to R291, R307 to R311).
-/
namespace Sys2Proof.Machine
open Sys2Proof.Safety

/-! ### Bytes of a window (R279, R280) -/

/-- Bytes below a write stay. -/
theorem field_write_above (m : Mem) {base off n : Nat} (h : off + n ≤ base) (bs : List Byte) :
    Mem.field (Mem.write m base bs) off n = Mem.field m off n := by
  unfold Mem.field
  rw [bytes_cells, bytes_cells]
  refine congrArg le (List.map_congr_left fun i hi => ?_)
  have := List.mem_range.mp hi
  exact get_write_outside m base bs (.inl (by omega))

/-- A number among the bytes that a window begins with. -/
theorem field_of_bytes (a b : List Byte) (n v : Nat) :
    Mem.field (Mem.write [] 0 (a ++ (leBytes n v ++ b))) a.length n = v % 256 ^ n := by
  rw [← le_leBytes, Mem.field]
  refine congrArg le ?_
  rw [bytes_cells]
  refine List.ext_getElem (by simp [length_leBytes]) fun i hi hn => ?_
  have lt := hn
  rw [length_leBytes] at lt
  rw [List.getElem_map, List.getElem_range, Sparse.get_write (by rfl), if_pos (by simp [length_leBytes]; omega)]
  rw [Nat.sub_zero, List.getD_eq_getElem _ _ (by simp [length_leBytes]; omega), List.getElem_append_right (by omega),
    List.getElem_append_left (by omega)]
  simp

/-- Every region but the header lies behind the header. -/
theorem regionAt_behind (b : Build) (r : Nat) : 4096 ≤ b.regionAt (r + 1) := by
  unfold Build.regionAt Build.sizes
  simp only [List.take_succ_cons, List.map_cons, List.sum_cons]
  have : roundUp 4096 pageBytes = 2097152 := by decide
  omega

/-- The fields of a new window's header are those that its first bytes hold. -/
theorem field_window (b : Build) (d : List Byte) {off n : Nat} (h : off + n ≤ 4096) :
    Mem.field (b.window d) off n = Mem.field (Mem.write [] 0 b.header) off n := by
  have behind : ∀ r, off + n ≤ b.regionAt (r + 1) := fun r => h.trans (regionAt_behind b r)
  unfold Build.window
  dsimp only
  rw [field_write_above _ (behind 6), field_write_above _ (behind 5), field_write_above _ (behind 4),
    field_write_above _ (behind 2), field_write_above _ (behind 1), field_write_above _ (behind 0)]

/-- Code width, lists and identifiers of a new index are those of its stream (R280). -/
theorem window_fields (d : List Byte) : let b := parseBuild d
    Mem.field (b.window d) 4 2 = b.w ∧ Mem.field (b.window d) 8 4 = b.lists ∧ Mem.field (b.window d) 16 8 = b.cap := by
  intro b
  rw [field_window b d (by decide), field_window b d (by decide), field_window b d (by decide)]
  have w : b.w < 256 ^ 2 := fieldAt_lt d 4 2
  have lists : b.lists < 256 ^ 4 := fieldAt_lt d 8 4
  have cap : b.cap < 256 ^ 8 := fieldAt_lt d 0x18 8
  unfold Build.header
  simp only [List.append_assoc]
  refine ⟨(field_of_bytes (leBytes 4 0x49580002) _ 2 b.w).trans (Nat.mod_eq_of_lt w), ?_, ?_⟩
  · have at_ := field_of_bytes (leBytes 4 0x49580002 ++ (leBytes 2 b.w ++ leBytes 2 0))
    simp only [List.append_assoc, List.length_append, length_leBytes] at at_
    exact (at_ _ 4 b.lists).trans (Nat.mod_eq_of_lt lists)
  · have at_ := field_of_bytes (leBytes 4 0x49580002 ++ (leBytes 2 b.w ++ (leBytes 2 0 ++ (leBytes 4 b.lists ++ leBytes 4 b.entry))))
    simp only [List.append_assoc, List.length_append, length_leBytes] at at_
    exact (at_ _ 8 b.cap).trans (Nat.mod_eq_of_lt cap)

/-! ### BUILD_INDEX (R279, R285, R286) -/

theorem keeps_of_offPages {s t : State} (h : t.offPages = s.offPages) : t.link = s.link ∧ t.cores = s.cores ∧
    t.jobs = s.jobs ∧ t.objs = s.objs ∧ t.sec = s.sec ∧ t.copies = s.copies :=
  ⟨(congrArg State.link h :), (congrArg State.cores h :), (congrArg State.jobs h :), (congrArg State.objs h :),
    (congrArg State.sec h :), (congrArg State.copies h :)⟩

theorem withNewObject_objs (s : State) (kind : ObjKind) (num pod copy : Nat) :
    (s.withNewObject kind num pod copy).objs = s.objs ++
      [{ handle := (s.newHandle kind.code num).1, kind := kind, num := num, pod := pod, copy := copy }] := rfl

theorem withNewObject_slot (s : State) (kind : ObjKind) (num pod copy : Nat) : ∃ k : KeySlot,
    (s.withNewObject kind num pod copy).sec.keyTable = s.sec.keyTable ++ [k] ∧
      k.handle = (s.newHandle kind.code num).1 ∧ k.copy = some copy := addKey_slot _ _ _

theorem withNewObject_keeps (s : State) (kind : ObjKind) (num pod copy : Nat) :
    (s.withNewObject kind num pod copy).link = s.link ∧ (s.withNewObject kind num pod copy).cores = s.cores ∧
    (s.withNewObject kind num pod copy).jobs = s.jobs ∧ (s.withNewObject kind num pod copy).copies = s.copies :=
  ⟨rfl, rfl, rfl, rfl⟩

section
variable {s : State} {u n : Nat} {c : Cmd} {q : Queue}

theorem buildIndexRefused (hr : Runs s u 0x22 c) (hq : s.queue? c.queue = some q) (he : s.sec.err = .none) {f : Flaw}
    (hf : streamFlaw c.payload c.p0 c.p1 c.p2 = some f) : ∃ t : State, exec (.buildIndex u n) s = .next t ∧
      Ends s u { status := .badPacket, result0 := f.1, result1 := f.2 } t := by
  have creates : s.creates = true := decide_eq_true he
  refine ⟨_, ?_, rfl⟩
  show execBuildIndex u n s = _
  rw [execBuildIndex, beginChain_runs hr, onCmd_runs hr, hq]
  dsimp only
  rw [if_neg (by simp [creates]), hf, ← uid_of_cmd? hr.1]
  rfl

/-- The state with the index of a build stream stored as a new copy (R285, R316). -/
def State.withIndex (s : State) (d : List Byte) : State :=
  let b := parseBuild d
  s.addCopy
    { id := s.nextCopy, kind := .index, size := b.regionAt 8 + b.sizes.getD 8 0, mem := b.window d
      lblocks := (spanParts (b.sizes.map (fun n => (0, n)))).length, metaPages := b.regionAt 5 / pageBytes
      index := { extents := b.extents (b.counts d) 0 } } b.arrival

theorem Copy.fields_of_unplaced {x y : Copy} (h : x.unplaced = y.unplaced) :
    x.id = y.id ∧ x.kind = y.kind ∧ x.mem = y.mem :=
  ⟨(congrArg Copy.id h :), (congrArg Copy.kind h :), (congrArg Copy.mem h :)⟩

/-- The new copy of an index, and what storing it leaves alone. -/
theorem withIndex_stores {s : State} (fresh : ∀ x ∈ s.copies, x.id < s.nextCopy) (d : List Byte) :
    (∃ x : Copy, (s.withIndex d).copies = s.copies ++ [x] ∧ x.id = s.nextCopy ∧ x.kind = .index ∧
      x.mem = (parseBuild d).window d) ∧ (s.withIndex d).link = s.link ∧ (s.withIndex d).cores = s.cores ∧
      (s.withIndex d).jobs = s.jobs ∧ (s.withIndex d).objs = s.objs ∧ (s.withIndex d).sec = s.sec := by
  unfold State.withIndex
  refine ⟨?_, (places_addCopy s _ _).keeps⟩
  obtain ⟨x, copies, same⟩ := copies_addCopy fresh
    { id := s.nextCopy, kind := .index, size := (parseBuild d).regionAt 8 + (parseBuild d).sizes.getD 8 0
      mem := (parseBuild d).window d
      lblocks := (spanParts ((parseBuild d).sizes.map (fun n => (0, n)))).length
      metaPages := (parseBuild d).regionAt 5 / pageBytes
      index := { extents := (parseBuild d).extents ((parseBuild d).counts d) 0 } } (parseBuild d).arrival
  exact ⟨x, copies, x.fields_of_unplaced same⟩

theorem exec_buildIndex (hr : Runs s u 0x22 c) (hq : s.queue? c.queue = some q) (he : s.sec.err = .none)
    (hf : streamFlaw c.payload c.p0 c.p1 c.p2 = none) (hw : s.media.wearState ≠ 3)
    (claim : s.canClaim q.pod ((parseBuild c.payload).regionAt 5 / pageBytes) = true)
    (room : s.hasRoom (spanParts ((parseBuild c.payload).sizes.map (fun n => (0, n)))).length
      (shortPart (spanParts ((parseBuild c.payload).sizes.map (fun n => (0, n))))) = true)
    (hn : s.objectFree n = true) :
    exec (.buildIndex u n) s = .next
      (((((s.withIndex c.payload).withNewObject .index n q.pod s.nextCopy).fitShare (s.withIndex c.payload).pages.length
        q.pod).complete u { status := .ok, result0 := ((s.withIndex c.payload).newHandle 3 n).1 }).settle) := by
  have creates : s.creates = true := decide_eq_true he
  show execBuildIndex u n s = _
  rw [execBuildIndex, beginChain_runs hr, onCmd_runs hr, hq]
  dsimp only
  rw [if_neg (by simp [creates]), hf]
  dsimp only
  rw [if_neg hw, if_neg (by simp [claim]), if_neg (by simp [room]), if_neg (by simp [hn]), ← uid_of_cmd? hr.1]
  rfl

theorem buildIndexStores (hr : Runs s u 0x22 c) (hq : s.queue? c.queue = some q) (he : s.sec.err = .none)
    (hf : streamFlaw c.payload c.p0 c.p1 c.p2 = none) (hw : s.media.wearState ≠ 3)
    (claim : s.canClaim q.pod ((parseBuild c.payload).regionAt 5 / pageBytes) = true)
    (fresh : ∀ x ∈ s.copies, x.id < s.nextCopy)
    (room : s.hasRoom (spanParts ((parseBuild c.payload).sizes.map (fun n => (0, n)))).length
      (shortPart (spanParts ((parseBuild c.payload).sizes.map (fun n => (0, n))))) = true)
    (hn : s.objectFree n = true) :
    ∃ (t w : State) (h : Nat) (x : Copy), exec (.buildIndex u n) s = .next t ∧ Ends w u { status := .ok, result0 := h } t ∧
      h / 2 ^ 56 = 3 ∧ h % 4096 = n ∧ w.copies = s.copies ++ [x] ∧ x.id = s.nextCopy ∧ x.kind = .index ∧
      x.mem = (parseBuild c.payload).window c.payload ∧ x.codeBits = (parseBuild c.payload).w ∧
      x.lists = (parseBuild c.payload).lists ∧ x.identCap = (parseBuild c.payload).cap ∧
      w.objs = s.objs ++ [{ handle := h, kind := .index, num := n, pod := q.pod, copy := x.id }] ∧
      (∃ k : KeySlot, w.sec.keyTable = s.sec.keyTable ++ [k] ∧ k.handle = h ∧ k.copy = some x.id) ∧
      w.link = s.link ∧ w.cores = s.cores ∧ w.jobs = s.jobs := by
  have run := exec_buildIndex hr hq he hf hw claim room hn
  have names := newHandle_names (s.withIndex c.payload) (kind := 3) (lt_of_objectFree hn)
  obtain ⟨⟨x, copies, id, kind, mem⟩, link, cores, jobs, objs, sec⟩ := withIndex_stores fresh c.payload
  obtain ⟨width, lists, cap⟩ := window_fields c.payload
  rw [← mem] at width lists cap
  generalize s.withIndex c.payload = y at *
  have off := offPages_fitShare y.pages.length (y.withNewObject .index n q.pod s.nextCopy) q.pod
  generalize State.fitShare _ _ _ = w at run off
  obtain ⟨wlink, wcores, wjobs, wobjs, wsec, wcopies⟩ := keeps_of_offPages off
  obtain ⟨nlink, ncores, njobs, ncopies⟩ := withNewObject_keeps y .index n q.pod s.nextCopy
  refine ⟨_, w, _, x, run, rfl, names.1, names.2, (wcopies.trans ncopies).trans copies, id, kind, mem, width, lists, cap,
    ?_, ?_, (wlink.trans nlink).trans link, (wcores.trans ncores).trans cores, (wjobs.trans njobs).trans jobs⟩
  · rw [id, ← objs, wobjs]; exact withNewObject_objs _ _ _ _ _
  · rw [id, ← sec, wsec]; exact withNewObject_slot _ _ _ _ _
end

/-! ### Storing a changed copy (R123, R320) -/

@[simp] theorem offMap_openLog (s : State) (lb : Nat) (loc : SbLoc) : (s.openLog lb loc).offMap = s.offMap := by
  show State.offMap (State.jrec _ _ _ _ _ _ _) = _
  rw [offMap_jrec, offMap_setLb, offMap_openSb]

theorem places_appendLog (s : State) (id lb : Nat) (es : List LogEntry) : Places id s (s.appendLog lb es) := by
  unfold State.appendLog
  dsimp only
  split
  · exact .refl s
  · split
    · exact .of_rest rfl rfl
    · exact .of_rest rfl rfl

theorem places_logAll (n : Nat) (s : State) (id lb : Nat) (es : List LogEntry) : Places id s (State.logAll n s lb es) := by
  induction n generalizing s es with
  | zero => exact .refl s
  | succ n ih =>
    rw [State.logAll]
    dsimp only
    split
    · exact .refl s
    · split
      · exact (Places.of_map (offMap_openLog s lb _)).trans ((places_appendLog _ _ _ _).trans (ih _ _))
      · exact (places_appendLog _ _ _ _).trans (ih _ _)

/-- A copy that a change has made is stored in place of the old one, and placed. -/
theorem places_storeCopy (s : State) (old new : Copy) (fresh : List (Nat × Nat)) :
    Places new.id (s.modCopy new.id (fun c => { new with t2 := c.t2, t3 := c.t3 })) (s.storeCopy old new fresh) := by
  unfold State.storeCopy
  exact (Places.foldl (fun s p => places_placePart s new.id p 1) _ _).trans
    ((Places.foldl (fun (s : State) (x : Nat × List LogEntry) => places_logAll 5 s new.id x.1 x.2) _ _).trans
      (places_sync _ _))

/-- Only the copy that is placed changes, and of it only the place of its pages. -/
theorem Places.copy? {id : Nat} {s t : State} (h : Places id s t) : ∃ f : Copy → Copy,
    (∀ c, (f c).unplaced = c.unplaced) ∧ ∀ k, t.copy? k = if k = id then (s.copy? k).map f else s.copy? k := by
  obtain ⟨f, hf, e⟩ := h.copies
  refine ⟨f, hf, fun k => ?_⟩
  unfold State.copy?
  rw [e]
  exact find_map_key Copy.id f id (fun c hc => (congrArg Copy.id (hf c) :).trans hc) s.copies k

/-- The stored copy becomes what the change made of it, but for the place of its pages. -/
theorem rewrites_keepCopy {s : State} {x y z : Copy} (hz : s.copy? x.id = some z) (id : y.id = x.id) :
    Rewrites s (s.keepCopy y) x y := by
  have keep : s.keepCopy y = s.storeCopy z y (z.grown y) := by rw [State.keepCopy, id, hz]
  obtain ⟨f, hf, look⟩ := (places_storeCopy s z y (z.grown y)).copy?
  have stored : ∀ k, (s.modCopy y.id (fun c => { y with t2 := c.t2, t3 := c.t3 })).copy? k =
      if k = y.id then (s.copy? k).map (fun c => { y with t2 := c.t2, t3 := c.t3 }) else s.copy? k := fun k =>
    find_map_key Copy.id (fun c : Copy => { y with t2 := c.t2, t3 := c.t3 }) y.id (fun _ _ => rfl) s.copies k
  rw [keep]
  refine ⟨⟨f { y with t2 := z.t2, t3 := z.t3 }, ?_, Copy.eq_of_unplaced (hf _)⟩, fun k away => ?_⟩
  · rw [← id, look, if_pos rfl, stored, if_pos rfl, id, hz]; rfl
  · rw [look, if_neg (id ▸ away), stored, if_neg (id ▸ away)]

theorem keepCopy_keeps (s : State) (y : Copy) : (s.keepCopy y).link = s.link ∧ (s.keepCopy y).cores = s.cores ∧
    (s.keepCopy y).jobs = s.jobs ∧ (s.keepCopy y).objs = s.objs ∧ (s.keepCopy y).sec = s.sec := by
  unfold State.keepCopy
  split
  · exact (places_storeCopy s _ y _).keeps
  · exact ⟨rfl, rfl, rfl, rfl, rfl⟩

/-! ### Which copy a command of an index changes -/

theorem copy_of_indexOf {s : State} {h : Nat} {o : Obj} {x : Copy} (hi : s.indexOf h = some (o, x)) :
    s.obj? h = some o ∧ o.kind = .index ∧ ∃ z, s.copy? x.id = some z ∧ x = s.freed z ∧ x.id = o.copy := by
  unfold State.indexOf at hi
  split at hi
  · split at hi
    · next found kind =>
      obtain ⟨z, hz, e⟩ := Option.map_eq_some_iff.mp hi
      cases e
      have id : z.id = o.copy := by simpa using List.find?_some hz
      exact ⟨found, kind, z, (show s.copy? z.id = some z from id ▸ hz), rfl, id⟩
    · cases hi
  · cases hi

theorem id_setIdent (c : Copy) (n : Nat) (st : Ident) : (c.setIdent n st).id = c.id := by
  cases st <;> rfl

theorem id_deleteOne (c : Copy) (n : Nat) : (c.deleteOne n).id = c.id := by
  unfold Copy.deleteOne
  split
  · exact id_setIdent c n .deleted
  · rfl

theorem id_append {c d : Copy} {j : Nat} {x : Insert} (h : c.append j x = some d) : d.id = c.id := by
  unfold Copy.append at h
  split at h
  · cases h
  · dsimp only at h
    split at h
    · split at h
      · cases h; rfl
      · obtain ⟨n, -, rfl⟩ := Option.map_eq_some_iff.mp h; rfl
    · obtain ⟨n, -, rfl⟩ := Option.map_eq_some_iff.mp h; rfl

theorem id_insertOne {c d : Copy} {x : Insert} (h : c.insertOne x = some d) : d.id = c.id := by
  obtain ⟨e, he, rfl⟩ := Option.map_eq_some_iff.mp h
  have step := id_setIdent (e.setField (e.region 6 + 8 * x.ident) 8 x.word) x.ident .live
  exact step.trans ((id_append he :) : e.id = c.id)

theorem id_insertAll {c d : Copy} {xs : List Insert} {r : Option Nat} (h : c.insertAll xs = (d, r)) : d.id = c.id := by
  induction xs generalizing c with
  | nil => cases h; rfl
  | cons x t ih =>
    rw [Copy.insertAll] at h
    split at h
    · next e he => exact (ih h).trans (id_insertOne he)
    · cases h; rfl

/-! ### INSERT_CODES, DELETE_CODES, COMPACT_INDEX, DELETE_INDEX -/

/-- How INSERT_CODES ends: with the index that its entries give, or with the list that has no room (R287, R288). -/
def State.endInserts (s : State) (u : Nat) (r : Copy × Option Nat) : State :=
  match r with
  | (_, some j) => s.complete u { status := .compactionRequired, result0 := j }
  | (y, none) => (s.keepCopy y).complete u { status := .ok }

/-- A copy whose full compaction a command waits for (R310). -/
def Copy.startFull (u : Nat) (x : Copy) : Copy :=
  { x with index := { x.index with
      full := some (x.index.full.getD (0, 0))
      byCommand := x.index.byCommand || x.index.full.isNone
      waiting := x.index.waiting ++ [u] } }

section
variable {s : State} {u : Nat} {c : Cmd} {o : Obj} {x : Copy}

/-- What INSERT_CODES does with entries that nothing of R287 refuses. -/
theorem exec_insertCodes (hi : s.indexOf c.object = some (o, x)) (hf : s.changesFirst c = false) (hr : Runs s u 0x23 c)
    (len : c.payload.length = c.p1 * (24 + x.codeBytes)) (zero : ∀ e ∈ parseInserts x.codeBytes c.payload, e.zero = 0)
    (free : ∀ e ∈ parseInserts x.codeBytes c.payload, e.ident < x.identCap ∧ x.ident e.ident = .free)
    (nodup : ((parseInserts x.codeBytes c.payload).map (fun e => e.ident)).Nodup)
    (lists : ∀ e ∈ parseInserts x.codeBytes c.payload, e.list < x.lists) {r : Copy × Option Nat}
    (all : x.insertAll (parseInserts x.codeBytes c.payload) = r)
    (media : r.2 = none → s.mediaHolds x r.1 (x.grown r.1) = true ∧ s.logsFit x r.1 = true) :
    exec (.insertCodes u) s = .next (s.endInserts u r).settle := by
  show execInsertCodes u s = _
  rw [execInsertCodes, beginChain_runs hr, onCmd_runs hr, hi]
  dsimp only
  have noZero : (parseInserts x.codeBytes c.payload).any (fun e => e.zero != 0) = false :=
    List.any_eq_false.mpr fun e he => by simp [zero e he]
  have allFree : (parseInserts x.codeBytes c.payload).any
      (fun e => decide (x.identCap ≤ e.ident) || x.ident e.ident != .free) = false :=
    List.any_eq_false.mpr fun e he => by simp [(free e he).1, (free e he).2]
  have known : (parseInserts x.codeBytes c.payload).any (fun e => decide (x.lists ≤ e.list)) = false :=
    List.any_eq_false.mpr fun e he => by simpa using lists e he
  rw [if_neg (by simp [hf]), if_neg (by simp [len, noZero]), if_neg (by simp [allFree, nodup]), if_neg (by simp [known]),
    all, ← uid_of_cmd? hr.1]
  match r, media with
  | (_, some j), _ => rfl
  | (y, none), media =>
    obtain ⟨holds, fits⟩ := media rfl
    dsimp only
    rw [if_neg (by simp [holds]), if_neg (by simp [fits])]
    rfl

theorem codesDeleted (hi : s.indexOf c.object = some (o, x)) (hf : s.changesFirst c = false) (hr : Runs s u 0x24 c)
    {ids : List Nat} (hids : (List.range (c.payload.length / 8)).map (fun i => fieldAt c.payload (8 * i) 8) = ids)
    (known : ∀ k ∈ ids, k < x.identCap) (holds : s.mediaHolds x (ids.foldl Copy.deleteOne x) [] = true)
    (fits : s.logsFit x (ids.foldl Copy.deleteOne x) = true) :
    exec (.deleteCodes u) s =
      .next (((s.keepCopy (ids.foldl Copy.deleteOne x)).complete u { status := .ok }).settle) := by
  obtain ⟨hc, hop, hm, ha⟩ := id hr
  simp only [State.mayBegin, Bool.and_eq_true, Bool.not_eq_true', Option.isNone_iff_eq_none] at hm
  obtain ⟨⟨⟨fin, verdict⟩, whole⟩, fence⟩ := hm
  have inside : ids.any (fun n => decide (x.identCap ≤ n)) = false :=
    List.any_eq_false.mpr fun k hk => by simpa using known k hk
  show execDeleteCodes u s = _
  rw [execDeleteCodes, beginChain_runs hr, hc]
  dsimp only
  rw [if_pos ⟨hop, whole, fin, fence, ha⟩, State.deleteCodes, hi]
  dsimp only
  rw [if_neg (by simp [hf]), hids, if_neg (by simp [inside]), if_neg (by simp [holds]), if_neg (by simp [fits]), verdict,
    ← uid_of_cmd? hc]
  rfl

theorem compactionStarts (hi : s.indexOf c.object = some (o, x)) (hf : s.changesFirst c = false) (hr : Runs s u 0x25 c)
    (hu : u ∉ x.index.waiting) (first : s.compactFirst c = false) {z : Copy} (hz : s.copy? x.id = some z) :
    ∃ (t : State) (y : Copy), exec (.compactIndex u) s = .next t ∧ t.copy? x.id = some y ∧
      y = { z with index := { z.index with
        full := some (z.index.full.getD (0, 0))
        byCommand := z.index.byCommand || z.index.full.isNone
        waiting := z.index.waiting ++ [u] } } ∧
      t.objs = s.objs ∧ t.cores = s.cores ∧ t.jobs = s.jobs := by
  obtain rfl := uid_of_cmd? hr.1
  refine ⟨((s.modCmd c.uid (fun c => { c with begun := true })).modCopy x.id (Copy.startFull c.uid)).settle,
    z.startFull c.uid, ?_, ?_, rfl, ?_, ?_, ?_⟩
  · show execCompactIndex c.uid s = _
    rw [execCompactIndex, onCmd_runs hr, hi]
    dsimp only
    rw [if_neg (by simpa using hu), if_neg (by simp [first]), if_neg (by simp [hf])]
    rfl
  · rw [State.copy?, settle_copies]
    refine (copy?_modCopy _ x.id x.id (Copy.startFull c.uid) (fun _ => rfl)).trans ?_
    rw [if_pos rfl]
    exact congrArg (Option.map _) hz
  · rw [settle_objs]; rfl
  · rw [settle_cores]; rfl
  · rw [settle_jobs]; rfl

theorem indexDeleted (hi : s.indexOf c.object = some (o, x)) (hr : Runs s u 0x26 c) (h0 : c.progress = 0)
    (hu : s.objectInUse c = false) (hx : x.compacting = false) (hp : s.promoting o.copy = false) (hn : NoneParked s) :
    ∃ t w : State, exec (.deleteIndex u) s = .next t ∧ Ends w u { status := .ok } t ∧
      w.objs = s.objs.filter (fun x => x.handle != c.object) ∧
      (w.objs.any (fun x => x.kind != .volume && x.copy == o.copy) = false →
        w.copies = s.copies.filter (fun x => x.id != o.copy) ∧ ∀ k ∈ w.sec.keyTable, k.copy ≠ some o.copy) ∧
      w.cores = s.cores ∧ w.jobs = s.jobs := by
  obtain rfl := uid_of_cmd? hr.1
  obtain ⟨ho, kind, -⟩ := copy_of_indexOf hi
  have run : exec (.deleteIndex c.uid) s = .next (((s.removed c.uid o).complete c.uid { status := .ok }).settle) := by
    show execDeleteIndex c.uid s = _
    rw [execDeleteIndex, onCmd_runs hr, if_neg (by simp [h0]), hi]
    dsimp only
    rw [if_neg (by simp [hu]), if_neg (by simp [hx]), remove_ends hp hn]
    rfl
  obtain ⟨objs, sec, cores, jobs, -, dropped⟩ := removed_drops s c.uid o
  refine ⟨_, s.removed c.uid o, run, rfl, ?_, fun last => ?_, cores, jobs⟩
  · rw [objs, dropObject_objs, handle_of_obj? ho]
  · rw [objs] at last
    have keys := keys_dropLast (s := s) (o := o) (by rw [kind]; decide)
    rw [show s.shares o = false from last] at keys
    rw [sec]
    exact ⟨(dropped last).1, keys⟩
end

/-- Settles O43, command by command. -/
theorem indexCommands : Obligations.IndexCommands := by
  intro s u n c
  refine ⟨fun q hr hq he => ⟨fun f hf => buildIndexRefused hr hq he hf, ?_⟩, fun o x hi => ⟨fun hf => ⟨?_, ?_, ?_⟩, ?_⟩⟩
  · intro b hf hw claim fresh room hn
    exact buildIndexStores hr hq he hf hw claim fresh room hn
  · intro xs hr len zero free nodup lists
    obtain ⟨-, -, z, hz, -, -⟩ := copy_of_indexOf hi
    refine ⟨fun y all holds fits => ?_, fun y j all => ?_⟩
    · have run := exec_insertCodes hi hf hr len zero free nodup lists all (fun _ => ⟨holds, fits⟩)
      obtain ⟨link, cores, jobs, objs, -⟩ := keepCopy_keeps s y
      exact ⟨_, s.keepCopy y, run, rfl, rewrites_keepCopy hz (id_insertAll all), objs, cores, jobs, link⟩
    · exact ⟨_, exec_insertCodes hi hf hr len zero free nodup lists all (fun h => by cases h), rfl⟩
  · intro ids y hr known holds fits
    obtain ⟨-, -, z, hz, -, -⟩ := copy_of_indexOf hi
    have run := codesDeleted hi hf hr rfl known holds fits
    obtain ⟨link, cores, jobs, objs, -⟩ := keepCopy_keeps s y
    have same : y.id = x.id := List.foldlRecOn (motive := fun d : Copy => d.id = x.id) ids _ rfl
      (fun d hd k _ => (id_deleteOne d k).trans hd)
    exact ⟨_, s.keepCopy y, run, rfl, rewrites_keepCopy hz same, objs, cores, jobs, link⟩
  · intro z hr hu first hz
    exact compactionStarts hi hf hr hu first hz
  · intro hr h0 hu hx hp hn
    exact indexDeleted hi hr h0 hu hx hp hn

end Sys2Proof.Machine
end

section
/-!
SUPPORT. Compaction of an index: its lists, their commit and its start (R307 to R310).
-/
namespace Sys2Proof.Machine
open Sys2Proof.Safety

/-! ### What compaction leaves alone -/

theorem id_defer (c : Copy) (j : Nat) : (c.defer j).id = c.id := by
  unfold Copy.defer
  split <;> rfl

theorem id_ite {p : Prop} [Decidable p] {a b c : Copy} (ha : a.id = c.id) (hb : b.id = c.id) :
    (if p then a else b).id = c.id := by
  split
  · exact ha
  · exact hb

theorem id_compactList (s : State) (c : Copy) (j : Nat) : (s.compactList c j).id = c.id := by
  unfold State.compactList
  refine id_ite (id_defer c j) ?_
  split
  · exact id_defer c j
  · exact id_ite rfl (id_defer c j)

/-- A full compaction with lists to come does not end. -/
theorem endCompaction_lists {s : State} {id next n : Nat} {c : Copy} (hc : s.copy? id = some c)
    (hf : c.index.full = some (next, n)) (more : next < c.lists) : s.endCompaction id = s := by
  rw [State.endCompaction, hc]
  dsimp only
  rw [hf]
  exact if_pos (.inl more)

theorem lists_of_unplaced {x y : Copy} (h : x = { y with t2 := x.t2, t3 := x.t3 }) :
    x.lists = y.lists ∧ x.index = y.index :=
  ⟨(congrArg Copy.lists h :), (congrArg Copy.index h :)⟩

/-- The list that a full compaction rewrites next (R307). -/
def State.rewritten (s : State) (x : Copy) (j k : Nat) : Copy :=
  let y := if x.listRetired j then x else s.compactList (s.freed x) j
  { y with index := { y.index with full := some (j + 1, k) } }

theorem id_rewritten (s : State) (x : Copy) (j k : Nat) : (s.rewritten x j k).id = x.id := by
  show Copy.id (ite _ _ _) = _
  split
  · rfl
  · exact id_compactList s (s.freed x) j

theorem listRewritten {s : State} {x : Copy} (hx : s.copy? x.id = some x) (hm : s.mediaRuns = true)
    (hp : s.hw.pstate = .active) {j k : Nat} (hf : x.index.full = some (j, k)) (hj : j < x.lists)
    (more : j + 1 < (s.rewritten x j k).lists) :
    ∃ t : State, exec (.listCompaction x.id j) s = .next t ∧ t.cores = s.cores ∧ t.jobs = s.jobs ∧ t.objs = s.objs ∧
      Rewrites s t x (s.rewritten x j k) := by
  obtain ⟨⟨z, hz, same⟩, rest⟩ := rewrites_keepCopy (y := s.rewritten x j k) hx (id_rewritten s x j k)
  obtain ⟨-, cores, jobs, objs, -⟩ := keepCopy_keeps s (s.rewritten x j k)
  obtain ⟨lists, index⟩ := lists_of_unplaced same
  have goesOn := endCompaction_lists hz (by rw [index]; rfl) (by rw [lists]; exact more)
  have run : exec (.listCompaction x.id j) s = .next (((s.keepCopy (s.rewritten x j k)).endCompaction x.id).settle) := by
    show execListCompaction x.id j s = _
    rw [execListCompaction, hx]
    dsimp only
    rw [hf]
    dsimp only
    rw [if_neg (by simp [hm, hp, hj])]
    rfl
  rw [goesOn] at run
  refine ⟨_, run, ?_, ?_, ?_, ⟨z, ?_, same⟩, fun i away => ?_⟩
  · rw [settle_cores, cores]
  · rw [settle_jobs, jobs]
  · rw [settle_objs, objs]
  · rw [State.copy?, settle_copies]; exact hz
  · rw [State.copy?, settle_copies]; exact rest i away

/-! ### The steward's commit (R308) -/

/-- What committing lists leaves alone. -/
structure SameJobs (s t : State) : Prop where
  cores : t.cores = s.cores
  jobs : t.jobs = s.jobs
  objs : t.objs = s.objs

theorem SameJobs.trans {s t w : State} (h : SameJobs s t) (g : SameJobs t w) : SameJobs s w :=
  ⟨g.cores.trans h.cores, g.jobs.trans h.jobs, g.objs.trans h.objs⟩

theorem sameJobs_keepCopy (s : State) (y : Copy) : SameJobs s (s.keepCopy y) := by
  obtain ⟨-, cores, jobs, objs, -⟩ := keepCopy_keeps s y
  exact ⟨cores, jobs, objs⟩

theorem sameJobs_endCompaction (s : State) (id : Nat) : SameJobs s (s.endCompaction id) := by
  unfold State.endCompaction
  split
  · exact ⟨rfl, rfl, rfl⟩
  · split
    · exact ⟨rfl, rfl, rfl⟩
    · split
      · exact ⟨rfl, rfl, rfl⟩
      · exact (sameJobs_keepCopy s _).trans
          ⟨completeAll_cores _ _ _, completeAll_jobs _ _ _, completeAll_objs _ _ _⟩

/-- Forwarding chains are shortened in the window alone. -/
theorem shortened_keeps (c : Copy) (ls : List Nat) :
    (ls.foldl (fun c j => if c.tomb j then c.setField (c.nodeAt j + 4) 4 (c.resolve j).1 else c) c).id = c.id ∧
    (ls.foldl (fun c j => if c.tomb j then c.setField (c.nodeAt j + 4) 4 (c.resolve j).1 else c) c).index = c.index := by
  refine List.foldlRecOn (motive := fun d : Copy => d.id = c.id ∧ d.index = c.index) ls _ ⟨rfl, rfl⟩ fun d hd j _ => ?_
  split
  · exact hd
  · exact hd

/-- The end of a compaction takes no ready list away. -/
theorem ready_endCompaction {s : State} {id : Nat} {c : Copy} (hc : s.copy? id = some c) :
    ∃ y : Copy, (s.endCompaction id).copy? id = some y ∧ y.index.ready = c.index.ready := by
  have own : c.id = id := by simpa using List.find?_some hc
  unfold State.endCompaction
  rw [hc]
  dsimp only
  split
  · exact ⟨c, hc, rfl⟩
  · split
    · exact ⟨c, hc, rfl⟩
    · obtain ⟨same, index⟩ := shortened_keeps c (List.range c.lists)
      generalize List.foldl _ _ _ = d at same index ⊢
      obtain ⟨⟨z, hz, e⟩, -⟩ := rewrites_keepCopy (x := c) (own ▸ hc)
        (y := { d.bump8 0x98 1 with index := { (d.bump8 0x98 1).index with full := none, waiting := [], byCommand := false } })
        same
      refine ⟨z, ?_, ?_⟩
      · rw [State.copy?, completeAll_copies, ← own]; exact hz
      · rw [(lists_of_unplaced e).2, ← index]; rfl

theorem id_retire (c : Copy) (j : Nat) : (c.retire j).id = c.id := by
  unfold Copy.retire
  exact id_ite rfl (id_ite rfl rfl)

theorem id_setIdents (c : Copy) (ns : List Nat) (st : Ident) : (ns.foldl (fun c n => c.setIdent n st) c).id = c.id :=
  List.foldlRecOn (motive := fun d : Copy => d.id = c.id) ns _ rfl fun d hd n _ => (id_setIdent d n st).trans hd

theorem id_commit (c : Copy) (r : ReadyList) (waits : List Nat) : (c.commit r waits).id = c.id := by
  have retired : ∀ (d : Copy) (p : Prop) [Decidable p] (j : Nat), (if p then d.retire j else d).id = d.id :=
    fun d p _ j => id_ite (id_retire d j) rfl
  have counted : ∀ (d : Copy) (p : Prop) [Decidable p], (if p then d.bump4 0x8C (-1) else d).id = d.id :=
    fun d p _ => id_ite rfl rfl
  unfold Copy.commit
  exact (retired _ _ _).trans ((counted _ _).trans (id_setIdents _ _ .retired))

/-- The release of identifiers changes windows and the lists of RETIRED identifiers. -/
theorem releaseIdents_copies (s : State) : ∃ g : Copy → Copy,
    (∀ c, (g c).id = c.id ∧ (g c).index.ready = c.index.ready) ∧ s.releaseIdents.copies = s.copies.map g := by
  refine ⟨_, fun c => ?_, rfl⟩
  split
  · have idents : ∀ rs : List Retired, (rs.foldl (fun c r => c.setIdent r.ident .free) c).id = c.id ∧
        (rs.foldl (fun c r => c.setIdent r.ident .free) c).index.ready = c.index.ready := fun rs =>
      List.foldlRecOn (motive := fun d : Copy => d.id = c.id ∧ d.index.ready = c.index.ready) rs _ ⟨rfl, rfl⟩
        fun d hd r _ => hd
    exact ⟨(idents _).1, (idents _).2⟩
  · exact ⟨rfl, rfl⟩

/-- Freeing what nothing references any more takes no ready list away. -/
theorem ready_freed {s : State} {id : Nat} {c : Copy} (hc : s.copy? id = some c) :
    ∃ y : Copy, (s.releaseIdents.freeSpace id).copy? id = some y ∧ y.index.ready = c.index.ready := by
  obtain ⟨g, hg, e⟩ := releaseIdents_copies s
  have found : s.releaseIdents.copy? id = some (g c) := by
    rw [State.copy?, e, List.find?_map]
    refine congrArg (Option.map g) (.trans ?_ hc)
    exact congrArg (fun p => s.copies.find? p) (funext fun x => by rw [Function.comp_apply, (hg x).1])
  refine ⟨s.releaseIdents.freed (g c), ?_, (hg c).2⟩
  refine (copy?_modCopy s.releaseIdents id id s.releaseIdents.freed (fun _ => rfl)).trans ?_
  rw [if_pos rfl, found]
  rfl

/-- The steward's commit takes the first ready lists, and moves no job (R308). -/
theorem ready_commitReady {s : State} {id : Nat} {c : Copy} (hc : s.copy? id = some c) :
    SameJobs s (s.commitReady id).1 ∧
      ∃ y : Copy, (s.commitReady id).1.copy? id = some y ∧ y.index.ready = c.index.ready.drop 4096 := by
  have own : c.id = id := by simpa using List.find?_some hc
  unfold State.commitReady
  rw [hc]
  dsimp only
  have same : ((c.index.ready.take 4096).foldl (fun d r => d.commit r (s.indexRequests id)) c).id = c.id :=
    List.foldlRecOn (motive := fun d : Copy => d.id = c.id) _ _ rfl fun d hd r _ => (id_commit d r _).trans hd
  generalize List.foldl _ _ _ = d at same ⊢
  obtain ⟨⟨z, hz, e⟩, -⟩ := rewrites_keepCopy (x := c) (own ▸ hc)
    (y := { d with index := { d.index with
      ready := c.index.ready.drop 4096
      full := c.index.full.map (fun f => (f.1, f.2 + (c.index.ready.take 4096).length)) } }) same
  have kept := sameJobs_keepCopy s { d with index := { d.index with
      ready := c.index.ready.drop 4096
      full := c.index.full.map (fun f => (f.1, f.2 + (c.index.ready.take 4096).length)) } }
  generalize State.keepCopy _ _ = w at hz kept ⊢
  rw [own] at hz
  obtain ⟨y, hy, ey⟩ := ready_freed hz
  obtain ⟨v, hv, ev⟩ := ready_endCompaction hy
  refine ⟨kept.trans (.trans (t := w.releaseIdents.freeSpace id) ⟨rfl, rfl, rfl⟩
    (sameJobs_endCompaction (w.releaseIdents.freeSpace id) id)), v, hv, ?_⟩
  rw [ev, ey, (lists_of_unplaced e).2]

theorem listsCommitted {s : State} {x : Copy} (hx : s.copy? x.id = some x) (hm : s.mediaRuns = true)
    (hp : s.hw.pstate = .active) (hr : x.index.ready ≠ [])
    (idle : ∀ j ∈ s.jobs, j.onCores = true → j.slate.kind = 2 → j.slate.index ≠ 0 →
      (s.obj? j.slate.index).any (fun o => o.copy == x.id) = false) :
    ∃ t y, exec (.stewardListCommit x.id) s = .next t ∧ t.copy? x.id = some y ∧
      y.index.ready = x.index.ready.drop 4096 ∧ t.cores = s.cores ∧ t.jobs = s.jobs ∧ t.objs = s.objs := by
  obtain ⟨same, y, hy, ready⟩ := ready_commitReady hx
  have quiet : s.jobs.any (fun j => j.onCores && j.slate.kind == 2 && j.slate.index != 0 &&
      ((s.obj? j.slate.index).any (fun o => o.copy == x.id))) = false := by
    refine List.any_eq_false.mpr fun j hj => ?_
    simp only [Bool.and_eq_true, beq_iff_eq, bne_iff_ne, not_and, Bool.not_eq_true]
    rintro ⟨⟨on, kind⟩, index⟩
    exact idle j hj on kind index
  have run : exec (.stewardListCommit x.id) s = .next (s.commitReady x.id).1.settle := by
    show execStewardListCommit x.id s = _
    rw [execStewardListCommit, hx, quiet]
    dsimp only
    rw [if_neg (by simp [hm, hp, hr])]
  refine ⟨_, y, run, ?_, ready, ?_, ?_, ?_⟩
  · rw [State.copy?, settle_copies]; exact hy
  · rw [settle_cores, same.cores]
  · rw [settle_jobs, same.jobs]
  · rw [settle_objs, same.objs]

theorem compactionDue {s : State} {x : Copy} (hx : s.copy? x.id = some x) (hm : s.mediaRuns = true)
    (hp : s.hw.pstate = .active) (hk : x.kind = .index) (hc : x.compacting = false)
    (due : x.field 0x80 8 ≠ 0 ∧ 3 * (x.field 0x20 4 * 128) ≤ 4 * x.field 0x80 8 ∨
      x.field 0x78 8 ≠ 0 ∧ x.field 0x70 8 ≤ 16 * x.field 0x78 8) :
    exec (.autoCompaction x.id) s =
      .next (s.modCopy x.id (fun x => { x with index := { x.index with full := some (0, 0) } })) := by
  show execAutoCompaction x.id s = _
  rw [execAutoCompaction, hx]
  exact if_pos (by simpa [hm, hp, hk, hc] using due)

/-- Settles O44: a list, the steward's commit, the start. -/
theorem indexesCompact : Obligations.IndexesCompact := by
  intro s x hx hm hp
  exact ⟨fun j k hf hj more => listRewritten hx hm hp hf hj more, fun hr idle => listsCommitted hx hm hp hr idle,
    fun hk hc due => compactionDue hx hm hp hk hc due⟩

end Sys2Proof.Machine
end

section
/-!
SUPPORT. Commands of jobs and the start of a job (R60, R90 to R95, R103, R109 to R112).
-/
namespace Sys2Proof.Machine
open Sys2Proof.Safety

/-! ### SUBMIT_JOB (R60, R90 to R94) -/

section
variable {s : State} {u ctx : Nat} {c : Cmd} {q : Queue}

theorem exec_submitJob (hr : Runs s u 0x30 c) (hj : ∀ j ∈ s.jobs, j.submit ≠ some u) (lt : ctx < 4096)
    (free : s.job? ctx = none) : exec (.submitJob u ctx) s = .next (s.loadJob c ctx).settle := by
  obtain rfl := uid_of_cmd? hr.1
  have fresh : s.jobs.any (fun j => j.submit == some c.uid) = false :=
    List.any_eq_false.mpr fun j hm => by simpa using hj j hm
  show execSubmitJob c.uid ctx s = _
  rw [execSubmitJob, onCmd_runs hr]
  rw [if_neg (by simp [fresh]), if_neg (by simp [free]; omega)]

theorem jobRefused (hr : Runs s u 0x30 c) (hj : ∀ j ∈ s.jobs, j.submit ≠ some u) (lt : ctx < 4096)
    (free : s.job? ctx = none) (hq : s.queue? c.queue = some q) {r : Nat}
    (reason : s.submitReason q.pod c.payload (s.jobOf q.pod ctx u c.payload) = some r) :
    ∃ t : State, exec (.submitJob u ctx) s = .next t ∧ Ends s u { status := .badPacket, result1 := r } t := by
  refine ⟨_, exec_submitJob hr hj lt free, ?_⟩
  rw [State.loadJob, hq]
  dsimp only
  rw [uid_of_cmd? hr.1, reason, ← uid_of_cmd? hr.1]
  rfl

theorem jobLoaded (hr : Runs s u 0x30 c) (hj : ∀ j ∈ s.jobs, j.submit ≠ some u) (lt : ctx < 4096)
    (free : s.job? ctx = none) (hq : s.queue? c.queue = some q)
    (reason : s.submitReason q.pod c.payload (s.jobOf q.pod ctx u c.payload) = none) :
    ∃ (t : State) (h k : Nat), exec (.submitJob u ctx) s = .next t ∧ h / 2 ^ 56 = 4 ∧ h % 4096 = ctx ∧
      t.jobs = s.jobs ++ [{ s.jobOf q.pod ctx u c.payload with handle := h, readyAt := k }] ∧ t.cores = s.cores ∧
      t.objs = s.objs ∧ t.copies = s.copies := by
  have run := exec_submitJob hr hj lt free
  rw [State.loadJob, hq] at run
  dsimp only at run
  rw [uid_of_cmd? hr.1, reason] at run
  dsimp only at run
  have names := newHandle_names s (kind := 4) lt
  have off := keeps_of_offPages (offPages_fitShare s.pages.length ((State.later { (s.newHandle 4 ctx).2 with
    jobs := s.jobs ++ [{ s.jobOf q.pod ctx u c.payload with handle := (s.newHandle 4 ctx).1, readyAt := s.clock + 1 }] }).modCmd u
      (fun c => { c with begun := true })) q.pod)
  refine ⟨_, _, s.clock + 1, run, names.1, names.2, ?_, ?_, ?_, ?_⟩
  · rw [settle_jobs]; exact off.2.2.1
  · rw [settle_cores]; exact off.2.1
  · rw [settle_objs]; exact off.2.2.2.1
  · rw [settle_copies]; exact off.2.2.2.2.2
end

/-! ### INVOKE and SEARCH (R103, R111, R112) -/

/-- A request takes its place in fetch order. -/
theorem mem_insertRequest {u v : Nat} {l : List Nat} : v ∈ insertRequest u l ↔ v = u ∨ v ∈ l := by
  induction l with
  | nil => simp [insertRequest]
  | cons x t ih =>
    rw [insertRequest]
    split
    · simp
    · simp only [List.mem_cons, ih]; tauto

section
variable {s : State} {u : Nat} {c : Cmd} {j : Job}

theorem exec_request (hh : s.jobByHandle? c.object = some j) {row : Instr × Nat}
    (mem : row ∈ [(Instr.invoke u, 0x31), (.search u, 0x32)]) (hr : Runs s u row.2 c) :
    exec row.1 s = .next (s.request c j).settle := by
  simp only [List.mem_cons, List.not_mem_nil, or_false] at mem
  rcases mem with rfl | rfl
  · show execInvoke u s = _
    rw [execInvoke, onCmd_runs hr, hh]
  · show execSearch u s = _
    rw [execSearch, onCmd_runs hr, hh]

theorem requestWaits (hj : s.job? j.ctx = some j) (hh : s.jobByHandle? c.object = some j) {row : Instr × Nat}
    (mem : row ∈ [(Instr.invoke u, 0x31), (.search u, 0x32)]) (hr : Runs s u row.2 c) (hs : j.state ≠ .ended)
    (hc : j.closing = false) (hp : u ∉ j.pendingReqs) (hb : ∀ b ∈ j.batch, b.uid ≠ u) :
    ∃ (t : State) (j' : Job), exec row.1 s = .next t ∧ t.job? j.ctx = some j' ∧
      j' = { j with pendingReqs := j'.pendingReqs, rail := j'.rail, acct := j'.acct } ∧
      (∀ v, v ∈ j'.pendingReqs ↔ v = u ∨ v ∈ j.pendingReqs) ∧ t.cores = s.cores ∧ t.objs = s.objs := by
  obtain rfl := uid_of_cmd? hr.1
  have run := exec_request hh mem hr
  have new : ¬ (j.pendingReqs.contains c.uid ∨ j.batch.any (fun b => b.uid == c.uid)) := by
    rintro (h | h)
    · exact hp (List.contains_iff_mem.mp h)
    · obtain ⟨b, hb', e⟩ := List.any_eq_true.mp h
      exact hb b hb' (beq_iff_eq.mp e)
  rw [State.request, if_neg hs, if_neg (by simp [hc]), if_neg new] at run
  refine ⟨_, { j with
    pendingReqs := insertRequest c.uid j.pendingReqs
    rail := { j.rail with host := j.rail.host + (c.payload.length + 64 * c.nextIndex) }
    acct := { j.acct with hostLinkBytes := j.acct.hostLinkBytes + (c.payload.length + 64 * c.nextIndex) } },
    run, ?_, rfl, fun v => mem_insertRequest, ?_, ?_⟩
  · rw [job?_congr (settle_jobs _)]
    refine (job?_modJob _ _ _ _ (fun _ => by rfl)).trans ?_
    rw [if_pos rfl, hj]
    rfl
  · rw [settle_cores]; rfl
  · rw [settle_objs]; rfl

/-! ### RECLAIM and END_JOB (R109 to R111) -/

theorem readyJobReclaimed (hj : s.job? j.ctx = some j) (hh : s.jobByHandle? c.object = some j) (hr : Runs s u 0x33 c)
    (hu : ∀ r ∈ j.reclaims, r.1 ≠ u) (hs : j.state = .ready) (he : j.endJobs = []) :
    ∃ (t : State) (j' : Job), exec (.reclaim u) s = .next t ∧ t.job? j.ctx = some j' ∧ j'.state = .ended ∧
      j'.ended = { cause := 2 } ∧ j'.cores = [] := by
  obtain rfl := uid_of_cmd? hr.1
  have new : j.reclaims.any (fun r => r.1 == c.uid) = false := List.any_eq_false.mpr fun r hm => by simpa using hu r hm
  have run : exec (.reclaim c.uid) s = .next (s.reclaim c).settle := onCmd_runs hr s.reclaim
  rw [State.reclaim, hh] at run
  dsimp only at run
  rw [if_neg (by simp [hs]), if_neg (by simp [new]), if_pos hs] at run
  have found : ((s.modCmd c.uid (fun c => { c with begun := true })).modJob j.ctx (fun x => { x with
      reclaims := x.reclaims ++ [(c.uid, lookupD j.watches c.uid [])]
      watches := x.watches.filter (fun w => w.1 != c.uid) })).job? j.ctx = _ :=
    (job?_modJob _ _ _ _ (fun _ => by rfl)).trans ((if_pos rfl).trans (congrArg _ hj))
  have ended := job?_endJob found (fun e => absurd (hs.symm.trans e) (by decide)) he { cause := 2 } noPc
  exact ⟨_, _, run, (job?_congr (settle_jobs _) _).trans ended, rfl, rfl, rfl⟩

/-- The cores of a job whose counts restart keep their job and their place. -/
theorem windDown_cores (ms : List Nat) (s : State) (n : Nat) :
    ((ms.foldl (fun s m => s.modCore m (fun c => { c with windCycles := 0 })) s).core n).job = (s.core n).job ∧
      ((ms.foldl (fun s m => s.modCore m (fun c => { c with windCycles := 0 })) s).core n).pc = (s.core n).pc := by
  induction ms generalizing s with
  | nil => exact ⟨rfl, rfl⟩
  | cons m ms ih =>
    have one : ((s.modCore m (fun c => { c with windCycles := 0 })).core n).job = (s.core n).job ∧
        ((s.modCore m (fun c => { c with windCycles := 0 })).core n).pc = (s.core n).pc := by
      by_cases lt : m < s.cores.length
      · rw [core_modCore _ _ _ _ lt]
        split
        · next e => subst e; exact ⟨rfl, rfl⟩
        · exact ⟨rfl, rfl⟩
      · rw [State.modCore, State.setCore, List.set_eq_of_length_le (Nat.le_of_not_lt lt)]
        exact ⟨rfl, rfl⟩
    exact ⟨(ih _).1.trans one.1, (ih _).2.trans one.2⟩

theorem runningJobReclaimed (hj : s.job? j.ctx = some j) (hh : s.jobByHandle? c.object = some j) (hr : Runs s u 0x33 c)
    (hu : ∀ r ∈ j.reclaims, r.1 ≠ u) (hs : j.state = .running) :
    ∃ (t : State) (j' : Job), exec (.reclaim u) s = .next t ∧ t.job? j.ctx = some j' ∧ j'.state = .winding ∧
      j'.cores = j.cores ∧ (∃ x, j'.reclaims = j.reclaims ++ [(u, x)]) ∧
      ∀ n, (t.core n).job = (s.core n).job ∧ (t.core n).pc = (s.core n).pc := by
  obtain rfl := uid_of_cmd? hr.1
  have new : j.reclaims.any (fun r => r.1 == c.uid) = false := List.any_eq_false.mpr fun r hm => by simpa using hu r hm
  have run : exec (.reclaim c.uid) s = .next (s.reclaim c).settle := onCmd_runs hr s.reclaim
  rw [State.reclaim, hh] at run
  dsimp only at run
  rw [if_neg (by simp [hs]), if_neg (by simp [new]), if_neg (by simp [hs]), if_neg (by simp [hs])] at run
  set w := (s.modCmd c.uid (fun c => { c with begun := true })).modJob j.ctx (fun x => { x with
      reclaims := x.reclaims ++ [(c.uid, lookupD j.watches c.uid [])]
      watches := x.watches.filter (fun w => w.1 != c.uid) }) with hw
  have found : w.job? j.ctx = _ :=
    (job?_modJob _ _ _ _ (fun _ => by rfl)).trans ((if_pos rfl).trans (congrArg _ hj))
  set v := j.cores.foldl (fun s m => s.modCore m (fun c => { c with windCycles := 0 })) w
  have jobs : v.jobs = w.jobs := foldl_keeps State.jobs _ (fun _ _ => by rfl) _ _
  have wound := (job?_modJob v j.ctx j.ctx (fun j => { j with state := .winding }) (fun _ => by rfl)).trans
    ((if_pos rfl).trans (congrArg _ ((job?_congr jobs _).trans found)))
  have shown := (job?_showJob (v.modJob j.ctx (fun j => { j with state := .winding })) j.ctx j.ctx).trans
    ((if_pos rfl).trans (congrArg _ wound))
  refine ⟨_, _, run, (job?_congr (settle_jobs _) _).trans shown, rfl, rfl, ⟨_, rfl⟩, fun n => ?_⟩
  rw [State.core, settle_cores]
  exact windDown_cores j.cores w n

theorem exec_endJob (hh : s.jobByHandle? c.object = some j) (hr : Runs s u 0x34 c) (hu : u ∉ j.endJobs) :
    exec (.endJob u) s = .next (s.stopJob c).settle ∧
      s.stopJob c = (if j.state = .ended then
        ((s.modCmd u (fun c => { c with begun := true })).modJob j.ctx (fun j => { j with
          closing := true, endJobs := j.endJobs ++ [u], pendingReqs := [] }) |>.completeAll j.pendingReqs
            { status := .notBound }).collect j.ctx
        else ((s.modCmd u (fun c => { c with begun := true })).modJob j.ctx (fun j => { j with
          closing := true, endJobs := j.endJobs ++ [u], pendingReqs := [] }) |>.completeAll j.pendingReqs
            { status := .notBound }).releaseIdents) := by
  obtain rfl := uid_of_cmd? hr.1
  refine ⟨onCmd_runs hr s.stopJob, ?_⟩
  rw [State.stopJob, hh]
  dsimp only
  rw [if_neg (by simpa using hu)]

/-- What END_JOB leaves of the job's entry before it looks whether the job has ended. -/
theorem job?_closing (hj : s.job? j.ctx = some j) (u : Nat) (v : Verdict) :
    ((s.modCmd u (fun c => { c with begun := true })).modJob j.ctx (fun j => { j with
      closing := true, endJobs := j.endJobs ++ [u], pendingReqs := [] }) |>.completeAll j.pendingReqs v).job? j.ctx =
        some { j with closing := true, endJobs := j.endJobs ++ [u], pendingReqs := [] } :=
  (job?_congr (completeAll_jobs _ _ _) _).trans
    ((job?_modJob _ _ _ _ (fun _ => by rfl)).trans ((if_pos rfl).trans (congrArg _ hj)))

theorem admissionStops (hj : s.job? j.ctx = some j) (hh : s.jobByHandle? c.object = some j) (hr : Runs s u 0x34 c)
    (hu : u ∉ j.endJobs) (hs : j.state ≠ .ended) :
    ∃ (t : State) (j' : Job), exec (.endJob u) s = .next t ∧ t.job? j.ctx = some j' ∧
      j' = { j with closing := true, endJobs := j.endJobs ++ [u], pendingReqs := [] } ∧ t.cores = s.cores := by
  obtain ⟨run, stop⟩ := exec_endJob hh hr hu
  rw [stop, if_neg hs] at run
  refine ⟨_, _, run, (job?_congr (settle_jobs _) _).trans (job?_closing hj u { status := .notBound }), rfl, ?_⟩
  rw [settle_cores]
  exact completeAll_cores _ _ _

/-- Taking an ended job away frees nothing on the cores: it holds none. -/
theorem collect_cores (s : State) (ctx : Nat) : (s.collect ctx).cores = s.cores := by
  unfold State.collect
  split
  · rfl
  · split
    · rfl
    · exact (completeAll_cores _ _ _).trans (complete_cores _ _ _)

theorem endedJobTaken (hj : s.job? j.ctx = some j) (hh : s.jobByHandle? c.object = some j) (hr : Runs s u 0x34 c)
    (hu : u ∉ j.endJobs) (hs : j.state = .ended) :
    ∃ t : State, exec (.endJob u) s = .next t ∧ t.job? j.ctx = none ∧ t.cores = s.cores := by
  obtain ⟨run, stop⟩ := exec_endJob hh hr hu
  rw [stop, if_pos hs] at run
  refine ⟨_, run, (job?_congr (settle_jobs _) _).trans
    (job?_collect (job?_closing hj u { status := .notBound }) (by simp)), ?_⟩
  rw [settle_cores, collect_cores]
  exact completeAll_cores _ _ _

theorem endedJobAnswers (hh : s.jobByHandle? c.object = some j) {row : Instr × Nat}
    (mem : row ∈ [(Instr.invoke u, 0x31), (.search u, 0x32)]) (hr : Runs s u row.2 c) (hs : j.state = .ended) :
    ∃ t : State, exec row.1 s = .next t ∧ Ends s u (requestVerdict j.ended j.faultPc) t := by
  obtain rfl := uid_of_cmd? hr.1
  have run := exec_request hh mem hr
  rw [State.request, if_pos hs] at run
  exact ⟨_, run, rfl⟩

theorem closingJobRefuses (hh : s.jobByHandle? c.object = some j) {row : Instr × Nat}
    (mem : row ∈ [(Instr.invoke u, 0x31), (.search u, 0x32)]) (hr : Runs s u row.2 c) (hs : j.state ≠ .ended)
    (hc : j.closing = true) : ∃ t : State, exec row.1 s = .next t ∧ Ends s u { status := .notBound } t := by
  obtain rfl := uid_of_cmd? hr.1
  have run := exec_request hh mem hr
  rw [State.request, if_neg hs, if_pos hc, fail_of_cmd? hr.1] at run
  exact ⟨_, run, rfl⟩
end

/-! ### The start of a job (R95) -/

/-- A page that is claimed changes the pages alone. -/
theorem claimPage_keeps {β : Type} (g : State → β) (hp : ∀ (s : State) p, g { s with pages := p } = g s) (s : State)
    (p ctx : Nat) (pg : Nat × Nat) : g (s.claimPage p ctx pg) = g s := by
  unfold State.claimPage
  split
  · exact modPage_keeps g hp _ _ _ _
  · split
    · exact modPage_keeps g hp _ _ _ _
    · split
      · rfl
      · split
        · exact modPage_keeps g hp _ _ _ _
        · exact (giveClaims_keeps g hp _ _).trans (modPage_keeps g hp _ _ _ _)

/-- Opening a storyboard's window asks for pages: the jobs and the cores stay. -/
theorem openWindow_keeps {β : Type} (g : State → β) (hp : ∀ (s : State) p, g { s with pages := p } = g s)
    (hc : ∀ s : State, g s.later = g s) (s : State) (ctx : Nat) (before : List (Nat × Nat)) :
    g (s.openWindow ctx before) = g s := by
  unfold State.openWindow
  split
  · rfl
  · exact (hp _ _).trans ((foldl_keeps g _ (fun s pg => claimPage_keeps g hp s _ _ pg) _ _).trans ((hp _ _).trans (hc s)))

section
variable (j : Job) (n kind : Nat)

/-- One core takes its place in a job. -/
def State.placeAt (s : State) (p : Nat × Nat) : State :=
  (s.wipeCore p.1).modCore p.1 (fun old => placedCore j n p.2 kind old)

theorem placeAt_cores (s : State) (p : Nat × Nat) (lt : p.1 < s.cores.length) :
    (s.placeAt j n kind p).cores = s.cores.set p.1 (placedCore j n p.2 kind (blankCore (s.core p.1))) := by
  have core : (s.wipeCore p.1).core p.1 = blankCore (s.core p.1) := by
    rw [State.core, wipeCore_cores, List.getD_eq_getElem?_getD, List.getElem?_set_self lt]
    rfl
  show (s.wipeCore p.1).cores.set p.1 (placedCore j n p.2 kind ((s.wipeCore p.1).core p.1)) = _
  rw [core, wipeCore_cores, List.set_set]

theorem core_placeAt (s : State) (p : Nat × Nat) (lt : p.1 < s.cores.length) (m : Nat) :
    (s.placeAt j n kind p).core m =
      if m = p.1 then placedCore j n p.2 kind (blankCore (s.core p.1)) else s.core m := by
  rw [State.core, placeAt_cores j n kind s p lt]
  exact core_setCore s p.1 m _ lt

theorem placeAt_jobs (s : State) (p : Nat × Nat) : (s.placeAt j n kind p).jobs = s.jobs :=
  wipeCore_keeps State.jobs (fun _ _ _ => rfl) (fun _ _ => rfl) (fun _ _ => rfl) (fun _ _ => rfl) s p.1

/-- The cores that take their places, each once, are placed; the others stay. -/
theorem core_placed (l : List (Nat × Nat)) (s : State) (once : (l.map Prod.fst).Nodup)
    (lt : ∀ p ∈ l, p.1 < s.cores.length) :
    (∀ p ∈ l, (l.foldl (State.placeAt j n kind) s).core p.1 = placedCore j n p.2 kind (blankCore (s.core p.1))) ∧
      ∀ m, m ∉ l.map Prod.fst → (l.foldl (State.placeAt j n kind) s).core m = s.core m := by
  induction l generalizing s with
  | nil => exact ⟨fun p hp => (nomatch hp), fun _ _ => rfl⟩
  | cons a l ih =>
    rw [List.map_cons, List.nodup_cons] at once
    have la := lt a List.mem_cons_self
    have step := core_placeAt j n kind s a la
    have len : (s.placeAt j n kind a).cores.length = s.cores.length := by
      rw [placeAt_cores j n kind s a la, List.length_set]
    obtain ⟨there, others⟩ := ih (s.placeAt j n kind a) once.2 (fun p hp => len ▸ lt p (List.mem_cons_of_mem _ hp))
    refine ⟨fun p hp => ?_, fun m hm => ?_⟩
    · rcases List.mem_cons.mp hp with rfl | hp
      · exact (others _ once.1).trans ((step _).trans (if_pos rfl))
      · have ne : p.1 ≠ a.1 := fun e => once.1 (e ▸ List.mem_map_of_mem hp)
        rw [List.foldl_cons, there p hp, step, if_neg ne]
    · rw [List.map_cons, List.mem_cons, not_or] at hm
      exact (others m hm.2).trans ((step m).trans (if_neg hm.1))
end

theorem placedCore_job (j : Job) (n rank kind : Nat) (old : Core) :
    (placedCore j n rank kind old).job = some j.ctx ∧ (placedCore j n rank kind old).rank = rank := by
  unfold placedCore
  split
  · exact ⟨rfl, rfl⟩
  · split
    · exact ⟨rfl, rfl⟩
    · exact ⟨rfl, rfl⟩

theorem placedCore_fresh {j : Job} (n rank kind : Nat) (old : Core) (h : j.lastCut = none) :
    (placedCore j n rank kind old).pc = j.slate.entry ∧ (placedCore j n rank kind old).cutKind = 3 ∧
      (placedCore j n rank kind old).sreg 1 = BitVec.ofNat 64 rank := by
  have e : placedCore j n rank kind old = freshCore j n rank (j.resolved.getD j.declared) 3 j.slate.entry 0 old := by
    rw [placedCore, h]
  rw [e]
  refine ⟨rfl, rfl, (Sparse.get_ofList _ _ _).trans ?_⟩
  rfl

section
variable {s : State} {j : Job} {ns : List Nat}

/-- The entry of a job that runs on the cores `ns`. -/
def Job.placedOn (j : Job) (s : State) (ns : List Nat) : Job :=
  { j with
    resolved := some (j.resolved.getD (if j.slate.cores = 0 then (s.podCores j.pod).length else j.slate.cores))
    state := .running, cores := ns, cursor := 0, idleWait := false
    budgetOut := false, submit := none, replayDue := false, shown := j.acct.engineCycles
    acct := { j.acct with runs := j.acct.runs + 1 } }

/-- Placing a job leaves its entry but for what its account counts, and places its cores in rank order. -/
theorem job?_placeJob (hj : s.job? j.ctx = some j) (kind : Nat) :
    ∃ acct rail, (s.placeJob j ns kind).job? j.ctx = some { j with acct := acct, rail := rail } ∧
      acct.runs = j.acct.runs := by
  have jobs : ((ns.zipIdx.foldl (State.placeAt j ns.length kind) s)).jobs = s.jobs :=
    foldl_keeps State.jobs _ (placeAt_jobs j ns.length kind) _ _
  refine ⟨_, _, (job?_modJob _ _ _ _ (fun _ => by rfl)).trans ((if_pos rfl).trans
    (congrArg (Option.map _) ((job?_congr jobs j.ctx).trans hj))), rfl⟩

theorem core_placeJob (kind : Nat) (once : ns.Nodup) (lt : ∀ n ∈ ns, n < s.cores.length) :
    (∀ r (h : r < ns.length), (s.placeJob j ns kind).core ns[r] =
      placedCore j ns.length r kind (blankCore (s.core ns[r]))) ∧
      ∀ m, m ∉ ns → (s.placeJob j ns kind).core m = s.core m := by
  obtain ⟨there, others⟩ := core_placed j ns.length kind ns.zipIdx s (by rwa [List.zipIdx_map_fst])
    (fun p hp => lt p.1 (List.fst_mem_of_mem_zipIdx hp))
  rw [List.zipIdx_map_fst] at others
  exact ⟨fun r h => there (ns[r], r) (List.mk_mem_zipIdx_iff_getElem?.mpr (List.getElem?_eq_getElem h)), others⟩

theorem startJob_places (hj : s.job? j.ctx = some j) (once : ns.Nodup) (lt : ∀ n ∈ ns, n < s.cores.length)
    (lost : s.recordLost j ns.length = false) :
    ∃ kind acct rail, (s.startJob j.ctx ns).job? j.ctx = some { j.placedOn s ns with acct := acct, rail := rail } ∧
      acct.runs = j.acct.runs + 1 ∧
      (∀ r (h : r < ns.length), (s.startJob j.ctx ns).core ns[r] =
        placedCore (j.placedOn s ns) ns.length r kind (blankCore (s.core ns[r]))) ∧
      ∀ m, m ∉ ns → (s.startJob j.ctx ns).core m = s.core m := by
  rw [State.startJob, hj]
  dsimp only
  rw [lost, if_neg Bool.false_ne_true]
  set kind := if j.replayDue then 2 else 1
  have entered : (s.modJob j.ctx (fun _ => j.placedOn s ns)).job? j.ctx = some (j.placedOn s ns) := job?_replace hj rfl
  obtain ⟨acct, rail, placed, runs⟩ := job?_placeJob (ns := ns) (j := j.placedOn s ns) entered kind
  obtain ⟨there, others⟩ := core_placeJob (s := s.modJob j.ctx (fun _ => j.placedOn s ns)) (j := j.placedOn s ns) kind once lt
  set w := (s.modJob j.ctx (fun _ => j.placedOn s ns)).placeJob (j.placedOn s ns) ns kind
  have jobs : (w.openWindow j.ctx []).jobs = w.jobs :=
    openWindow_keeps State.jobs (fun _ _ => rfl) (fun _ => rfl) w j.ctx []
  have cores : (w.openWindow j.ctx []).cores = w.cores :=
    openWindow_keeps State.cores (fun _ _ => rfl) (fun _ => rfl) w j.ctx []
  have same : ∀ t : State, t.jobs = w.jobs → t.cores = w.cores →
      ∃ kind acct rail, t.job? j.ctx = some { j.placedOn s ns with acct := acct, rail := rail } ∧
      acct.runs = j.acct.runs + 1 ∧
      (∀ r (h : r < ns.length), t.core ns[r] =
        placedCore (j.placedOn s ns) ns.length r kind (blankCore (s.core ns[r]))) ∧
      ∀ m, m ∉ ns → t.core m = s.core m := fun t ej ec =>
    ⟨kind, acct, rail, (job?_congr ej _).trans placed, runs,
      fun r h => (congrArg (fun l => l.getD ns[r] {}) ec).trans (there r h),
      fun m hm => (congrArg (fun l => l.getD m {}) ec).trans (others m hm)⟩
  show ∃ kind acct rail, State.job? (match j.submit with
    | some u => (w.openWindow j.ctx []).complete u { status := .ok, result0 := j.handle }
    | none => w.openWindow j.ctx []) j.ctx = _ ∧ _
  cases j.submit with
  | none => exact same _ jobs cores
  | some u => exact same _ ((complete_jobs _ _ _).trans jobs) ((complete_cores _ _ _).trans cores)

theorem jobStarts {cores : List (Fin 32)} (hj : s.job? j.ctx = some j) (ha : s.awake = true)
    (next : (s.nextJob j.pod).map (fun x => x.ctx) = some j.ctx) (once : cores.Nodup) (h32 : s.cores.length = 32)
    (free : ∀ n ∈ cores, n.val ∈ s.freeCoresOf j.pod) (lost : s.recordLost j cores.length = false)
    (len : cores.length = min (j.resolved.getD (if j.slate.cores = 0 then (s.podCores j.pod).length else j.slate.cores))
      (s.freeCoresOf j.pod).length) :
    ∃ (t : State) (j' : Job), exec (.jobStart j.ctx cores) s = .next t ∧ t.job? j.ctx = some j' ∧ j'.state = .running ∧
      j'.cores = cores.map (fun n => n.val) ∧ j'.acct.runs = j.acct.runs + 1 ∧ j'.submit = none ∧
      (∀ r (h : r < cores.length), (t.core cores[r].val).job = some j.ctx ∧ (t.core cores[r].val).rank = r ∧
        (j.lastCut = none → (t.core cores[r].val).pc = j.slate.entry ∧
          (t.core cores[r].val).cutKind = 3 ∧ (t.core cores[r].val).sreg 1 = BitVec.ofNat 64 r)) ∧
      ∀ m : Fin 32, m ∉ cores → t.core m.val = s.core m.val := by
  have onceNs : (cores.map (fun n => n.val)).Nodup := once.map Fin.val_injective
  have run : exec (.jobStart j.ctx cores) s = .next (s.startJob j.ctx (cores.map (fun n => n.val))).settle := by
    show execJobStart j.ctx cores s = _
    rw [execJobStart, hj]
    dsimp only
    rw [if_pos]
    refine ⟨ha, next, onceNs, List.all_eq_true.mpr fun m hm => ?_, by rw [List.length_map]; exact len⟩
    obtain ⟨n, hn, rfl⟩ := List.mem_map.mp hm
    exact List.contains_iff_mem.mpr (free n hn)
  obtain ⟨kind, acct, rail, job, runs, there, others⟩ := startJob_places (ns := cores.map (fun n => n.val)) hj onceNs
    (fun m hm => by obtain ⟨n, _, rfl⟩ := List.mem_map.mp hm; rw [h32]; exact n.isLt)
    (by rw [List.length_map]; exact lost)
  have core : ∀ m, (s.startJob j.ctx (cores.map (fun n => n.val))).settle.core m =
      (s.startJob j.ctx (cores.map (fun n => n.val))).core m :=
    fun m => congrArg (fun l => l.getD m {}) (settle_cores _)
  refine ⟨_, _, run, (job?_congr (settle_jobs _) _).trans job, rfl, rfl, runs, rfl, fun r h => ?_, fun m hm => ?_⟩
  · have placed := (core _).trans (there r (by rw [List.length_map]; exact h))
    rw [List.getElem_map] at placed
    rw [placed]
    exact ⟨(placedCore_job _ _ _ _ _).1, (placedCore_job _ _ _ _ _).2, fun e => placedCore_fresh _ _ _ _ e⟩
  · exact (core _).trans (others _ fun mem => hm (by
      obtain ⟨n, hn, e⟩ := List.mem_map.mp mem
      exact Fin.val_injective e ▸ hn))
end

/-- Settles O45, command by command. -/
theorem jobCommands : Obligations.JobCommands := by
  intro s u c
  refine ⟨fun ctx q hr hj lt free _ hq => ⟨fun r reason => jobRefused hr hj lt free hq reason,
    fun reason => jobLoaded hr hj lt free hq reason⟩, fun j hh hj => ⟨fun row mem hr => ⟨?_, ?_, ?_⟩, ?_, ?_⟩, ?_⟩
  · exact fun hs => endedJobAnswers hh mem hr hs
  · exact fun hs hc => closingJobRefuses hh mem hr hs hc
  · exact fun hs hc hp hb => requestWaits hj hh mem hr hs hc hp hb
  · exact fun hr hu => ⟨fun hs he => readyJobReclaimed hj hh hr hu hs he, fun hs => runningJobReclaimed hj hh hr hu hs⟩
  · exact fun hr hu => ⟨fun hs => admissionStops hj hh hr hu hs, fun hs => endedJobTaken hj hh hr hu hs⟩
  · exact fun j cores hj ha next once h32 free lost len => jobStarts hj ha next once h32 free lost len

end Sys2Proof.Machine
end

section
/-!
SUPPORT. The end of an overrun region (R107, R108).
-/
namespace Sys2Proof.Machine
open Sys2Proof.Safety

/-- A job that has ended, whose entry still says that its budget is out and that it is in a region. -/
def endedInRegion : Job := { pageJob with
  slate := { pageJob.slate with overrunLimit := 1 }, state := .ended, budgetOut := true, region := true }

/-- A module that keeps the entry of that job. -/
def keepsEnded : State := { State.reset with
  hw := { phase := .running, perst := false, started := true, startStep := 7 }
  jobs := [endedInRegion], cores := { job := some 5 } :: List.replicate 31 {} }

/-- What the end of the region leaves of that job's end. -/
theorem regionEnd_keepsEnd :
    (match exec (.regionEnd 5 2) keepsEnded with | .next t => (t.job? 5).map Job.ended | _ => none) = some {} := by
  decide

/-- Refutes O46: a job that has ended stays as it is when a region of it ends past its overrun limit; it does not fail
a second time. The statement asks for BUDGET_OVERRUN of any job whose entry says that it is in a region. -/
theorem not_budgetsEnd : ¬ Obligations.BudgetsEnd := by
  intro h
  obtain ⟨-, -, -, region⟩ := h keepsEnded 0 endedInRegion (by decide) rfl (by decide)
  obtain ⟨t, run, j, found, -, ended, -⟩ := (region 2 rfl rfl rfl).1 (by decide) (by decide)
  have kept := regionEnd_keepsEnd
  rw [show exec (.regionEnd 5 2) keepsEnded = .next t from run] at kept
  have same : some j.ended = some {} := (congrArg (Option.map Job.ended) found).symm.trans kept
  rw [ended] at same
  exact absurd same (by decide)

end Sys2Proof.Machine
end

section
/-!
SUPPORT. Requests of other modules: RD_REQ, WR_REQ and frames that go on (R351 to R354).
-/
namespace Sys2Proof.Machine
open Sys2Proof.Safety

/-! ### States whose ports send alike -/

/-- State `w` routes and marks its frames as `s` does: its ports differ in the next frame that they accept alone. -/
structure SendsAlike (s w : State) : Prop where
  routes : w.spool.routes = s.spool.routes
  moduleId : w.spool.moduleId = s.spool.moduleId
  hopLimit : w.spool.hopLimit = s.spool.hopLimit
  len : w.spool.ports.length = s.spool.ports.length
  ports : ∀ k, ∃ r, w.port k = { s.port k with rxSeq := r }

section
variable {s w : State}

theorem SendsAlike.congr (h : SendsAlike s w) {v : State} (e : v.spool = { w.spool with
    event := v.spool.event, exports := v.spool.exports, inboxes := v.spool.inboxes, nextReq := v.spool.nextReq
    requests := v.spool.requests, sent := v.spool.sent, clear := v.spool.clear, answered := v.spool.answered
    serviceBytes := v.spool.serviceBytes }) : SendsAlike s v where
  routes := (congrArg Spool.routes e).trans h.routes
  moduleId := (congrArg Spool.moduleId e).trans h.moduleId
  hopLimit := (congrArg Spool.hopLimit e).trans h.hopLimit
  len := (congrArg (fun x => x.ports.length) e).trans h.len
  ports := fun k => by
    obtain ⟨r, hr⟩ := h.ports k
    exact ⟨r, (congrArg (fun x : Spool => x.ports.getD k {}) e).trans hr⟩

theorem sendsAlike_accepted (s : State) (p : Nat) (f : Frame) : SendsAlike s (s.accepted p f) where
  routes := rfl
  moduleId := rfl
  hopLimit := rfl
  len := List.length_set
  ports := fun k => by
    by_cases lt : p < s.spool.ports.length
    · have e := port_modPort s p k (fun x => { x with rxSeq := (f.lseq.toNat + 1) % 2 ^ 32 }) lt
      split at e
      · next hk => subst hk; exact ⟨_, e⟩
      · exact ⟨_, e⟩
    · have e : (s.modPort p (fun x => { x with rxSeq := (f.lseq.toNat + 1) % 2 ^ 32 })).spool.ports = s.spool.ports :=
        List.set_eq_of_length_le (Nat.le_of_not_lt lt)
      exact ⟨_, congrArg (fun l : List Port => l.getD k {}) e⟩

theorem SendsAlike.out (h : SendsAlike s w) (k : Nat) : (w.port k).out = (s.port k).out := by
  obtain ⟨r, e⟩ := h.ports k; rw [e]

theorem SendsAlike.keyId (h : SendsAlike s w) (k : Nat) : (w.port k).keyId = (s.port k).keyId := by
  obtain ⟨r, e⟩ := h.ports k; rw [e]

theorem SendsAlike.portUp (h : SendsAlike s w) (k : Nat) : w.portUp k = s.portUp k := by
  obtain ⟨r, e⟩ := h.ports k; rw [State.portUp, e]; rfl

theorem SendsAlike.route (h : SendsAlike s w) (d : Nat) : w.route d = s.route d := by
  rw [State.route, h.routes]; rfl

theorem SendsAlike.routePort (h : SendsAlike s w) (f : Frame) : w.routePort f = s.routePort f := by
  have ports : ∀ d, w.routePorts d = s.routePorts d := fun d => by
    have up : w.portUp = s.portUp := funext h.portUp
    rw [State.routePorts, State.routePorts, State.routeValid, State.routeValid, h.route, up]
  rw [State.routePort, ports]; rfl

theorem SendsAlike.leaving (h : SendsAlike s w) (k : Nat) (f : Frame) : w.leaving k f = s.leaving k f := by
  simp only [State.leaving, h.route, h.keyId]

theorem SendsAlike.reply (h : SendsAlike s w) (f : Frame) (n : Nat) (bs : List Byte) : w.reply f n bs = s.reply f n bs := by
  simp only [State.reply, State.initialHops, h.moduleId, h.hopLimit]

theorem SendsAlike.nakFor (h : SendsAlike s w) (f : Frame) (st : Status) : w.nakFor f st = s.nakFor f st := by
  simp only [State.nakFor, State.initialHops, h.moduleId, h.hopLimit]

/-- A frame is routed to a port that the module has, and that is ACTIVE. -/
theorem up_of_routePort {f : Frame} {q : Nat} (h : s.routePort f = some q) : s.portUp q = true := by
  have mem : q ∈ s.routePorts f.dst.toNat := by
    unfold State.routePort at h
    split at h
    · cases h
    · next e => cases h; rw [e]; exact List.mem_singleton_self _
    · exact List.mem_of_getElem? h
  unfold State.routePorts at mem
  split at mem
  · have := (List.mem_filter.mp mem).2
    exact (Bool.and_eq_true_iff.mp this).2
  · cases mem

theorem lt_of_portUp {q : Nat} (h : s.portUp q = true) : q < s.spool.ports.length := by
  by_contra ge
  have default : s.port q = {} := by
    rw [State.port, List.getD_eq_getElem?_getD, List.getElem?_eq_none (Nat.le_of_not_lt ge)]
    rfl
  rw [State.portUp, default] at h
  exact absurd h (by decide)

/-- A frame that a routed port takes waits there behind those of before. -/
theorem SendsAlike.sendFrame (h : SendsAlike s w) {q : Nat} (lt : q < s.spool.ports.length) (req : Nat) (g : Frame) :
    Sends s (w.sendFrame q req g) q req g := by
  have e := port_modPort w q q (fun p => { p with out := p.out ++ [(req, w.leaving q g)] }) (h.len ▸ lt)
  rw [if_pos rfl] at e
  show ((w.sendFrame q req g).port q).out = _
  rw [State.sendFrame, e, ← h.leaving, ← h.out q]

/-- What a module that answers keeps: its work, and its Spool but for the port that sends and the service's count. -/
theorem serve_sends (h : SendsAlike s w) (same : SameWork s w) {f g : Frame} {q : Nat} (route : s.routePort g = some q) :
    SameWork s (w.serve f g) ∧ Sends s (w.serve f g) q 34 g ∧ (w.serve f g).spool.event = w.spool.event ∧
      (w.serve f g).spool.inboxes = w.spool.inboxes := by
  have out : w.respond g = w.sendFrame q 34 g := by
    rw [State.respond, State.routeOut, h.routePort, route]; rfl
  unfold State.serve
  rw [out]
  exact ⟨same, h.sendFrame (lt_of_portUp (up_of_routePort route)) 34 g, rfl, rfl⟩
end

theorem sameWork_accepted (s : State) (p : Nat) (f : Frame) : SameWork s (s.accepted p f) :=
  ⟨rfl, rfl, rfl, rfl, rfl, rfl, rfl, rfl, rfl⟩

/-! ### Reads and writes of T1 without marks -/

section
variable {s : State} (clean : s.integ.t1Ecc = [])
include clean

theorem repairFrame_clean (c o n : Nat) : s.repairFrame c o n = s := by
  have lost : s.t1Lost (frameOwner c) o n = false := by rw [State.t1Lost, t1Marks_clean clean]; rfl
  have note : s.noteT1 (frameOwner c) o n = s := by rw [State.noteT1, t1Marks_clean clean]; rfl
  simp [State.repairFrame, lost, note]

theorem objectRead_clean (c o : Nat) (bs : List Byte) : s.objectRead c o bs = .bytes bs := by
  have lost : s.t1Lost (frameOwner c) o bs.length = false := by rw [State.t1Lost, t1Marks_clean clean]; rfl
  have deliver : s.t1Deliver (frameOwner c) o bs = bs := by rw [State.t1Deliver, t1Marks_clean clean]; rfl
  rw [State.objectRead, lost, if_neg Bool.false_ne_true, deliver]
end

/-! ### Frames for other modules -/

/-- What waits at the egress is what the ports hold. -/
theorem sends_congr {s t w : State} {q req : Nat} {g : Frame} (e : t.spool.ports = w.spool.ports)
    (h : Sends s w q req g) : Sends s t q req g :=
  (congrArg (fun l : List Port => (l.getD q {}).out) e).trans h

/-- A frame for another module goes on with one hop less, and nothing else moves. -/
theorem forward_sends {s : State} {p : Nat} {f : Frame} {q : Nat} (hops : f.hops ≠ 0) (route : s.routePort f = some q) :
    SameWork s ((s.accepted p f).forward p f) ∧ Sends s ((s.accepted p f).forward p f) q 34 f ∧
      ((s.accepted p f).forward p f).spool.serviceBytes = s.spool.serviceBytes + f.bytes := by
  have alike := sendsAlike_accepted s p f
  have same := sameWork_accepted s p f
  have service : (s.accepted p f).spool.serviceBytes = s.spool.serviceBytes := rfl
  generalize s.accepted p f = w at alike same service ⊢
  have out : w.routeOut f = some (w.sendFrame q 34 f) := by
    rw [State.routeOut, alike.routePort, route]; rfl
  have sends := alike.sendFrame (lt_of_portUp (up_of_routePort route)) 34 f
  have e : w.forward p f = ((w.sendFrame q 34 f).count (90 + p) 6 1).service f.bytes := by
    unfold State.forward
    dsimp only
    rw [if_neg hops, out]
  rw [e]
  exact ⟨same, sends_congr rfl sends, congrArg (· + f.bytes) service⟩

/-! ### Requests for this module -/

/-- A request that no table entry allows is answered by a NAK. -/
theorem deny_sends {s w : State} (h : SendsAlike s w) (same : SameWork s w) {f : Frame} {q : Nat}
    (route : s.routePort (s.nakFor f .pageFaultFatal) = some q) :
    ∃ g, SameWork s (w.deny f .pageFaultFatal) ∧ Sends s (w.deny f .pageFaultFatal) q 34 g ∧ g.ftype = 5 ∧
      g.dst = f.src ∧ g.reqId = f.reqId ∧ g.arg.toNat = 0x0305 ∧
      (w.deny f .pageFaultFatal).spool.event.getLsbD 4 = true ∧
      (w.deny f .pageFaultFatal).spool.inboxes = w.spool.inboxes := by
  have alike : SendsAlike s (w.spoolEvent 4) := h.congr rfl
  have e : w.deny f .pageFaultFatal = (w.spoolEvent 4).serve f (s.nakFor f .pageFaultFatal) := by
    unfold State.deny
    dsimp only
    rw [if_pos rfl, alike.nakFor]
  obtain ⟨work, sends, event, inboxes⟩ := serve_sends (f := f) alike same route
  rw [e]
  refine ⟨_, work, sends, rfl, rfl, rfl, rfl, ?_, inboxes⟩
  rw [event]
  show (w.spool.event ||| BitVec.ofNat 6 (2 ^ 4)).getLsbD 4 = true
  rw [BitVec.getLsbD_or, Bool.or_eq_true]
  exact Or.inr (by decide)

/-- Where an inbox takes a write, it is one of the 64. -/
theorem inbox_of_place {s : State} {tenant off n x o : Nat} (h : s.inboxPlace tenant off n false = some (x, o))
    (some_ : 0 < n) (len : s.spool.inboxes.length = 64) : 1 ≤ x ∧ x ≤ 64 := by
  unfold State.inboxPlace at h
  split at h
  · exact absurd h (by simp)
  · simp only [Bool.false_eq_true, if_false] at h
    split at h
    · next fits =>
      obtain ⟨rfl, -⟩ := Prod.mk.inj (Option.some.inj h)
      refine ⟨Nat.succ_le_succ (Nat.zero_le _), ?_⟩
      by_contra past
      have default : s.inbox ((off - inboxWindow) / 0x4000000 + 1) = {} := by
        rw [State.inbox, if_neg (Nat.succ_ne_zero _), List.getD_eq_getElem?_getD, List.getElem?_eq_none (by omega)]
        rfl
      rw [default] at fits
      simp at fits
      omega
    · exact absurd h (by simp)

section
variable {s : State} {p : Fin 8} {f : Frame} (takes : Takes s p f)
include takes

section
variable (here : f.dst.toNat = s.spool.moduleId.toNat)
include here

theorem rangeIsRead (kind : f.ftype = 1) (away : f.src.toNat ≠ s.spool.moduleId.toNat) {c : Copy} {o q : Nat}
    (clean : s.integ.t1Ecc = []) (place : s.exportPlace f.tenant.toNat f.offset.toNat f.arg.toNat = some (c, o))
    (first : s.pageLost c.id (pageOf o) = false) (last : s.pageLost c.id (pageOf (o + f.arg.toNat - 1)) = false)
    (route : s.routePort (s.reply f 2 (Mem.bytes c.mem o f.arg.toNat)) = some q) :
    ∃ (t : State) (g : Frame), exec (.rdReq p f) s = .next t ∧ SameWork s t ∧ Sends s t q 34 g ∧ g.ftype = 2 ∧ g.dst = f.src ∧
      g.reqId = f.reqId ∧ g.tenant = f.tenant ∧ g.payload = Mem.bytes c.mem o f.arg.toNat := by
  have alike := sendsAlike_accepted s p.val f
  obtain ⟨work, sends, -, -⟩ := serve_sends (f := f) alike (sameWork_accepted s p.val f) route
  refine ⟨_, _, ?_, work, sends, rfl, rfl, rfl, rfl, rfl⟩
  set w := s.accepted p.val f
  have placed : w.exportPlace f.tenant.toNat f.offset.toNat f.arg.toNat = some (c, o) := place
  have read : w.serveRead f.src.toNat f.tenant.toNat f.offset.toNat f.arg.toNat = .bytes (Mem.bytes c.mem o f.arg.toNat) := by
    rw [State.serveRead, if_neg (fun h => away h.1), placed]
    dsimp only
    rw [show w.pageLost c.id (pageOf o) = false from first,
      show w.pageLost c.id (pageOf (o + f.arg.toNat - 1)) = false from last, if_neg (by decide)]
    exact objectRead_clean (s := w) clean c.id o _
  show execRdReq p f s = _
  rw [execRdReq, if_neg (by simp [kind]), receive_takes takes, take_here (s := w) here, read]
  dsimp only
  rw [placed]
  dsimp only
  rw [repairFrame_clean (s := w) clean, alike.reply]

theorem readIsDenied (kind : f.ftype = 1) (away : f.src.toNat ≠ s.spool.moduleId.toNat) {q : Nat}
    (place : s.exportPlace f.tenant.toNat f.offset.toNat f.arg.toNat = none)
    (route : s.routePort (s.nakFor f .pageFaultFatal) = some q) :
    ∃ (t : State) (g : Frame), exec (.rdReq p f) s = .next t ∧ SameWork s t ∧ Sends s t q 34 g ∧ g.ftype = 5 ∧ g.dst = f.src ∧
      g.reqId = f.reqId ∧ g.arg.toNat = 0x0305 ∧ t.spool.event.getLsbD 4 = true := by
  obtain ⟨g, work, sends, ftype, dst, reqId, arg, event, -⟩ :=
    deny_sends (sendsAlike_accepted s p.val f) (sameWork_accepted s p.val f) route
  refine ⟨_, g, ?_, work, sends, ftype, dst, reqId, arg, event⟩
  set w := s.accepted p.val f
  have placed : w.exportPlace f.tenant.toNat f.offset.toNat f.arg.toNat = none := place
  have read : w.serveRead f.src.toNat f.tenant.toNat f.offset.toNat f.arg.toNat = .refused .pageFaultFatal := by
    rw [State.serveRead, if_neg (fun h => away h.1), placed]
  show execRdReq p f s = _
  rw [execRdReq, if_neg (by simp [kind]), receive_takes takes, take_here (s := w) here, read]

theorem inboxIsWritten (kind : f.ftype = 3) (len : s.spool.inboxes.length = 64) {x o q : Nat} (clean : s.integ.t1Ecc = [])
    (place : s.inboxPlace f.tenant.toNat f.offset.toNat f.payload.length false = some (x, o))
    (route : s.routePort (s.reply f 4 []) = some q) (wf : Sparse.wf (s.inbox x).mem = true) (some_ : f.payload ≠ []) :
    ∃ (t : State) (g : Frame), exec (.wrReq p f) s = .next t ∧ SameWork s t ∧ Sends s t q 34 g ∧ g.ftype = 4 ∧ g.dst = f.src ∧
      g.reqId = f.reqId ∧ (∀ y, 1 ≤ y → y ≤ 64 → y ≠ x → t.inbox y = s.inbox y) ∧
      ∀ i, Sparse.get (t.inbox x).mem i =
        if o ≤ i ∧ i < o + f.payload.length then f.payload.getD (i - o) 0 else Sparse.get (s.inbox x).mem i := by
  obtain ⟨pos, le⟩ := inbox_of_place place (List.length_pos_iff.mpr some_) len
  set w := s.accepted p.val f with hw
  have merged : w.t1Merge (s.inbox x).mem (1 + x) o f.payload = Mem.write (s.inbox x).mem o f.payload :=
    t1Merge_clean (t1Marks_clean (s := w) clean _ _ _) _
  set v := w.modInbox x (fun b => { b with mem := w.t1Merge b.mem (1 + x) o f.payload }) with hv
  set t := v.t1Encode 34 (1 + x) o f.payload.length with ht
  have spool : t.spool = v.spool := t1Encode_keeps State.spool (fun _ _ => rfl) v _ _ _ _
  have alike : SendsAlike s t := (sendsAlike_accepted s p.val f).congr (by rw [spool]; rfl)
  have work : SameWork s t := ⟨t1Encode_keeps State.cores (fun _ _ => rfl) v _ _ _ _,
    t1Encode_keeps State.jobs (fun _ _ => rfl) v _ _ _ _, t1Encode_keeps State.objs (fun _ _ => rfl) v _ _ _ _,
    t1Encode_keeps State.copies (fun _ _ => rfl) v _ _ _ _, t1Encode_keeps State.pages (fun _ _ => rfl) v _ _ _ _,
    t1Encode_keeps State.media (fun _ _ => rfl) v _ _ _ _, t1Encode_keeps State.link (fun _ _ => rfl) v _ _ _ _,
    t1Encode_keeps State.sec (fun _ _ => rfl) v _ _ _ _, t1Encode_keeps State.hw (fun _ _ => rfl) v _ _ _ _⟩
  obtain ⟨kept, sends, -, inboxes⟩ := serve_sends (f := f) alike work route
  have inbox : ∀ y, (t.serve f (s.reply f 4 [])).inbox y = if y = x then
      { s.inbox x with mem := Mem.write (s.inbox x).mem o f.payload } else s.inbox y := fun y => by
    have at_ := inbox_modInbox w x y (fun b => { b with mem := w.t1Merge b.mem (1 + x) o f.payload }) (by omega)
      (show x - 1 < s.spool.inboxes.length by omega)
    rw [← merged]
    refine Eq.trans ?_ at_
    rw [State.inbox, inboxes, spool]
    rfl
  refine ⟨_, _, ?_, kept, sends, rfl, rfl, rfl, fun y _ _ ne => (inbox y).trans (if_neg ne), fun i => ?_⟩
  · have write : w.serveWrite f.tenant.toNat f.offset.toNat f.payload = (.done, t) := by
      rw [State.serveWrite, show w.inboxPlace f.tenant.toNat f.offset.toNat f.payload.length false = some (x, o) from place]
    show execWrReq p f s = _
    rw [execWrReq, if_neg (by simp [kind]), receive_takes takes, take_here (s := w) here, write]
    dsimp only
    rw [alike.reply]
  · rw [inbox x, if_pos rfl]
    exact Sparse.get_write wf o f.payload i

theorem writeIsDenied (kind : f.ftype = 3) {q : Nat}
    (place : s.inboxPlace f.tenant.toNat f.offset.toNat f.payload.length false = none)
    (route : s.routePort (s.nakFor f .pageFaultFatal) = some q) :
    ∃ (t : State) (g : Frame), exec (.wrReq p f) s = .next t ∧ SameWork s t ∧ Sends s t q 34 g ∧ g.ftype = 5 ∧ g.dst = f.src ∧
      g.reqId = f.reqId ∧ g.arg.toNat = 0x0305 ∧ t.spool.event.getLsbD 4 = true ∧
      t.spool.inboxes = s.spool.inboxes := by
  obtain ⟨g, work, sends, ftype, dst, reqId, arg, event, inboxes⟩ :=
    deny_sends (sendsAlike_accepted s p.val f) (sameWork_accepted s p.val f) route
  refine ⟨_, g, ?_, work, sends, ftype, dst, reqId, arg, event, inboxes⟩
  set w := s.accepted p.val f
  have write : w.serveWrite f.tenant.toNat f.offset.toNat f.payload = (.refused .pageFaultFatal, w) := by
    rw [State.serveWrite, show w.inboxPlace f.tenant.toNat f.offset.toNat f.payload.length false = none from place]
  show execWrReq p f s = _
  rw [execWrReq, if_neg (by simp [kind]), receive_takes takes, take_here (s := w) here, write]
end

theorem exec_away (away : f.dst.toNat ≠ s.spool.moduleId.toNat) {row : Instr × Nat}
    (mem : row ∈ [(Instr.rdReq p f, 1), (.rdRsp p f, 2), (.wrReq p f, 3), (.wrAck p f, 4), (.nak p f, 5)])
    (kind : f.ftype.toNat = row.2) : exec row.1 s = .next ((s.accepted p.val f).forward p.val f) := by
  have is : ∀ n : BitVec 8, f.ftype.toNat = n.toNat → ¬ f.ftype ≠ n := fun n h ne => ne (BitVec.eq_of_toNat_eq h)
  simp only [List.mem_cons, List.not_mem_nil, or_false] at mem
  rcases mem with rfl | rfl | rfl | rfl | rfl
  · show execRdReq p f s = _
    rw [execRdReq, if_neg (is 1 kind), receive_takes takes, take_away (s := s.accepted p.val f) away]
  · show execRdRsp p f s = _
    rw [execRdRsp, if_neg (is 2 kind), receive_takes takes, take_away (s := s.accepted p.val f) away]
  · show execWrReq p f s = _
    rw [execWrReq, if_neg (is 3 kind), receive_takes takes, take_away (s := s.accepted p.val f) away]
  · show execWrAck p f s = _
    rw [execWrAck, if_neg (is 4 kind), receive_takes takes, take_away (s := s.accepted p.val f) away]
  · show execNak p f s = _
    rw [execNak, if_neg (is 5 kind), receive_takes takes, take_away (s := s.accepted p.val f) away]
end

/-- A frame that crosses more than one link leaves with one hop less. -/
theorem hops_leaving (s : State) (q : Nat) {f : Frame} (far : f.ftype.toNat < 6) (hops : f.hops ≠ 0) :
    (s.leaving q f).hops.toNat + 1 = f.hops.toNat ∧ (s.leaving q f).payload = f.payload := by
  have pos : 0 < f.hops.toNat := Nat.pos_of_ne_zero fun e => hops (BitVec.eq_of_toNat_eq e)
  have lt := f.hops.isLt
  have many : oneLink f = false := decide_eq_false (by omega)
  rw [State.leaving, many, if_neg Bool.false_ne_true]
  refine ⟨?_, rfl⟩
  rw [BitVec.toNat_ofNat, Nat.mod_eq_of_lt (by omega)]
  omega

/-- Settles O47, request by request. -/
theorem requestsAreServed : Obligations.RequestsAreServed := by
  intro s p f takes active len
  refine ⟨fun here => ⟨fun kind away => ⟨?_, ?_⟩, fun kind => ⟨?_, ?_⟩⟩, fun away hops q route row mem kind => ?_⟩
  · exact fun c o q clean place first last route => rangeIsRead takes here kind away clean place first last route
  · exact fun q place route => readIsDenied takes here kind away place route
  · exact fun x o q clean place route wf some_ => inboxIsWritten takes here kind len clean place route wf some_
  · exact fun q place route => writeIsDenied takes here kind place route
  · obtain ⟨work, sends, bytes⟩ := forward_sends (p := p) hops route
    have far : f.ftype.toNat < 6 := by
      simp only [List.mem_cons, List.not_mem_nil, or_false] at mem
      rcases mem with rfl | rfl | rfl | rfl | rfl <;> omega
    exact ⟨_, exec_away takes away mem kind, work, sends, (hops_leaving s q far hops).1, (hops_leaving s q far hops).2, bytes⟩

end Sys2Proof.Machine
end

section
/-!
SUPPORT. The ends of remote requests: answers, NAKs and time-outs (R353 to R356).
-/
namespace Sys2Proof.Machine
open Sys2Proof.Safety

/-! ### A request that fails its job -/

theorem SendsAlike.refl (s : State) : SendsAlike s s where
  routes := rfl
  moduleId := rfl
  hopLimit := rfl
  len := rfl
  ports := fun _ => ⟨_, rfl⟩

theorem requests_modRequest (s : State) (id : Nat) (f : RemoteReq → RemoteReq) :
    (s.modRequest id f).spool.requests = s.spool.requests.map (fun q => if q.id == id then f q else q) := by
  simp only [State.modRequest, beq_iff_eq]

/-- A remote request that fails ends its job with the status. -/
theorem failRemote_fails {w : State} {r : RemoteReq} {ctx : Nat} {k : Job} (hc : (w.core r.core).job = some ctx)
    (hk : w.job? ctx = some k) (live : k.state ≠ .ended) (ends : k.endJobs = []) {st : Status}
    (mem : st ∈ [Status.pageFaultFatal, .weightsLost, .fabricUnreachable]) :
    ∃ cause, Failed (w.failRemote r st) ctx st cause ((w.core r.core).xfer r.slot).pc := by
  have e : w.failRemote r st = (w.nakFail r.core r.slot ctx (frameTarget r.frame) st).settle := by
    rw [State.failRemote, hc]
  rw [e]
  simp only [List.mem_cons, List.not_mem_nil, or_false] at mem
  rcases mem with rfl | rfl | rfl
  · exact ⟨7, failed_accessFault (s := w.failXfer r.core r.slot) hk live ends _ _⟩
  · exact ⟨8, failed_settle (failed_failJob (s := w.failXfer r.core r.slot) hk live ends _ 8 _)⟩
  · exact ⟨0, failed_settle (failed_failJob hk live ends _ 0 _)⟩

theorem frameStatus_mem {f : Frame} {st : Status} (h : frameStatus f = some st) :
    st ∈ [Status.pageFaultFatal, .weightsLost, .fabricUnreachable] := by
  unfold frameStatus at h
  split at h
  · cases h; exact List.mem_cons_self
  · split at h
    · cases h; simp
    · split at h
      · cases h; simp
      · cases h

/-- A job charged for a frame. -/
theorem job?_chargeFrame {s : State} {j : Job} (hj : s.job? j.ctx = some j) (n : Nat) :
    ∃ acct rail, (s.chargeFrame j.ctx n).job? j.ctx = some (j.charged acct rail) :=
  ⟨_, _, (job?_modJob _ _ _ _ (fun _ => by rfl)).trans ((if_pos rfl).trans (congrArg (Option.map _) hj))⟩

/-! ### A transfer whose last request is answered -/

/-- A DONE transfer reaches for nothing. -/
theorem reach_of_done {v : State} {n slot ctx : Nat} {k : Job} (hc : (v.core n).job = some ctx) (hk : v.job? ctx = some k)
    (done : ((v.core n).xfer slot).state = .done) (begun : List (Nat × Nat)) : v.reach n slot begun = v := by
  unfold State.reach
  rw [hc, Option.bind_some, hk]
  dsimp only
  rw [if_pos (.inl (by rw [done]; decide))]

/-- A transfer whose every beat was asked for and answered. -/
def Xfer.answered (x : Xfer) : Xfer := { x with progress := max x.progress x.beats, state := .done }

/-- What follows the answer to a transfer's last request: it is DONE. -/
theorem afterRemote_done {v : State} {n slot ctx : Nat} {k : Job} (hc : (v.core n).job = some ctx)
    (hk : v.job? ctx = some k) (mem : n ∈ k.cores) (hold : (v.core n).hold = none) (gone : v.remoteOf n slot = [])
    (asked : ((v.core n).xfer slot).asked = ((v.core n).xfer slot).beats) :
    (v.afterRemote n slot).core n = (v.core n).setXfer slot ((v.core n).xfer slot).answered ∧
      (v.afterRemote n slot).spool = v.spool := by
  have lt : n < v.cores.length := by
    by_contra out
    rw [core_past _ _ (by omega)] at hc
    cases hc
  set u := v.remoteProgress n slot with hu
  have core : u.core n = (v.core n).setXfer slot ((v.core n).xfer slot).answered := by
    rw [hu, State.remoteProgress, gone, List.map_nil, List.foldl_nil]
    rw [State.modXfer, core_modCore _ _ _ _ lt, if_pos rfl]
    rw [Xfer.answered, if_pos asked.ge, ← asked]
  have done : ((u.core n).xfer slot).state = .done := by
    rw [core]
    exact congrArg Xfer.state ((lookupD_assocSet _ _ _ _ _).trans (if_pos rfl))
  have job : (u.core n).job = some ctx := by rw [core]; exact hc
  have calm : u.settlePages.settleCore n = u.settlePages.settle :=
    settleCore_calm (u := u.settlePages) (k := k) job hk mem (by rw [show u.settlePages.core n = u.core n from rfl, core]; exact hold)
  have run : v.afterRemote n slot = u.settlePages.settle := by
    unfold State.afterRemote
    rw [reach_of_done (v := u) job hk done, calm]
  rw [run, core_settle, settle_spool]
  exact ⟨core, rfl⟩

theorem requests_dropRequest (s : State) (r : RemoteReq) :
    (s.dropRequest r).spool.requests = s.spool.requests.filter (fun q => q.id != r.id) := by
  show (s.spool.requests.map _).filter _ = _
  induction s.spool.requests with
  | nil => rfl
  | cons q l ih =>
    rw [List.map_cons, List.filter_cons, List.filter_cons, ih]
    by_cases e : q.id = r.id
    · simp [e]
    · simp [e]

theorem remoteOf_dropRequest {s : State} {r : RemoteReq} (only : s.remoteOf r.core r.slot = [r]) :
    (s.dropRequest r).remoteOf r.core r.slot = [] := by
  rw [State.remoteOf, requests_dropRequest, List.filter_filter, List.filter_eq_nil_iff]
  intro q hq same
  simp only [Bool.and_eq_true] at same
  have mem : q ∈ s.remoteOf r.core r.slot := List.mem_filter.mpr ⟨hq, by simpa using same.1⟩
  rw [only, List.mem_singleton] at mem
  rw [mem] at same
  simp at same

/-- What a mover's answered request leaves: its transfer DONE, the request gone. -/
theorem answered_done {w : State} {r : RemoteReq} {k : Job} (hc : (w.core r.core).job = some k.ctx)
    (hk : w.job? k.ctx = some k) (mem : r.core ∈ k.cores) (hold : (w.core r.core).hold = none)
    (only : w.remoteOf r.core r.slot = [r])
    (asked : ((w.core r.core).xfer r.slot).asked = ((w.core r.core).xfer r.slot).beats) :
    let t := ((w.dropRequest r).chargeRemote r.core k.ctx r.beats).afterRemote r.core r.slot
    t.core r.core = (w.core r.core).setXfer r.slot ((w.core r.core).xfer r.slot).answered ∧
      t.spool.requests = w.spool.requests.filter (fun q => q.id != r.id) := by
  set v := (w.dropRequest r).chargeRemote r.core k.ctx r.beats with hv
  have charged : v.job? k.ctx = some (k.charged { k.acct with t0Bytes := k.acct.t0Bytes + 64 * r.beats } k.rail) :=
    (job?_modJob ((w.dropRequest r).count r.core 5 r.beats) k.ctx k.ctx _ (fun _ => by rfl)).trans
      ((if_pos rfl).trans (congrArg (Option.map _) ((job?_congr (t := (w.dropRequest r).count r.core 5 r.beats) (s := w) rfl k.ctx).trans hk)))
  have core : v.core r.core = w.core r.core := rfl
  have gone : v.remoteOf r.core r.slot = [] := remoteOf_dropRequest only
  have requests : v.spool.requests = w.spool.requests.filter (fun q => q.id != r.id) := requests_dropRequest w r
  have done := afterRemote_done (v := v) (slot := r.slot) (by rw [core]; exact hc) charged mem (by rw [core]; exact hold) gone (by rw [core]; exact asked)
  rw [core] at done
  obtain ⟨core, spool⟩ := done
  exact ⟨core, (congrArg Spool.requests spool).trans requests⟩

section
variable {s : State} {p : Fin 8} {f : Frame} {r : RemoteReq} {j : Job} (hc : (s.core r.core).job = some j.ctx)
  (hj : s.job? j.ctx = some j)
include hc hj

section
variable (takes : Takes s p f) (here : f.dst.toNat = s.spool.moduleId.toNat) (asks : s.requestOf f = some r)
include takes here asks

theorem nakFails (live : j.state ≠ .ended) (ends : j.endJobs = []) {st : Status} (kind : f.ftype = 5)
    (status : frameStatus f = some st) :
    ∃ (t : State) (cause : Nat), exec (.nak p f) s = .next t ∧ Failed t j.ctx st cause ((s.core r.core).xfer r.slot).pc := by
  set w := s.accepted p.val f
  have run : exec (.nak p f) s = .next ((w.chargeFrame j.ctx f.bytes).failRemote r st) := by
    show execNak p f s = _
    rw [execNak, if_neg (by simp [kind]), receive_takes takes, take_here (s := w) here,
      show w.requestOf f = some r from asks, status]
    dsimp only
    rw [show (w.core r.core).job = some j.ctx from hc]
  obtain ⟨acct, rail, charged⟩ := job?_chargeFrame (s := w) hj f.bytes
  obtain ⟨cause, failed⟩ := failRemote_fails (w := w.chargeFrame j.ctx f.bytes) (r := r) hc charged live ends (frameStatus_mem status)
  exact ⟨_, cause, run, failed⟩

section
variable (mem : r.core ∈ j.cores) (hold : (s.core r.core).hold = none) (only : s.remoteOf r.core r.slot = [r])
  (asked : ((s.core r.core).xfer r.slot).asked = ((s.core r.core).xfer r.slot).beats)
include mem hold only asked

theorem writeAcknowledged (kind : f.ftype = 4) (asked' : r.frame.ftype = 3) :
    ∃ t : State, exec (.wrAck p f) s = .next t ∧ ((t.core r.core).xfer r.slot).state = .done ∧
      t.spool.requests = s.spool.requests.filter (fun q => q.id != r.id) ∧ (t.core r.core).os = (s.core r.core).os ∧
      (t.core r.core).lwb = (s.core r.core).lwb ∧ (t.core r.core).sregs = (s.core r.core).sregs := by
  set w := s.accepted p.val f
  obtain ⟨acct, rail, charged⟩ := job?_chargeFrame (s := w) hj f.bytes
  obtain ⟨core, requests⟩ := answered_done (w := w.chargeFrame j.ctx f.bytes) (k := j.charged acct rail) hc charged mem hold only asked
  rw [show (w.chargeFrame j.ctx f.bytes).core r.core = s.core r.core from rfl] at core
  rw [show (w.chargeFrame j.ctx f.bytes).spool.requests = s.spool.requests from rfl] at requests
  refine ⟨_, ?_, ?_, requests, (congrArg Core.os core :), (congrArg Core.lwb core :), (congrArg Core.sregs core :)⟩
  · show execWrAck p f s = _
    rw [execWrAck, if_neg (by simp [kind]), receive_takes takes, take_here (s := w) here,
      show w.requestOf f = some r from asks]
    dsimp only
    rw [show (w.core r.core).job = some j.ctx from hc, Option.bind_some, show w.job? j.ctx = some j from hj]
    dsimp only
    rw [if_neg (by simp [asked'])]
    rfl
  · rw [core]
    exact congrArg Xfer.state ((lookupD_assocSet _ _ _ _ _).trans (if_pos rfl))

theorem readAnswered (kind : f.ftype = 2) (asked' : r.frame.ftype = 1) (len : f.payload.length = 64)
    (arg : r.frame.arg.toNat = 64) (one : r.beats = 1) (copy : ((s.core r.core).xfer r.slot).mode = .copy)
    (clean : (s.core r.core).osEcc = []) (flip : (s.flip (osFlip r.core)).armed = false)
    (wf : Sparse.wf (s.core r.core).os = true) {l : Nat} (place : (((s.core r.core).xfer r.slot).lAddrs r.beat).headD 0 = l)
    (low : l + 64 ≤ 0x800000) :
    ∃ t : State, exec (.rdRsp p f) s = .next t ∧ ((t.core r.core).xfer r.slot).state = .done ∧
      t.spool.requests = s.spool.requests.filter (fun q => q.id != r.id) ∧
      (t.core r.core).lwb = (s.core r.core).lwb ∧ (t.core r.core).sregs = (s.core r.core).sregs ∧
      ∀ i, Sparse.get (t.core r.core).os i =
        if l ≤ i ∧ i < l + 64 then f.payload.getD (i - l) 0 else Sparse.get (s.core r.core).os i := by
  have lt : r.core < s.cores.length := by
    by_contra out
    rw [core_past _ _ (by omega)] at hc
    cases hc
  set w := s.accepted p.val f
  obtain ⟨acct, rail, charged⟩ := job?_chargeFrame (s := w) hj f.bytes
  set v := w.chargeFrame j.ctx f.bytes
  have written : v.writeBeats r ((s.core r.core).xfer r.slot) f.payload =
      v.modCore r.core (fun c => { c with os := Mem.write c.os l f.payload }) := by
    rw [State.writeBeats, one, List.range_one, List.foldl_cons, List.foldl_nil, Nat.mul_zero, List.drop_zero,
      Nat.add_zero, place, List.take_of_length_le (by omega), State.localWrite, if_pos (by omega)]
    exact osWrite_clean (s := v) clean flip l (List.ne_nil_of_length_pos (by omega))
  set u := v.modCore r.core (fun c => { c with os := Mem.write c.os l f.payload })
  have stored : u.core r.core = { s.core r.core with os := Mem.write (s.core r.core).os l f.payload } :=
    (core_modCore v r.core r.core _ lt).trans (if_pos rfl)
  obtain ⟨core, requests⟩ := answered_done (w := u) (k := j.charged acct rail) (by rw [stored]; exact hc) charged mem
    (by rw [stored]; exact hold) only (by rw [stored]; exact asked)
  rw [stored] at core
  rw [show u.spool.requests = s.spool.requests from rfl] at requests
  refine ⟨_, ?_, ?_, requests, (congrArg Core.lwb core :), (congrArg Core.sregs core :), fun i => ?_⟩
  · show execRdRsp p f s = _
    rw [execRdRsp, if_neg (by simp [kind]), receive_takes takes, take_here (s := w) here,
      show w.requestOf f = some r from asks]
    dsimp only
    rw [show (w.core r.core).job = some j.ctx from hc, Option.bind_some, show w.job? j.ctx = some j from hj]
    dsimp only
    rw [if_neg (by simp [asked', len, arg]), if_neg (show ¬ ((w.core r.core).xfer r.slot).mode = .transpose from
      fun e => absurd (copy.symm.trans e) (by decide)), show (w.core r.core).xfer r.slot = (s.core r.core).xfer r.slot from rfl,
      written]
    rfl
  · rw [core]
    exact congrArg Xfer.state ((lookupD_assocSet _ _ _ _ _).trans (if_pos rfl))
  · rw [core, ← len]
    exact Sparse.get_write wf l f.payload i
end
end

/-! ### Time-outs -/

omit hj in
theorem requestGoesOutAgain (found : s.spool.requests.find? (fun q => q.id == r.id) = some r) (runs : s.spoolRuns = true)
    (waits : r.got = none) (valid : s.spool.valid = true) (route : s.routeValid r.frame.dst.toNat = true) {q : Nat}
    (few : r.attempts < 3) (next : s.nextPort r.frame r.port = some q) (lt : q < s.spool.ports.length) :
    ∃ t : State, exec (.spoolRequestTimeout r.id) s = .next t ∧ Sends s t q r.core r.frame ∧
      t.spool.requests.find? (fun q => q.id == r.id) = some { r with attempts := r.attempts + 1, port := q } ∧
      t.cores = s.cores := by
  set w := s.modRequest r.id (fun x => { x with attempts := x.attempts + 1, port := q }) with hw
  have alike : SendsAlike s w := (SendsAlike.refl s).congr rfl
  have sends := alike.sendFrame lt r.core r.frame
  have ports : ((w.sendFrame q r.core r.frame).chargeFrame j.ctx r.frame.bytes).spool.ports =
    (w.sendFrame q r.core r.frame).spool.ports := rfl
  refine ⟨(w.sendFrame q r.core r.frame).chargeFrame j.ctx r.frame.bytes, ?_, sends_congr ports sends, ?_, rfl⟩
  · show execSpoolRequestTimeout r.id s = _
    rw [execSpoolRequestTimeout, found]
    dsimp only
    rw [if_neg (by simp [runs, waits]), if_neg (by simp [valid, route]; omega), next]
    dsimp only
    rw [← hw, show ((w.sendFrame q r.core r.frame).core r.core).job = some j.ctx from hc]
  · show List.find? _ (s.modRequest r.id _).spool.requests = _
    rw [requests_modRequest]
    refine (find_map_key RemoteReq.id (fun x => { x with attempts := x.attempts + 1, port := q }) r.id
      (fun _ e => e) s.spool.requests r.id).trans ((if_pos rfl).trans ?_)
    rw [found]
    rfl

theorem requestGivesUp (live : j.state ≠ .ended) (ends : j.endJobs = [])
    (found : s.spool.requests.find? (fun q => q.id == r.id) = some r) (runs : s.spoolRuns = true) (waits : r.got = none)
    (many : 3 ≤ r.attempts) :
    ∃ (t : State) (cause : Nat), exec (.spoolRequestTimeout r.id) s = .next t ∧
      Failed t j.ctx .fabricUnreachable cause ((s.core r.core).xfer r.slot).pc := by
  obtain ⟨cause, failed⟩ := failRemote_fails (r := r) hc hj live ends (st := .fabricUnreachable) (by simp)
  refine ⟨_, cause, ?_, failed⟩
  show execSpoolRequestTimeout r.id s = _
  rw [execSpoolRequestTimeout, found]
  dsimp only
  rw [if_neg (by simp [runs, waits]), if_pos (.inl many)]
end

/-- Settles O48, answer by answer. -/
theorem responsesEndRequests : Obligations.ResponsesEndRequests := by
  intro s p f r j hc hj mem ends live
  refine ⟨fun takes _ here asks => ⟨fun st kind status => nakFails hc hj takes here asks live ends kind status,
    fun only _ asked _ _ _ hold => ⟨fun kind asked' => ?_, fun kind asked' len arg one copy clean flip wf low => ?_⟩⟩,
    fun found runs waits valid route => ⟨fun q few next lt => ?_, fun many => ?_⟩⟩
  · exact writeAcknowledged hc hj takes here asks mem hold only asked kind asked'
  · exact readAnswered hc hj takes here asks mem hold only asked kind asked' len arg one copy clean flip wf rfl low
  · exact requestGoesOutAgain hc found runs waits valid route few next lt
  · exact requestGivesUp hc hj live ends found runs waits many

end Sys2Proof.Machine
end

section
/-!
SUPPORT. Spool ports come up and go down (R342 to R347, R402).
-/
namespace Sys2Proof.Machine
open Sys2Proof.Safety

/-! ### What an event of one port moves -/

/-- State `t` is `s` but for port `p` and what a link's events count and record. -/
structure PortMoves (s t : State) (p : Nat) : Prop where
  work : SameWork s t
  others : ∀ q, q ≠ p → t.port q = s.port q
  len : t.spool.ports.length = s.spool.ports.length
  moduleId : t.spool.moduleId = s.spool.moduleId

section
variable {s t u : State} {p : Nat}

theorem sameWork_refl (s : State) : SameWork s s := ⟨rfl, rfl, rfl, rfl, rfl, rfl, rfl, rfl, rfl⟩

theorem sameWork_trans (h : SameWork s t) (k : SameWork t u) : SameWork s u := by
  obtain ⟨a, b, c, d, e, f, g, i, j⟩ := h
  obtain ⟨a', b', c', d', e', f', g', i', j'⟩ := k
  exact ⟨a'.trans a, b'.trans b, c'.trans c, d'.trans d, e'.trans e, f'.trans f, g'.trans g, i'.trans i, j'.trans j⟩

theorem PortMoves.trans (h : PortMoves s t p) (k : PortMoves t u p) : PortMoves s u p where
  work := sameWork_trans h.work k.work
  others := fun q ne => (k.others q ne).trans (h.others q ne)
  len := k.len.trans h.len
  moduleId := k.moduleId.trans h.moduleId

/-- A step that leaves the ports alone. -/
theorem PortMoves.of_ports (work : SameWork s t) (ports : t.spool.ports = s.spool.ports)
    (id : t.spool.moduleId = s.spool.moduleId) (p : Nat) : PortMoves s t p where
  work := work
  others := fun q _ => congrArg (fun l : List Port => l.getD q {}) ports
  len := congrArg List.length ports
  moduleId := id

theorem PortMoves.refl (s : State) (p : Nat) : PortMoves s s p := .of_ports (sameWork_refl s) rfl rfl p

theorem moves_modPort (s : State) (p : Nat) (f : Port → Port) : PortMoves s (s.modPort p f) p where
  work := sameWork_refl s
  others := fun q ne => by
    by_cases lt : p < s.spool.ports.length
    · rw [port_modPort _ _ _ _ lt, if_neg ne]
    · exact congrArg (fun l : List Port => l.getD q {}) (List.set_eq_of_length_le (Nat.le_of_not_lt lt))
  len := List.length_set
  moduleId := rfl

theorem port_modPort_same (lt : p < s.spool.ports.length) (f : Port → Port) : (s.modPort p f).port p = f (s.port p) := by
  rw [port_modPort _ _ _ _ lt, if_pos rfl]

theorem moves_fresh (s : State) (p : Nat) : PortMoves s s.fresh.2 p :=
  .of_ports (s := s) (t := s.fresh.2) ⟨rfl, rfl, rfl, rfl, rfl, rfl, rfl, rfl, rfl⟩ rfl rfl p

theorem moves_accepted (s : State) (p : Nat) (f : Frame) : PortMoves s (s.accepted p f) p :=
  (moves_modPort s p (fun x => { x with rxSeq := (f.lseq.toNat + 1) % 2 ^ 32 })).trans
    (.of_ports (s := s.modPort p (fun x => { x with rxSeq := (f.lseq.toNat + 1) % 2 ^ 32 })) (t := s.accepted p f)
       ⟨rfl, rfl, rfl, rfl, rfl, rfl, rfl, rfl, rfl⟩ rfl rfl p)

theorem port_accepted (lt : p < s.spool.ports.length) (f : Frame) :
    (s.accepted p f).port p = { s.port p with rxSeq := (f.lseq.toNat + 1) % 2 ^ 32 } :=
  port_modPort_same lt (fun x => { x with rxSeq := (f.lseq.toNat + 1) % 2 ^ 32 })

theorem linkFrames_congr (id : t.spool.moduleId = s.spool.moduleId) (n : Nat) (m : List Byte) :
    t.linkFrames n m = s.linkFrames n m := by
  rw [State.linkFrames, State.linkFrames, id]

/-! ### Key messages -/

/-- The frames of a key message wait at the egress of the port, and nothing else of it moves. -/
theorem port_sendKey (lt : p < s.spool.ports.length) : ∃ m, (s.sendKey p).port p = { s.port p with
    out := (s.port p).out ++ (s.linkFrames 7 (Config.keyMessage m)).map (fun f => (38, f)) } :=
  ⟨_, port_modPort_same (s := s.fresh.2) lt _⟩

theorem moves_sendKey (s : State) (p : Nat) : PortMoves s (s.sendKey p) p := by
  unfold State.sendKey
  exact (moves_fresh s p).trans (moves_modPort _ _ _)

theorem moves_startKey (s : State) (p : Nat) : PortMoves s (s.startKey p) p := by
  unfold State.startKey
  split
  · exact moves_sendKey s p
  · exact .refl s p

/-- The side with the lower module ID begins an exchange. -/
theorem port_startKey (lt : p < s.spool.ports.length) :
    ∃ out, (s.startKey p).port p = { s.port p with out := out } ∧
      (s.spool.moduleId < (s.port p).peer →
        ∃ m, out = (s.port p).out ++ (s.linkFrames 7 (Config.keyMessage m)).map (fun f => (38, f))) := by
  unfold State.startKey
  split
  · obtain ⟨m, e⟩ := port_sendKey (s := s) lt
    exact ⟨_, e, fun _ => ⟨m, rfl⟩⟩
  · next ne => exact ⟨_, rfl, fun h => absurd h ne⟩

/-- A key message waits where its frames do. -/
theorem keysWait_of_out (moves : PortMoves s t p) (same : (t.port p).out = (s.port p).out) {m : Nat}
    (e : (u.port p).out = (t.port p).out ++ (t.linkFrames 7 (Config.keyMessage m)).map (fun f => (38, f))) :
    KeysWait s u p := ⟨m, by rw [e, same, linkFrames_congr moves.moduleId]⟩

theorem moves_keyAgreed (s : State) (p : Nat) : PortMoves s (s.keyAgreed p) p := by
  unfold State.keyAgreed
  dsimp only
  split
  · split
    · exact (moves_fresh s p).trans (moves_modPort _ _ _)
    · exact moves_modPort _ _ _
  · split
    · exact moves_modPort _ _ _
    · exact .refl s p

/-! ### Ports that go down -/

theorem moves_portDown (s : State) (p reason : Nat) : PortMoves s (s.portDown p reason) p := by
  unfold State.portDown
  dsimp only
  split
  · exact .refl s p
  · split
    · exact (moves_modPort s p (fun x => x.fallen reason)).trans
        (.of_ports (s := s.modPort p (fun x => x.fallen reason))
          (t := ((s.modPort p (fun x => x.fallen reason)).spoolEvent 1).raise 0) ⟨rfl, rfl, rfl, rfl, rfl, rfl, rfl, rfl, rfl⟩ rfl rfl p)
    · exact moves_modPort s p _

/-- A port that is not DOWN falls to DOWN; one that was ACTIVE sets PORT_DOWN and raises vector 0. -/
theorem portDown_falls (lt : p < s.spool.ports.length) (up : (s.port p).state ≠ .down) (reason : Nat) :
    (s.portDown p reason).port p = (s.port p).fallen reason ∧
      ((s.port p).state ≠ .active → (s.portDown p reason).host = s.host) ∧
      ((s.port p).state = .active → (s.portDown p reason).spool.event.getLsbD 1 = true ∧
        (s.portDown p reason).host.vectors = s.host.vectors ++ [0]) := by
  have port := port_modPort_same (s := s) lt (fun x => x.fallen reason)
  unfold State.portDown
  dsimp only
  rw [if_neg up]
  split
  · next active =>
    refine ⟨port, fun ne => absurd active ne, fun _ => ⟨?_, rfl⟩⟩
    show (s.spool.event ||| BitVec.ofNat 6 (2 ^ 1)).getLsbD 1 = true
    rw [BitVec.getLsbD_or, Bool.or_eq_true]
    exact Or.inr (by decide)
  · next other => exact ⟨port, fun _ => rfl, fun active => absurd active other⟩

theorem moves_portDownFree (s : State) (p : Nat) : PortMoves s (s.portDownFree p) p := by
  unfold State.portDownFree
  split
  · exact .refl s p
  · exact (moves_fresh s p).trans (moves_portDown _ p _)

theorem portDownFree_falls (lt : p < s.spool.ports.length) (up : (s.port p).state ≠ .down) :
    ∃ reason, (s.portDownFree p).port p = (s.port p).fallen reason ∧
      ((s.port p).state ≠ .active → (s.portDownFree p).host = s.host) ∧
      ((s.port p).state = .active → (s.portDownFree p).spool.event.getLsbD 1 = true ∧
        (s.portDownFree p).host.vectors = s.host.vectors ++ [0]) := by
  unfold State.portDownFree
  rw [if_neg up]
  exact ⟨_, portDown_falls (s := s.fresh.2) lt up _⟩

end

/-- Port `p` has gone to DOWN, for the reason `r` where one is named, its keys and retry buffer gone; no other port
moved. -/
def FellDown (s t : State) (p : Fin 8) (r : Option Nat) : Prop :=
  SameWork s t ∧ (t.port p.val).state = .down ∧ (∀ x, r = some x → (t.port p.val).fail = x) ∧
    (t.port p.val).keys = (false, false) ∧ (t.port p.val).retry = [] ∧ ∀ q < 8, q ≠ p.val → t.port q = s.port q

theorem fellDown_of_fallen {s t : State} {p : Fin 8} (moves : PortMoves s t p.val) {reason : Nat}
    (fallen : t.port p.val = (s.port p.val).fallen reason) {r : Option Nat} (is : ∀ x, r = some x → reason = x) :
    FellDown s t p r :=
  ⟨moves.work, (congrArg Port.state fallen :), fun x h => ((congrArg Port.fail fallen :)).trans (is x h),
    (congrArg Port.keys fallen :), (congrArg Port.retry fallen :), fun q _ ne => moves.others q ne⟩

section
variable {s : State} {p : Fin 8} (lt : p.val < s.spool.ports.length)
include lt

/-- The bound of a state that passes takes the port down. -/
theorem stateTimeout_falls {row : PortState × Option Nat}
    (mem : row ∈ [(PortState.train, some 1), (.align, some 2), (.hello, none), (.secure, some 5)])
    (state : (s.port p.val).state = row.1) :
    ∃ t : State, exec (.portStateTimeout p) s = .next t ∧ FellDown s t p row.2 ∧ t.host = s.host := by
  have down : ∀ reason, exec (.portStateTimeout p) s = .next (s.portDown p.val reason) →
      (∀ x, row.2 = some x → reason = x) → (s.port p.val).state ≠ .down → (s.port p.val).state ≠ .active →
      ∃ t : State, exec (.portStateTimeout p) s = .next t ∧ FellDown s t p row.2 ∧ t.host = s.host :=
    fun reason run is up other =>
      have falls := portDown_falls lt up reason
      ⟨_, run, fellDown_of_fallen (moves_portDown s p.val reason) falls.1 is, falls.2.1 other⟩
  have run : exec (.portStateTimeout p) s = execPortStateTimeout p s := rfl
  rw [execPortStateTimeout, state] at run
  simp only [List.mem_cons, List.not_mem_nil, or_false] at mem
  rcases mem with rfl | rfl | rfl | rfl
  · exact down _ run (fun x e => Option.some.inj e) (by rw [state]; decide) (by rw [state]; decide)
  · exact down _ run (fun x e => Option.some.inj e) (by rw [state]; decide) (by rw [state]; decide)
  · obtain ⟨reason, port, host, -⟩ := portDownFree_falls lt (by rw [state]; decide)
    exact ⟨_, run, fellDown_of_fallen (moves_portDownFree s p.val) port (fun x e => (nomatch e)),
      host (by rw [state]; decide)⟩
  · exact down _ run (fun x e => Option.some.inj e) (by rw [state]; decide) (by rw [state]; decide)

/-- What takes an ACTIVE port down, with its event and vector. -/
theorem activePort_falls (active : (s.port p.val).state = .active) {row : Instr × Option Nat}
    (mem : row ∈ [(Instr.linkFrameTimeout p, none), (.fecLockLoss p, some 2), (.errorRateLimit p, some 6)]) :
    ∃ t : State, exec row.1 s = .next t ∧ FellDown s t p row.2 ∧ t.spool.event.getLsbD 1 = true ∧
      t.host.vectors = s.host.vectors ++ [0] := by
  have isUp : s.portUp p.val = true := by rw [State.portUp, active]; rfl
  have up : (s.port p.val).state ≠ .down := by rw [active]; decide
  have down : ∀ reason, exec row.1 s = .next (s.portDown p.val reason) → (∀ x, row.2 = some x → reason = x) →
      ∃ t : State, exec row.1 s = .next t ∧ FellDown s t p row.2 ∧ t.spool.event.getLsbD 1 = true ∧
        t.host.vectors = s.host.vectors ++ [0] := fun reason run is =>
      have falls := portDown_falls lt up reason
      ⟨_, run, fellDown_of_fallen (moves_portDown s p.val reason) falls.1 is, falls.2.2 active⟩
  simp only [List.mem_cons, List.not_mem_nil, or_false] at mem
  rcases mem with rfl | rfl | rfl
  · obtain ⟨reason, port, -, events⟩ := portDownFree_falls lt up
    refine ⟨_, ?_, fellDown_of_fallen (moves_portDownFree s p.val) port (fun x e => (nomatch e)), events active⟩
    show execLinkFrameTimeout p s = _
    rw [execLinkFrameTimeout, if_pos isUp]
  · refine down _ ?_ (fun x e => Option.some.inj e)
    show execFecLockLoss p s = _
    rw [execFecLockLoss, if_pos isUp]
    rfl
  · refine down _ ?_ (fun x e => Option.some.inj e)
    show execErrorRateLimit p s = _
    rw [execErrorRateLimit, if_pos isUp]
    rfl

/-- A rekey begins. -/
theorem rekeyBegins (active : (s.port p.val).state = .active) :
    ∃ t : State, exec (.rekeyTimer p) s = .next t ∧ SameWork s t ∧ (t.port p.val).state = .active ∧
      (t.port p.val).rekey = true ∧ (t.port p.val).txCount = 0 ∧ (t.port p.val).keys = (s.port p.val).keys ∧
      (t.port p.val).keyId = (s.port p.val).keyId ∧
      ((s.port p.val).rekey = false → s.spool.moduleId < (s.port p.val).peer → KeysWait s t p.val) ∧
      ∀ q < 8, q ≠ p.val → t.port q = s.port q := by
  have isUp : s.portUp p.val = true := by rw [State.portUp, active]; rfl
  set w := s.modPort p.val (fun p => { p with rekey := true, txCount := 0 })
  have moves : PortMoves s w p.val := moves_modPort s p.val _
  have port : w.port p.val = { s.port p.val with rekey := true, txCount := 0 } := port_modPort_same lt _
  have run : exec (.rekeyTimer p) s = .next (if (s.port p.val).rekey then w else w.startKey p.val) := by
    show execRekeyTimer p s = _
    rw [execRekeyTimer, if_pos isUp]
  cases due : (s.port p.val).rekey with
  | true =>
    rw [due, if_pos rfl] at run
    exact ⟨w, run, moves.work, ((congrArg Port.state port :)).trans active, (congrArg Port.rekey port :),
      (congrArg Port.txCount port :), (congrArg Port.keys port :), (congrArg Port.keyId port :), fun e => (nomatch e),
      fun q _ ne => moves.others q ne⟩
  | false =>
    rw [due, if_neg Bool.false_ne_true] at run
    obtain ⟨out, started, waits⟩ := port_startKey (s := w) (by rw [moves.len]; exact lt)
    rw [port] at started
    have all := moves.trans (moves_startKey w p.val)
    refine ⟨_, run, all.work, ((congrArg Port.state started :)).trans active, (congrArg Port.rekey started :),
      (congrArg Port.txCount started :), (congrArg Port.keys started :), (congrArg Port.keyId started :), fun _ lower => ?_,
      fun q _ ne => all.others q ne⟩
    obtain ⟨m, e⟩ := waits (by rw [port]; exact lower)
    exact keysWait_of_out moves (congrArg Port.out port :) ((congrArg Port.out started).trans e)
end

theorem portsGoDown : PortsGoDown := by
  intro s p len
  have lt : p.val < s.spool.ports.length := by rw [len]; exact p.isLt
  refine ⟨fun row mem state => ?_, fun active => ⟨fun row mem => ?_, rekeyBegins lt active⟩⟩
  · obtain ⟨t, run, ⟨work, down, fail, keys, retry, others⟩, host⟩ := stateTimeout_falls lt mem state
    exact ⟨t, run, work, down, fail, keys, retry, host, others⟩
  · obtain ⟨t, run, ⟨work, down, fail, keys, retry, others⟩, event, vectors⟩ := activePort_falls lt active mem
    exact ⟨t, run, work, down, fail, keys, retry, event, vectors, others⟩

/-! ### Ports that come up -/

/-- What a frame that leaves records moves no port. -/
theorem moves_recorded (s : State) (p : Nat) (sent : List (Nat × Frame)) (clear : List (Nat × List Byte)) (b e n : Nat) :
    PortMoves s (({ s with spool := { s.spool with sent := sent, clear := clear } } : State).count b e n) p :=
  .of_ports (s := s) (t := ({ s with spool := { s.spool with sent := sent, clear := clear } } : State).count b e n)
    ⟨rfl, rfl, rfl, rfl, rfl, rfl, rfl, rfl, rfl⟩ rfl rfl p

section
variable {s : State} {p : Nat} (lt : p < s.spool.ports.length)
include lt

/-- A frame that a link's own traffic sends: it is the last one sent, and the port keeps its state. -/
theorem putFrame_sends (f : Frame) : PortMoves s (s.putFrame p f) p ∧ ((s.putFrame p f).port p).state = (s.port p).state ∧
    ∃ n, (s.putFrame p f).spool.sent = (p, { f with lseq := n }) :: s.spool.sent := by
  unfold State.putFrame
  extract_lets n w1 g due w2 w3
  have m1 : PortMoves s w1 p := (moves_fresh s p).trans (moves_modPort _ _ _)
  have s1 : (w1.port p).state = (s.port p).state := (congrArg Port.state (port_modPort_same (s := n.2) lt (fun p => { p with txSeq := (p.txSeq + n.1) % 2 ^ 32 })) :)
  have m2 : PortMoves s w2 p := m1.trans (moves_modPort _ _ _)
  have s2 : (w2.port p).state = (s.port p).state :=
    (congrArg Port.state (port_modPort_same (s := w1) (by rw [m1.len]; exact lt) (fun p => p.send g))).trans s1
  have m3 : PortMoves w2 w3 p ∧ (w3.port p).state = (w2.port p).state ∧ w3.spool.sent = w2.spool.sent := by
    simp only [w3]
    split
    · obtain ⟨out, port, -⟩ := port_startKey (s := w2) (p := p) (by rw [m2.len]; exact lt)
      refine ⟨moves_startKey w2 p, (congrArg Port.state port :), ?_⟩
      unfold State.startKey
      split <;> rfl
    · exact ⟨.refl w2 p, rfl, rfl⟩
  obtain ⟨m3, s3, sent⟩ := m3
  exact ⟨(m2.trans m3).trans (moves_recorded w3 p _ _ (90 + p) 1 1), s3.trans s2, _, congrArg (List.cons (p, g)) sent⟩

/-- The frames of a message, sent in their order. -/
theorem putFrames_send (l : List Frame) : ∃ fs, PortMoves s (l.foldl (fun s f => s.putFrame p f) s) p ∧
    ((l.foldl (fun s f => s.putFrame p f) s).port p).state = (s.port p).state ∧
    (l.foldl (fun s f => s.putFrame p f) s).spool.sent = fs ++ s.spool.sent ∧
    (∀ g ∈ fs, g.1 = p ∧ ∃ f ∈ l, g.2.ftype = f.ftype ∧ g.2.guarded = f.guarded) ∧
    fs.reverse.map (fun g => g.2.payload) = l.map (fun g => g.payload) := by
  induction l generalizing s with
  | nil => exact ⟨[], .refl s p, rfl, rfl, fun g hg => (nomatch hg), rfl⟩
  | cons f l ih =>
    obtain ⟨moves, state, n, sent⟩ := putFrame_sends lt f
    obtain ⟨fs, moves', state', sent', kinds, payloads⟩ := ih (s := s.putFrame p f) (by rw [moves.len]; exact lt)
    refine ⟨fs ++ [(p, { f with lseq := n })], moves.trans moves', state'.trans state, ?_, fun g hg => ?_, ?_⟩
    · rw [List.foldl_cons, sent', sent, List.append_assoc]
      rfl
    · rcases List.mem_append.mp hg with old | new
      · obtain ⟨port, f', mem, kind⟩ := kinds g old
        exact ⟨port, f', List.mem_cons_of_mem _ mem, kind⟩
      · rw [List.mem_singleton] at new
        subst new
        exact ⟨rfl, f, List.mem_cons_self, rfl, rfl⟩
    · rw [List.reverse_append, List.map_append, payloads]
      rfl
end

section
variable {s : State} {p : Fin 8} (runs : s.spoolRuns = true) (lt : p.val < s.spool.ports.length)
include runs

theorem trainingStarts (state : (s.port p.val).state = .down) (enable : (s.port p.val).enable = true)
    (valid : s.spool.valid = true) :
    ∃ t : State, exec (.portTrainStart p) s = .next t ∧
      t.spool = (s.modPort p.val (fun x => { x with state := .train })).spool ∧
      t.hw = { s.hw with cages := t.hw.cages } ∧ t.hw.cages.getLsbD (cageOf p) = true ∧
      (∀ i < 4, i ≠ cageOf p → t.hw.cages.getLsbD i = s.hw.cages.getLsbD i) ∧
      { t with spool := s.spool, hw := s.hw } = s := by
  have cage : cageOf p < 4 := by unfold cageOf; omega
  have bit : ∀ i < 4, (BitVec.ofNat 4 (2 ^ cageOf p)).getLsbD i = decide (cageOf p = i) := fun i hi => by
    rw [BitVec.getLsbD_ofNat, decide_eq_true hi, Bool.true_and, Nat.testBit_two_pow]
  refine ⟨{ s with hw := { s.hw with cages := s.hw.cages ||| BitVec.ofNat 4 (2 ^ cageOf p) } }.modPort p.val
    (fun x => { x with state := .train }), ?_, rfl, rfl, ?_, fun i hi ne => ?_, rfl⟩
  · show execPortTrainStart p s = _
    rw [execPortTrainStart, if_pos ⟨runs, state, enable, valid⟩]
  · show (s.hw.cages ||| BitVec.ofNat 4 (2 ^ cageOf p)).getLsbD (cageOf p) = true
    rw [BitVec.getLsbD_or, bit _ cage]
    simp
  · show (s.hw.cages ||| BitVec.ofNat 4 (2 ^ cageOf p)).getLsbD i = _
    rw [BitVec.getLsbD_or, bit i hi, decide_eq_false (Ne.symm ne), Bool.or_false]

theorem trainingEnds (slow : Bool) (state : (s.port p.val).state = .train) : exec (.portTrainingDone p slow) s =
    .next (s.modPort p.val (fun x => { x with state := .align, slow := slow })) := by
  show execPortTrainingDone p slow s = _
  rw [execPortTrainingDone, if_pos ⟨runs, state⟩]

/-- A frame of HELLO is passed on by a port in that state. -/
theorem receive_hello {f : Frame} (state : (s.port p.val).state = .hello) (kind : f.ftype = 8) (clear : f.guarded = false)
    (good : f.good = true) (clean : f.clean = true) (pass : State → State) :
    s.receive p.val f pass = .next (pass (s.accepted p.val f)) := by
  have reads : (s.port p.val).reads f = true := by rw [Port.reads, state, clear]; rfl
  have one : oneLink f = true := by rw [oneLink, kind]; rfl
  unfold State.receive
  dsimp only
  rw [if_neg (by simp [runs, reads]), if_neg (by simp [good]), if_neg (by rw [state]; simp), if_neg (by simp [kind]),
    if_neg (by simp [clean]), if_pos (.inr one)]
  rfl

include lt

theorem lockSendsHello (state : (s.port p.val).state = .align) :
    ∃ (t : State) (fs : List (Nat × Frame)), exec (.fecLock p) s = .next t ∧ SameWork s t ∧
      (t.port p.val).state = .hello ∧ (∀ q < 8, q ≠ p.val → t.port q = s.port q) ∧ t.spool.sent = fs ++ s.spool.sent ∧
      (∀ g ∈ fs, g.1 = p.val ∧ g.2.ftype = 8 ∧ g.2.guarded = false) ∧
      fs.reverse.map (fun g => g.2.payload) =
        (s.linkFrames 8 (Config.helloMessage s.spool.moduleId s.sec.lc.code Config.ownChain)).map (fun g => g.payload) := by
  have moves := moves_modPort s p.val (fun x => { x with state := .hello })
  obtain ⟨fs, moves', state', sent, kinds, payloads⟩ := putFrames_send
    (s := s.modPort p.val (fun x => { x with state := .hello })) (by rw [moves.len]; exact lt)
    (s.linkFrames 8 (Config.helloMessage s.spool.moduleId s.sec.lc.code Config.ownChain))
  refine ⟨_, fs, ?_, (moves.trans moves').work, ?_, fun q _ ne => (moves.trans moves').others q ne, sent, fun g hg => ?_,
    payloads⟩
  · show execFecLock p s = _
    rw [execFecLock, if_pos ⟨runs, state⟩]
  · exact state'.trans (congrArg Port.state (port_modPort_same lt (fun x => { x with state := .hello })))
  · obtain ⟨port, f, mem, ftype, guarded⟩ := kinds g hg
    obtain ⟨b, -, rfl⟩ := List.mem_map.mp mem
    exact ⟨port, ftype, guarded⟩

/-- What a port does with the HELLO message of its peer. -/
def State.hears (s : State) (p : Nat) (peer : PeerHello) : State :=
  if peer.id = s.spool.moduleId then s.portDown p failIdClash
  else if peer.lcState ≠ 2 then s.portDown p failPeerState
  else if s.sec.lc ≠ .service then s.modPort p (fun x => { x with peer := peer.id })
  else if Config.chainVerifies peer.chain && Config.peerOwnerMatches peer.chain s.sec.ownerKey then
    ((s.modPort p (fun x => { x with peer := peer.id })).modPort p
      (fun x => { x with state := .secure, peerChain := peer.chain })).startKey p
  else ((s.modPort p (fun x => { x with peer := peer.id })).modPort p
      (fun x => { x with state := .secure, peerChain := peer.chain })).portDown p failAuth

theorem helloIsHeard {f : Frame} {peer : PeerHello} (state : (s.port p.val).state = .hello) (kind : f.ftype = 8)
    (clear : f.guarded = false) (good : f.good = true) (clean : f.clean = true) :
    ∃ t : State, exec (.hello p f peer) s = .next t ∧ SameWork s t ∧ (∀ q < 8, q ≠ p.val → t.port q = s.port q) ∧
      (peer.id = s.spool.moduleId → (t.port p.val).state = .down ∧ (t.port p.val).fail = 3) ∧
      (peer.id ≠ s.spool.moduleId → peer.lcState ≠ 2 → (t.port p.val).state = .down ∧ (t.port p.val).fail = 4) ∧
      (peer.id ≠ s.spool.moduleId → peer.lcState = 2 → s.sec.lc ≠ .service →
        (t.port p.val).state = .hello ∧ (t.port p.val).peer = peer.id) ∧
      (peer.id ≠ s.spool.moduleId → peer.lcState = 2 → s.sec.lc = .service →
        ((Config.chainVerifies peer.chain && Config.peerOwnerMatches peer.chain s.sec.ownerKey) = true →
          (t.port p.val).state = .secure ∧ (t.port p.val).peer = peer.id ∧
          (s.spool.moduleId < peer.id → KeysWait s t p.val)) ∧
        ((Config.chainVerifies peer.chain && Config.peerOwnerMatches peer.chain s.sec.ownerKey) = false →
          (t.port p.val).state = .down ∧ (t.port p.val).fail = 5)) := by
  set w := s.accepted p.val f with hw
  have port : w.port p.val = { s.port p.val with rxSeq := (f.lseq.toNat + 1) % 2 ^ 32 } := port_accepted lt f
  have moves : PortMoves s w p.val := moves_accepted s p.val f
  have lw : p.val < w.spool.ports.length := by rw [moves.len]; exact lt
  have here : (w.port p.val).state = .hello := by rw [port]; exact state
  have run : exec (.hello p f peer) s = .next (w.hears p.val peer) := by
    show execHello p f peer s = _
    rw [execHello, if_neg (by simp [kind]), receive_hello runs state kind clear good clean]
    dsimp only
    rw [← hw, if_neg (by simp [here])]
    rfl
  have known := moves_modPort w p.val (fun x => { x with peer := peer.id })
  have secure := known.trans (moves_modPort (w.modPort p.val (fun x => { x with peer := peer.id })) p.val
    (fun x => { x with state := .secure, peerChain := peer.chain }))
  have lv : p.val < ((w.modPort p.val (fun x => { x with peer := peer.id })).modPort p.val
    (fun x => { x with state := .secure, peerChain := peer.chain })).spool.ports.length := by rw [secure.len]; exact lw
  have portV := port_modPort_same (s := w.modPort p.val (fun x => { x with peer := peer.id })) (by rw [known.len]; exact lw)
    (fun x => { x with state := .secure, peerChain := peer.chain })
  rw [port_modPort_same lw, port] at portV
  set v := (w.modPort p.val (fun x => { x with peer := peer.id })).modPort p.val
    (fun x => { x with state := .secure, peerChain := peer.chain }) with hv
  have all : PortMoves w (w.hears p.val peer) p.val := by
    unfold State.hears
    split
    · exact moves_portDown w p.val _
    · split
      · exact moves_portDown w p.val _
      · split
        · exact known
        · split
          · exact secure.trans (moves_startKey v p.val)
          · exact secure.trans (moves_portDown v p.val _)
  have total := moves.trans all
  refine ⟨_, run, total.work, fun q _ ne => total.others q ne, fun own => ?_, fun other lc => ?_, fun other lc service => ?_,
    fun other lc service => ⟨fun holds => ?_, fun fails => ?_⟩⟩
  · rw [State.hears, if_pos (show peer.id = w.spool.moduleId from own),
      (portDown_falls lw (by rw [here]; decide) _).1]
    exact ⟨rfl, rfl⟩
  · rw [State.hears, if_neg (show ¬ peer.id = w.spool.moduleId from other), if_pos lc,
      (portDown_falls lw (by rw [here]; decide) _).1]
    exact ⟨rfl, rfl⟩
  · rw [State.hears, if_neg (show ¬ peer.id = w.spool.moduleId from other), if_neg (by simp [lc]),
      if_pos (show w.sec.lc ≠ .service from service), port_modPort_same lw]
    exact ⟨here, rfl⟩
  · obtain ⟨out, started, waits⟩ := port_startKey lv
    rw [State.hears, if_neg (show ¬ peer.id = w.spool.moduleId from other), if_neg (by simp [lc]),
      if_neg (show ¬ w.sec.lc ≠ .service from fun ne => ne service), if_pos (show (_ && Config.peerOwnerMatches peer.chain w.sec.ownerKey) = true from holds), ← hv, started, portV]
    refine ⟨rfl, rfl, fun lower => ?_⟩
    obtain ⟨m, e⟩ := waits (by rw [portV]; exact lower)
    exact keysWait_of_out (moves.trans secure) (congrArg Port.out portV :) ((congrArg Port.out started).trans e)
  · rw [State.hears, if_neg (show ¬ peer.id = w.spool.moduleId from other), if_neg (by simp [lc]),
      if_neg (show ¬ w.sec.lc ≠ .service from fun ne => ne service), if_neg (show ¬ (_ && Config.peerOwnerMatches peer.chain w.sec.ownerKey) = true from Bool.eq_false_iff.mp fails), ← hv,
      (portDown_falls lv (by rw [portV]; simp) _).1]
    exact ⟨rfl, rfl⟩
end

/-! ### Key messages of the peer -/

/-- Port `y` is `x` after the end of an exchange that a key message brings. -/
def Port.Agreed (x y : Port) : Prop :=
  (x.state = .secure → x.keys.1 = false → y.state = .secure ∧ y.keys = (true, false)) ∧
  (x.state = .secure → x.keys.1 = true → y.state = .active ∧ y.keys = (true, true) ∧ y.retry = []) ∧
  (x.state = .active → y.state = .active ∧ y.keyId = !x.keyId ∧ y.rekey = false)

section
variable {s : State} {p : Nat} (lt : p < s.spool.ports.length)
include lt

theorem port_keyAgreed : (s.port p).Agreed ((s.keyAgreed p).port p) ∧ ((s.keyAgreed p).port p).out = (s.port p).out := by
  unfold State.keyAgreed
  dsimp only
  split
  · next secure =>
    split
    · next first =>
      have e := port_modPort_same (s := s.fresh.2) lt (fun p => p.activate s.fresh.1)
      rw [e]
      exact ⟨⟨fun _ other => absurd (first.symm.trans other) (by decide), fun _ _ => ⟨rfl, rfl, rfl⟩,
        fun active => absurd (secure.symm.trans active) (by decide)⟩, rfl⟩
    · next first =>
      rw [port_modPort_same lt]
      exact ⟨⟨fun _ _ => ⟨secure, rfl⟩, fun _ other => absurd other first,
        fun active => absurd (secure.symm.trans active) (by decide)⟩, rfl⟩
  · next other =>
    split
    · next active =>
      rw [port_modPort_same lt]
      exact ⟨⟨fun secure => absurd secure other, fun secure => absurd secure other, fun _ => ⟨active, rfl, rfl⟩⟩, rfl⟩
    · next neither =>
      exact ⟨⟨fun secure => absurd secure other, fun secure => absurd secure other, fun active => absurd active neither⟩, rfl⟩
end

/-- What a port does with a whole key message. -/
def State.afterKey (s : State) (p : Nat) (payload : List Byte) : State :=
  if Config.keyMessageGood payload = false then s.portDown p failAuth
  else if s.spool.moduleId < (s.port p).peer then
    if (s.port p).state = .active ∧ (s.port p).rekey = false then s
    else if ((s.keyAgreed p).port p).state = .secure then (s.keyAgreed p).startKey p else s.keyAgreed p
  else (s.sendKey p).keyAgreed p

theorem moves_keyed (s : State) (p : Nat) (payload : List Byte) : PortMoves s (s.afterKey p payload) p := by
  unfold State.afterKey
  split
  · exact moves_portDown s p _
  · split
    · split
      · exact .refl s p
      · split
        · exact (moves_keyAgreed s p).trans (moves_startKey _ p)
        · exact moves_keyAgreed s p
    · exact (moves_sendKey s p).trans (moves_keyAgreed _ p)

section
variable {s : State} {p : Nat} {payload : List Byte} (lt : p < s.spool.ports.length)
  (good : Config.keyMessageGood payload = true)
include lt good

/-- The side with the higher module ID answers the message with its own. -/
theorem keyed_answers (higher : ¬ s.spool.moduleId < (s.port p).peer) :
    (s.port p).Agreed ((s.afterKey p payload).port p) ∧ ∃ m, ((s.afterKey p payload).port p).out =
      (s.port p).out ++ (s.linkFrames 7 (Config.keyMessage m)).map (fun f => (38, f)) := by
  rw [State.afterKey, if_neg (by simp [good]), if_neg higher]
  obtain ⟨m, sent⟩ := port_sendKey lt
  obtain ⟨agreed, out⟩ := port_keyAgreed (s := s.sendKey p) (p := p) (by rw [(moves_sendKey s p).len]; exact lt)
  rw [sent] at agreed out
  exact ⟨agreed, m, out⟩

/-- The side with the lower module ID ends the exchange that it began. -/
theorem keyed_ends (lower : s.spool.moduleId < (s.port p).peer)
    (began : ¬ ((s.port p).state = .active ∧ (s.port p).rekey = false)) :
    (s.port p).Agreed ((s.afterKey p payload).port p) := by
  rw [State.afterKey, if_neg (by simp [good]), if_pos lower, if_neg began]
  obtain ⟨agreed, -⟩ := port_keyAgreed lt
  split
  · obtain ⟨out, started, -⟩ := port_startKey (s := s.keyAgreed p) (p := p) (by rw [(moves_keyAgreed s p).len]; exact lt)
    rw [started]
    exact agreed
  · exact agreed
end

section
variable {s : State} {p : Fin 8} (lt : p.val < s.spool.ports.length) {f : Frame} (takes : Takes s p f)
include lt takes

theorem keyIsTaken (clear : f.guarded = false) (kind : f.ftype = 7)
    (state : (s.port p.val).state = .secure ∨ (s.port p.val).state = .active) :
    ∃ t : State, exec (.key p f true) s = .next t ∧ SameWork s t ∧ (∀ q < 8, q ≠ p.val → t.port q = s.port q) ∧
      (Config.keyMessageGood f.payload = false → (t.port p.val).state = .down ∧ (t.port p.val).fail = 5) ∧
      (Config.keyMessageGood f.payload = true →
        (¬ s.spool.moduleId < (s.port p.val).peer → KeysWait s t p.val) ∧
        ((s.port p.val).state = .secure → (s.port p.val).keys.1 = false →
          (t.port p.val).state = .secure ∧ (t.port p.val).keys = (true, false)) ∧
        ((s.port p.val).state = .secure → (s.port p.val).keys.1 = true →
          (t.port p.val).state = .active ∧ (t.port p.val).keys = (true, true) ∧ (t.port p.val).retry = []) ∧
        ((s.port p.val).state = .active → ¬ s.spool.moduleId < (s.port p.val).peer ∨ (s.port p.val).rekey = true →
          (t.port p.val).state = .active ∧ (t.port p.val).keyId = !(s.port p.val).keyId ∧ (t.port p.val).rekey = false) ∧
        ((s.port p.val).state = .active → s.spool.moduleId < (s.port p.val).peer → (s.port p.val).rekey = false →
          (t.port p.val).state = .active ∧ (t.port p.val).keyId = (s.port p.val).keyId ∧
            (t.port p.val).keys = (s.port p.val).keys)) := by
  set w := s.accepted p.val f with hw
  have port : w.port p.val = { s.port p.val with rxSeq := (f.lseq.toNat + 1) % 2 ^ 32 } := port_accepted lt f
  have moves : PortMoves s w p.val := moves_accepted s p.val f
  have lw : p.val < w.spool.ports.length := by rw [moves.len]; exact lt
  have here : ¬ ((w.port p.val).state ≠ .secure ∧ (w.port p.val).state ≠ .active) := by
    rw [port]; rintro ⟨a, b⟩; exact state.elim a b
  have run : exec (.key p f true) s = .next (w.afterKey p.val f.payload) := by
    show execKey p f true s = _
    rw [execKey, if_neg (by simp [kind, clear]), receive_takes takes]
    dsimp only
    rw [← hw, if_neg here, if_neg (by decide)]
    rfl
  have total := moves.trans (moves_keyed w p.val f.payload)
  refine ⟨_, run, total.work, fun q _ ne => total.others q ne, fun bad => ?_, fun good => ?_⟩
  · rw [State.afterKey, if_pos bad, (portDown_falls lw (by rw [port]; rcases state with h | h <;> rw [h] <;> decide) _).1]
    exact ⟨rfl, rfl⟩
  have peer : (w.port p.val).peer = (s.port p.val).peer := by rw [port]
  by_cases lower : s.spool.moduleId < (s.port p.val).peer
  · have lower' : w.spool.moduleId < (w.port p.val).peer := by rw [peer]; exact lower
    by_cases idle : (s.port p.val).state = .active ∧ (s.port p.val).rekey = false
    · have e : w.afterKey p.val f.payload = w := by
        rw [State.afterKey, if_neg (by simp [good]), if_pos lower', if_pos (by rw [port]; exact idle)]
      rw [e, port]
      exact ⟨fun h => absurd lower h, fun h => absurd (idle.1.symm.trans h) (by decide),
        fun h => absurd (idle.1.symm.trans h) (by decide),
        fun _ h => h.elim (fun h => absurd lower h) (fun h => absurd (idle.2.symm.trans h) (by decide)),
        fun active _ _ => ⟨active, rfl, rfl⟩⟩
    · have agreed := keyed_ends lw good lower' (by rw [port]; exact idle)
      rw [port] at agreed
      obtain ⟨first, second, switched⟩ := agreed
      exact ⟨fun h => absurd lower h, first, second, fun active _ => switched active,
        fun active _ rekey => absurd ⟨active, rekey⟩ idle⟩
  · obtain ⟨agreed, m, out⟩ := keyed_answers lw good (show ¬ w.spool.moduleId < (w.port p.val).peer by rw [peer]; exact lower)
    rw [port] at agreed
    obtain ⟨first, second, switched⟩ := agreed
    exact ⟨fun _ => keysWait_of_out moves (congrArg Port.out port :) out, first, second, fun active _ => switched active,
      fun _ h => absurd h lower⟩

/-! ### LINK frames, and frames of no form -/

theorem linkAcknowledges (active : (s.port p.val).state = .active) (kind : f.ftype = 6) :
    ∃ t : State, exec (.link p f) s = .next t ∧ SameWork s t ∧
      (t.port p.val).retry = (s.port p.val).retry.filter (fun g => !seqBefore g.lseq.toNat (Config.linkAck f.payload)) ∧
      (Config.linkResend f.payload = false → t.spool.sent = s.spool.sent) ∧
      (Config.linkResend f.payload = true →
        t.spool.sent = (t.port p.val).retry.reverse.map (fun g => (p.val, g)) ++ s.spool.sent) ∧
      (t.port p.val).state = .active ∧ ∀ q < 8, q ≠ p.val → t.port q = s.port q := by
  set w := s.accepted p.val f with hw
  have port : w.port p.val = { s.port p.val with rxSeq := (f.lseq.toNat + 1) % 2 ^ 32 } := port_accepted lt f
  have moves : PortMoves s w p.val := moves_accepted s p.val f
  have lw : p.val < w.spool.ports.length := by rw [moves.len]; exact lt
  set v := w.modPort p.val (fun x => x.acked f.payload) with hv
  have total : PortMoves s v p.val := moves.trans (moves_modPort w p.val _)
  have acked : v.port p.val = (w.port p.val).acked f.payload := port_modPort_same lw _
  have retry : (v.port p.val).retry = (s.port p.val).retry.filter
      (fun g => !seqBefore g.lseq.toNat (Config.linkAck f.payload)) := by rw [acked, port]; rfl
  have state : (v.port p.val).state = .active := by rw [acked, port]; exact active
  have run : exec (.link p f) s = .next
      (if Config.linkResend f.payload = false ∨ (v.port p.val).retry = [] then v
      else ({ v with spool := { v.spool with sent := (v.port p.val).retry.reverse.map (fun f => (p.val, f)) ++ v.spool.sent } } :
        State).count (90 + p.val) 3 (v.port p.val).retry.length) := by
    show execLink p f s = _
    rw [execLink, if_neg (by simp [kind]), receive_takes takes]
    dsimp only
    rw [← hw, if_neg (by rw [port]; simp [active])]
  by_cases quiet : Config.linkResend f.payload = false ∨ (v.port p.val).retry = []
  · rw [if_pos quiet] at run
    refine ⟨v, run, total.work, retry, fun _ => rfl, fun again => ?_, state, fun q _ ne => total.others q ne⟩
    rcases quiet with no | none_
    · exact absurd (no.symm.trans again) (by decide)
    · rw [none_]; rfl
  · rw [if_neg quiet] at run
    have last := total.trans (moves_recorded v p.val ((v.port p.val).retry.reverse.map (fun f => (p.val, f)) ++ v.spool.sent)
      v.spool.clear (90 + p.val) 3 (v.port p.val).retry.length)
    exact ⟨_, run, last.work, retry, fun no => absurd (.inl no) quiet, fun _ => rfl, state, fun q _ ne => last.others q ne⟩

omit takes in
theorem malformedIsNoted (runs : s.spoolRuns = true) (active : (s.port p.val).state = .active) (good : f.good = true)
    (guarded : f.guarded = true) (order : f.lseq.toNat = (s.port p.val).rxSeq) (bad : f.clean = false) :
    ∃ t : State, exec (.malformedFrame p f) s = .next t ∧ SameWork s t ∧ t.spool.event.getLsbD 5 = true ∧
      t.spool.sent = s.spool.sent ∧ t.spool.inboxes = s.spool.inboxes ∧ (t.port p.val).out = (s.port p.val).out := by
  have port := port_accepted lt f
  have reads : (s.port p.val).reads f = true := by rw [Port.reads, active]; rfl
  refine ⟨(s.accepted p.val f).spoolEvent 5, ?_, sameWork_accepted s p.val f, ?_, rfl, rfl, (congrArg Port.out port :)⟩
  · show execMalformedFrame p f s = _
    rw [execMalformedFrame, if_neg (by simp [bad]), State.receive, if_neg (by simp [runs, reads]), if_neg (by simp [good]),
      if_neg (by simp [guarded]), if_neg (by simp [order]), if_pos bad]
    rfl
  · show (s.spool.event ||| BitVec.ofNat 6 (2 ^ 5)).getLsbD 5 = true
    rw [BitVec.getLsbD_or, Bool.or_eq_true]
    exact Or.inr (by decide)
end

theorem portsComeUp : PortsComeUp := by
  intro s p runs len
  have lt : p.val < s.spool.ports.length := by rw [len]; exact p.isLt
  exact ⟨trainingStarts runs, trainingEnds runs, lockSendsHello runs lt,
    fun f peer state kind clear good clean => helloIsHeard runs lt state kind clear good clean,
    fun f takes clear kind state => keyIsTaken lt takes clear kind state,
    fun f takes active _ kind => linkAcknowledges lt takes active kind,
    fun f active good guarded order bad => malformedIsNoted lt runs active good guarded order bad⟩

/-- Settles O49. -/
theorem portStates : Obligations.PortStates := ⟨portsComeUp, portsGoDown⟩

end Sys2Proof.Machine
end

section
/-!
SUPPORT. Flash management keeps what the sectors hold (R318 to R338, R369).
-/
namespace Sys2Proof.Machine
open Sys2Proof.Safety

/-! ### Sectors and log entries (R318, R320, R324) -/

theorem newest_append (a b : List LogEntry) (i : Nat) (old : Sector) :
    newest (a ++ b) i old = newest b i (newest a i old) := by
  rw [newest, newest, newest, List.filter_append, List.foldl_append]

theorem newest_cons (e : LogEntry) (es : List LogEntry) (i : Nat) (old : Sector) :
    newest (e :: es) i old = newest es i (if e.sector = i then e.over old else old) := by
  rw [newest, newest, List.filter_cons]
  by_cases h : e.sector = i
  · rw [if_pos (by simpa using h), if_pos h, List.foldl_cons]
  · rw [if_neg (by simpa using h), if_neg h]

/-- Folding log entries in changes no sector's newest content. -/
theorem lookup_foldContent (es : List LogEntry) (c : List (Nat × Sector)) (i : Nat) :
    lookupD (foldContent c es) i zeroSector = newest es i (lookupD c i zeroSector) := by
  induction es generalizing c with
  | nil => rfl
  | cons e es ih =>
    rw [newest_cons]
    refine (ih _).trans (congrArg (newest es i) ?_)
    dsimp only
    split
    · next zero =>
      rw [lookupD_assocDrop]
      by_cases h : e.sector = i
      · subst h; rw [if_pos rfl, if_pos rfl, zero]
      · rw [if_neg (Ne.symm h), if_neg h]
    · rw [lookupD_assocSet]
      by_cases h : e.sector = i
      · subst h; rw [if_pos rfl]
      · rw [if_neg (Ne.symm h), if_neg h]

theorem chainEntries_append (a b : List LogBlock) : chainEntries (a ++ b) = chainEntries a ++ chainEntries b := by
  rw [chainEntries, List.map_append, List.flatten_append]; rfl

/-- The commit of a merge changes no sector of its logical block. -/
theorem onMedia_committed {l : LBlock} {m : Merge} (h : l.merge = some m) (i : Nat) : (l.committed m).onMedia i = l.onMedia i := by
  have frozen : l.frozen = m.frozen := by rw [LBlock.frozen, h]
  have after : (l.committed m).frozen = [] := rfl
  rw [LBlock.onMedia, LBlock.onMedia, frozen, after, List.nil_append, chainEntries_append, newest_append]
  exact congrArg (newest _ i) (lookup_foldContent _ _ i)

/-! ### States that hold the same sectors -/

/-- What flash management leaves alone of a state. -/
def State.around (s : State) : List Core × List Job × List Obj × List Staged := (s.cores, s.jobs, s.objs, s.media.staging)

theorem around_of_offMap {s t : State} (h : t.offMap = s.offMap) : t.around = s.around :=
  (congrArg (fun x : State => (x.cores, x.jobs, x.objs, x.media.staging)) h :)

/-- State `t` holds on its media what `s` holds, each logical block listed once. -/
structure SameMedia (s t : State) : Prop where
  around : t.around = s.around
  wf : lblocksWf t = true
  onMedia : ∀ k i, (t.lblock k).onMedia i = (s.lblock k).onMedia i

theorem SameMedia.trans {s t u : State} (h : SameMedia s t) (k : SameMedia t u) : SameMedia s u where
  around := k.around.trans h.around
  wf := k.wf
  onMedia := fun a i => (k.onMedia a i).trans (h.onMedia a i)

theorem SameMedia.of_lblocks {s t : State} (wf : lblocksWf s = true) (around : t.around = s.around)
    (lblocks : t.media.lblocks = s.media.lblocks) : SameMedia s t where
  around := around
  wf := by rw [lblocksWf, lblocks]; exact wf
  onMedia := fun k i => by rw [State.lblock, State.lblock?, lblocks]; rfl

theorem SameMedia.sectors {s t : State} (h : SameMedia s t) : SameSectors s t := by
  have staging : t.media.staging = s.media.staging := congrArg (fun x => x.2.2.2) h.around
  refine ⟨fun k i => ?_, congrArg (fun x => x.1) h.around, congrArg (fun x => x.2.1) h.around,
    congrArg (fun x => x.2.2.1) h.around⟩
  rw [State.sectorOf, staging, h.onMedia]
  rfl

/-! ### Writing a logical block -/

theorem lblock_num (s : State) (k : Nat) : (s.lblock k).num = k := by
  unfold State.lblock State.lblock?
  cases e : s.media.lblocks.find? (fun l => l.num == k) with
  | none => rfl
  | some l => exact beq_iff_eq.mp (List.find?_some e :)

theorem nodup_set {α : Type} (key : α → Nat) (l : List α) (y : α) (h : (l.map key).Nodup) :
    (((if (l.find? (fun x => key x == key y)).isSome then l.map (fun x => if key x == key y then y else x)
      else l ++ [y]) : List α).map key).Nodup := by
  split
  · have same : (l.map (fun x => if key x == key y then y else x)).map key = l.map key := by
      rw [List.map_map]
      refine List.map_congr_left fun x _ => ?_
      show key (if key x == key y then y else x) = key x
      split
      · next e => exact (beq_iff_eq.mp e).symm
      · rfl
    rw [same]; exact h
  · next new =>
    rw [List.map_append, List.map_cons, List.map_nil]
    refine h.append (List.nodup_singleton _) fun k hk hk' => ?_
    rw [List.mem_singleton] at hk'
    obtain ⟨x, hx, e⟩ := List.mem_map.mp hk
    refine new (List.find?_isSome.mpr ⟨x, hx, ?_⟩)
    rw [e, hk', beq_self_eq_true]

theorem lblocksWf_setLb {s : State} (h : lblocksWf s = true) (l : LBlock) : lblocksWf (s.setLb l) = true :=
  decide_eq_true (nodup_set LBlock.num s.media.lblocks l (of_decide_eq_true h))

/-- Writing a logical block with the content that it had. -/
theorem SameMedia.setLb {s : State} (wf : lblocksWf s = true) {l : LBlock}
    (same : ∀ i, l.onMedia i = (s.lblock l.num).onMedia i) : SameMedia s (s.setLb l) where
  around := rfl
  wf := lblocksWf_setLb wf l
  onMedia := fun k i => by
    rw [lblock_setLb]
    split
    · next e => rw [e]; exact same i
    · rfl

/-- A listed logical block is the one that its number finds. -/
theorem lblock_of_mem {s : State} (wf : lblocksWf s = true) {l : LBlock} (h : l ∈ s.media.lblocks) : s.lblock l.num = l := by
  have nodup : (s.media.lblocks.map (fun l => l.num)).Nodup := of_decide_eq_true wf
  have found : s.lblock? l.num = some l := by
    unfold State.lblock?
    revert nodup h
    induction s.media.lblocks with
    | nil => exact fun h => (nomatch h)
    | cons x t ih =>
      intro h nodup
      rw [List.map_cons, List.nodup_cons] at nodup
      rcases List.mem_cons.mp h with rfl | h
      · exact List.find?_cons_of_pos (beq_self_eq_true _)
      · have ne : x.num ≠ l.num := fun e => nodup.1 (e ▸ List.mem_map_of_mem h)
        rw [List.find?_cons_of_neg (by simpa using ne)]
        exact ih h nodup.2
  rw [State.lblock, found]
  rfl

/-! ### Records of the journal -/

/-- A record may commit a merge, which changes no sector. -/
theorem SameMedia.program {s : State} (wf : lblocksWf s = true) (r : JRec) : SameMedia s (s.program r) := by
  have around := around_of_offMap (offMap_program s r)
  rcases lblocks_program s r with e | ⟨l, hl, m, hm, -, -, e⟩
  · exact .of_lblocks wf around e
  · have step := SameMedia.setLb wf (l := l.committed m) (fun i => by
      rw [onMedia_committed hm, show (l.committed m).num = l.num from rfl, lblock_of_mem wf hl])
    have rest := SameMedia.of_lblocks (t := s.program r) step.wf around e
    exact step.trans rest

theorem SameMedia.programNext (n : Nat) {s : State} (wf : lblocksWf s = true) : SameMedia s (s.programNext n) := by
  induction n generalizing s with
  | zero => exact .of_lblocks wf rfl rfl
  | succ n ih =>
    rw [State.programNext]
    split
    · exact (SameMedia.program wf _).trans (ih (SameMedia.program wf _).wf)
    · exact .of_lblocks wf rfl rfl

theorem SameMedia.sync {s t : State} (h : SameMedia s t) : SameMedia s t.sync := h.trans (.programNext _ h.wf)

/-- A step that leaves the logical blocks and the work alone. -/
theorem SameMedia.then {s t u : State} (h : SameMedia s t) (around : u.around = t.around)
    (lblocks : u.media.lblocks = t.media.lblocks) : SameMedia s u := h.trans (.of_lblocks h.wf around lblocks)

theorem SameMedia.refl {s : State} (wf : lblocksWf s = true) : SameMedia s s := .of_lblocks wf rfl rfl

/-! ### What the superblocks' own changes leave alone -/

/-- What changes of superblocks and of the journal leave alone: the work, and the logical blocks. -/
def State.aside (s : State) : (List Core × List Job × List Obj × List Staged) × List LBlock := (s.around, s.media.lblocks)

theorem SameMedia.aside {s t u : State} (h : SameMedia s t) (e : u.aside = t.aside) : SameMedia s u :=
  h.then (congrArg Prod.fst e) (congrArg Prod.snd e)

theorem aside_setSb (s : State) (b : SBlock) : (s.setSb b).aside = s.aside := rfl

theorem aside_jrec (s : State) (type lb new old : Nat) (locs : List SbLoc) (loc : Option SbLoc) :
    (s.jrec type lb new old locs loc).aside = s.aside := rfl

theorem lblock_jrec (s : State) (type lb new old : Nat) (locs : List SbLoc) (loc : Option SbLoc) (k : Nat) :
    (s.jrec type lb new old locs loc).lblock k = s.lblock k := rfl

theorem aside_takeDuty (s : State) (loc : SbLoc) (d : SbDuty) : (s.takeDuty loc d).aside = s.aside := by
  unfold State.takeDuty
  split
  · rfl
  · split <;> rfl

theorem aside_openSb (s : State) (loc : SbLoc) (d : SbDuty) (role : SbRole) (lb : Nat) (j : Option Nat) :
    (s.openSb loc d role lb j).2.aside = s.aside := aside_takeDuty s loc d

theorem aside_wearOn (s : State) : s.wearOn.aside = s.aside := by
  unfold State.wearOn
  dsimp only
  split
  · rfl
  · split <;> split <;> rfl

theorem aside_giveRole (s : State) (b : SBlock) : (s.giveRole b).aside = s.aside := by
  unfold State.giveRole
  split <;> rfl

theorem aside_retireSb (s : State) (loc : SbLoc) : (s.retireSb loc).aside = s.aside := by
  have counted : ∀ w : State, (State.wearOn { w with media := { w.media with retired := w.media.retired + 1 } }).aside =
    w.aside := fun w => aside_wearOn _
  unfold State.retireSb
  refine (counted _).trans ?_
  split
  · exact aside_giveRole _ _
  · rfl

theorem aside_eraseSb (s : State) (loc : SbLoc) : (s.eraseSb loc).aside = s.aside := by
  unfold State.eraseSb
  extract_lets old b w m v
  have first : v.aside = s.aside := rfl
  split
  · exact (aside_retireSb v loc).trans first
  · split
    · exact (aside_setSb _ _).trans ((aside_giveRole v b).trans first)
    · exact first

theorem aside_release_ (s : State) (locs : List SbLoc) (jseq : Nat) : (s.release_ locs jseq).aside = s.aside := by
  refine foldl_keeps State.aside _ ?_ locs s
  intros; rfl

/-! ### Programming staged sectors (R319, R320) -/

theorem onMedia_opened (l : LBlock) (b : LogBlock) (h : b.entries = []) (i : Nat) :
    LBlock.onMedia { l with chain := l.chain ++ [b] } i = l.onMedia i := by
  have e : chainEntries [b] = [] := by rw [chainEntries, List.map_singleton, h]; rfl
  show newest (chainEntries (l.frozen ++ (l.chain ++ [b]))) i _ = _
  rw [← List.append_assoc, chainEntries_append, e, List.append_nil]
  rfl

theorem onMedia_appended {l : LBlock} {b : LogBlock} (last : l.chain.getLast? = some b) (now : List LogEntry) (i : Nat) :
    newest (chainEntries (l.frozen ++ (l.chain.dropLast ++ [{ b with entries := b.entries ++ now }]))) i
      (lookupD l.content i zeroSector) = newest now i (l.onMedia i) := by
  have split : l.chain.dropLast ++ [b] = l.chain := List.dropLast_append_getLast? b last
  have one : chainEntries [{ b with entries := b.entries ++ now }] = chainEntries [b] ++ now := by
    rw [chainEntries, chainEntries, List.map_singleton, List.map_singleton, List.flatten_singleton, List.flatten_singleton]
  rw [LBlock.onMedia, ← newest_append]
  conv_rhs => rw [← split]
  rw [← List.append_assoc, ← List.append_assoc, chainEntries_append, chainEntries_append (l.frozen ++ l.chain.dropLast) [b],
    one, List.append_assoc]

/-- The log block that the next entries of a logical block go to, and that it has room. -/
def HasRoom (s : State) (lb : Nat) (b : LogBlock) : Prop :=
  (s.lblock lb).chain.getLast? = some b ∧ b.entries.length < logEntries

theorem room_of_notFull {s : State} {lb : Nat} (h : (s.lblock lb).logFull = false) : ∃ b, HasRoom s lb b := by
  unfold LBlock.logFull at h
  split at h
  · next b last => exact ⟨b, last, by simpa using h⟩
  · cases h

theorem openLog_opens {s : State} (wf : lblocksWf s = true) (lb : Nat) (loc : SbLoc) :
    SameMedia s (s.openLog lb loc) ∧ ∃ b, HasRoom (s.openLog lb loc) lb b := by
  have opened : SameMedia s (s.openSb loc .log .log lb none).2 := (SameMedia.refl wf).aside (aside_openSb s loc .log .log lb none)
  set o := s.openSb loc .log .log lb none with ho
  have num := lblock_num o.2 lb
  set l := o.2.lblock lb with hl
  have written := SameMedia.setLb opened.wf (l := { l with chain := l.chain ++ [{ loc := loc, seq := o.1 }] }) (fun i => by
    rw [onMedia_opened l _ rfl]
    show l.onMedia i = (o.2.lblock l.num).onMedia i
    rw [num])
  have e : s.openLog lb loc =
    (o.2.setLb { l with chain := l.chain ++ [{ loc := loc, seq := o.1 }] }).jrec 2 (s.lbPlace lb) o.1 0 [loc] none := rfl
  rw [e]
  refine ⟨(opened.trans written).aside (aside_jrec _ _ _ _ _ _ _), { loc := loc, seq := o.1 }, ?_, show 0 < logEntries by decide⟩
  rw [lblock_jrec, lblock_setLb, if_pos num.symm]
  exact List.getLast?_concat

theorem appendLog_appends {s : State} (wf : lblocksWf s = true) {lb : Nat} {b : LogBlock} (room : HasRoom s lb b)
    (es : List LogEntry) : (s.appendLog lb es).around = s.around ∧ lblocksWf (s.appendLog lb es) = true ∧
      ∀ k i, ((s.appendLog lb es).lblock k).onMedia i =
        if k = lb then newest (es.take (logEntries - b.entries.length)) i ((s.lblock lb).onMedia i)
        else (s.lblock k).onMedia i := by
  have num := lblock_num s lb
  unfold State.appendLog
  dsimp only
  rw [room.1]
  dsimp only
  set now := es.take (logEntries - b.entries.length)
  set l := { s.lblock lb with
    chain := (s.lblock lb).chain.dropLast ++ [{ b with entries := b.entries ++ now }], lastAt := s.later.clock } with hl
  have done : ∀ t : State, t.aside = (s.later.setLb l).aside → t.around = s.around ∧ lblocksWf t = true ∧
      ∀ k i, (t.lblock k).onMedia i = if k = lb then newest now i ((s.lblock lb).onMedia i) else (s.lblock k).onMedia i := by
    intro t e
    have lblocks : t.media.lblocks = (s.later.setLb l).media.lblocks := congrArg Prod.snd e
    refine ⟨congrArg Prod.fst e, ?_, fun k i => ?_⟩
    · rw [lblocksWf, lblocks]
      exact lblocksWf_setLb (s := s.later) wf l
    · have at_ : t.lblock k = if k = lb then l else s.lblock k := by
        have : t.lblock k = (s.later.setLb l).lblock k := by rw [State.lblock, State.lblock?, lblocks]; rfl
        rw [this, lblock_setLb, show l.num = lb from num]
        rfl
      rw [at_]
      split
      · exact onMedia_appended room.1 now i
      · rfl
  split
  · exact done _ rfl
  · exact done _ rfl

theorem filter_staged_ne {st : List Staged} {lb k : Nat} (ne : k ≠ lb) (more : List Staged) (mine : ∀ e ∈ more, e.lb = lb) :
    (st.filter (fun e => e.lb != lb) ++ more).filter (fun e => e.lb == k) = st.filter (fun e => e.lb == k) := by
  have none : more.filter (fun e => e.lb == k) = [] :=
    List.filter_eq_nil_iff.mpr fun e he => by simpa [mine e he] using Ne.symm ne
  rw [List.filter_append, none, List.append_nil, List.filter_filter]
  refine List.filter_congr fun e _ => ?_
  by_cases h : e.lb = k
  · simp [h, ne]
  · simp [h]

theorem filter_staged_eq {st more : List Staged} {lb : Nat} (mine : ∀ e ∈ more, e.lb = lb) :
    (st.filter (fun e => e.lb != lb) ++ more).filter (fun e => e.lb == lb) = more := by
  have none : (st.filter (fun e => e.lb != lb)).filter (fun e => e.lb == lb) = [] :=
    List.filter_eq_nil_iff.mpr fun e he => by simpa using (List.mem_filter.mp he).2
  rw [List.filter_append, none, List.nil_append, List.filter_eq_self.mpr fun e he => by simpa using mine e he]

/-- Programming the staged entries of a logical block into its chain: every sector reads as before, and fewer are
staged. -/
theorem programLog_sectors {s : State} (wf : lblocksWf s = true) {lb : Nat} (loc : SbLoc)
    (staged : s.media.staging.filter (fun e => e.lb == lb) ≠ []) :
    SameSectors s (s.programLog lb loc) ∧ lblocksWf (s.programLog lb loc) = true ∧
      (s.programLog lb loc).media.staging.length < s.media.staging.length := by
  set mine := s.media.staging.filter (fun e => e.lb == lb) with hmine
  have own : ∀ e ∈ mine, e.lb = lb := fun e he => by simpa using (List.mem_filter.mp he).2
  obtain ⟨w, hw, opened, b, room⟩ : ∃ w, w = (if (s.lblock lb).logFull then s.openLog lb loc else s) ∧ SameMedia s w ∧
      ∃ b, HasRoom w lb b := by
    refine ⟨_, rfl, ?_⟩
    split
    · exact openLog_opens wf lb loc
    · next notFull => exact ⟨.refl wf, room_of_notFull (by simpa using notFull)⟩
  have free : logEntries - (((w.lblock lb).chain.getLast?).map (fun b => b.entries.length)).getD 0 =
      logEntries - b.entries.length := by rw [room.1]; rfl
  have same : w.media.staging = s.media.staging := congrArg (fun x => x.2.2.2) opened.around
  obtain ⟨around, wf', onMedia⟩ := appendLog_appends opened.wf room (entriesOf mine)
  have around' := around.trans opened.around
  have e : s.programLog lb loc = { w.appendLog lb (entriesOf mine) with media := { (w.appendLog lb (entriesOf mine)).media with
      staging := s.media.staging.filter (fun e => e.lb != lb) ++ mine.drop (logEntries - b.entries.length) } } := by
    unfold State.programLog
    dsimp only
    rw [← hw, free, same]
  have later : ∀ e ∈ mine.drop (logEntries - b.entries.length), e.lb = lb := fun e he => own e (List.mem_of_mem_drop he)
  rw [e]
  refine ⟨⟨fun k i => ?_, congrArg (fun x => x.1) around', congrArg (fun x => x.2.1) around',
    congrArg (fun x => x.2.2.1) around'⟩, wf', ?_⟩
  · show newest (entriesOf ((s.media.staging.filter (fun e => e.lb != lb) ++
      mine.drop (logEntries - b.entries.length)).filter (fun e => e.lb == k))) i
        (((w.appendLog lb (entriesOf mine)).lblock k).onMedia i) = _
    rw [onMedia, State.sectorOf, opened.onMedia, opened.onMedia]
    by_cases h : k = lb
    · subst h
      rw [if_pos rfl, filter_staged_eq later, ← newest_append, entriesOf, entriesOf, ← List.map_take, ← List.map_append,
        List.take_append_drop]
    · rw [if_neg h, filter_staged_ne h _ later]
  · have count : s.media.staging.length = (s.media.staging.filter (fun e => e.lb != lb)).length + mine.length :=
      (List.length_eq_length_filter_add (fun e : Staged => e.lb == lb)).trans (Nat.add_comm _ _)
    have pos := List.length_pos_iff.mpr staged
    have roomy := room.2
    show (s.media.staging.filter (fun e => e.lb != lb) ++ mine.drop (logEntries - b.entries.length)).length < _
    rw [List.length_append, List.length_drop, count]
    omega

end Sys2Proof.Machine
end

section
/-!
SUPPORT. Superblocks that retire, are erased or rebuilt, and the journal at rest (R325, R326, R329 to R334, R369).
-/
namespace Sys2Proof.Machine
open Sys2Proof.Safety

/-! ### Records that commit no merge -/

/-- No closed copy waits for its COMMIT record. -/
def NoneClosed (s : State) : Prop := ∀ l ∈ s.media.lblocks, ∀ m, l.merge = some m → m.closed = false

theorem NoneClosed.congr {s t : State} (h : NoneClosed s) (e : t.media.lblocks = s.media.lblocks) : NoneClosed t := by
  unfold NoneClosed; rw [e]; exact h

/-- All of a state but the journal's records, the counters and the flip-masks. -/
def State.offJournal (s : State) : State :=
  { s with media := { s.media with journal := [], nextProg := 0, waiting := [] }, integ := {}, dailies := {} }

theorem offJournal_mapWrite (s : State) (req : Nat) : (s.mapWrite req).offJournal = s.offJournal := by
  unfold State.mapWrite
  dsimp only
  split <;> rfl

theorem takeEffect_none {s : State} (h : NoneClosed s) (r : JRec) : s.takeEffect r = s := by
  have none : s.media.lblocks.find? (fun l => l.merge.any (fun m => m.closed && m.jseq == r.jseq)) = none := by
    refine List.find?_eq_none.mpr fun l hl => ?_
    cases e : l.merge with
    | none => simp
    | some m => simp [h l hl m e]
  rw [State.takeEffect, none]

theorem offJournal_program {s : State} (h : NoneClosed s) (r : JRec) :
    (s.program r).offJournal = s.offJournal ∧ NoneClosed (s.program r) := by
  unfold State.program
  extract_lets w m v
  have e : w.offJournal = s.offJournal := by
    simp only [w]
    split
    · rfl
    · exact offJournal_mapWrite s _
  have lblocks : w.media.lblocks = s.media.lblocks := (congrArg (fun x : State => x.media.lblocks) e :)
  have calm : NoneClosed (v.count 98 2 1) := h.congr lblocks
  rw [takeEffect_none calm]
  exact ⟨e, calm⟩

/-- Records that commit no merge change the journal alone. -/
theorem offJournal_programNext (n : Nat) {s : State} (h : NoneClosed s) : (s.programNext n).offJournal = s.offJournal := by
  induction n generalizing s with
  | zero => rfl
  | succ n ih =>
    rw [State.programNext]
    split
    · exact (ih (offJournal_program h _).2).trans (offJournal_program h _).1
    · rfl

theorem offJournal_sync {s : State} (h : NoneClosed s) : s.sync.offJournal = s.offJournal := offJournal_programNext _ h

section
variable {s t : State} (h : t.offJournal = s.offJournal)
include h

theorem sblock_of_offJournal (loc : SbLoc) : t.sblock loc = s.sblock loc := (congrArg (fun x : State => x.sblock loc) h :)
theorem lblocks_of_offJournal : t.media.lblocks = s.media.lblocks := (congrArg (fun x : State => x.media.lblocks) h :)
theorem retired_of_offJournal : t.media.retired = s.media.retired := (congrArg (fun x : State => x.media.retired) h :)
theorem wearTotal_of_offJournal : t.media.wearTotal = s.media.wearTotal := (congrArg (fun x : State => x.media.wearTotal) h :)
end

/-! ### Retirement (R332, R333) -/

theorem sblock_congr {s t : State} (h : t.media.sblocks = s.media.sblocks) (loc : SbLoc) : t.sblock loc = s.sblock loc := by
  rw [State.sblock, State.sblock?, h]; rfl

theorem sblock_loc (s : State) (loc : SbLoc) : (s.sblock loc).loc = loc := by
  unfold State.sblock State.sblock?
  cases e : s.media.sblocks.find? (fun b => b.loc == loc) with
  | none => rfl
  | some b => exact beq_iff_eq.mp (List.find?_some e :)

/-- The superblock that takes a role over is erased and of the four-bit kind. -/
theorem leastWorn_free {s : State} {d : Fin 144} {x : SbLoc} (h : s.leastWorn d = some x) :
    (s.sblock x).role = .free ∧ (s.sblock x).oneBit = false := by
  unfold State.leastWorn at h
  extract_lets fresh used at h
  have best : ∀ (l : List SbLoc) (init : Option SbLoc),
      (∀ y ∈ l, (s.sblock y).role = .free ∧ (s.sblock y).oneBit = false) →
      (∀ y, init = some y → (s.sblock y).role = .free ∧ (s.sblock y).oneBit = false) →
      ∀ y, l.foldl (fun best l => match best with
        | none => some l
        | some x => if (s.sblock l).wear < (s.sblock x).wear ∨
            ((s.sblock l).wear = (s.sblock x).wear ∧ sbNumber l < sbNumber x) then some l else best) init = some y →
        (s.sblock y).role = .free ∧ (s.sblock y).oneBit = false := by
    intro l
    induction l with
    | nil => exact fun init _ hi y e => hi y e
    | cons a l ih =>
      intro init hl hi
      refine ih _ (fun y hy => hl y (List.mem_cons_of_mem _ hy)) fun y e => ?_
      cases init with
      | none => cases e; exact hl a List.mem_cons_self
      | some z =>
        dsimp only at e
        split at e
        · cases e; exact hl a List.mem_cons_self
        · exact hi y e
  refine best _ none (fun y hy => ?_) (fun y e => (nomatch e)) x h
  simpa using (List.mem_filter.mp hy).2

/-- A superblock that takes a role over keeps its state. -/
theorem sblock_giveRole (s : State) (b : SBlock) (k : SbLoc) :
    ((s.giveRole b).sblock k).role = (s.sblock k).role ∧
      ((s.sblock k).role ≠ .free → (s.giveRole b).sblock k = s.sblock k) := by
  unfold State.giveRole
  split
  · exact ⟨rfl, fun _ => rfl⟩
  · next x hx =>
    rw [sblock_setSb]
    split
    · next e =>
      have at_ : k = x := e.trans (sblock_loc s x)
      subst at_
      exact ⟨rfl, fun ne => absurd (leastWorn_free hx).1 ne⟩
    · exact ⟨rfl, fun _ => rfl⟩

theorem media_giveRole (s : State) (b : SBlock) : (s.giveRole b).media.retired = s.media.retired ∧
    (s.giveRole b).media.wearTotal = s.media.wearTotal := by
  unfold State.giveRole
  split <;> exact ⟨rfl, rfl⟩

theorem media_wearOn (s : State) : s.wearOn.media.sblocks = s.media.sblocks ∧ s.wearOn.media.retired = s.media.retired ∧
    s.wearOn.media.wearTotal = s.media.wearTotal := by
  unfold State.wearOn
  dsimp only
  split
  · exact ⟨rfl, rfl, rfl⟩
  · split <;> split <;> exact ⟨rfl, rfl, rfl⟩

/-- A superblock that retires: it alone changes its state. -/
theorem retireSb_retires (s : State) (loc : SbLoc) :
    (s.retireSb loc).sblock loc = { s.sblock loc with role := .retired } ∧
      (s.retireSb loc).media.retired = s.media.retired + 1 ∧ (s.retireSb loc).media.wearTotal = s.media.wearTotal ∧
      ∀ k, k ≠ loc → ((s.retireSb loc).sblock k).role = (s.sblock k).role ∧
        ((s.sblock k).role ≠ .free → (s.retireSb loc).sblock k = s.sblock k) := by
  unfold State.retireSb
  extract_lets b w v u m
  have at_ : ∀ k, v.sblock k = if k = loc then { b with role := .retired } else s.sblock k := fun k => by
    have : v.sblock k = if k = b.loc then { b with role := .retired } else w.sblock k := sblock_setSb w { b with role := .retired } k
    rw [this, show b.loc = loc from sblock_loc s loc]
    rfl
  have given : ∀ k, (u.sblock k).role = (v.sblock k).role ∧ ((v.sblock k).role ≠ .free → u.sblock k = v.sblock k) := fun k => by
    simp only [u]
    split
    · exact sblock_giveRole v b k
    · exact ⟨rfl, fun _ => rfl⟩
  have counts : u.media.retired = s.media.retired ∧ u.media.wearTotal = s.media.wearTotal := by
    simp only [u]
    split
    · exact media_giveRole v b
    · exact ⟨rfl, rfl⟩
  generalize ex : ({ u with media := { m with retired := m.retired + 1 } } : State) = x
  obtain ⟨sblocks, retired, wearTotal⟩ := media_wearOn x
  have sx : ∀ k, x.sblock k = u.sblock k := fun k => by rw [← ex]; rfl
  have kept : ∀ k, x.wearOn.sblock k = u.sblock k := fun k => (sblock_congr sblocks k).trans (sx k)
  have own : v.sblock loc = { b with role := .retired } := (at_ loc).trans (if_pos rfl)
  refine ⟨?_, ?_, ?_, fun k ne => ?_⟩
  · rw [kept, (given loc).2 (by rw [own]; simp), own]
  · rw [retired, ← counts.1, ← ex]
  · rw [wearTotal, ← counts.2, ← ex]
  · have same : v.sblock k = s.sblock k := (at_ k).trans (if_neg ne)
    rw [kept, ← same]
    exact given k

theorem aside_count (s : State) (b e n : Nat) : (s.count b e n).aside = s.aside := rfl

/-! ### Erases (R326, R331, R332) -/

/-- Wear units of an erase. -/
def SBlock.units (b : SBlock) : Nat := if b.oneBit then 1 else 10

/-- A superblock that is erased: it is free, or retires where it is worn out or a program has failed on it. -/
theorem eraseSb_erases (s : State) (loc : SbLoc) :
    ((s.eraseSb loc).sblock loc).wear = (s.sblock loc).wear + (s.sblock loc).units ∧
      (s.eraseSb loc).media.wearTotal = s.media.wearTotal + (s.sblock loc).units ∧
      ((s.sblock loc).wear + (s.sblock loc).units < 30000 → (s.sblock loc).failing = false →
        ((s.eraseSb loc).sblock loc).role = .free ∧ (s.eraseSb loc).media.retired = s.media.retired) ∧
      (30000 ≤ (s.sblock loc).wear + (s.sblock loc).units ∨ (s.sblock loc).failing = true →
        ((s.eraseSb loc).sblock loc).role = .retired ∧ (s.eraseSb loc).media.retired = s.media.retired + 1) := by
  unfold State.eraseSb
  extract_lets old b w m v
  have wear : b.wear = old.wear + old.units := rfl
  have own : v.sblock loc = b := by
    have : v.sblock loc = if loc = b.loc then b else s.sblock loc := sblock_setSb s b loc
    exact this.trans (if_pos (sblock_loc s loc).symm)
  have total : v.media.wearTotal = s.media.wearTotal + old.units := by
    show s.media.wearTotal + (b.wear - old.wear) = _
    rw [wear, Nat.add_sub_cancel_left]
  by_cases worn : old.failing = true ∨ 30000 ≤ b.wear
  · rw [if_pos worn]
    obtain ⟨sb, retired, wearTotal, -⟩ := retireSb_retires v loc
    rw [sb, own]
    refine ⟨wear, wearTotal.trans total, fun fresh fine => ?_, fun _ => ⟨rfl, retired⟩⟩
    rcases worn with bad | old_
    · exact absurd (bad.symm.trans fine) (by decide)
    · rw [wear] at old_
      exact absurd fresh (Nat.not_lt.mpr old_)
  · rw [if_neg worn]
    have fresh : ¬ (30000 ≤ old.wear + old.units ∨ old.failing = true) := fun h => worn (wear ▸ h.symm)
    split
    · have gives := media_giveRole v b
      have sb : ((v.giveRole b).setSb { b with oneBit := false, duty := .spare }).sblock loc =
          { b with oneBit := false, duty := .spare } :=
        (sblock_setSb _ _ _).trans (if_pos (sblock_loc s loc).symm)
      rw [sb]
      exact ⟨wear, gives.2.trans total, fun _ _ => ⟨rfl, gives.1⟩, fun h => absurd h fresh⟩
    · rw [own]
      exact ⟨wear, total, fun _ _ => ⟨rfl, rfl⟩, fun h => absurd h fresh⟩

/-- The state after the program of a log block fails: its newest superblock is due for relocation. -/
def State.failNewest (s : State) (lb : Nat) : State :=
  match (s.lblock lb).chain.getLast? with
  | some b => s.setSb { s.sblock b.loc with failing := true }
  | none => s

/-- It is the state itself, or the state with one superblock set. -/
theorem failNewest_cases (s : State) (lb : Nat) :
    s.failNewest lb = s ∨ ∃ x : SBlock, s.failNewest lb = s.setSb x := by
  unfold State.failNewest
  split
  · exact Or.inr ⟨_, rfl⟩
  · exact Or.inl rfl

section
variable {s : State} (wf : lblocksWf s = true) (runs : s.mediaRuns = true) {loc : SbLoc}
include wf runs

omit runs in
/-- What follows a change of superblocks while no closed copy waits: the sectors and the logical blocks stay. -/
theorem sync_aside (calm : NoneClosed s) {t : State} (e : t.aside = s.aside) :
    SameSectors s t.sync ∧ t.sync.media.lblocks = s.media.lblocks ∧ t.sync.offJournal = t.offJournal := by
  have lblocks : t.media.lblocks = s.media.lblocks := congrArg Prod.snd e
  have still := offJournal_sync (calm.congr lblocks)
  exact ⟨((SameMedia.refl wf).aside e).sync.sectors, (lblocks_of_offJournal still).trans lblocks, still⟩

omit wf in
theorem exec_erase (released : (s.sblock loc).role = .released) (due : (s.sblock loc).freed ≤ s.media.nextProg) (good : Bool) :
    exec (.superblockErase loc good) s = .next (if good then s.eraseSb loc else s.retireSb loc).sync := by
  show execSuperblockErase loc good s = _
  rw [execSuperblockErase, if_neg (by simp [runs]), if_pos ⟨released, due⟩]

theorem releasedIsErased (calm : NoneClosed s) (released : (s.sblock loc).role = .released)
    (due : (s.sblock loc).freed ≤ s.media.nextProg) :
    ∃ t : State, exec (.superblockErase loc true) s = .next t ∧ SameSectors s t ∧ t.media.lblocks = s.media.lblocks ∧
      (t.sblock loc).wear = (s.sblock loc).wear + (s.sblock loc).units ∧
      t.media.wearTotal = s.media.wearTotal + (s.sblock loc).units ∧
      ((s.sblock loc).wear + (s.sblock loc).units < 30000 → (s.sblock loc).failing = false →
        (t.sblock loc).role = .free ∧ t.media.retired = s.media.retired) ∧
      (30000 ≤ (s.sblock loc).wear + (s.sblock loc).units ∨ (s.sblock loc).failing = true →
        (t.sblock loc).role = .retired ∧ t.media.retired = s.media.retired + 1) := by
  obtain ⟨sectors, lblocks, still⟩ := sync_aside wf calm (aside_eraseSb s loc)
  refine ⟨_, exec_erase runs released due true, sectors, lblocks, ?_⟩
  rw [if_pos rfl, sblock_of_offJournal still, wearTotal_of_offJournal still, retired_of_offJournal still]
  exact eraseSb_erases s loc

theorem failedEraseRetires (calm : NoneClosed s) (released : (s.sblock loc).role = .released)
    (due : (s.sblock loc).freed ≤ s.media.nextProg) :
    ∃ t : State, exec (.superblockErase loc false) s = .next t ∧ SameSectors s t ∧ t.media.lblocks = s.media.lblocks ∧
      (t.sblock loc).role = .retired ∧ t.media.retired = s.media.retired + 1 := by
  obtain ⟨sectors, lblocks, still⟩ := sync_aside wf calm (aside_retireSb s loc)
  obtain ⟨sb, retired, -, -⟩ := retireSb_retires s loc
  refine ⟨_, exec_erase runs released due false, sectors, lblocks, ?_⟩
  rw [if_neg Bool.false_ne_true, sblock_of_offJournal still, retired_of_offJournal still, sb]
  exact ⟨rfl, retired⟩

theorem retiredIsWiped (retired : (s.sblock loc).role = .retired) :
    ∃ t : State, exec (.superblockErase loc true) s = .next t ∧ SameSectors s t ∧
      t.sblock loc = { s.sblock loc with owners := [] } ∧ t.media.lblocks = s.media.lblocks := by
  refine ⟨(s.setSb { s.sblock loc with owners := [] }).count (groupBlock loc) 3 1, ?_,
    ((SameMedia.refl wf).aside ((aside_count _ _ _ _).trans
    (aside_setSb s { s.sblock loc with owners := [] }))).sectors, ?_, rfl⟩
  · show execSuperblockErase loc true s = _
    rw [execSuperblockErase, if_neg (by simp [runs]), if_neg (by simp [retired]), if_pos ⟨retired, rfl⟩]
  · exact (sblock_setSb _ _ _).trans (if_pos (sblock_loc s loc).symm)

/-- A program that fails retires the superblock just opened, or leaves its log block due for relocation. -/
theorem failedProgramKeeps {lb : Nat} (staged : ∃ e ∈ s.media.staging, e.lb = lb)
    (room : (s.lblock lb).logFull = false ∨
      ((s.lblock lb).chain.length < 4 ∧ s.logsUsed < 4096 ∧ s.locFree loc true .log = true)) :
    ∃ t : State, exec (.stagingProgram lb ⟨loc, false⟩) s = .next t ∧ SameSectors s t ∧ t.media.staging = s.media.staging ∧
      (JournalRests s → (s.lblock lb).logFull = true →
        (t.sblock loc).role = .retired ∧ t.media.retired = s.media.retired + 1) := by
  obtain ⟨e, he, hlb⟩ := staged
  have mine : s.media.staging.filter (fun e => e.lb == lb) ≠ [] :=
    List.ne_nil_of_mem (List.mem_filter.mpr ⟨he, by simpa using hlb⟩)
  have run : exec (.stagingProgram lb ⟨loc, false⟩) s = .next (if (s.lblock lb).logFull then (s.retireSb loc).sync
      else s.failNewest lb) := by
    show execStagingProgram lb ⟨loc, false⟩ s = _
    rw [execStagingProgram]
    dsimp only
    rw [if_neg (by simp [runs, mine]), if_neg, if_pos rfl]
    · rfl
    · rintro ⟨full, no⟩
      rcases room with notFull | ⟨short, few, free⟩
      · exact absurd (full.symm.trans notFull) (by decide)
      · rcases no with a | a | a
        · omega
        · omega
        · exact absurd (a.symm.trans free) (by decide)
  cases full : (s.lblock lb).logFull with
  | true =>
    rw [full, if_pos rfl] at run
    have kept := ((SameMedia.refl wf).aside (aside_retireSb s loc)).sync
    refine ⟨_, run, kept.sectors, congrArg (fun x => x.2.2.2) kept.around, fun rests _ => ?_⟩
    obtain ⟨-, -, still⟩ := sync_aside wf rests.2.2 (aside_retireSb s loc)
    obtain ⟨sb, retired, -, -⟩ := retireSb_retires s loc
    rw [sblock_of_offJournal still, retired_of_offJournal still, sb]
    exact ⟨rfl, retired⟩
  | false =>
    rw [full, if_neg Bool.false_ne_true] at run
    refine ⟨_, run, ?_, ?_, fun _ h => absurd h (by decide)⟩
    · rcases failNewest_cases s lb with same | ⟨x, set⟩
      · rw [same]
        exact (SameMedia.refl wf).sectors
      · rw [set]
        exact ((SameMedia.refl wf).aside (aside_setSb s x)).sectors
    · rcases failNewest_cases s lb with same | ⟨x, set⟩
      · rw [same]
      · rw [set]
        rfl

/-- Staged sectors are programmed. -/
theorem stagedAreProgrammed {lb : Nat} (staged : ∃ e ∈ s.media.staging, e.lb = lb)
    (room : (s.lblock lb).logFull = false ∨
      ((s.lblock lb).chain.length < 4 ∧ s.logsUsed < 4096 ∧ s.locFree loc true .log = true)) :
    ∃ t : State, exec (.stagingProgram lb ⟨loc, true⟩) s = .next t ∧ SameSectors s t ∧
      t.media.staging.length < s.media.staging.length := by
  obtain ⟨e, he, hlb⟩ := staged
  have mine : s.media.staging.filter (fun e => e.lb == lb) ≠ [] :=
    List.ne_nil_of_mem (List.mem_filter.mpr ⟨he, by simpa using hlb⟩)
  have run : exec (.stagingProgram lb ⟨loc, true⟩) s = .next
      ((((s.media.staging.filter (fun e => e.lb == lb)).filterMap (fun e => e.uid)).dedup).foldl State.stagedDone
        (s.programLog lb loc).sync).settle := by
    show execStagingProgram lb ⟨loc, true⟩ s = _
    rw [execStagingProgram]
    dsimp only
    rw [if_neg (by simp [runs, mine]), if_neg, if_neg (by decide)]
    rintro ⟨full, no⟩
    rcases room with notFull | ⟨short, few, free⟩
    · exact absurd (full.symm.trans notFull) (by decide)
    · rcases no with a | a | a
      · omega
      · omega
      · exact absurd (a.symm.trans free) (by decide)
  obtain ⟨⟨sectors, cores, jobs, objs⟩, wf', fewer⟩ := programLog_sectors wf loc mine
  have synced := (SameMedia.refl wf').sync
  obtain ⟨sectors', cores', jobs', objs'⟩ := synced.sectors
  refine ⟨_, run, ?_⟩
  generalize ew : (((s.media.staging.filter (fun e => e.lb == lb)).filterMap (fun e => e.uid)).dedup).foldl State.stagedDone
    (s.programLog lb loc).sync = w
  have ends : inside w = inside (s.programLog lb loc).sync := by rw [← ew]; exact foldl_keeps inside _ inside_stagedDone _ _
  have all : inside w.settle = inside (s.programLog lb loc).sync := (inside_settle w).trans ends
  have media : w.settle.media = (s.programLog lb loc).sync.media := (congrArg State.media all :)
  refine ⟨⟨fun k i => ?_, ?_, ?_, ?_⟩, ?_⟩
  · exact (sectorOf_congr (congrArg Media.lblocks media) (congrArg Media.staging media) k i).trans
      ((sectors' k i).trans (sectors k i))
  · exact (congrArg State.cores all :).trans (cores'.trans cores)
  · exact (congrArg State.jobs all :).trans (jobs'.trans jobs)
  · exact (congrArg State.objs all :).trans (objs'.trans objs)
  · rw [media, show (s.programLog lb loc).sync.media.staging = (s.programLog lb loc).media.staging from
      congrArg (fun x => x.2.2.2) synced.around]
    exact fewer
end

end Sys2Proof.Machine
end

section
/-!
SUPPORT. Merges (R321 to R326): their start, their commit, and copies whose programs fail.
-/
namespace Sys2Proof.Machine
open Sys2Proof.Safety

/-! ### Superblocks set one after another -/

/-- Superblocks that are all given one role: each has it, and the others stay. -/
theorem sblock_setAll (f : SBlock → SBlock) (hf : ∀ b, (f b).loc = b.loc) {role : SbRole} (hr : ∀ b, (f b).role = role)
    (locs : List SbLoc) (s : State) :
    (∀ p ∈ locs, ((locs.foldl (fun s p => s.setSb (f (s.sblock p))) s).sblock p).role = role) ∧
      ∀ p, p ∉ locs → (locs.foldl (fun s p => s.setSb (f (s.sblock p))) s).sblock p = s.sblock p := by
  induction locs generalizing s with
  | nil => exact ⟨fun p hp => (nomatch hp), fun _ _ => rfl⟩
  | cons a l ih =>
    obtain ⟨there, others⟩ := ih (s.setSb (f (s.sblock a)))
    have step : ∀ p, (s.setSb (f (s.sblock a))).sblock p = if p = a then f (s.sblock a) else s.sblock p := fun p => by
      rw [sblock_setSb, hf, sblock_loc]
    refine ⟨fun p hp => ?_, fun p hp => ?_⟩
    · by_cases h : p ∈ l
      · exact there p h
      · have e : p = a := (List.mem_cons.mp hp).resolve_right h
        rw [List.foldl_cons, others p h, step, if_pos e]
        exact hr _
    · rw [List.mem_cons, not_or] at hp
      exact (others p hp.2).trans ((step p).trans (if_neg hp.1))

theorem role_takeDuty (s : State) (loc : SbLoc) (d : SbDuty) (k : SbLoc) :
    ((s.takeDuty loc d).sblock k).role = (s.sblock k).role := by
  have duty : ∀ (w : State) (x : SbLoc) (e : SbDuty),
      ((w.setSb { w.sblock x with duty := e }).sblock k).role = (w.sblock k).role := fun w x e => by
    rw [sblock_setSb]
    split
    · next h => rw [h.trans (sblock_loc w x)]
    · rfl
  unfold State.takeDuty
  split
  · rfl
  · split
    · rfl
    · exact (duty _ _ _).trans (duty _ _ _)

/-- A superblock that is opened has its role, and every other one the role that it had. -/
theorem role_openSb (s : State) (loc : SbLoc) (d : SbDuty) (role : SbRole) (lb : Nat) (j : Option Nat) (k : SbLoc) :
    ((s.openSb loc d role lb j).2.sblock k).role = if k = loc then role else (s.sblock k).role := by
  unfold State.openSb
  dsimp only
  rw [sblock_setSb]
  have at_ : (((s.takeDuty loc d).newSeq).2.sblock loc).loc = loc := sblock_loc _ _
  by_cases h : k = loc
  · rw [if_pos (h.trans at_.symm), if_pos h]
  · rw [if_neg (fun e => h (e.trans at_)), if_neg h]
    exact role_takeDuty s loc d k

/-! ### The start of a merge (R322, R323) -/

section
variable (l : LBlock) (j : Nat)

/-- A superblock opened for the copy of a merge. -/
def State.openCopy (s : State) (p : SbLoc) : State :=
  (s.openSb p .t2 .copying l.num (some j)).2.setSb
    { (s.openSb p .t2 .copying l.num (some j)).2.sblock p with folded := l.folds l.chain }

theorem aside_openCopy (s : State) (p : SbLoc) : (s.openCopy l j p).aside = s.aside := aside_openSb s p .t2 .copying l.num (some j)

theorem role_openCopy (s : State) (p k : SbLoc) :
    ((s.openCopy l j p).sblock k).role = if k = p then .copying else (s.sblock k).role := by
  rw [State.openCopy, sblock_setSb]
  split
  · next e =>
    have at_ : k = p := e.trans (sblock_loc _ p)
    rw [if_pos at_]
    show ((s.openSb p .t2 .copying l.num (some j)).2.sblock p).role = _
    rw [role_openSb, if_pos rfl]
  · exact role_openSb s p .t2 .copying l.num (some j) k

theorem role_openCopies (locs : List SbLoc) (s : State) {p : SbLoc} (h : p ∈ locs ∨ (s.sblock p).role = .copying) :
    ((locs.foldl (State.openCopy l j) s).sblock p).role = .copying := by
  induction locs generalizing s with
  | nil => exact h.resolve_left (fun e => nomatch e)
  | cons a t ih =>
    refine ih (s.openCopy l j a) ?_
    rw [role_openCopy]
    by_cases e : p = a
    · exact .inr (if_pos e)
    · rw [if_neg e]
      exact h.imp_left fun mem => (List.mem_cons.mp mem).resolve_left e
end

section
variable {s : State} (wf : lblocksWf s = true) {lb : Nat} {locs : List SbLoc}
include wf

theorem startMerge_starts (idle : (s.lblock lb).merge = none) : ∃ m, SameSectors s (s.startMerge (s.lblock lb) locs) ∧
    ((s.startMerge (s.lblock lb) locs).lblock lb).merge = some m ∧ m.frozen = (s.lblock lb).chain ∧ m.locs = locs ∧
    m.jseq = s.media.nextJseq ∧ ((s.startMerge (s.lblock lb) locs).lblock lb).chain = [] ∧
    ∀ p ∈ locs, ((s.startMerge (s.lblock lb) locs).sblock p).role = .copying := by
  have num := lblock_num s lb
  set l := s.lblock lb with hl
  set w := locs.foldl (State.openCopy l s.media.nextJseq) s.newJseq.2 with hw
  have aside : w.aside = s.aside := foldl_keeps State.aside _ (aside_openCopy l _) locs s.newJseq.2
  have opened : SameMedia s w := (SameMedia.refl wf).aside aside
  have same : w.lblock lb = l := by rw [State.lblock, State.lblock?, show w.media.lblocks = _ from congrArg Prod.snd aside]; rfl
  set m : Merge := { locs := locs, seq := w.media.nextSeq - 1, jseq := s.media.nextJseq, frozen := l.chain
                     kind := mergeKind (chainEntries l.chain) } with hm
  have e : s.startMerge l locs = w.setLb { l with chain := [], merge := some m } := rfl
  have frozen : l.frozen = [] := by rw [LBlock.frozen, idle]
  have written := SameMedia.setLb opened.wf (l := { l with chain := [], merge := some m }) (fun i => by
    show newest (chainEntries (l.chain ++ [])) i (lookupD l.content i zeroSector) = (w.lblock l.num).onMedia i
    rw [num, same, LBlock.onMedia, frozen, List.append_nil, List.nil_append])
  have at_ : (w.setLb { l with chain := [], merge := some m }).lblock lb = { l with chain := [], merge := some m } :=
    (lblock_setLb _ _ _).trans (if_pos num.symm)
  rw [e, at_]
  exact ⟨m, (opened.trans written).sectors, rfl, rfl, rfl, rfl, rfl,
    fun p hp => role_openCopies l s.media.nextJseq locs s.newJseq.2 (.inl hp)⟩

theorem mergeStarts (can : s.mergeable (s.lblock lb) locs = true) {row : Instr}
    (mem : row ∈ (if s.mergeDue (s.lblock lb) then [Instr.mergeStart lb locs] else []) ++
      (if s.media.staging.any (fun e => e.lb == lb) then [] else [.logIdleTimeout lb locs])) :
    ∃ (t : State) (m : Merge), exec row s = .next t ∧ SameSectors s t ∧ (t.lblock lb).merge = some m ∧
      m.frozen = (s.lblock lb).chain ∧ m.locs = locs ∧ m.jseq = s.media.nextJseq ∧ (t.lblock lb).chain = [] ∧
      ∀ p ∈ locs, (t.sblock p).role = .copying := by
  have idle : (s.lblock lb).merge = none := by
    simp only [State.mergeable, Bool.and_eq_true, Option.isNone_iff_eq_none] at can
    tauto
  obtain ⟨m, rest⟩ := startMerge_starts (locs := locs) wf idle
  refine ⟨_, m, ?_, rest⟩
  rcases List.mem_append.mp mem with due | quiet
  · split at due
    · next h =>
      obtain rfl := List.mem_singleton.mp due
      show execMergeStart lb locs s = _
      rw [execMergeStart, can, h]
      rfl
    · cases due
  · split at quiet
    · cases quiet
    · next h =>
      obtain rfl := List.mem_singleton.mp quiet
      show execLogIdleTimeout lb locs s = _
      rw [execLogIdleTimeout, can, Bool.eq_false_iff.mpr h]
      rfl

/-! ### The end of a merge (R323, R324, R326, R332) -/

/-- A logical block whose copy is closed. -/
def LBlock.closing (l : LBlock) (m : Merge) : LBlock := { l with merge := some { m with closed := true } }

omit wf in
theorem onMedia_closing {l : LBlock} {m : Merge} (h : l.merge = some m) (i : Nat) : (l.closing m).onMedia i = l.onMedia i := by
  have frozen : l.frozen = m.frozen := by rw [LBlock.frozen, h]
  rw [LBlock.onMedia, LBlock.onMedia, frozen]
  rfl

/-- The closed copy of a merge, its COMMIT record queued. -/
def State.closeCopy (s : State) (lb : Nat) (m : Merge) : State :=
  ((m.locs.foldl (fun s p => s.setSb { s.sblock p with closed := true }) s).setLb ((s.lblock lb).closing m)).queueRec
    { jseq := m.jseq, type := 1, lblock := ((m.locs.foldl (fun s p => s.setSb { s.sblock p with closed := true }) s).setLb
        ((s.lblock lb).closing m)).lbPlace lb
      newSeq := m.seq, oldSeq := (s.lblock lb).seq, newLocs := m.locs, oldLoc := (s.lblock lb).mapped.head? }

omit wf in
theorem commitMerge_open {m : Merge} (h : (s.lblock lb).merge = some m) (open_ : m.closed = false) :
    s.commitMerge lb = (s.closeCopy lb m).sync := by
  unfold State.commitMerge
  dsimp only
  rw [h]
  dsimp only
  rw [if_neg (by simp [open_])]
  rfl

theorem closeCopy_same {m : Merge} (h : (s.lblock lb).merge = some m) : SameMedia s (s.closeCopy lb m) := by
  have num := lblock_num s lb
  set w := m.locs.foldl (fun s p => s.setSb { s.sblock p with closed := true }) s with hw
  have aside : w.aside = s.aside := by
    refine foldl_keeps State.aside _ ?_ m.locs s
    intros; rfl
  have closed : SameMedia s w := (SameMedia.refl wf).aside aside
  have written := SameMedia.setLb closed.wf (l := (s.lblock lb).closing m) (fun i => by
    rw [onMedia_closing h, show ((s.lblock lb).closing m).num = lb from num]
    exact (closed.onMedia lb i).symm)
  exact (closed.trans written).aside rfl

theorem abandonMerge_same {m : Merge} (h : (s.lblock lb).merge = some m) : SameMedia s (s.abandonMerge (s.lblock lb)) := by
  have frozen : (s.lblock lb).frozen = m.frozen := by rw [LBlock.frozen, h]
  have written := SameMedia.setLb wf (l := { s.lblock lb with chain := m.frozen ++ (s.lblock lb).chain, merge := none })
    (fun i => by
      show newest (chainEntries ([] ++ (m.frozen ++ (s.lblock lb).chain))) i _ = (s.lblock (s.lblock lb).num).onMedia i
      rw [lblock_num, LBlock.onMedia, frozen, List.nil_append])
  unfold State.abandonMerge
  rw [h]
  dsimp only
  exact (written.aside (aside_release_ _ m.locs m.jseq)).aside rfl

theorem commitKeeps (runs : s.mediaRuns = true) {m : Merge} (h : (s.lblock lb).merge = some m) (good : Bool) :
    ∃ t : State, exec (.mergeCommit ⟨lb, good⟩) s = .next t ∧ SameSectors s t := by
  have run : exec (.mergeCommit ⟨lb, good⟩) s = execMergeCommit ⟨lb, good⟩ s := rfl
  rw [execMergeCommit, if_neg (by simp [runs])] at run
  cases good with
  | true =>
    refine ⟨_, run, ?_⟩
    cases closed : m.closed with
    | true =>
      have e : s.commitMerge lb = s := by
        unfold State.commitMerge
        dsimp only
        rw [h]
        exact if_pos closed
      rw [e]
      exact (SameMedia.refl wf).sectors
    | false =>
      rw [commitMerge_open h closed]
      exact (closeCopy_same wf h).sync.sectors
  | false =>
    rw [if_neg Bool.false_ne_true] at run
    dsimp only at run
    rw [h] at run
    dsimp only at run
    cases closed : m.closed with
    | true =>
      rw [closed, if_pos rfl] at run
      exact ⟨s, run, (SameMedia.refl wf).sectors⟩
    | false =>
      rw [closed, if_neg Bool.false_ne_true] at run
      refine ⟨_, run, ?_⟩
      have same := abandonMerge_same wf h
      split
      · exact (same.aside (aside_retireSb _ _)).sync.sectors
      · exact same.sync.sectors
end

/-- A record takes effect on the logical blocks as they stand. -/
theorem program_takesEffect (s : State) (r : JRec) : ∃ v : State, s.program r = v.takeEffect r ∧ v.media.lblocks = s.media.lblocks := by
  refine ⟨_, rfl, ?_⟩
  show (State.media (ite _ _ _)).lblocks = _
  split
  · rfl
  · rw [media_mapWrite]

/-- The commit of a merge: its superblocks are mapped, and those that it replaces released. -/
theorem finishMerge_roles (s : State) (l : LBlock) (m : Merge) :
    (∀ p ∈ m.locs, ((s.finishMerge l m).sblock p).role = .mapped) ∧
      ∀ p ∈ l.mapped ++ m.frozen.map (fun b => b.loc), p ∉ m.locs → ((s.finishMerge l m).sblock p).role = .released := by
  have freed := sblock_setAll (fun b => { b with role := .released, freed := m.jseq + 1 }) (fun _ => rfl) (fun _ => rfl)
    (l.mapped ++ m.frozen.map (fun b => b.loc)) s
  have mapped := sblock_setAll (fun b => { b with role := .mapped }) (fun _ => rfl) (fun _ => rfl) m.locs
    (s.release_ (l.mapped ++ m.frozen.map (fun b => b.loc)) m.jseq)
  have counted : ∀ p, (s.finishMerge l m).sblock p = (m.locs.foldl (fun s p => s.setSb { s.sblock p with role := .mapped })
      (s.release_ (l.mapped ++ m.frozen.map (fun b => b.loc)) m.jseq)).sblock p := fun p => by
    unfold State.finishMerge
    refine foldl_keeps (fun s => s.sblock p) _ ?_ _ _
    intros; rfl
  refine ⟨fun p hp => ?_, fun p hp out => ?_⟩
  · rw [counted]; exact mapped.1 p hp
  · rw [counted, mapped.2 p out]; exact freed.1 p hp

section
variable {s : State} {lb : Nat} {m : Merge} (h : (s.lblock lb).merge = some m)
  (calm : NoneClosed s)
include h

/-- The logical block of a merge is listed. -/
theorem mem_of_merging : s.lblock lb ∈ s.media.lblocks := by
  unfold State.lblock at h ⊢
  cases e : s.lblock? lb with
  | none => rw [e] at h; cases h
  | some l => exact List.mem_of_find?_eq_some e

omit h in
theorem lblock_closeCopy : (s.closeCopy lb m).lblock lb = (s.lblock lb).closing m :=
  (lblock_setLb _ _ _).trans (if_pos (lblock_num s lb).symm)

include calm

omit h in
/-- The only closed copy is the one whose record is queued. -/
theorem found_closeCopy : (s.closeCopy lb m).media.lblocks.find?
    (fun l => l.merge.any (fun k => k.closed && k.jseq == m.jseq)) = some ((s.lblock lb).closing m) := by
  have num := lblock_num s lb
  set w := m.locs.foldl (fun s p => s.setSb { s.sblock p with closed := true }) s with hw
  have lblocks : w.media.lblocks = s.media.lblocks := by
    refine foldl_keeps (fun s => s.media.lblocks) _ ?_ m.locs s
    intros; rfl
  have here : (s.closeCopy lb m).lblock? lb = some ((s.lblock lb).closing m) :=
    (lblock?_setLb w ((s.lblock lb).closing m) lb).trans (if_pos num.symm)
  have only : ∀ y ∈ (s.closeCopy lb m).media.lblocks,
      y.merge.any (fun k => k.closed && k.jseq == m.jseq) = true → y = (s.lblock lb).closing m := by
    intro y hy closed
    have mem : y ∈ (w.setLb ((s.lblock lb).closing m)).media.lblocks := hy
    unfold State.setLb at mem
    dsimp only at mem
    have old : y ∈ s.media.lblocks → y = (s.lblock lb).closing m := fun hy => by
      cases e : y.merge with
      | none => rw [e] at closed; cases closed
      | some k =>
        rw [e] at closed
        simp [calm y hy k e] at closed
    split at mem
    · obtain ⟨x, hx, rfl⟩ := List.mem_map.mp mem
      rw [lblocks] at hx
      split
      · rfl
      · next ne => rw [if_neg ne] at old; exact old hx
    · rcases List.mem_append.mp mem with hy | hy
      · exact old (lblocks ▸ hy)
      · exact List.mem_singleton.mp hy
  cases e : (s.closeCopy lb m).media.lblocks.find? (fun l => l.merge.any (fun k => k.closed && k.jseq == m.jseq)) with
  | some y => rw [only y (List.mem_of_find?_eq_some e) (List.find?_some e :)]
  | none =>
    refine absurd (List.find?_eq_none.mp e _ (List.mem_of_find?_eq_some here)) ?_
    simp [LBlock.closing]

theorem commitEnds (runs : s.mediaRuns = true) (none_ : s.media.waiting = []) (due : s.media.nextProg = m.jseq) :
    ∃ t : State, exec (.mergeCommit ⟨lb, true⟩) s = .next t ∧ (t.lblock lb).merge = none ∧ (t.lblock lb).mapped = m.locs ∧
      (t.lblock lb).chain = (s.lblock lb).chain ∧ (∀ p ∈ m.locs, (t.sblock p).role = .mapped) ∧
      ∀ p ∈ (s.lblock lb).mapped ++ m.frozen.map (fun b => b.loc), p ∉ m.locs → (t.sblock p).role = .released := by
  have open_ : m.closed = false := calm _ (mem_of_merging h) m h
  have run : exec (.mergeCommit ⟨lb, true⟩) s = .next (s.closeCopy lb m).sync := by
    show execMergeCommit ⟨lb, true⟩ s = _
    rw [execMergeCommit, if_neg (by simp [runs]), if_pos rfl, commitMerge_open h open_]
  refine ⟨_, run, ?_⟩
  set w := s.closeCopy lb m with hw
  have queued : ∀ (v : State) (r : JRec), v.media.waiting = [] → r.jseq = m.jseq →
      ∃ x : JRec, (v.queueRec r).media.waiting = [x] ∧ x.jseq = m.jseq := fun v r e j =>
    ⟨r, by show v.media.waiting ++ [r] = _; rw [e]; rfl, j⟩
  have waits : ∃ r : JRec, w.media.waiting = [r] ∧ r.jseq = m.jseq :=
    queued _ _ (.trans (foldl_keeps (fun s => s.media.waiting) _ (by intros; rfl) m.locs s) none_) rfl
  have next : w.media.nextProg = m.jseq := .trans (foldl_keeps (fun s => s.media.nextProg) _ (by intros; rfl) m.locs s) due
  obtain ⟨r, waiting, jseq⟩ := waits
  obtain ⟨v, effect, lblocks⟩ := program_takesEffect w r
  have synced : w.sync = v.finishMerge ((s.lblock lb).closing m) { m with closed := true } := by
    have found := found_closeCopy calm (lb := lb) (m := m)
    rw [← hw, ← lblocks, ← jseq] at found
    rw [State.sync, waiting, List.length_singleton, State.programNext, waiting, next, List.find?_cons,
      show (r.jseq == m.jseq) = true from beq_iff_eq.mpr jseq]
    show w.program r = _
    rw [effect, State.takeEffect, found]
    rfl
  have entry : w.sync.lblock lb = ((s.lblock lb).closing m).committed { m with closed := true } := by
    rw [synced, State.lblock, State.lblock?, lblocks_finishMerge]
    exact (lblock_setLb v _ lb).trans (if_pos (lblock_num s lb).symm)
  obtain ⟨mapped, released⟩ := finishMerge_roles v ((s.lblock lb).closing m) { m with closed := true }
  rw [entry, synced]
  exact ⟨rfl, rfl, rfl, mapped, released⟩
end

end Sys2Proof.Machine
end

section
/-!
SUPPORT. Relocations, checkpoints and pages that are rebuilt or lost (R325, R329, R330, R334, R369).
-/
namespace Sys2Proof.Machine
open Sys2Proof.Safety

/-! ### Changes of every logical block -/

section
variable {s : State} {f : LBlock → LBlock} (hf : ∀ l, (f l).num = l.num)

/-- A state whose logical blocks are changed each for itself. -/
def State.mapLbs (s : State) (f : LBlock → LBlock) : State :=
  { s with media := { s.media with lblocks := s.media.lblocks.map f } }

include hf

theorem lblock?_mapLbs (k : Nat) : (s.mapLbs f).lblock? k = (s.lblock? k).map f := by
  show (s.media.lblocks.map f).find? (fun l => l.num == k) = _
  rw [List.find?_map]
  refine congrArg (Option.map f) (congrFun (congrArg List.find? (funext fun l => ?_)) _)
  show ((f l).num == k) = (l.num == k)
  rw [hf]

theorem lblocksWf_mapLbs (wf : lblocksWf s = true) : lblocksWf (s.mapLbs f) = true := by
  have nums : (s.media.lblocks.map f).map (fun l => l.num) = s.media.lblocks.map (fun l => l.num) := by
    rw [List.map_map]
    exact List.map_congr_left fun l _ => hf l
  show decide ((s.media.lblocks.map f).map (fun l => l.num)).Nodup = true
  rw [nums]; exact wf

/-- Where a change of the logical blocks keeps a sector of each, that sector stays. -/
theorem onMedia_mapLbs {i : Nat} (same : ∀ l, (f l).onMedia i = l.onMedia i) (k : Nat) :
    ((s.mapLbs f).lblock k).onMedia i = (s.lblock k).onMedia i := by
  rw [State.lblock, State.lblock, lblock?_mapLbs hf]
  cases s.lblock? k with
  | none => rfl
  | some l => exact same l

theorem SameMedia.mapLbs (wf : lblocksWf s = true) (same : ∀ l i, (f l).onMedia i = l.onMedia i) : SameMedia s (s.mapLbs f) where
  around := rfl
  wf := lblocksWf_mapLbs hf wf
  onMedia := fun k i => onMedia_mapLbs hf (fun l => same l i) k
end

theorem aside_queueRec (s : State) (r : JRec) : (s.queueRec r).aside = s.aside := rfl

/-! ### Relocation (R326, R330, R334) -/

theorem chainEntries_relabel (c : List LogBlock) (f : LogBlock → LogBlock) (same : ∀ b, (f b).entries = b.entries) :
    chainEntries (c.map f) = chainEntries c := by
  rw [chainEntries, chainEntries, List.map_map]
  exact congrArg List.flatten (List.map_congr_left fun b _ => same b)

theorem onMedia_moved (l : LBlock) (src dst : SbLoc) (seq i : Nat) : (l.moved src dst seq).onMedia i = l.onMedia i := by
  show newest (chainEntries (l.frozen ++ l.chain.map _)) i _ = _
  rw [chainEntries_append, chainEntries_relabel, ← chainEntries_append]
  · rfl
  · intro b
    show (if b.loc = src then { b with loc := dst, seq := seq } else b).entries = b.entries
    split <;> rfl

section
variable (s : State) (src dst : SbLoc)

/-- A relocation's copy, written at its destination. -/
def State.copied : State :=
  s.newJseq.2.newSeq.2.setSb { s.newJseq.2.newSeq.2.sblock dst with
    role := (s.sblock src).role, duty := (s.sblock src).duty, seq := s.newJseq.2.newSeq.1, jseq := some s.newJseq.1
    lblock := (s.sblock src).lblock, folded := (s.sblock src).folded, closed := (s.sblock src).closed
    owners := (s.sblock src).owners }

/-- The state of a relocation whose source is released. -/
def State.replaced : State :=
  ((s.copied src dst).mapLbs (fun l => l.moved src dst s.newJseq.2.newSeq.1)).setSb
    { s.sblock src with role := .released, duty := (s.sblock dst).duty, freed := s.newJseq.1 + 1 }

/-- The state of a relocation whose record is queued. -/
def State.relocated : State :=
  (s.replaced src dst).queueRec
    { jseq := s.newJseq.1, type := 5, lblock := (s.replaced src dst).lbPlace (s.sblock src).lblock
      newSeq := s.newJseq.2.newSeq.1, oldSeq := (s.sblock src).seq, newLocs := [dst], oldLoc := some src }

theorem setFailed_relocated (d : Nat) : (s.relocated src dst).setFailed d = s.setFailed d := by
  rw [State.setFailed, State.diesFailed, show (s.relocated src dst).media.failedDies = s.media.failedDies from rfl]
  rfl

variable {s}

theorem exec_relocation (runs : s.mediaRuns = true) (rests : JournalRests s) (movable : s.movable src = true)
    (due : s.relocDue (s.sblock src) = true) (erased : s.erased dst (s.sblock src).oneBit = true)
    (duty : (s.sblock src).oneBit = true → (s.sblock dst).duty = (s.sblock src).duty ∨ (s.sblock dst).duty = .spare) :
    exec (.relocation src dst) s = .next (if s.setFailed src.dieSet.val || (s.sblock src).failing then
      (s.relocated src dst).retireSb src else s.relocated src dst).sync := by
  have no : ¬ (s.mediaRuns = false ∨ s.movable src = false ∨ s.relocDue (s.sblock src) = false ∨
      s.erased dst (s.sblock src).oneBit = false ∨ ((s.sblock src).oneBit = true ∧ (s.sblock dst).duty ≠ (s.sblock src).duty ∧
        (s.sblock dst).duty ≠ .spare) ∨ s.media.nextProg ≠ s.media.nextJseq) := by
    rintro (h | h | h | h | ⟨h1, h2, h3⟩ | h)
    · exact absurd (h.symm.trans runs) (by decide)
    · exact absurd (h.symm.trans movable) (by decide)
    · exact absurd (h.symm.trans due) (by decide)
    · exact absurd (h.symm.trans erased) (by decide)
    · exact (duty h1).elim h2 h3
    · exact h rests.2.1
  rw [← setFailed_relocated s src dst]
  show execRelocation src dst s = _
  exact if_neg no

theorem copied_same (wf : lblocksWf s = true) : SameMedia s (s.copied src dst) :=
  ((SameMedia.refl wf).aside (u := s.newJseq.2.newSeq.2) rfl).aside (aside_setSb _ _)

theorem relocated_same (wf : lblocksWf s = true) : SameMedia s (s.relocated src dst) := by
  have copied := copied_same src dst wf
  have moved := SameMedia.mapLbs (f := fun l => l.moved src dst s.newJseq.2.newSeq.1) (fun _ => rfl) copied.wf
    (fun l i => onMedia_moved l src dst _ i)
  exact ((copied.trans moved).aside (aside_setSb _ _)).aside (u := s.relocated src dst) (aside_queueRec _ _)

theorem lblocks_relocated : (s.relocated src dst).media.lblocks =
    s.media.lblocks.map (fun l => l.moved src dst s.newJseq.2.newSeq.1) := rfl

/-- The source is released, and the destination has taken its place. -/
theorem sblock_relocated (ne : src ≠ dst) : ((s.relocated src dst).sblock src).role = .released ∧
    ((s.relocated src dst).sblock dst).role = (s.sblock src).role ∧
    ((s.relocated src dst).sblock dst).oneBit = (s.sblock dst).oneBit := by
  have last : ∀ k, (s.relocated src dst).sblock k = if k = (s.sblock src).loc then
      { s.sblock src with role := .released, duty := (s.sblock dst).duty, freed := s.newJseq.1 + 1 }
      else (s.copied src dst).sblock k := fun k =>
    sblock_setSb ((s.copied src dst).mapLbs (fun l => l.moved src dst s.newJseq.2.newSeq.1)) _ k
  have first : (s.copied src dst).sblock dst = { s.newJseq.2.newSeq.2.sblock dst with
      role := (s.sblock src).role, duty := (s.sblock src).duty, seq := s.newJseq.2.newSeq.1, jseq := some s.newJseq.1
      lblock := (s.sblock src).lblock, folded := (s.sblock src).folded, closed := (s.sblock src).closed
      owners := (s.sblock src).owners } :=
    (sblock_setSb _ _ dst).trans (if_pos (sblock_loc s.newJseq.2.newSeq.2 dst).symm)
  rw [last, last, sblock_loc, if_pos rfl, if_neg (Ne.symm ne), first]
  exact ⟨rfl, rfl, rfl⟩

theorem relocationMoves (wf : lblocksWf s = true) (runs : s.mediaRuns = true) (rests : JournalRests s)
    (movable : s.movable src = true) (due : s.relocDue (s.sblock src) = true)
    (erased : s.erased dst (s.sblock src).oneBit = true)
    (duty : (s.sblock src).oneBit = true → (s.sblock dst).duty = (s.sblock src).duty ∨ (s.sblock dst).duty = .spare) :
    ∃ t : State, exec (.relocation src dst) s = .next t ∧ SameSectors s t ∧ (t.sblock dst).role = (s.sblock src).role ∧
      (t.sblock dst).oneBit = (s.sblock src).oneBit ∧
      (t.sblock src).role = (if s.setFailed src.dieSet.val || (s.sblock src).failing then .retired else .released) ∧
      ∀ lb, src ∈ (s.lblock lb).mapped → dst ∈ (t.lblock lb).mapped := by
  have empty : (s.sblock dst).role = .free ∧ (s.sblock dst).oneBit = (s.sblock src).oneBit := by
    simp only [State.erased, Bool.and_eq_true, beq_iff_eq] at erased
    exact erased.1
  have held : (s.sblock src).role ≠ .free := fun e => by
    unfold State.movable at movable
    rw [e] at movable
    cases movable
  have ne : src ≠ dst := fun e => held (e ▸ empty.1)
  obtain ⟨srcRole, dstRole, dstBit⟩ := sblock_relocated src dst ne
  refine ⟨_, exec_relocation src dst runs rests movable due erased duty, ?_⟩
  set w := s.relocated src dst with hw
  have calm : NoneClosed w := fun l hl m e => by
    obtain ⟨x, hx, rfl⟩ := List.mem_map.mp hl
    exact rests.2.2 x hx m e
  have moved : ∀ t : State, t.aside = w.aside → SameSectors s t.sync ∧ t.sync.offJournal = t.offJournal ∧
      ∀ lb, src ∈ (s.lblock lb).mapped → dst ∈ (t.sync.lblock lb).mapped := fun t e => by
    obtain ⟨-, lblocks, still⟩ := sync_aside (relocated_same src dst wf).wf calm e
    refine ⟨((relocated_same src dst wf).aside e).sync.sectors, still, fun lb mem => ?_⟩
    have entry : t.sync.lblock? lb = (s.lblock? lb).map (fun l => l.moved src dst s.newJseq.2.newSeq.1) := by
      rw [State.lblock?, lblocks]
      exact lblock?_mapLbs (s := s) (f := fun l => l.moved src dst s.newJseq.2.newSeq.1) (fun _ => rfl) lb
    unfold State.lblock at mem ⊢
    rw [entry]
    cases e : s.lblock? lb with
    | none => rw [e] at mem; cases mem
    | some l =>
      rw [e] at mem
      exact List.mem_map.mpr ⟨src, mem, if_pos rfl⟩
  cases bad : s.setFailed src.dieSet.val || (s.sblock src).failing with
  | true =>
    rw [if_pos rfl, if_pos rfl]
    obtain ⟨sectors, still, mapped⟩ := moved _ (aside_retireSb w src)
    obtain ⟨own, -, -, others⟩ := retireSb_retires w src
    have other := (others dst (Ne.symm ne)).2 (by rw [dstRole]; exact held)
    rw [sblock_of_offJournal still, sblock_of_offJournal still, own, other]
    exact ⟨sectors, dstRole, dstBit.trans empty.2, rfl, mapped⟩
  | false =>
    rw [if_neg Bool.false_ne_true, if_neg Bool.false_ne_true]
    obtain ⟨sectors, still, mapped⟩ := moved w rfl
    rw [sblock_of_offJournal still, sblock_of_offJournal still]
    exact ⟨sectors, dstRole, dstBit.trans empty.2, srcRole, mapped⟩
end

/-! ### Checkpoints (R325) -/

/-- The records that wait and stand in the journal, and where the last checkpoint is. -/
def State.ledger (s : State) : List JRec × List JRec × Nat × Nat :=
  (s.media.waiting, s.media.journal, s.media.checkpointJseq, s.media.checkpoints)

theorem ledger_setSb (s : State) (b : SBlock) : (s.setSb b).ledger = s.ledger := rfl

theorem ledger_giveRole (s : State) (b : SBlock) : (s.giveRole b).ledger = s.ledger := by
  unfold State.giveRole
  split <;> rfl

theorem ledger_wearOn (s : State) : s.wearOn.ledger = s.ledger := by
  unfold State.wearOn
  dsimp only
  split
  · rfl
  · split <;> split <;> rfl

/-- A retirement queues one record, with the next number. -/
theorem ledger_retireSb (s : State) (loc : SbLoc) : ∃ r : JRec, r.jseq = s.media.nextJseq ∧
    (s.retireSb loc).ledger = (s.media.waiting ++ [r], s.ledger.2) := by
  have counted : ∀ w : State, (State.wearOn { w with media := { w.media with retired := w.media.retired + 1 } }).ledger =
    w.ledger := fun w => ledger_wearOn _
  unfold State.retireSb
  extract_lets b w v u m
  have e : u.ledger = w.ledger := by
    simp only [u]
    split
    · exact (ledger_giveRole v b).trans (ledger_setSb w _)
    · exact ledger_setSb w _
  exact ⟨_, rfl, (counted u).trans e⟩

/-- An erase queues at most one record, with the next number. -/
theorem ledger_eraseSb (s : State) (loc : SbLoc) : ∃ l : List JRec, (∀ r ∈ l, r.jseq = s.media.nextJseq) ∧
    (s.eraseSb loc).ledger = (s.media.waiting ++ l, s.ledger.2) := by
  have none_ : ∀ t : State, t.ledger = s.ledger → ∃ l : List JRec, (∀ r ∈ l, r.jseq = s.media.nextJseq) ∧
      t.ledger = (s.media.waiting ++ l, s.ledger.2) := fun t e =>
    ⟨[], fun r hr => (nomatch hr), by rw [e, List.append_nil]; rfl⟩
  unfold State.eraseSb
  extract_lets old b w m v
  split
  · obtain ⟨r, jseq, e⟩ := ledger_retireSb v loc
    exact ⟨[r], fun x hx => by rw [List.mem_singleton.mp hx]; exact jseq, e⟩
  · split
    · exact none_ _ ((ledger_setSb _ _).trans (ledger_giveRole v b))
    · exact none_ v rfl

/-- A record that commits no merge joins the journal, and waits no more. -/
theorem ledger_program {s : State} (calm : NoneClosed s) (r : JRec) : (s.program r).ledger =
    (s.media.waiting.filter (fun x => x.jseq != r.jseq), s.media.journal ++ [r], s.media.checkpointJseq, s.media.checkpoints) := by
  unfold State.program
  extract_lets w m v
  have e : w.media = s.media := by
    simp only [w]
    split
    · rfl
    · exact media_mapWrite s _
  have here : NoneClosed (v.count 98 2 1) := calm.congr (t := v.count 98 2 1) (congrArg Media.lblocks e :)
  rw [takeEffect_none here]
  show (w.media.waiting.filter _, w.media.journal ++ [r], w.media.checkpointJseq, w.media.checkpoints) = _
  rw [e]

/-- Records that commit no merge come to the journal from those that waited. -/
theorem ledger_programNext (n : Nat) {s : State} (calm : NoneClosed s) : (s.programNext n).ledger.2.2 = s.ledger.2.2 ∧
    ∀ r ∈ (s.programNext n).media.journal, r ∈ s.media.journal ∨ r ∈ s.media.waiting := by
  induction n generalizing s with
  | zero => exact ⟨rfl, fun r h => .inl h⟩
  | succ n ih =>
    rw [State.programNext]
    split
    · next x found =>
      have e := ledger_program calm x
      have waiting : (s.program x).media.waiting = s.media.waiting.filter (fun y => y.jseq != x.jseq) := congrArg Prod.fst e
      have journal : (s.program x).media.journal = s.media.journal ++ [x] := congrArg (fun y => y.2.1) e
      obtain ⟨checkpoint, records⟩ := ih (offJournal_program calm x).2
      refine ⟨checkpoint.trans (congrArg (fun y => y.2.2) e), fun r h => ?_⟩
      rcases records r h with old | new
      · rw [journal] at old
        rcases List.mem_append.mp old with old | new
        · exact .inl old
        · rw [List.mem_singleton.mp new]
          exact .inr (List.mem_of_find?_eq_some found)
      · rw [waiting] at new
        exact .inr (List.mem_filter.mp new).1
    · exact ⟨rfl, fun r h => .inl h⟩

section
variable {s : State}

/-- The state of a checkpoint: the map store is written, and the records before it are gone. -/
def State.checkpointed (s : State) : State :=
  ({ s with media := { s.media with
    journal := [], checkpointJseq := s.media.nextJseq - 1, ring := s.media.ring + 1
    checkpoint := (s.media.lblocks.filter (fun (l : LBlock) => l.mapped != [])).map (fun (l : LBlock) => (s.lbPlace l.num, l.mapped))
    checkpoints := s.media.checkpoints + 1 } } : State).count 98 3 1

theorem checkpointed_keeps (s : State) : s.checkpointed.aside = s.aside ∧ s.checkpointed.media.waiting = s.media.waiting ∧
    s.checkpointed.media.nextJseq = s.media.nextJseq ∧
    s.checkpointed.ledger.2 = ([], s.media.nextJseq - 1, s.media.checkpoints + 1) := ⟨rfl, rfl, rfl, rfl⟩

/-- The record of a checkpoint is programmed at once. -/
theorem checkpointRecord (wf : lblocksWf s = true) (rests : JournalRests s) :
    SameMedia s (s.jrec 6 noLblock 0 0 [] none).sync ∧
    (s.jrec 6 noLblock 0 0 [] none).sync.media.lblocks = s.media.lblocks ∧
    (s.jrec 6 noLblock 0 0 [] none).sync.media.waiting = [] ∧
    (s.jrec 6 noLblock 0 0 [] none).sync.media.nextJseq = s.media.nextJseq + 1 ∧
    (s.jrec 6 noLblock 0 0 [] none).sync.media.checkpoints = s.media.checkpoints := by
  obtain ⟨none_, next, open_⟩ := rests
  have calm : NoneClosed s := open_
  set r : JRec := { jseq := s.media.nextJseq, type := 6, lblock := noLblock, newSeq := 0, oldSeq := 0, newLocs := [], oldLoc := none }
  set w := s.jrec 6 noLblock 0 0 [] none with hw
  have same : SameMedia s w := (SameMedia.refl wf).aside (aside_jrec _ _ _ _ _ _ _)
  have still := offJournal_sync (s := w) (calm.congr rfl)
  have waiting : w.media.waiting = [r] := by
    show s.media.waiting ++ [r] = _
    rw [none_]; rfl
  have synced : w.sync = w.program r := by
    rw [State.sync, waiting, List.length_singleton, State.programNext, waiting, show w.media.nextProg = s.media.nextJseq from next,
      List.find?_cons, show (r.jseq == s.media.nextJseq) = true from beq_self_eq_true _]
    rfl
  have records := ledger_program (s := w) (calm.congr rfl) r
  refine ⟨same.sync, (lblocks_of_offJournal still).trans (congrArg Prod.snd (aside_jrec s 6 noLblock 0 0 [] none)), ?_, (congrArg (fun x : State => x.media.nextJseq) still :), ?_⟩
  · rw [synced]
    refine (congrArg Prod.fst records).trans ?_
    show w.media.waiting.filter (fun x => x.jseq != r.jseq) = []
    rw [waiting]
    simp
  · rw [synced]
    exact congrArg (fun x => x.2.2.2) records

theorem checkpointWrites (wf : lblocksWf s = true) (runs : s.mediaRuns = true) (some_ : s.media.journal ≠ [])
    (rests : JournalRests s) : ∃ t : State, exec .journalCheckpoint s = .next t ∧ SameSectors s t ∧
      (∀ r ∈ t.media.journal, s.media.nextJseq < r.jseq) ∧ t.media.checkpointJseq = s.media.nextJseq ∧
      t.media.checkpoints = s.media.checkpoints + 1 ∧ t.media.lblocks = s.media.lblocks := by
  obtain ⟨same, lblocks, waiting, next, count⟩ := checkpointRecord wf rests
  set w := (s.jrec 6 noLblock 0 0 [] none).sync with hw
  obtain ⟨aside, kept, number, ledger⟩ := checkpointed_keeps w
  rw [next, Nat.add_sub_cancel, count] at ledger
  have calm : NoneClosed w.checkpointed := NoneClosed.congr (s := s) rests.2.2 ((congrArg Prod.snd aside).trans lblocks)
  have run : exec .journalCheckpoint s = .next (match w.journalRing[w.media.ring % max 1 w.journalRing.length]? with
      | some l => (w.checkpointed.eraseSb l).sync
      | none => w.checkpointed) := by
    show execJournalCheckpoint s = _
    rw [execJournalCheckpoint, if_neg (by simp [runs, some_, rests.2.1])]
    rfl
  have done : SameMedia s w.checkpointed := same.aside aside
  refine ⟨_, run, ?_⟩
  cases w.journalRing[w.media.ring % max 1 w.journalRing.length]? with
  | none =>
    dsimp only
    refine ⟨done.sectors, fun r hr => ?_, congrArg (fun x => x.2.1) ledger, congrArg (fun x => x.2.2) ledger,
      (congrArg Prod.snd aside).trans lblocks⟩
    rw [show w.checkpointed.media.journal = [] from congrArg (fun x => x.1) ledger] at hr
    cases hr
  | some l =>
    dsimp only
    obtain ⟨rs, numbers, e⟩ := ledger_eraseSb w.checkpointed l
    have erased := aside_eraseSb w.checkpointed l
    have calm' : NoneClosed (w.checkpointed.eraseSb l) := calm.congr (congrArg Prod.snd erased)
    obtain ⟨checkpoint, records⟩ := ledger_programNext (w.checkpointed.eraseSb l).media.waiting.length calm'
    rw [ledger] at e
    have at_ : (w.checkpointed.eraseSb l).sync.ledger.2.2 = (s.media.nextJseq, s.media.checkpoints + 1) :=
      checkpoint.trans (congrArg (fun x => x.2.2) e)
    refine ⟨(done.aside erased).sync.sectors, fun r hr => ?_, congrArg Prod.fst at_, congrArg Prod.snd at_, ?_⟩
    · rcases records r hr with old | new
      · rw [show (w.checkpointed.eraseSb l).media.journal = [] from congrArg (fun x => x.2.1) e] at old
        cases old
      · rw [show (w.checkpointed.eraseSb l).media.waiting = _ from congrArg Prod.fst e, kept, waiting, List.nil_append] at new
        rw [numbers r new, number, next]
        exact Nat.lt_succ_self _
    · refine (lblocks_of_offJournal (offJournal_sync calm')).trans ((congrArg Prod.snd erased).trans ?_)
      exact (congrArg Prod.snd aside).trans lblocks
end

/-! ### Pages rebuilt or lost (R329, R330) -/

theorem aside_modCopy (s : State) (c : Nat) (f : Copy → Copy) : (s.modCopy c f).aside = s.aside := rfl

section
variable {s : State} (wf : lblocksWf s = true) (runs : s.mediaRuns = true) {loc : SbLoc}
include wf runs

theorem sectorsAreRebuilt {sectors : List Nat} (used : (s.sblock loc).role = .mapped ∨ (s.sblock loc).role = .log)
    (few : sectors.length ≤ 4) (dies : s.diesFailed loc.dieSet.val < 2) :
    ∃ t : State, exec (.stripeRebuild (.sectors loc sectors) true) s = .next t ∧ (t.sblock loc).rebuilt = true ∧ SameSectors s t := by
  refine ⟨((s.count (groupBlock loc) 4 1).setSb { s.sblock loc with rebuilt := true }).count (groupBlock loc) 5 1, ?_, ?_, ?_⟩
  · show execStripeRebuild (.sectors loc sectors) true s = _
    rw [execStripeRebuild]
    dsimp only
    rw [if_neg, if_pos rfl]
    simp only [runs, Bool.true_eq_false, false_or, true_and, decide_eq_true_eq]
    rintro (h | h | h)
    · exact used.elim h.1 h.2
    · omega
    · omega
  · show ((((s.count (groupBlock loc) 4 1).setSb { s.sblock loc with rebuilt := true })).sblock loc).rebuilt = true
    rw [sblock_setSb, if_pos (sblock_loc s loc).symm]
  · exact ((((SameMedia.refl wf).aside (aside_count _ _ _ _)).aside (aside_setSb _ _)).aside (aside_count _ _ _ _)).sectors

theorem objectIsRebuilt {c : Copy} {pg : Nat} (hc : s.copy? c.id = some c) (place : s.pageLoc c pg = some loc)
    (dies : s.diesFailed loc.dieSet.val < 2) :
    ∃ t : State, exec (.stripeRebuild (.object c.id pg) true) s = .next t ∧ (t.sblock loc).rebuilt = true ∧
      SameSectors s t ∧ t.copies = s.copies := by
  refine ⟨((s.count (groupBlock loc) 4 1).setSb { s.sblock loc with rebuilt := true }).count (groupBlock loc) 5 1, ?_, ?_, ?_, rfl⟩
  · show execStripeRebuild (.object c.id pg) true s = _
    rw [execStripeRebuild]
    dsimp only
    rw [hc, Option.bind_some, place]
    dsimp only
    rw [if_neg (by simp [runs]; omega), if_pos rfl]
    rfl
  · show ((((s.count (groupBlock loc) 4 1).setSb { s.sblock loc with rebuilt := true })).sblock loc).rebuilt = true
    rw [sblock_setSb, if_pos (sblock_loc s loc).symm]
  · exact ((((SameMedia.refl wf).aside (aside_count _ _ _ _)).aside (aside_setSb _ _)).aside (aside_count _ _ _ _)).sectors

theorem objectIsLost {c : Copy} {pg : Nat} (hc : s.copy? c.id = some c) (place : s.pageLoc c pg = some loc) :
    ∃ (t : State) (y : Copy), exec (.stripeRebuild (.object c.id pg) false) s = .next t ∧ t.copy? c.id = some y ∧
      pg ∈ y.unreadable ∧ y.mem = c.mem ∧ t.pages = s.pages ∧ SameSectors s t := by
  refine ⟨(s.count (groupBlock loc) 4 1).modCopy c.id (fun c =>
    if c.unreadable.contains pg then c else { c with unreadable := c.unreadable ++ [pg] }), _, ?_,
    (copy?_modCopy _ _ _ _ (fun x => by split <;> rfl)).trans ((if_pos rfl).trans (congrArg _ hc)), ?_, ?_, rfl, ?_⟩
  · show execStripeRebuild (.object c.id pg) false s = _
    rw [execStripeRebuild]
    dsimp only
    rw [hc, Option.bind_some, place]
    dsimp only
    rw [if_neg (by simp [runs]), if_neg Bool.false_ne_true]
  · dsimp only
    split
    · next h => exact List.contains_iff_mem.mp h
    · exact List.mem_append_right _ (List.mem_singleton_self pg)
  · dsimp only
    split <;> rfl
  · exact (((SameMedia.refl wf).aside (aside_count s (groupBlock loc) 4 1)).aside
      (aside_modCopy (s.count (groupBlock loc) 4 1) _ _)).sectors
end

end Sys2Proof.Machine
end

section
/-!
SUPPORT. Sectors of a page that cannot be rebuilt, failed dies and map entries (R329, R330, R369).
-/
namespace Sys2Proof.Machine
open Sys2Proof.Safety

/-! ### Sectors marked bad (R329) -/

/-- A log block whose entries of a sector are marked bad, where it is the superblock that failed. -/
def LogBlock.spoil (b : LogBlock) (loc : SbLoc) (sec : Nat) : LogBlock :=
  if b.loc = loc then { b with entries := b.entries.map (fun e =>
    if e.sector = sec then { e with data := e.data.map (fun x => { x with bad := true }) } else e) } else b

theorem entries_spoil (b : LogBlock) (loc : SbLoc) (sec : Nat) : ∃ f : LogEntry → LogEntry, (b.spoil loc sec).entries = b.entries.map f ∧
    (∀ e, (f e).sector = e.sector) ∧ ∀ e, e.sector ≠ sec → f e = e := by
  unfold LogBlock.spoil
  split
  · refine ⟨_, rfl, fun e => ?_, fun e ne => if_neg ne⟩
    split <;> rfl
  · exact ⟨id, (List.map_id _).symm, fun _ => rfl, fun _ _ => rfl⟩

/-- Marking a sector bad changes the entries of no other sector. -/
theorem newest_spoiled {sec i : Nat} (ne : i ≠ sec) (loc : SbLoc) (c : List LogBlock) (old : Sector) :
    newest (chainEntries (c.map (fun b => b.spoil loc sec))) i old = newest (chainEntries c) i old := by
  have one : ∀ (f : LogEntry → LogEntry) (es : List LogEntry) (x : Sector), (∀ e, (f e).sector = e.sector) →
      (∀ e, e.sector ≠ sec → f e = e) → newest (es.map f) i x = newest es i x := by
    intro f es x keeps same
    induction es generalizing x with
    | nil => rfl
    | cons e es ih =>
      rw [List.map_cons, newest_cons, newest_cons, ih, keeps]
      by_cases h : e.sector = i
      · rw [if_pos h, if_pos h, same e (fun s => ne (h.symm.trans s))]
      · rw [if_neg h, if_neg h]
  induction c generalizing old with
  | nil => rfl
  | cons b c ih =>
    obtain ⟨f, e, keeps, same⟩ := entries_spoil b loc sec
    rw [List.map_cons, show chainEntries (b.spoil loc sec :: c.map (fun b => b.spoil loc sec)) =
      (b.spoil loc sec).entries ++ chainEntries (c.map (fun b => b.spoil loc sec)) from rfl,
      show chainEntries (b :: c) = b.entries ++ chainEntries c from rfl, newest_append, newest_append, e, ih, one f _ _ keeps same]

/-- The sectors that log entries name stay as they are. -/
theorem sectors_spoiled (loc : SbLoc) (sec i : Nat) (c : List LogBlock) (h : ∀ e ∈ chainEntries c, e.sector ≠ i) :
    ∀ e ∈ chainEntries (c.map (fun b => b.spoil loc sec)), e.sector ≠ i := by
  intro x hx
  obtain ⟨es, mem, hx⟩ := List.mem_flatten.mp hx
  obtain ⟨b', hb', rfl⟩ := List.mem_map.mp mem
  obtain ⟨b, hb, rfl⟩ := List.mem_map.mp hb'
  obtain ⟨f, e, keeps, -⟩ := entries_spoil b loc sec
  rw [e] at hx
  obtain ⟨y, hy, rfl⟩ := List.mem_map.mp hx
  rw [keeps]
  exact h y (List.mem_flatten.mpr ⟨b.entries, List.mem_map_of_mem hb, hy⟩)

theorem spoil_eq (l : LBlock) (loc : SbLoc) (sec : Nat) : l.spoil loc sec = { l with
    content := if l.mapped.contains loc then assocSet l.content sec { lookupD l.content sec zeroSector with bad := true }
      else l.content
    chain := l.chain.map (fun b => b.spoil loc sec)
    merge := l.merge.map (fun m => { m with frozen := m.frozen.map (fun b => b.spoil loc sec) }) } := rfl

theorem chains_spoil (l : LBlock) (loc : SbLoc) (sec : Nat) :
    (l.spoil loc sec).frozen ++ (l.spoil loc sec).chain = (l.frozen ++ l.chain).map (fun b => b.spoil loc sec) := by
  have frozen : (l.spoil loc sec).frozen = l.frozen.map (fun b => b.spoil loc sec) := by
    rw [spoil_eq, LBlock.frozen, LBlock.frozen]
    cases l.merge <;> rfl
  rw [frozen, List.map_append]
  rfl

theorem onMedia_spoil {sec i : Nat} (ne : i ≠ sec) (l : LBlock) (loc : SbLoc) : (l.spoil loc sec).onMedia i = l.onMedia i := by
  have content : lookupD (l.spoil loc sec).content i zeroSector = lookupD l.content i zeroSector := by
    rw [spoil_eq]
    dsimp only
    split
    · rw [lookupD_assocSet, if_neg ne]
    · rfl
  rw [LBlock.onMedia, chains_spoil, content, newest_spoiled ne]
  rfl

/-- A logical block whose sectors on one superblock are marked bad. -/
def LBlock.spoilAll (loc : SbLoc) (sectors : List Nat) (l : LBlock) : LBlock := sectors.foldl (fun l x => l.spoil loc x) l

theorem onMedia_spoilAll {i : Nat} (loc : SbLoc) (sectors : List Nat) (out : i ∉ sectors) (l : LBlock) :
    (l.spoilAll loc sectors).onMedia i = l.onMedia i := by
  induction sectors generalizing l with
  | nil => rfl
  | cons a t ih =>
    rw [List.mem_cons, not_or] at out
    exact (ih out.2 _).trans (onMedia_spoil out.1 l loc)

/-- A sector that only the mapped superblock holds is marked bad. -/
theorem spoilAll_bad {i : Nat} (loc : SbLoc) (sectors : List Nat) (l : LBlock) (mapped : loc ∈ l.mapped)
    (alone : ∀ e ∈ chainEntries (l.frozen ++ l.chain), e.sector ≠ i)
    (h : i ∈ sectors ∨ (lookupD l.content i zeroSector).bad = true) :
    ((l.spoilAll loc sectors).onMedia i).bad = true := by
  induction sectors generalizing l with
  | nil =>
    have unlogged : (chainEntries (l.frozen ++ l.chain)).filter (fun e => e.sector == i) = [] :=
      List.filter_eq_nil_iff.mpr fun e he => by simpa using alone e he
    show (newest (chainEntries (l.frozen ++ l.chain)) i (lookupD l.content i zeroSector)).bad = true
    rw [newest, unlogged]
    exact h.resolve_left (fun e => nomatch e)
  | cons a t ih =>
    refine ih (l.spoil loc a) mapped ?_ ?_
    · rw [chains_spoil]
      exact sectors_spoiled loc a i _ alone
    · have content : lookupD (l.spoil loc a).content i zeroSector =
          if i = a then { lookupD l.content a zeroSector with bad := true } else lookupD l.content i zeroSector := by
        rw [spoil_eq]
        dsimp only
        rw [if_pos (List.contains_iff_mem.mpr mapped), lookupD_assocSet]
      rw [content]
      by_cases e : i = a
      · exact .inr (by rw [if_pos e])
      · rw [if_neg e]
        exact h.imp_left fun mem => (List.mem_cons.mp mem).resolve_left e

section
variable {s : State} (runs : s.mediaRuns = true)
include runs

theorem sectorsAreLost {loc : SbLoc} {sectors : List Nat} (used : (s.sblock loc).role = .mapped ∨ (s.sblock loc).role = .log)
    (few : sectors.length ≤ 4) :
    ∃ t : State, exec (.stripeRebuild (.sectors loc sectors) false) s = .next t ∧ t.media.event.getLsbD 3 = true ∧
      (∀ k i, i ∉ sectors → t.sectorOf k i = s.sectorOf k i) ∧
      ∀ (k : Nat) (l : LBlock) (i : Nat), s.lblock? k = some l → loc ∈ l.mapped → i ∈ sectors →
        (∀ e ∈ s.media.staging, e.lb = k → e.sector ≠ i) →
        (∀ e ∈ chainEntries (l.frozen ++ l.chain), e.sector ≠ i) → (t.sectorOf k i).bad = true := by
  have num : ∀ l : LBlock, (l.spoilAll loc sectors).num = l.num := fun l => by
    unfold LBlock.spoilAll
    induction sectors generalizing l with
    | nil => rfl
    | cons a t ih => exact ih (Nat.le_of_succ_le few) (l.spoil loc a)
  set w := s.count (groupBlock loc) 4 1
  refine ⟨(w.mapLbs (LBlock.spoilAll loc sectors)).mediaEvent 3, ?_, ?_, fun k i out => ?_, fun k l i hl mapped mem unstaged alone => ?_⟩
  · show execStripeRebuild (.sectors loc sectors) false s = _
    rw [execStripeRebuild]
    dsimp only
    rw [if_neg, if_neg Bool.false_ne_true]
    · rfl
    · simp only [runs, Bool.true_eq_false, false_or, Bool.false_eq_true, false_and, or_false]
      rintro (h | h)
      · exact used.elim h.1 h.2
      · omega
  · show (s.media.event ||| BitVec.ofNat 5 (2 ^ 3)).getLsbD 3 = true
    rw [BitVec.getLsbD_or, Bool.or_eq_true]
    exact Or.inr (by decide)
  · show newest _ i (((w.mapLbs (LBlock.spoilAll loc sectors)).lblock k).onMedia i) = _
    rw [onMedia_mapLbs num (fun l => onMedia_spoilAll loc sectors out l)]
    rfl
  · have entry : (w.mapLbs (LBlock.spoilAll loc sectors)).lblock k = l.spoilAll loc sectors := by
      rw [State.lblock, lblock?_mapLbs num, show w.lblock? k = some l from hl]
      rfl
    have none_ : (entriesOf (s.media.staging.filter (fun e => e.lb == k))).filter (fun e => e.sector == i) = [] := by
      refine List.filter_eq_nil_iff.mpr fun e he => ?_
      obtain ⟨x, hx, rfl⟩ := List.mem_map.mp he
      have := List.mem_filter.mp hx
      simpa using unstaged x this.1 (beq_iff_eq.mp this.2)
    show (newest (entriesOf (s.media.staging.filter (fun e => e.lb == k))) i
      (((w.mapLbs (LBlock.spoilAll loc sectors)).lblock k).onMedia i)).bad = true
    rw [newest, none_, entry]
    exact spoilAll_bad loc sectors l mapped alone (.inl mem)

theorem mapEntryIsRebuilt (wf : lblocksWf s = true) {lb : Nat} {l : LBlock} (hl : s.lblock? lb = some l) :
    ∃ t : State, exec (.mapEntryRebuild lb) s = .next t ∧ t.media = s.media ∧ t.integ.event.getLsbD 4 = true ∧ SameSectors s t := by
  have rows : (s.recordRow (.mapStore lb)).aside = s.aside ∧ (s.recordRow (.mapStore lb)).media = s.media := by
    unfold State.recordRow
    split <;> exact ⟨rfl, rfl⟩
  refine ⟨(s.recordRow (.mapStore lb)).integEvent 4, ?_, rows.2, ?_, ((SameMedia.refl wf).aside (t := s) rows.1).sectors⟩
  · show execMapEntryRebuild lb s = _
    rw [execMapEntryRebuild, if_neg (by simp [runs, hl])]
  · show ((s.recordRow (.mapStore lb)).integ.event ||| BitVec.ofNat 5 (2 ^ 4)).getLsbD 4 = true
    rw [BitVec.getLsbD_or, Bool.or_eq_true]
    exact Or.inr (by decide)
end

theorem dieFails {s : State} (wf : lblocksWf s = true) (d : Fin 144) (i : Fin 16) :
    ∃ t : State, exec (.dieFail d i) s = .next t ∧ (d.val, i.val) ∈ t.media.failedDies ∧
      t.media.lblocks = s.media.lblocks ∧ SameSectors s t := by
  have run : exec (.dieFail d i) s = execDieFail d i s := rfl
  rw [execDieFail] at run
  by_cases known : s.media.failedDies.contains (d.val, i.val) = true
  · rw [if_pos known] at run
    exact ⟨s, run, List.contains_iff_mem.mp known, rfl, (SameMedia.refl wf).sectors⟩
  · rw [if_neg known] at run
    exact ⟨_, run, List.mem_append_right _ (List.mem_singleton_self _), rfl, (SameMedia.of_lblocks wf rfl rfl).sectors⟩

/-- Settles O50, event by event of flash management. -/
theorem mediaKeepsContent : Obligations.MediaKeepsContent := by
  intro s runs wf
  refine ⟨fun lb loc staged room => ⟨stagedAreProgrammed wf runs staged room, failedProgramKeeps wf runs staged room⟩,
    fun lb locs can row mem => mergeStarts wf can mem,
    fun lb m h => ⟨fun good => commitKeeps wf runs h good, fun none_ due calm => commitEnds h calm runs none_ due⟩,
    fun loc rests => ⟨fun released due => ⟨releasedIsErased wf runs rests.2.2 released due,
      failedEraseRetires wf runs rests.2.2 released due⟩, fun retired => retiredIsWiped wf runs retired⟩,
    fun src dst rests movable due erased duty => relocationMoves src dst wf runs rests movable due erased duty,
    fun some_ rests => checkpointWrites wf runs some_ rests, fun loc sectors used few => ⟨?_, ?_⟩,
    fun c pg loc hc place => ⟨?_, ?_⟩, dieFails wf, fun lb l hl => mapEntryIsRebuilt runs wf hl⟩
  · exact fun dies => sectorsAreRebuilt wf runs used few dies
  · exact sectorsAreLost runs used few
  · exact fun dies => objectIsRebuilt wf runs hc place dies
  · exact objectIsLost wf runs hc place

end Sys2Proof.Machine
end

section
/-!
SUPPORT. Where the registers lie (R406 to R408) and what one write of a whole register does; O51.
-/

namespace Sys2Proof.Machine

open Sys2Proof.Safety

/-! ### The place of a register -/

/-- A row of the register map has no byte in a range. -/
def RegRow.clearOf (r : RegRow) (lo hi : Nat) : Bool :=
  decide (0 < r.stride) && (decide (hi ≤ r.base) || decide (r.base + r.stride * r.count ≤ lo))

/-- A row places nothing in a range that it is clear of. -/
theorem at?_clear {r : RegRow} {lo hi off : Nat} (h : r.clearOf lo hi = true) (hlo : lo ≤ off) (hhi : off < hi) :
    r.at? off = none := by
  unfold RegRow.clearOf at h
  rw [Bool.and_eq_true, Bool.or_eq_true, decide_eq_true_iff, decide_eq_true_iff, decide_eq_true_iff] at h
  obtain ⟨hs, hr⟩ := h
  refine if_neg fun ⟨hb, hc, _⟩ => ?_
  rcases hr with hr | hr
  · omega
  · have := (Nat.div_lt_iff_lt_mul hs).mp hc
    rw [Nat.mul_comm] at this
    omega

/-- Where the place with number `i` of a row lies. -/
theorem at?_instance {r : RegRow} {i j off : Nat} (hoff : off = r.base + r.stride * i + j) (hi : i < r.count)
    (hj : j < r.bytes) (hb : r.bytes ≤ r.stride) :
    r.at? off = some ⟨r.reg i, r.base + r.stride * i, r.bytes⟩ := by
  have hs : 0 < r.stride := by omega
  have hd : off - r.base = r.stride * i + j := by omega
  have hq : (off - r.base) / r.stride = i := by
    rw [hd, Nat.mul_add_div hs, Nat.div_eq_of_lt (by omega), Nat.add_zero]
  have hm : (off - r.base) % r.stride = j := by rw [hd, Nat.mul_add_mod, Nat.mod_eq_of_lt (by omega)]
  unfold RegRow.at?
  dsimp only
  rw [hq, hm, if_pos ⟨by omega, hi, hj⟩, show off - j = r.base + r.stride * i by omega]

/-- The first row of the map that places a register at an offset decides which it is. -/
theorem regAt_row {k off : Nat} {r : RegRow} {p : RegPlace} (hk : regRows[k]? = some r)
    (hb : ∀ x ∈ regRows.take k, x.at? off = none) (hp : r.at? off = some p) (hr : p.reg.present = true) :
    regAt off = some p := by
  obtain ⟨hlt, hget⟩ := List.getElem?_eq_some_iff.mp hk
  have hrows : regRows = regRows.take k ++ r :: regRows.drop (k + 1) := by
    rw [← hget, ← List.drop_eq_getElem_cons hlt, List.take_append_drop]
  have : regRows.findSome? (fun r => r.at? off) = some p :=
    List.findSome?_eq_some_iff.mpr ⟨_, r, _, hrows, hp, hb⟩
  unfold regAt
  rw [this]
  exact if_pos hr

/-- A place of a row in a range that the rows before it are clear of. -/
theorem regAt_instance {k i j lo hi off : Nat} {r : RegRow} (hk : regRows[k]? = some r)
    (hb : (regRows.take k).all (fun x => x.clearOf lo hi) = true) (hlo : lo ≤ off) (hhi : off < hi)
    (hoff : off = r.base + r.stride * i + j) (hi : i < r.count) (hj : j < r.bytes) (hs : r.bytes ≤ r.stride)
    (hr : (r.reg i).present = true) : regAt off = some ⟨r.reg i, r.base + r.stride * i, r.bytes⟩ :=
  regAt_row hk (fun x hx => at?_clear (List.all_eq_true.mp hb x hx) hlo hhi) (at?_instance hoff hi hj hs) hr

/-- An access that lies in one register covers that register. -/
theorem covered_within {off n : Nat} {p : RegPlace} (ho : off % 4 = 0) (hn : 0 < n) (h9 : n ≤ 9)
    (h : ∀ i < n, regAt (off + 4 * i) = some p) : covered off (4 * n) = [p] := by
  have hlen : min ((off + 4 * n - 1) / 4 - off / 4 + 1) 9 = n := by omega
  have hmap : ∀ m, m ≤ n → (List.range m).filterMap (fun i => regAt (4 * (off / 4 + i))) = List.replicate m p := by
    intro m hm
    induction m with
    | zero => rfl
    | succ m ih =>
      rw [List.range_succ, List.filterMap_append, ih (by omega), List.filterMap_cons,
        show 4 * (off / 4 + m) = off + 4 * m by omega, h m (by omega), List.replicate_succ']
      rfl
  have hfold : ∀ m : Nat, (List.replicate m p).foldl (fun l p => if l.contains p then l else l ++ [p]) [p] = [p] := by
    intro m
    induction m with
    | zero => rfl
    | succ m ih =>
      rw [List.replicate_succ, List.foldl_cons, if_pos (by simp)]
      exact ih
  unfold covered
  rw [if_neg (by omega)]
  dsimp only
  rw [hlen, hmap n (Nat.le_refl n)]
  obtain ⟨m, rfl⟩ : ∃ m, n = m + 1 := ⟨n - 1, by omega⟩
  exact hfold m

/-- An access of the whole of a place of a row in a range that the rows before it are clear of. -/
theorem covered_instance {k i n lo hi : Nat} {r : RegRow} (hk : regRows[k]? = some r)
    (hb : (regRows.take k).all (fun x => x.clearOf lo hi) = true) (ha : (r.base + r.stride * i) % 4 = 0)
    (hlo : lo ≤ r.base + r.stride * i) (hhi : r.base + r.stride * i + 4 * n ≤ hi) (hi : i < r.count)
    (hn : 0 < n) (h9 : n ≤ 9) (hs : r.bytes ≤ r.stride) (hr : (r.reg i).present = true)
    (hsize : 4 * n = r.bytes) :
    covered (r.base + r.stride * i) (4 * n) = [⟨r.reg i, r.base + r.stride * i, r.bytes⟩] :=
  covered_within ha hn h9 fun j hj =>
    regAt_instance hk hb (by omega) (by omega) rfl hi (by omega) hs hr

theorem covered_guardKey : covered 0x30 4 = [⟨.guardKey, 0x30, 4⟩] := by decide
theorem covered_spoolId : covered 0x600000 4 = [⟨.spoolId, 0x600000, 4⟩] := by decide
theorem covered_lcCtl : covered 0x800004 4 = [⟨.lcCtl, 0x800004, 4⟩] := by decide
theorem covered_fwCtl : covered 0x800010 8 = [⟨.fwCtl, 0x800010, 8⟩] := by decide
theorem covered_splitCtl : covered 0x700020 4 = [⟨.splitCtl, 0x700020, 4⟩] := by decide

theorem covered_exportEntry (i : Fin 64) :
    covered (0x601000 + 32 * i.val) 32 = [⟨.exportEntry i.val, 0x601000 + 32 * i.val, 32⟩] :=
  covered_instance (k := 36) (n := 8) (lo := 0x601000) (hi := 0x601800)
    (r := ⟨0x601000, 32, 64, 32, .exportEntry⟩) rfl (by decide) (by dsimp only; omega) (by dsimp only; omega)
    (by dsimp only; omega) i.isLt (by decide) (by decide) (by decide) rfl rfl

theorem covered_inbox (i : Fin 64) :
    covered (0x601800 + 4 * i.val) 4 = [⟨.inbox i.val, 0x601800 + 4 * i.val, 4⟩] :=
  covered_instance (k := 37) (n := 1) (lo := 0x601800) (hi := 0x601900)
    (r := ⟨0x601800, 4, 64, 4, .inbox⟩) rfl (by decide) (by dsimp only; omega) (by dsimp only; omega)
    (by dsimp only; omega) i.isLt (by decide) (by decide) (by decide) rfl rfl

theorem covered_flipCfg (i : Fin 82) :
    covered (0x701000 + 16 * i.val) 4 = [⟨.flipCfg i.val, 0x701000 + 16 * i.val, 4⟩] :=
  covered_instance (k := 48) (n := 1) (lo := 0x701000) (hi := 0x701520)
    (r := ⟨0x701000, 16, 82, 4, .flipCfg⟩) rfl (by decide) (by dsimp only; omega) (by dsimp only; omega)
    (by dsimp only; omega) i.isLt (by decide) (by decide) (by decide) rfl rfl

/-! ### A write of one whole register -/

/-- An aligned word is a form that R408 allows. -/
theorem accessGood_word {off : Nat} (ho : off % 4 = 0) : accessGood off 4 = true := by
  unfold accessGood
  rw [ho]
  rfl

/-- An aligned double word is a form that R408 allows. -/
theorem accessGood_double {off : Nat} (ho : off % 8 = 0) : accessGood off 8 = true := by
  unfold accessGood
  rw [ho]
  rfl

/-- An access has a good form and covers one register, which it names whole. -/
structure Whole (off size : Nat) (r : Reg) : Prop where
  covers : covered off size = [⟨r, off, size⟩]
  good : accessGood off size = true

/-- A word. -/
theorem whole_word {off : Nat} {r : Reg} (h : covered off 4 = [⟨r, off, 4⟩]) (ho : off % 4 = 0) : Whole off 4 r :=
  ⟨h, accessGood_word ho⟩

/-- A double word. -/
theorem whole_double {off : Nat} {r : Reg} (h : covered off 8 = [⟨r, off, 8⟩]) (ho : off % 8 = 0) :
    Whole off 8 r :=
  ⟨h, accessGood_double ho⟩

/-- An entry of 32 bytes. -/
theorem whole_entry {off : Nat} {r : Reg} (h : covered off 32 = [⟨r, off, 32⟩]) (ho : off % 32 = 0) :
    Whole off 32 r := by
  refine ⟨h, ?_⟩
  unfold accessGood
  rw [h, ho]
  simp

/-- The part of a written value that lies on a register written whole. -/
theorem part_whole (r : Reg) (off size v : Nat) :
    RegPlace.part ⟨r, off, size⟩ off (v % 2 ^ (8 * size)) = v % 2 ^ (8 * size) := by
  unfold RegPlace.part
  dsimp only
  rw [Nat.sub_self, Nat.mul_zero, Nat.pow_zero, Nat.div_one, Nat.mod_mod]

/-- A write that names a register whole is no part of it. -/
theorem split_whole (r : Reg) (off size : Nat) : RegPlace.split ⟨r, off, size⟩ off size = false := by
  unfold RegPlace.split
  simp

/-- Where a write of a register whole reaches it, the register takes it unless it is guarded and the lock armed. -/
theorem hostWrite_whole {s : State} {off size v : Nat} {r : Reg} (h : Whole off size r) (how : Course)
    (hb : s.bar0 = true) (hd : off < 0x200000 ∨ s.hw.started = true) (hv : v < 2 ^ (8 * size))
    (hk : r.unmasked v = false) :
    s.hostWrite off size v how =
      (let t := s.accept ⟨r, off, size⟩ v how
       if r.spendsNothing || !s.link.guardOpen then t else t.arm) := by
  have hdorm : s.dormant off = false := by
    unfold State.dormant
    rcases hd with hd | hd
    · rw [decide_eq_false (by omega)]; rfl
    · rw [hd]; exact Bool.and_false _
  have hpart := part_whole r off size v
  rw [Nat.mod_eq_of_lt hv] at hpart
  rw [hostWrite_one how hb h.covers h.good hdorm (split_whole r off size)
    (by rw [Nat.mod_eq_of_lt hv, hpart]; exact hk), Nat.mod_eq_of_lt hv, hpart]

/-- A write of a guarded register, the lock armed, leaves GUARD_ERR alone (R416). -/
theorem hostWrite_guarded {s : State} {off size v : Nat} {r : Reg} (h : Whole off size r) (how : Course)
    (hb : s.bar0 = true) (hd : s.hw.started = true) (hv : v < 2 ^ (8 * size)) (hk : r.unmasked v = false)
    (hr : r.guarded = true) (hl : s.link.guardOpen = false) :
    s.hostWrite off size v how = { s with link := { s.link with regEvent := s.link.regEvent ||| 1 } } := by
  rw [hostWrite_whole h how hb (Or.inr hd) hv hk, accept_guarded hr hl hk, hl]
  dsimp only
  rw [if_pos (by simp)]
  rfl

/-- A write of a register that takes it, by a register that does not keep the lock open. -/
theorem hostWrite_taken {s : State} {off size v : Nat} {r : Reg} (h : Whole off size r) (how : Course)
    (hb : s.bar0 = true) (hd : off < 0x200000 ∨ s.hw.started = true) (hv : v < 2 ^ (8 * size))
    (hk : r.unmasked v = false) (hr : r.guarded = false ∨ s.link.guardOpen = true)
    (hs : r.spendsNothing = false) :
    s.hostWrite off size v how =
      if s.link.guardOpen then (s.putReg r v how).arm else s.putReg r v how := by
  rw [hostWrite_whole h how hb hd hv hk, accept_open hr hk, hs]
  dsimp only
  cases s.link.guardOpen <;> rfl

/-- A write of a mask register with a zero mask does nothing (R17). -/
theorem hostWrite_unmasked {s : State} {off size v : Nat} {r : Reg} (h : Whole off size r) (how : Course)
    (hd : off < 0x200000) (hv : v < 2 ^ (8 * size)) (hk : r.unmasked v = true) :
    s.hostWrite off size v how = s := by
  have hpart := part_whole r off size v
  rw [Nat.mod_eq_of_lt hv] at hpart
  have hdorm : s.dormant off = false := by
    unfold State.dormant
    rw [decide_eq_false (by omega)]; rfl
  have hsplit : ((covered off size).any (fun p => p.split off size)) = false := by
    rw [h.covers, List.any_cons, split_whole]; rfl
  have hidle : (!(covered off size).isEmpty &&
      (covered off size).all (fun p => p.reg.unmasked (p.part off v))) = true := by
    rw [h.covers, List.all_cons, hpart, hk]; rfl
  unfold State.hostWrite
  dsimp only
  rw [Nat.mod_eq_of_lt hv, hdorm, hsplit, hidle, h.good]
  by_cases hb : s.bar0 = false
  · rw [if_pos hb]
  · rw [if_neg hb, if_neg (by simp), if_neg (by simp), if_neg (by simp), if_pos rfl]

/-- A register that is no mask register always has its mask. -/
theorem unmasked_plain {r : Reg} (h : r.masked = false) (v : Nat) : r.unmasked v = false := by
  unfold Reg.unmasked
  rw [h]
  rfl

/-- A mask that has a bit is not zero. -/
theorem unmasked_of_mask {r : Reg} {v : Nat} (h : v / 65536 ≠ 0) : r.unmasked v = false := by
  unfold Reg.unmasked
  rw [beq_eq_false_iff_ne.mpr h, Bool.and_false]

/-- Without a mask nothing is written. -/
theorem maskWrite_unmasked {v : Nat} (h : v / 65536 = 0) : maskWrite 0 v = 0 := by
  unfold maskWrite
  rw [h, Nat.zero_and, Nat.zero_mod, Nat.and_zero, Nat.or_zero]

/-- A field of zero. -/
theorem bits_zero (hi lo : Nat) : bits 0 hi lo = 0 := by
  unfold bits
  rw [Nat.zero_div, Nat.zero_mod]

/-! ### The guard lock (O51) -/

/-- The operation of split mode is written through its mask. -/
theorem mask_of_operation {v n : Nat} (h : bits (maskWrite 0 v) 1 0 = n) (hn : n ≠ 0) : v / 65536 ≠ 0 := by
  intro h0
  rw [maskWrite_unmasked h0, bits_zero] at h
  exact hn h.symm

section armed

variable {s : State} (hb : s.bar0 = true) (hl : s.link.guardOpen = false) (hd : s.hw.started = true)
include hb hl hd

/-- A guarded word register that is no mask register. -/
theorem armed_word {off : Nat} {r : Reg} (hc : covered off 4 = [⟨r, off, 4⟩]) (ho : off % 4 = 0)
    (hr : r.guarded = true) (hm : r.masked = false) (v : BitVec 32) (how : Course) :
    s.hostWrite off 4 v.toNat how = { s with link := { s.link with regEvent := s.link.regEvent ||| 1 } } :=
  hostWrite_guarded (whole_word hc ho) how hb hd v.isLt (unmasked_plain hm _) hr hl

/-- ECC_SPLIT_CTL. -/
theorem armed_split {v : BitVec 32} (hm : v.toNat / 65536 ≠ 0) :
    s.hostWrite 0x700020 4 v.toNat noCourse = { s with link := { s.link with regEvent := s.link.regEvent ||| 1 } } :=
  hostWrite_guarded (whole_word covered_splitCtl rfl) _ hb hd v.isLt (unmasked_of_mask hm) rfl hl

/-- FW_CTL. -/
theorem armed_fw (x : BitVec 64) (how : Course) :
    s.hostWrite 0x800010 8 x.toNat how = { s with link := { s.link with regEvent := s.link.regEvent ||| 1 } } :=
  hostWrite_guarded (whole_double covered_fwCtl rfl) how hb hd x.isLt (unmasked_plain rfl _) rfl hl

end armed

/-- What a list has under a condition. -/
theorem mem_guarded {α : Type} {c : Prop} [Decidable c] {a x : α} (h : x ∈ (if c then [a] else [])) : c ∧ x = a := by
  by_cases hc : c
  · rw [if_pos hc] at h
    exact ⟨hc, List.mem_singleton.mp h⟩
  · rw [if_neg hc] at h
    exact absurd h List.not_mem_nil

/-- A write of GUARD_KEY with a mask. -/
theorem hostWrite_guardKey {s : State} (hb : s.bar0 = true) {v : BitVec 32} (hm : v.toNat / 65536 ≠ 0) :
    s.hostWrite 0x30 4 v.toNat noCourse =
      if s.link.guardOpen then (s.guardWrite v.toNat).arm else s.guardWrite v.toNat :=
  hostWrite_taken (r := .guardKey) (whole_word covered_guardKey rfl) _ hb (Or.inl (by decide)) v.isLt
    (unmasked_of_mask hm) (Or.inl rfl) rfl

/-- Settles O51: an access covers the register that its row names, so the lock decides before the register acts. -/
theorem lockGuardsRegisters : Obligations.LockGuardsRegisters := by
  unfold Obligations.LockGuardsRegisters
  intro s v x w i k whole stop env hb
  refine ⟨fun hl hd row hrow => ?_, fun hl => ?_, fun hv hm => ?_, fun h0 => ?_, rfl⟩
  · simp only [List.mem_append, List.mem_cons, List.not_mem_nil, or_false, or_assoc] at hrow
    rcases hrow with rfl | rfl | rfl | h | h | h | h | h | h
    · exact congrArg Host.Outcome.next (armed_word hb hl hd covered_spoolId rfl rfl rfl v _)
    · exact congrArg Host.Outcome.next (hostWrite_guarded (whole_entry (covered_exportEntry i) (by omega)) _ hb hd w.isLt
        (unmasked_plain rfl _) rfl hl)
    · exact congrArg Host.Outcome.next (armed_word hb hl hd (covered_inbox i) (by omega) rfl rfl v _)
    · obtain ⟨hc, rfl⟩ := mem_guarded h
      exact (if_pos hc).trans (congrArg Host.Outcome.next (armed_word hb hl hd covered_lcCtl rfl rfl rfl v _))
    · obtain ⟨hc, rfl⟩ := mem_guarded h
      exact (if_pos hc).trans (congrArg Host.Outcome.next (armed_fw hb hl hd x _))
    · obtain ⟨hc, rfl⟩ := mem_guarded h
      exact (if_pos hc).trans (congrArg Host.Outcome.next (armed_fw hb hl hd x _))
    · obtain ⟨hc, rfl⟩ := mem_guarded h
      exact (if_pos hc).trans (congrArg Host.Outcome.next (armed_split hb hl hd (mask_of_operation hc (by decide))))
    · obtain ⟨hc, rfl⟩ := mem_guarded h
      exact (if_pos hc).trans (congrArg Host.Outcome.next (armed_split hb hl hd (mask_of_operation hc (by decide))))
    · obtain ⟨hc, rfl⟩ := mem_guarded h
      exact (if_pos hc).trans
        (congrArg Host.Outcome.next (armed_word hb hl hd (covered_flipCfg k) (by omega) rfl rfl v _))
  · refine congrArg Host.Outcome.next ((hostWrite_guardKey hb (v := 0xFFFFC1A9) (by decide)).trans ?_)
    rw [hl]
    rfl
  · refine congrArg Host.Outcome.next ((hostWrite_guardKey hb hm).trans ?_)
    have hg : s.guardWrite v.toNat =
        { s with link := { s.link with guardOpen := false, regEvent := s.link.regEvent ||| 2 } } :=
      if_neg fun h => hv (BitVec.eq_of_toNat_eq h)
    rw [hg]
    exact ite_self _
  · exact congrArg Host.Outcome.next (hostWrite_unmasked (whole_word covered_guardKey rfl) noCourse (by decide) v.isLt
      (by rw [Reg.unmasked, h0]; rfl))

end Sys2Proof.Machine
end

section
/-!
SUPPORT. Reads of the registers, writes of their event fields and of ENABLE; O52 and O53.
-/

namespace Sys2Proof.Machine

open Sys2Proof.Safety

/-! ### Reads (R409) -/

/-- A read within one register. -/
theorem read_within {s : State} {off size : Nat} {p : RegPlace} (hb : s.bar0 = true) (hd : s.hw.started = true)
    (hc : covered off size = [p]) (hg : accessGood off size = true) :
    exec (.wideRegisterRead off size) s =
      (let y := s.readPart off size p
       .next { y.2 with free := y.2.free + 64, host := { y.2.host with readData := BitVec.ofNat 256 (0 + y.1) } }) := by
  show execWideRegisterRead off size s = _
  rw [execWideRegisterRead, if_neg (by rw [hb]; decide)]
  have hdorm : s.dormant off = false := by
    unfold State.dormant
    rw [hd]
    exact Bool.and_false _
  have hr : s.hostRead off size =
      (0 + (s.readPart off size p).1, { (s.readPart off size p).2 with free := (s.readPart off size p).2.free + 64 }) := by
    unfold State.hostRead
    dsimp only
    rw [if_neg (by rw [hg]; simp), if_neg (by rw [hdorm]; decide), hc]
    rfl
  rw [hr]

/-- A value of a read fits its register. -/
theorem readData_toNat {n k : Nat} (hk : k ≤ 256) (h : n < 2 ^ k) : (BitVec.ofNat 256 (0 + n)).toNat = n := by
  rw [Nat.zero_add, BitVec.toNat_ofNat]
  exact Nat.mod_eq_of_lt (Nat.lt_of_lt_of_le h (Nat.pow_le_pow_right (by decide) hk))

section wide

variable {s : State} {off : Nat} {p : RegPlace} (hbase : p.base = off) (hbytes : p.bytes = 8)
  (hbell : p.reg.isDoorbell = false)
include hbase hbytes hbell

/-- What a read from the low end of a wide register returns and latches. -/
theorem readPart_low {size : Nat} (hs : size ≤ 8) :
    s.readPart off size p = (s.regValue p.reg % 2 ^ (8 * size),
      { s with link := { s.link with
          shadow := Sparse.set s.link.shadow off (BitVec.ofNat 256 (s.regValue p.reg)) } }) := by
  obtain ⟨r, b, n⟩ := p
  subst hbase hbytes
  unfold State.readPart
  dsimp only at hbell ⊢
  rw [hbell, show Nat.max b b = b from Nat.max_self b, show min (b + size) (b + 8) = b + size by omega,
    if_neg (by simp), if_pos (by simp), Nat.sub_self, Nat.mul_zero, Nat.pow_zero, Nat.div_one, Nat.mul_one,
    Nat.add_sub_cancel_left]

/-- What a read of the high half of a wide register returns. -/
theorem readPart_high :
    s.readPart (off + 4) 4 p = ((Sparse.get s.link.shadow off).toNat / 2 ^ 32 % 2 ^ 32, s) := by
  obtain ⟨r, b, n⟩ := p
  subst hbase hbytes
  unfold State.readPart
  dsimp only at hbell ⊢
  rw [hbell, show Nat.max (b + 4) b = b + 4 from Nat.max_eq_left (by omega),
    show min (b + 4 + 4) (b + 8) = b + 8 by omega, if_pos (by simp), if_neg (by simp),
    show b + 4 - b = 4 by omega, show b + 8 - (b + 4) = 4 by omega, Nat.sub_self, Nat.mul_zero, Nat.pow_zero,
    Nat.mul_one]

variable (hb : s.bar0 = true) (hd : s.hw.started = true)
include hb hd

/-- A read of the low end of a wide register. -/
theorem read_low {size : Nat} (hs : size ≤ 8) (hc : covered off size = [p]) (hg : accessGood off size = true) :
    exec (.wideRegisterRead off size) s = .next { s with
      free := s.free + 64
      host := { s.host with readData := BitVec.ofNat 256 (0 + s.regValue p.reg % 2 ^ (8 * size)) }
      link := { s.link with shadow := Sparse.set s.link.shadow off (BitVec.ofNat 256 (s.regValue p.reg)) } } := by
  rw [read_within hb hd hc hg, readPart_low hbase hbytes hbell hs]

/-- A read of the high half of a wide register. -/
theorem read_high (hc : covered (off + 4) 4 = [p]) (hg : accessGood (off + 4) 4 = true) :
    exec (.wideRegisterRead (off + 4) 4) s = .next { s with
      free := s.free + 64
      host := { s.host with
        readData := BitVec.ofNat 256 (0 + (Sparse.get s.link.shadow off).toNat / 2 ^ 32 % 2 ^ 32) } } := by
  rw [read_within hb hd hc hg, readPart_high hbase hbytes hbell]

end wide

/-- A refused read reads 0. -/
theorem read_refused {s : State} {off size : Nat} (hb : s.bar0 = true) (hg : accessGood off size = false)
    (hc : covered off size ≠ []) :
    exec (.wideRegisterRead off size) s =
      .next { s with host := { s.host with readData := 0 }
                     link := { s.link with regEvent := s.link.regEvent ||| 8 } } := by
  show execWideRegisterRead off size s = _
  rw [execWideRegisterRead, if_neg (by rw [hb]; decide)]
  have hr : s.hostRead off size = (0, s.regEvent 3) := by
    unfold State.hostRead
    dsimp only
    rw [if_pos ⟨hg, hc⟩]
  rw [hr]
  rfl

/-- A refused write writes nothing. -/
theorem write_refused {s : State} {off size v : Nat} (how : Course) (hb : s.bar0 = true)
    (hg : accessGood off size = false) (hc : covered off size ≠ []) :
    s.hostWrite off size v how = s.regEvent 3 ∨ s.hostWrite off size v how = (s.regEvent 3).arm := by
  unfold State.hostWrite
  dsimp only
  rw [if_neg (by rw [hb]; decide), if_pos ⟨hg, hc⟩]
  split
  · exact Or.inl rfl
  · exact Or.inr rfl

/-! ### Writes of whole registers through REGISTER_WRITE -/

/-- A write looks at the bytes of its size alone. -/
theorem hostWrite_mod (s : State) (off size v : Nat) (how : Course) :
    s.hostWrite off size v how = s.hostWrite off size (v % 2 ^ (8 * size)) how := by
  unfold State.hostWrite
  dsimp only
  rw [Nat.mod_mod]

/-- A register that starts no course is written by its own row. -/
theorem exec_registerWrite {s : State} {off size : Nat} {r : Reg} (h : Whole off size r) (v : BitVec 256)
    (hlc : r ≠ .lcCtl) (hfw : r ≠ .fwCtl) :
    exec (.registerWrite off size v) s = .next (s.hostWrite off size (v.toNat % 2 ^ (8 * size)) noCourse) := by
  have hc : startsCourse off size v.toNat = false := by
    unfold startsCourse
    rw [h.covers, List.any_cons, List.any_nil, beq_eq_false_iff_ne.mpr hlc, beq_eq_false_iff_ne.mpr hfw]
    rfl
  show execRegisterWrite off size v s = _
  rw [execRegisterWrite, hc, if_neg (by decide), ← hostWrite_mod]

/-- A register that is neither guarded nor masked takes what is written, and the lock is armed or stays so. -/
theorem write_plain {s : State} {off size : Nat} {r : Reg} (h : Whole off size r) (v : BitVec 256)
    (hb : s.bar0 = true) (hd : s.hw.started = true) (hlc : r ≠ .lcCtl) (hfw : r ≠ .fwCtl) (hm : r.masked = false)
    (hg : r.guarded = false) (hs : r.spendsNothing = false) :
    ∃ t, exec (.registerWrite off size v) s = .next t ∧
      (let u := s.putReg r (v.toNat % 2 ^ (8 * size)) noCourse
       inside t = inside u ∧ t.link.regEvent = u.link.regEvent) := by
  refine ⟨_, exec_registerWrite h v hlc hfw, ?_⟩
  rw [hostWrite_taken h noCourse hb (Or.inr hd) (Nat.mod_lt _ (Nat.two_pow_pos _)) (unmasked_plain hm _)
    (Or.inl hg) hs]
  split
  · exact ⟨rfl, rfl⟩
  · exact ⟨rfl, rfl⟩

/-- The low bits of a written value. -/
theorem ofNat_mod_written {w n : Nat} (hw : w ≤ n) (v : BitVec 256) :
    BitVec.ofNat w (v.toNat % 2 ^ n) = v.truncate w := by
  apply BitVec.eq_of_toNat_eq
  rw [BitVec.toNat_ofNat, BitVec.truncate_eq_setWidth, BitVec.toNat_setWidth,
    Nat.mod_mod_of_dvd _ (Nat.pow_dvd_pow 2 hw)]

/-- Bits written as 1 are cleared. -/
theorem clearBits_written {w n : Nat} (hw : w ≤ n) (old : BitVec w) (v : BitVec 256) :
    clearBits old (v.toNat % 2 ^ n) = old &&& ~~~ v.truncate w := by
  unfold clearBits
  rw [ofNat_mod_written hw]

theorem covered_arbHold (i : Fin 66) :
    covered (0x400008 + 32 * i.val) 8 = [⟨.arbHold i.val, 0x400008 + 32 * i.val, 8⟩] := by
  refine covered_within (n := 2) (by omega) (by decide) (by decide) fun j hj => ?_
  refine regAt_row (k := 28) (r := ⟨0x400008, 32, 66, 8, .arbHold⟩) rfl (fun x hx => ?_)
    (at?_instance (i := i.val) (j := 4 * j) rfl i.isLt (by dsimp only; omega) (by decide)) rfl
  have before : regRows.take 28 = regRows.take 27 ++ [⟨0x400000, 32, 66, 4, .arbCfg⟩] := rfl
  rw [before] at hx
  rcases List.mem_append.mp hx with hx | hx
  · exact at?_clear (lo := 0x400000) (hi := 0x401000)
      (List.all_eq_true.mp (show (regRows.take 27).all (fun x => x.clearOf 0x400000 0x401000) = true by decide) x hx)
      (by omega) (by omega)
  · rw [List.mem_singleton.mp hx]
    refine if_neg fun ⟨_, _, hw⟩ => ?_
    dsimp only at hw
    omega

/-- Settles O52. -/
theorem registersAreAccessed : Obligations.RegistersAreAccessed := by
  unfold Obligations.RegistersAreAccessed
  intro s hb hd hwf
  refine ⟨fun off p hlo hhi ho hbase hbytes hbell => ?_, fun off size v hg hc => ⟨?_, fun hs => ?_⟩, fun v => ?_⟩
  · have h1 : covered off (4 * 1) = [p] := covered_within (by omega) (by decide) (by decide) fun i hi => by
      rw [show i = 0 by omega]; exact hlo
    have h2 : covered off (4 * 2) = [p] := covered_within (by omega) (by decide) (by decide) fun i hi => by
      rcases (show i = 0 ∨ i = 1 by omega) with rfl | rfl
      · exact hlo
      · exact hhi
    have h3 : covered (off + 4) (4 * 1) = [p] := covered_within (by omega) (by decide) (by decide) fun i hi => by
      rw [show i = 0 by omega]; exact hhi
    refine ⟨⟨_, read_low hbase hbytes hbell hb hd (by decide) h2 (accessGood_double ho), ?_, rfl⟩,
      ⟨_, read_low hbase hbytes hbell hb hd (by decide) h1 (accessGood_word (by omega)), ?_, ?_, rfl⟩,
      ⟨_, read_high hbase hbytes hbell hb hd h3 (accessGood_word (by omega)), ?_, rfl⟩⟩
    · exact readData_toNat (k := 64) (by decide) (Nat.mod_lt _ (by decide))
    · exact readData_toNat (k := 32) (by decide) (Nat.mod_lt _ (by decide))
    · show (Sparse.get (Sparse.set s.link.shadow off (BitVec.ofNat 256 (s.regValue p.reg))) off).toNat = _
      rw [Sparse.get_set hwf, if_pos rfl, BitVec.toNat_ofNat]
    · exact readData_toNat (k := 32) (by decide) (Nat.mod_lt _ (by decide))
  · exact ⟨_, read_refused hb hg hc, rfl, rfl⟩
  · refine ⟨_, if_neg (by rw [hs]; decide), ?_⟩
    rcases write_refused noCourse hb hg hc with h | h <;> rw [h] <;> rfl
  · refine ⟨?_, ?_, ?_, ?_, ?_, fun i => ?_⟩
    · obtain ⟨t, ht, hi, he⟩ := write_plain (r := .regEvent) (whole_word (off := 0x38) (by decide) rfl) v hb hd
        (by decide) (by decide) rfl rfl rfl
      exact ⟨t, ht, hi, he.trans (clearBits_written (by decide) _ v)⟩
    · obtain ⟨t, ht, hi, _⟩ := write_plain (r := .mediaEvent) (whole_word (off := 0x500010) (by decide) rfl) v hb hd
        (by decide) (by decide) rfl rfl rfl
      refine ⟨t, ht, hi.trans ?_⟩
      rw [← clearBits_written (n := 32) (by decide)]
      rfl
    · obtain ⟨t, ht, hi, _⟩ := write_plain (r := .spoolEvent) (whole_word (off := 0x600008) (by decide) rfl) v hb hd
        (by decide) (by decide) rfl rfl rfl
      refine ⟨t, ht, hi.trans ?_⟩
      rw [← clearBits_written (n := 32) (by decide)]
      rfl
    · obtain ⟨t, ht, hi, _⟩ := write_plain (r := .integrityEvent) (whole_word (off := 0x700000) (by decide) rfl) v
        hb hd (by decide) (by decide) rfl rfl rfl
      refine ⟨t, ht, hi.trans ?_⟩
      rw [← clearBits_written (n := 32) (by decide)]
      rfl
    · obtain ⟨t, ht, hi, _⟩ := write_plain (r := .hwEvent) (whole_word (off := 0x900008) (by decide) rfl) v hb hd
        (by decide) (by decide) rfl rfl rfl
      refine ⟨t, ht, hi.trans ?_⟩
      rw [← clearBits_written (n := 32) (by decide)]
      rfl
    · obtain ⟨t, ht, hi, _⟩ := write_plain (r := .arbHold i.val) (whole_double (covered_arbHold i) (by omega)) v hb hd
        (fun e => (nomatch e)) (fun e => (nomatch e)) rfl rfl rfl
      refine ⟨t, ht, hi.trans ?_⟩
      rw [← ofNat_mod_written (n := 64) (by decide)]
      rfl

/-! ### ENABLE of the admin queue (R418, R419) -/

/-- A write of ADMIN_CTL with a mask. -/
theorem hostWrite_adminCtl {s : State} (hb : s.bar0 = true) {v : BitVec 32} (h16 : bitOf v.toNat 16 = true) :
    s.hostWrite 0x10004 4 v.toNat noCourse =
      if s.link.guardOpen then (s.adminWrite v.toNat).arm else s.adminWrite v.toNat :=
  hostWrite_taken (r := .adminCtl) (whole_word (by decide) rfl) _ hb (Or.inl (by decide)) v.isLt
    (unmasked_of_mask fun h => by
      have h1 : v.toNat / 2 ^ 16 % 2 = 1 := of_decide_eq_true h16
      rw [show (2 : Nat) ^ 16 = 65536 from rfl, h] at h1
      exact absurd h1 (by decide)) (Or.inl rfl) rfl

/-- The state that a write of ADMIN_CTL leaves, once the lock is armed or was. -/
theorem exists_adminWrite {s : State} (hb : s.bar0 = true) {v : BitVec 32} (h16 : bitOf v.toNat 16 = true)
    {i : Instr} (hi : exec i s = .next (s.hostWrite 0x10004 4 v.toNat noCourse)) {u : State}
    (hu : s.adminWrite v.toNat = u) (hg : u.link.guardOpen = s.link.guardOpen) :
    ∃ t : State, exec i s = .next t ∧ t = { u with link := { u.link with guardOpen := false } } := by
  subst hu
  refine ⟨_, hi, ?_⟩
  rw [hostWrite_adminCtl hb h16]
  cases ho : s.link.guardOpen with
  | true => rfl
  | false =>
    rw [ho] at hg
    generalize s.adminWrite v.toNat = u at hg
    rw [if_neg (by decide), ← hg]

/-- The state with other depths of the admin queue. -/
def State.withDepths (s : State) (cq sq : Nat) : State :=
  { s with link := { s.link with admin := { s.link.admin with
      cqLog2 := BitVec.ofNat 5 cq, sqLog2 := BitVec.ofNat 5 sq } } }

/-- The admin queue that the registers describe. -/
def Admin.queue (a : Admin) : Queue :=
  { id := 0, pod := 0, cls := 0, sqLog2 := a.sqLog2.toNat, cqLog2 := a.cqLog2.toNat, sqOffset := a.sqOffset
    cqAddr := a.cqAddr, vector := 0 }

/-- Whether the settings of the admin queue may be used (R47). -/
def State.adminFits (s : State) (sq cq : Nat) : Bool :=
  decide (6 ≤ sq ∧ sq ≤ 16 ∧ 6 ≤ cq ∧ cq ≤ 16 ∧ s.link.admin.sqOffset + 64 * 2 ^ sq ≤ 2 ^ 30) &&
    !s.claimed (s.link.admin.sqOffset, 64 * 2 ^ sq)

/-- What bringing the admin queue up does. -/
theorem adminUp_eq (s : State) :
    s.adminUp = if s.adminFits s.link.admin.sqLog2.toNat s.link.admin.cqLog2.toNat then
      { s with link := { s.link with
          admin := { s.link.admin with enable := true, err := false, ready := s.hw.started }
          queues := if s.hw.started then s.link.queues ++ [s.link.admin.queue] else s.link.queues } }
    else { s with link := { s.link with admin := { s.link.admin with enable := true, err := true } } } := by
  have hfits : s.adminFits s.link.admin.sqLog2.toNat s.link.admin.cqLog2.toNat =
      (decide (6 ≤ s.link.admin.sqLog2.toNat) && decide (s.link.admin.sqLog2.toNat ≤ 16) &&
        (decide (6 ≤ s.link.admin.cqLog2.toNat) && decide (s.link.admin.cqLog2.toNat ≤ 16)) &&
        decide (s.link.admin.sqOffset + 64 * 2 ^ s.link.admin.sqLog2.toNat ≤ 2 ^ 30) &&
        !s.claimed (s.link.admin.sqOffset, 64 * 2 ^ s.link.admin.sqLog2.toNat)) := by
    unfold State.adminFits
    simp only [Bool.decide_and, Bool.and_assoc]
  rw [hfits]
  rfl

/-- A depth is a five-bit field. -/
theorem depth_toNat (word lo : Nat) : (BitVec.ofNat 5 (bits word (lo + 4) lo)).toNat = bits word (lo + 4) lo := by
  rw [BitVec.toNat_ofNat]
  refine Nat.mod_eq_of_lt ?_
  unfold bits
  exact Nat.lt_of_lt_of_eq (Nat.mod_lt _ (Nat.two_pow_pos _)) (by rw [show lo + 4 + 1 - lo = 5 by omega])

/-- ENABLE written as 1 while the queue is down brings it up with the depths that the write leaves. -/
theorem adminWrite_up {s : State} {v : Nat} (he : s.link.admin.enable = false) (hr : s.link.admin.ready = false)
    (h16 : bitOf v 16 = true) (h0 : bitOf v 0 = true) :
    s.adminWrite v =
      (let word := maskWrite (pack [(8, s.link.admin.cqLog2.toNat), (3, s.link.admin.sqLog2.toNat), (0, 0)]) v
       (s.withDepths (bits word 12 8) (bits word 7 3)).adminUp) := by
  unfold State.adminWrite
  dsimp only
  rw [if_neg (show ¬ (s.link.admin.enable || s.link.admin.ready) = true by rw [he, hr]; decide),
    if_neg (show ¬ bitOf v 16 = false by rw [h16]; decide), if_pos h0,
    if_neg (show ¬ s.link.admin.ready = true by rw [hr]; decide), show b2n s.link.admin.enable = 0 by rw [he]; rfl]
  rfl

/-- ENABLE written as 0 while the queue is up takes it down. -/
theorem adminWrite_off {s : State} {v : Nat} (hr : s.link.admin.ready = true) (h16 : bitOf v 16 = true)
    (h0 : bitOf v 0 = false) : s.adminWrite v = s.adminOff := by
  unfold State.adminWrite
  dsimp only
  rw [if_pos (show (s.link.admin.enable || s.link.admin.ready) = true by rw [hr, Bool.or_true]),
    if_neg (show ¬ bitOf v 16 = false by rw [h16]; decide), if_neg (show ¬ bitOf v 0 = true by rw [h0]; decide)]

/-- Following completions of other queues leaves a queue without commands as it is. -/
theorem cmdsOf_settleReset {s : State} {q : Nat} (h : s.cmdsOf q = []) (n : Nat) : (s.settleReset n).cmdsOf q = [] := by
  have hmod : ∀ (t : State) (u : Nat) (v : Verdict), t.cmdsOf q = [] →
      (t.modCmd u (fun c => { c with verdict := some v })).cmdsOf q = [] := by
    intro t u v ht
    unfold State.cmdsOf State.modCmd at *
    dsimp only
    rw [List.filter_eq_nil_iff] at ht ⊢
    intro c hc
    obtain ⟨c0, hc0, rfl⟩ := List.mem_map.mp hc
    have := ht c0 hc0
    split <;> exact this
  unfold State.settleReset
  split
  · exact h
  · split
    · exact h
    · split
      · refine hmod _ _ _ ?_
        split
        · exact h
        · exact h
      · exact h

theorem cmdsOf_settleAbort {s : State} {q : Nat} (h : s.cmdsOf q = []) : s.settleAbort.cmdsOf q = [] := by
  unfold State.cmdsOf State.settleAbort at *
  dsimp only
  rw [List.filter_eq_nil_iff] at h ⊢
  intro c hc
  obtain ⟨c0, hc0, rfl⟩ := List.mem_map.mp hc
  have := h c0 hc0
  split <;> exact this

/-- An admin queue without commands has none after what follows from completions. -/
theorem cmdsOf_settleQueues {s : State} (h : s.cmdsOf 0 = []) : s.settleQueues.cmdsOf 0 = [] := by
  have hfold : ∀ (l : List Nat) (t : State), t.cmdsOf 0 = [] → (l.foldl State.settleReset t).cmdsOf 0 = [] := by
    intro l
    induction l with
    | nil => exact fun t ht => ht
    | cons n l ih => exact fun t ht => ih _ (cmdsOf_settleReset ht n)
  have habort := cmdsOf_settleAbort (hfold (s.link.queues.map (fun q => q.id)) s h)
  unfold State.settleQueues
  dsimp only
  generalize ((s.link.queues.map (fun q => q.id)).foldl State.settleReset s).settleAbort = t at habort ⊢
  have : t.settleAdmin t.link.cmds.length = t := by
    cases t.link.cmds.length with
    | zero => rfl
    | succ n =>
      unfold State.settleAdmin
      rw [habort]
      rfl
  rw [this]
  exact habort

/-- An admin queue that is drained goes down at once. -/
theorem adminOff_drained {s : State} (hr : s.link.admin.ready = true) (hc : s.cmdsOf 0 = []) :
    inside s.adminOff = inside s ∧ s.adminOff.link.guardOpen = s.link.guardOpen ∧
      s.adminOff.link.admin.enable = false ∧ s.adminOff.link.admin.ready = false ∧ s.adminOff.queue? 0 = none := by
  have hoff : s.adminOff = State.settle { s with link := { s.link with
      admin := { s.link.admin with enable := false, draining := s.link.admin.ready } } } := rfl
  rw [hoff, hr]
  generalize hu : ({ s with link := { s.link with
      admin := { s.link.admin with enable := false, draining := true } } } : State) = u
  have hin : inside u.settle = inside s := by rw [inside_settle, ← hu]; rfl
  have hrest := linkRest_settleQueues u
  have hadmin : u.settleQueues.link.admin = { s.link.admin with enable := false, draining := true } := by
    rw [admin_of_linkRest hrest, ← hu]
  have hguard : u.settleQueues.link.guardOpen = s.link.guardOpen := by
    have same : u.settleQueues.linkRest.guardOpen = u.linkRest.guardOpen := congrArg Transport.guardOpen hrest
    exact same.trans (by rw [← hu]; rfl)
  have hcmds : u.settleQueues.cmdsOf 0 = [] := cmdsOf_settleQueues (by rw [← hu]; exact hc)
  rw [settle_eq] at hin ⊢
  have hdown : u.settleQueues.settleDown = { u.settleQueues with link := { u.settleQueues.link with
      admin := { u.settleQueues.link.admin with draining := false, ready := false }
      queues := u.settleQueues.link.queues.filter (fun x => x.id != 0) } } :=
    if_pos ⟨by rw [hadmin], hcmds⟩
  refine ⟨hin, ?_⟩
  rw [hdown]
  refine ⟨hguard, ?_, rfl, ?_⟩
  · show u.settleQueues.link.admin.enable = false
    rw [hadmin]
  · refine List.find?_eq_none.mpr fun x hx => ?_
    have := (List.mem_filter.mp hx).2
    simpa using this

/-- Settles O53. -/
theorem adminQueueSwitches : Obligations.AdminQueueSwitches := by
  unfold Obligations.AdminQueueSwitches
  intro s v hb h16
  refine ⟨?_, fun h0 hr hc => ?_⟩
  · intro word sq cq fits h0 he hr
    have hexec : exec (.adminEnable v) s = .next (s.hostWrite 0x10004 4 v.toNat noCourse) :=
      if_pos ⟨h16, h0⟩
    have hw : s.adminWrite v.toNat = (s.withDepths cq sq).adminUp := adminWrite_up he hr h16 h0
    have hfits : (s.withDepths cq sq).adminFits (s.withDepths cq sq).link.admin.sqLog2.toNat
        (s.withDepths cq sq).link.admin.cqLog2.toNat = fits := by
      show (s.withDepths cq sq).adminFits (BitVec.ofNat 5 sq).toNat (BitVec.ofNat 5 cq).toNat = fits
      rw [depth_toNat word 3, depth_toNat word 8]
      rfl
    refine ⟨fun hf hd hq => ?_, fun hf => ?_⟩
    · have hup := adminUp_eq (s.withDepths cq sq)
      rw [if_pos (hfits.trans hf), show (s.withDepths cq sq).hw.started = true from hd, if_pos rfl] at hup
      obtain ⟨t, ht, rfl⟩ := exists_adminWrite hb h16 hexec (hw.trans hup) rfl
      refine ⟨_, ht, rfl, rfl, rfl, rfl, rfl, ?_⟩
      refine (List.find?_append ..).trans ?_
      rw [show (s.withDepths cq sq).link.queues.find? (fun x => x.id == 0) = none from hq]
      show some (Admin.queue (s.withDepths cq sq).link.admin) = _
      have h1 := depth_toNat word 3
      have h2 := depth_toNat word 8
      unfold Admin.queue State.withDepths
      dsimp only
      rw [h1, h2]
    · have hup := adminUp_eq (s.withDepths cq sq)
      rw [if_neg (by rw [hfits, hf]; decide)] at hup
      obtain ⟨t, ht, rfl⟩ := exists_adminWrite hb h16 hexec (hw.trans hup) rfl
      exact ⟨_, ht, rfl, rfl, hr, rfl⟩
  · have hexec : exec (.adminDisable v) s = .next (s.hostWrite 0x10004 4 v.toNat noCourse) :=
      if_pos ⟨h16, h0⟩
    obtain ⟨hin, hguard, henable, hready, hqueue⟩ := adminOff_drained hr hc
    obtain ⟨t, ht, rfl⟩ := exists_adminWrite hb h16 hexec (adminWrite_off hr h16 h0) hguard
    exact ⟨_, ht, hin, henable, hready, hqueue⟩

end Sys2Proof.Machine
end

section
/-!
SUPPORT. Writes of the Spool's and the integrity block's registers with the lock open; O54.
-/

namespace Sys2Proof.Machine

open Sys2Proof.Safety

/-! ### Fields of a written word -/

/-- A field of a written value is a slice of it. -/
theorem ofNat_bits {n w hi lo : Nat} (h : hi + 1 - lo = w) (v : BitVec n) :
    BitVec.ofNat w (bits v.toNat hi lo) = (v >>> lo).truncate w := by
  apply BitVec.eq_of_toNat_eq
  unfold bits
  rw [BitVec.toNat_ofNat, h, Nat.mod_mod, BitVec.truncate_eq_setWidth, BitVec.toNat_setWidth, BitVec.toNat_ushiftRight,
    Nat.shiftRight_eq_div_pow]

/-- A bit of a written value. -/
theorem bitOf_toNat {n : Nat} (v : BitVec n) (i : Nat) : bitOf v.toNat i = v.getLsbD i := by
  rw [BitVec.getLsbD, Nat.testBit_eq_decide_div_mod_eq]
  rfl

theorem covered_spoolPort (i : Fin 8) :
    covered (0x600100 + 8 * i.val) 8 = [⟨.spoolPort i.val, 0x600100 + 8 * i.val, 8⟩] := by
  revert i
  decide

/-- An open lock lets a register take what is written, and is armed by it. -/
theorem hostWrite_open {s : State} {off size v : Nat} {r : Reg} (h : Whole off size r) (how : Course)
    (hb : s.bar0 = true) (hd : s.hw.started = true) (hl : s.link.guardOpen = true) (hv : v < 2 ^ (8 * size))
    (hk : r.unmasked v = false) (hs : r.spendsNothing = false) :
    s.hostWrite off size v how = (s.putReg r v how).arm := by
  rw [hostWrite_taken h how hb (Or.inr hd) hv hk (Or.inr hl) hs, hl]
  rfl

/-! ### SPOOL_ID -/

/-- What SPOOL_ID holds. -/
def State.spoolIds (s : State) : BitVec 12 × BitVec 8 × Bool := (s.spool.moduleId, s.spool.hopLimit, s.spool.valid)

theorem spoolIds_portDown (s : State) (p reason : Nat) : (s.portDown p reason).spoolIds = s.spoolIds := by
  unfold State.portDown
  dsimp only
  split
  · rfl
  · split
    · rfl
    · rfl

theorem spoolIds_portDownFree (s : State) (p : Nat) : (s.portDownFree p).spoolIds = s.spoolIds := by
  unfold State.portDownFree
  split
  · rfl
  · exact spoolIds_portDown s.fresh.2 p _

/-- A port that is taken down is DOWN. -/
theorem down_portDownFree {s : State} {p : Nat} (lt : p < s.spool.ports.length) :
    ((s.portDownFree p).port p).state = .down := by
  by_cases up : (s.port p).state = .down
  · rw [State.portDownFree, if_pos up]
    exact up
  · obtain ⟨reason, port, -⟩ := portDownFree_falls lt up
    rw [port]
    rfl

/-- Taking ports down leaves the work, SPOOL_ID and the other ports. -/
theorem portsDown_range (s : State) (h : s.spool.ports.length = 8) (n : Nat) (hn : n ≤ 8) :
    let t := (List.range n).foldl State.portDownFree s
    SameWork s t ∧ t.spoolIds = s.spoolIds ∧ t.spool.ports.length = 8 ∧ ∀ p < n, (t.port p).state = .down := by
  induction n with
  | zero => exact ⟨sameWork_refl s, rfl, h, fun _ hp => absurd hp (Nat.not_lt_zero _)⟩
  | succ n ih =>
    obtain ⟨work, ids, len, down⟩ := ih (by omega)
    rw [List.range_succ, List.foldl_append, List.foldl_cons, List.foldl_nil]
    generalize (List.range n).foldl State.portDownFree s = t at work ids len down
    have moves := moves_portDownFree t n
    refine ⟨sameWork_trans work moves.work, (spoolIds_portDownFree t n).trans ids, moves.len.trans len, fun p hp => ?_⟩
    by_cases e : p = n
    · subst e
      exact down_portDownFree (by omega)
    · rw [moves.others p e]
      exact down p (by omega)

/-- What SPOOL_ID holds after a write of it. -/
theorem spoolIdTo_takes (s : State) (h : s.spool.ports.length = 8) (v : BitVec 32) :
    SameWork s (s.spoolIdTo v.toNat) ∧ (s.spoolIdTo v.toNat).spool.moduleId = v.truncate 12 ∧
      (s.spoolIdTo v.toNat).spool.hopLimit = (v >>> 16).truncate 8 ∧ (s.spoolIdTo v.toNat).spool.valid = v.getLsbD 31 ∧
      (v.truncate 12 ≠ s.spool.moduleId → ∀ p < 8, ((s.spoolIdTo v.toNat).port p).state = .down) := by
  have hid : BitVec.ofNat 12 (bits v.toNat 11 0) = v.truncate 12 :=
    (ofNat_bits rfl v).trans (by rw [BitVec.ushiftRight_zero])
  have hhop : BitVec.ofNat 8 (bits v.toNat 23 16) = (v >>> 16).truncate 8 := ofNat_bits rfl v
  generalize hx : ({ s.spool with
    valid := bitOf v.toNat 31, hopLimit := BitVec.ofNat 8 (bits v.toNat 23 16),
    moduleId := BitVec.ofNat 12 (bits v.toNat 11 0) } : Spool) = x
  have hm : x.moduleId = v.truncate 12 := by rw [← hx]; exact hid
  have hh : x.hopLimit = (v >>> 16).truncate 8 := by rw [← hx]; exact hhop
  have hv : x.valid = v.getLsbD 31 := by rw [← hx]; exact bitOf_toNat v 31
  have hp : x.ports = s.spool.ports := by rw [← hx]
  have ht : s.spoolIdTo v.toNat = if x = s.spool then s else ({ s with spool := x } : State).portsDownFree := by
    rw [← hx]
    rfl
  rw [ht]
  by_cases same : x = s.spool
  · rw [if_pos same]
    rw [same] at hm hh hv
    exact ⟨sameWork_refl s, hm, hh, hv, fun ne => absurd hm.symm ne⟩
  · rw [if_neg same]
    have len : ({ s with spool := x } : State).spool.ports.length = 8 := by rw [← h, ← hp]
    have same : SameWork s { s with spool := x } := ⟨rfl, rfl, rfl, rfl, rfl, rfl, rfl, rfl, rfl⟩
    have ids : ({ s with spool := x } : State).spoolIds = (v.truncate 12, (v >>> 16).truncate 8, v.getLsbD 31) := by
      rw [← hm, ← hh, ← hv]
      rfl
    generalize ({ s with spool := x } : State) = u at len same ids
    obtain ⟨work, kept, -, down⟩ := portsDown_range u len 8 (Nat.le_refl 8)
    rw [State.portsDownFree]
    generalize (List.range 8).foldl State.portDownFree u = t at work kept down
    have fields := kept.trans ids
    exact ⟨sameWork_trans same work, (congrArg (fun a => a.1) fields :), (congrArg (fun a => a.2.1) fields :),
      (congrArg (fun a => a.2.2) fields :), fun _ => down⟩

/-! ### The ports' enable bits -/

/-- A port after a write of its register. -/
theorem spoolPort_takes {s : State} {p : Nat} (lt : p < s.spool.ports.length) (x : BitVec 64) :
    let t := s.putSpool (.spoolPort p) x.toNat
    t.cores = s.cores ∧ (t.port p).enable = x.getLsbD 0 ∧ (∀ q, q ≠ p → t.port q = s.port q) ∧
      (x.getLsbD 0 = true → (t.port p).state = (s.port p).state) ∧
      (x.getLsbD 0 = false → (t.port p).state = .down ∧ ((s.port p).state ≠ .down → (t.port p).fail = 7)) := by
  have hw : s.putSpool (.spoolPort p) x.toNat =
      (if x.getLsbD 0 then s.modPort p (fun q => { q with enable := x.getLsbD 0 })
       else (s.modPort p (fun q => { q with enable := x.getLsbD 0 })).portDown p failDisabled) := by
    rw [← bitOf_toNat]
    rfl
  have moves := moves_modPort s p (fun q => { q with enable := x.getLsbD 0 })
  have port := port_modPort_same lt (fun q => { q with enable := x.getLsbD 0 })
  have len : p < (s.modPort p (fun q => { q with enable := x.getLsbD 0 })).spool.ports.length := by
    rw [moves.len]
    exact lt
  dsimp only
  rw [hw]
  generalize s.modPort p (fun q => { q with enable := x.getLsbD 0 }) = u at moves port len
  cases hx : x.getLsbD 0 with
  | true =>
    rw [if_pos rfl, port]
    exact ⟨moves.work.1, hx, moves.others, fun _ => rfl, fun h => absurd h (by decide)⟩
  | false =>
    rw [if_neg Bool.false_ne_true]
    have down := moves_portDown u p failDisabled
    refine ⟨(sameWork_trans moves.work down.work).1, ?_,
      fun q ne => (down.others q ne).trans (moves.others q ne), fun h => absurd h (by decide), fun _ => ?_⟩
    · by_cases up : (u.port p).state = .down
      · rw [State.portDown, if_pos up, port]
        exact hx
      · rw [(portDown_falls len up _).1, port]
        exact hx
    · by_cases up : (u.port p).state = .down
      · rw [State.portDown, if_pos up]
        rw [port] at up ⊢
        exact ⟨up, fun ne => absurd up ne⟩
      · rw [(portDown_falls len up _).1]
        exact ⟨rfl, fun _ => rfl⟩

/-! ### EXPORT entries -/

/-- An entry that is not VALID, or may be, is taken. -/
theorem exportTo_good {s : State} {i v : Nat} {e : Export}
    (he : e = { handle := bits v 255 192, tenant := bits v 191 176, cls := bits v 161 160, valid := bitOf v 128
                length := bits v 111 64, base := bits v 47 0 })
    (h : e.valid = false ∨ s.exportGood i e = true) :
    s.exportTo i v = { s with spool := { s.spool with exports := s.spool.exports.set i e } } := by
  subst he
  refine if_neg ?_
  rcases h with h | h
  · rw [h, Bool.false_and]
    decide
  · rw [h, Bool.not_true, Bool.and_false]
    decide

/-- Another sets the Spool's event, and its other fields are taken with VALID 0. -/
theorem exportTo_bad {s : State} {i v : Nat} {e : Export}
    (he : e = { handle := bits v 255 192, tenant := bits v 191 176, cls := bits v 161 160, valid := bitOf v 128
                length := bits v 111 64, base := bits v 47 0 })
    (hv : e.valid = true) (h : s.exportGood i e = false) :
    (s.exportTo i v).spool = { s.spool with
      event := s.spool.event ||| 1, exports := s.spool.exports.set i { e with valid := false } } := by
  subst he
  have : s.exportTo i v = State.spoolEvent { s with spool := { s.spool with
      exports := s.spool.exports.set i { handle := bits v 255 192, tenant := bits v 191 176, cls := bits v 161 160
                                         valid := false, length := bits v 111 64, base := bits v 47 0 } } } 0 :=
    if_pos (by rw [hv, h]; rfl)
  rw [this]
  rfl

/-! ### INBOX registers -/

/-- Cells that are dropped read as zero, in form or not. -/
theorem get_dropped {w : Nat} (m : Sparse w) (p : Nat → Bool) {k : Nat} (h : p k = false) :
    Sparse.get (m.filter (fun c => p c.1)) k = 0 := by
  induction m with
  | nil => rfl
  | cons c t ih =>
    rw [List.filter_cons]
    split
    · next keep =>
      rw [Sparse.get_cons, if_neg (fun e => by rw [e, h] at keep; exact absurd keep (by decide)), ih]
    · exact ih

/-- References to pages rest on the cores, the jobs, the objects and the pages. -/
theorem refs_placing {s t : State} (h : placing t = placing s) (jobs : t.jobs = s.jobs) (pages : t.pages = s.pages) :
    t.refs = s.refs := by
  have object : t.objectPage = s.objectPage := funext fun j => funext (placing_objectPage h rfl)
  have entry : t.entryPages = s.entryPages := by
    funext j e
    unfold State.entryPages
    rw [object]
  have window : t.window = s.window := by
    funext j
    unfold State.window
    rw [entry]
  have xfer : t.xferPages = s.xferPages := by
    funext j x
    unfold State.xferPages
    rw [object]
  have core : t.core = s.core := funext (placing_core h)
  have job : t.jobRefs = s.jobRefs := by
    funext j pg
    unfold State.jobRefs State.jobXfers
    rw [xfer, window, core]
  funext p pg
  unfold State.refs State.page?
  rw [job, jobs, pages]

/-- The pages of an inbox alone count in its Pod's share. -/
theorem canRelease_modInbox {s : State} {p : Nat} (hp : p ≠ 0) (lt : p - 1 < s.spool.inboxes.length)
    {f : Inbox → Inbox} (hf : ∀ b, (f b).pages = b.pages) (n : Nat) :
    (s.modInbox p f).canRelease p n = s.canRelease p n := by
  have hb := congrArg Inbox.pages (inbox_modInbox s p p f hp lt)
  rw [if_pos rfl, hf] at hb
  have hpages : ((s.modInbox p f).spool.inboxes.getD (p - 1) {}).pages = (s.spool.inboxes.getD (p - 1) {}).pages := by
    unfold State.inbox at hb
    rwa [if_neg hp, if_neg hp] at hb
  have hfixed : (s.modInbox p f).fixedPages p = s.fixedPages p := by
    have hjobs : (s.modInbox p f).jobs = s.jobs := rfl
    have hobjs : (s.modInbox p f).objs = s.objs := rfl
    have hcopy : (s.modInbox p f).copy? = s.copy? := rfl
    unfold State.fixedPages
    rw [hpages, hjobs, hobjs, hcopy]
  have hclaimed : (s.modInbox p f).claimedFrames p = s.claimedFrames p := rfl
  have hcands : (s.modInbox p f).candidates p = s.candidates p := by
    unfold State.candidates
    rw [refs_placing (s := s) (t := s.modInbox p f) rfl rfl rfl]
    rfl
  have hshare : (s.modInbox p f).shareFrames p = s.shareFrames p := rfl
  unfold State.canRelease
  rw [hfixed, hclaimed, hcands, hshare]

section inbox

variable {s : State} {p : Nat} (hp : p ≠ 0) (lt : p - 1 < s.spool.inboxes.length)

/-- The state with an inbox's tenant and class written. -/
def State.inboxOwned (s : State) (p v : Nat) : State :=
  s.modInbox p (fun b => { b with tenant := bits v 31 16, cls := bits v 15 14 })

/-- An inbox of a size, with the bytes below a place. -/
def Inbox.sized (b : Inbox) (pages keep : Nat) : Inbox :=
  { b with pages := pages, mem := b.mem.filter (fun c => decide (c.1 < keep)) }

/-- The state with an inbox's pages written and those that are not kept wiped. -/
def State.inboxSized (s : State) (p pages keep : Nat) : State :=
  let s := s.modInbox p (fun b => b.sized pages keep)
  { s with integ := { s.integ with t1Ecc := s.integ.t1Ecc.filter (fun k =>
    !(decide (t1Base (1 + p) + keep / 8 ≤ k.unit) && decide (k.unit < t1Base (2 + p)))) } }

/-- An inbox whose Pod is not there is refused. -/
theorem inboxTo_none {v : Nat} (h : (s.pod? p).isSome = false) : s.inboxTo p v = s.spoolEvent 0 :=
  if_pos (Option.isNone_iff_eq_none.mpr (Option.not_isSome_iff_eq_none.mp (by rw [h]; decide)))

include hp lt

/-- An inbox that cannot grow keeps its pages. -/
theorem inboxTo_full {v : Nat} (h : (s.pod? p).isSome = true) (grow : (s.inbox p).pages < bits v 5 0)
    (no : s.canRelease p (bits v 5 0 - (s.inbox p).pages) = false) :
    s.inboxTo p v = (s.inboxOwned p v).spoolEvent 0 := by
  have no' : (s.inboxOwned p v).canRelease p (bits v 5 0 - (s.inbox p).pages) = false :=
    (canRelease_modInbox hp lt (by exact fun _ => rfl) _).trans no
  unfold State.inboxTo
  dsimp only
  rw [if_neg (by rw [Option.isNone_iff_eq_none, ← Option.not_isSome_iff_eq_none, h]; decide)]
  exact if_pos (Or.inr ⟨grow, no'⟩)

/-- An inbox takes a size that its Pod's share can hold. -/
theorem inboxTo_takes {v : Nat} (h : (s.pod? p).isSome = true) (small : bits v 5 0 ≤ 32)
    (room : bits v 5 0 ≤ (s.inbox p).pages ∨ s.canRelease p (bits v 5 0 - (s.inbox p).pages) = true) :
    s.inboxTo p v =
      (let u := (s.inboxOwned p v).inboxSized p (bits v 5 0) (min (s.inbox p).pages (bits v 5 0) * pageBytes)
       u.fitShare u.pages.length p) := by
  unfold State.inboxTo
  dsimp only
  rw [if_neg (by rw [Option.isNone_iff_eq_none, ← Option.not_isSome_iff_eq_none, h]; decide)]
  refine if_neg ?_
  rintro (large | ⟨grow, no⟩)
  · omega
  · rcases room with room | room
    · omega
    · have := (canRelease_modInbox hp lt (f := fun b => { b with tenant := bits v 31 16, cls := bits v 15 14 })
        (by exact fun _ => rfl) (bits v 5 0 - (s.inbox p).pages)).trans room
      exact absurd (this.symm.trans no) (by decide)

/-- What an inbox is once its owner is written. -/
theorem inbox_inboxOwned (v : Nat) :
    (s.inboxOwned p v).inbox p = { s.inbox p with tenant := bits v 31 16, cls := bits v 15 14 } :=
  (inbox_modInbox s p p _ hp lt).trans (if_pos rfl)

/-- What an inbox is once its size is written. -/
theorem inbox_inboxSized (v pages keep : Nat) :
    ((s.inboxOwned p v).inboxSized p pages keep).inbox p =
      ({ s.inbox p with tenant := bits v 31 16, cls := bits v 15 14 } : Inbox).sized pages keep := by
  have lt' : p - 1 < (s.inboxOwned p v).spool.inboxes.length := by
    refine Nat.lt_of_lt_of_eq lt ?_
    exact (List.length_set ..).symm
  have sized := inbox_modInbox (s.inboxOwned p v) p p (fun b => b.sized pages keep) hp lt'
  rw [if_pos rfl, inbox_inboxOwned hp lt v] at sized
  exact sized

/-- What taking a size leaves, and the inbox that it makes. -/
theorem inboxTo_keeps {v : Nat} (h : (s.pod? p).isSome = true) (small : bits v 5 0 ≤ 32)
    (room : bits v 5 0 ≤ (s.inbox p).pages ∨ s.canRelease p (bits v 5 0 - (s.inbox p).pages) = true) :
    ((s.inboxTo p v).cores = s.cores ∧ (s.inboxTo p v).objs = s.objs) ∧
      (s.inboxTo p v).inbox p = ({ s.inbox p with tenant := bits v 31 16, cls := bits v 15 14 } : Inbox).sized
        (bits v 5 0) (min (s.inbox p).pages (bits v 5 0) * pageBytes) := by
  have box := inbox_inboxSized hp lt v (bits v 5 0) (min (s.inbox p).pages (bits v 5 0) * pageBytes)
  have cores : ((s.inboxOwned p v).inboxSized p (bits v 5 0)
      (min (s.inbox p).pages (bits v 5 0) * pageBytes)).cores = s.cores := rfl
  have objs : ((s.inboxOwned p v).inboxSized p (bits v 5 0)
      (min (s.inbox p).pages (bits v 5 0) * pageBytes)).objs = s.objs := rfl
  rw [inboxTo_takes hp lt h small room]
  dsimp only
  generalize (s.inboxOwned p v).inboxSized p (bits v 5 0) (min (s.inbox p).pages (bits v 5 0) * pageBytes) = u
    at box cores objs ⊢
  have off := offPages_fitShare u.pages.length u p
  have spool := (congrArg State.spool off :)
  refine ⟨⟨(congrArg State.cores off :).trans cores, (congrArg State.objs off :).trans objs⟩, ?_⟩
  rw [← box]
  exact congrArg (fun x : Spool => if p = 0 then {} else x.inboxes.getD (p - 1) {}) spool

end inbox

/-! ### Split mode -/

/-- Without the mask the operation of split mode is the one that is written. -/
theorem operation_written {old v : Nat} (h : old % 4 = 0) :
    bits (maskWrite old v) 1 0 = bits (maskWrite 0 v) 1 0 := by
  have low : ∀ x : Nat, bits x 1 0 = x % 4 := fun x => by
    unfold bits
    rw [Nat.pow_zero, Nat.div_one]
    rfl
  rw [low, low, show (4 : Nat) = 2 ^ 2 from rfl]
  unfold maskWrite
  rw [Nat.or_mod_two_pow, Nat.or_mod_two_pow, Nat.and_mod_two_pow, show old % 2 ^ 2 = 0 from h, Nat.zero_and,
    Nat.zero_and, Nat.zero_mod]

/-- What the registers of split mode hold below the operation. -/
theorem split_low (x : Integrity) : pack [(8, x.splitCore.toNat), (2, x.splitTarget.toNat)] % 4 = 0 := by
  simp only [pack, List.map_cons, List.map_nil, List.sum_cons, List.sum_nil]
  omega

/-- The state with split mode aimed as a write of its register says. -/
def State.splitAimed (s : State) (word : Nat) : State :=
  { s with integ := { s.integ with
      splitCore := BitVec.ofNat 5 (bits word 12 8), splitTarget := BitVec.ofNat 2 (bits word 3 2) } }

/-- The word that a write of ECC_SPLIT_CTL leaves. -/
def State.splitWord (s : State) (v : Nat) : Nat :=
  maskWrite (pack [(8, s.integ.splitCore.toNat), (2, s.integ.splitTarget.toNat)]) v

/-- The core that split mode is aimed at. -/
theorem splitCore?_aimed (s : State) (word : Nat) :
    (s.splitAimed word).splitCore? =
      if (s.core (bits word 12 8)).pod = some 0 ∨ s.coreFenced (bits word 12 8) = true then some (bits word 12 8)
      else none := by
  have n : ((s.splitAimed word).integ.splitCore).toNat = bits word 12 8 := depth_toNat word 8
  unfold State.splitCore?
  rw [n]
  rfl

section split

variable {s : State} {v n : Nat} (hn : n = bits (s.splitWord v) 12 8)
include hn

/-- An operation on a core that may be reached. -/
theorem splitWrite_reached (hc : (s.core n).pod = some 0 ∨ s.coreFenced n = true)
    (hop : bits (s.splitWord v) 1 0 = 1 ∨ bits (s.splitWord v) 1 0 = 2) :
    s.splitWrite v =
      (let t := if bits (s.splitWord v) 1 0 = 1 then (s.splitAimed (s.splitWord v)).splitStore n
         else (s.splitAimed (s.splitWord v)).splitLoad n
       { t with integ := { t.integ with splitDone := true } }) := by
  have core : (s.splitAimed (s.splitWord v)).splitCore? = some n := by
    rw [splitCore?_aimed, ← hn, if_pos hc]
  show (if bits (s.splitWord v) 1 0 = 0 ∨ bits (s.splitWord v) 1 0 = 3 then _ else _) = _
  rw [if_neg (by omega)]
  unfold State.splitAimed at core ⊢
  unfold State.splitWord at core ⊢
  rw [core]

/-- An operation on a core that may not be reached is refused. -/
theorem splitWrite_refused (hp : (s.core n).pod ≠ some 0) (hf : s.coreFenced n = false)
    (hop : bits (s.splitWord v) 1 0 = 1) :
    s.splitWrite v = { s.splitAimed (s.splitWord v) with
      integ := { (s.splitAimed (s.splitWord v)).integ with splitRefused := true, splitDone := true } } := by
  have core : (s.splitAimed (s.splitWord v)).splitCore? = none := by
    rw [splitCore?_aimed, ← hn, if_neg (by rw [hf]; simp [hp])]
  show (if bits (s.splitWord v) 1 0 = 0 ∨ bits (s.splitWord v) 1 0 = 3 then _ else _) = _
  rw [if_neg (by omega)]
  unfold State.splitAimed at core ⊢
  unfold State.splitWord at core ⊢
  rw [core]

end split

/-- A split write of the operand store writes the word at its address. -/
theorem splitStore_os {s : State} (ht : s.integ.splitTarget.toNat = 0) (hu : 8 * (s.integ.splitAddr.toNat / 8) < 0x800000)
    (n : Nat) :
    ∃ (bs : List Byte) (e : Core → List EccMark), bs.length = 8 ∧ s.splitStore n = s.modCore n (fun c =>
      { c with os := Mem.write c.os (8 * (s.integ.splitAddr.toNat / 8)) bs, osEcc := e c }) := by
  unfold State.splitStore
  dsimp only
  rw [ht, if_neg (by
    show ¬ (0x800000 ≤ _ ∨ _)
    omega)]
  exact ⟨_, _, length_leBytes 8 _, rfl⟩

/-- A core with its operand store and its marks written keeps the rest. -/
theorem core_split {c d : Core} {m : Mem} {l : List EccMark} (h : d = { c with os := m, osEcc := l }) :
    d = { c with os := d.os, osEcc := d.osEcc } := by
  rw [h]

/-- A raw read of a word of the operand store without a mark. -/
theorem splitLoad_os {s : State} (ht : s.integ.splitTarget.toNat = 0) (hu : 8 * (s.integ.splitAddr.toNat / 8) < 0x800000)
    {n : Nat} (clean : ∀ k ∈ (s.core n).osEcc, k.unit ≠ s.integ.splitAddr.toNat / 8) :
    s.splitLoad n =
      (let u := s.integ.splitAddr.toNat / 8
       let d := BitVec.ofNat 64 (Mem.field (s.core n).os (8 * u) 8)
       { s with integ := { s.integ with splitData := d, splitCheck := Config.eccCheck u d } }) := by
  have none : (s.core n).osEcc.find? (fun k => k.unit == s.integ.splitAddr.toNat / 8) = none :=
    List.find?_eq_none.mpr fun k hk e => clean k hk (by simpa using e)
  unfold State.splitLoad
  dsimp only
  rw [ht, if_neg (by
    show ¬ (0x800000 ≤ _ ∨ _)
    omega), if_pos rfl, if_pos rfl, none, Option.getD_none, if_neg (by simp)]
  have same : ∀ {w : Nat} (b : BitVec w), b ^^^ 0 = b := fun _ => BitVec.xor_zero
  rw [same, same]

/-! ### Flip masks -/

/-- A flip takes a request that there is. -/
theorem flip_flipWrite (s : State) (i : Nat) {v : BitVec 32} (h : bits v.toNat 5 0 ≤ 38) :
    (s.flipWrite i v.toNat).flip i =
      { armed := v.getLsbD 31, check := (v >>> 16).truncate 8, word := (v >>> 13).truncate 3
        req := v.truncate 6, mask := (s.flip i).mask } := by
  have hreq : BitVec.ofNat 6 (bits v.toNat 5 0) = v.truncate 6 :=
    (ofNat_bits rfl v).trans (by rw [BitVec.ushiftRight_zero])
  unfold State.flipWrite
  rw [if_neg (by omega), flip_setFlip, if_pos rfl, bitOf_toNat, hreq, ofNat_bits (w := 8) rfl,
    ofNat_bits (w := 3) rfl]

/-- Settles O54: with the lock open the register that the row names takes the value, and then the lock is armed. -/
theorem openLockTakesWrites : Obligations.OpenLockTakesWrites := by
  unfold Obligations.OpenLockTakesWrites
  intro s v hb hd hl hports hinboxes
  have word : ∀ {off : Nat} {r : Reg}, covered off 4 = [⟨r, off, 4⟩] → off % 4 = 0 → r.masked = false →
      r.spendsNothing = false → s.hostWrite off 4 v.toNat noCourse = (s.putReg r v.toNat noCourse).arm :=
    fun hc ho hm hs => hostWrite_open (whole_word hc ho) _ hb hd hl v.isLt (unmasked_plain hm _) hs
  refine ⟨?_, fun p x => ?_, fun i w => ?_, fun i => ?_, ?_, fun k ha => ?_⟩
  · obtain ⟨work, ids⟩ := spoolIdTo_takes s hports v
    exact ⟨_, congrArg Host.Outcome.next (word covered_spoolId rfl rfl rfl), rfl, work.1, work.2.1, ids⟩
  · obtain ⟨cores, enable, others, up, down⟩ := spoolPort_takes (s := s) (p := p.val) (by omega) x
    exact ⟨_, congrArg Host.Outcome.next (hostWrite_open (whole_double (covered_spoolPort p) (by omega)) _ hb hd hl
      x.isLt (unmasked_plain rfl _) rfl), cores, enable, fun q _ ne => others q ne, up, down⟩
  · have entry : exec (.exportWrite i w) s = .next (s.exportTo i.val w.toNat).arm :=
      congrArg Host.Outcome.next (hostWrite_open (whole_entry (covered_exportEntry i) (by omega)) _ hb hd hl
        w.isLt (unmasked_plain rfl _) rfl)
    intro e
    refine ⟨fun good => ⟨_, entry, ?_, rfl⟩, fun hv bad => ⟨_, entry, rfl, exportTo_bad rfl hv bad⟩⟩
    exact congrArg State.spool (exportTo_good rfl good)
  · have lt : i.val + 1 - 1 < s.spool.inboxes.length := by omega
    have taken : exec (.inboxWrite i v) s = .next (s.inboxTo (i.val + 1) v.toNat).arm :=
      congrArg Host.Outcome.next (word (covered_inbox i) (by omega) rfl rfl)
    intro p old new
    refine ⟨fun pod small room => ⟨_, taken, ?_⟩, fun pod small grow no => ⟨_, taken, ?_⟩,
      fun none => ⟨_, taken, ?_⟩⟩
    · obtain ⟨work, box⟩ := inboxTo_keeps (v := v.toNat) (Nat.succ_ne_zero i.val) lt pod small room
      generalize s.inboxTo (i.val + 1) v.toNat = t at work box
      have got : t.arm.inbox p = _ := box
      rw [got]
      refine ⟨rfl, rfl, rfl, fun a => ?_, work⟩
      by_cases keep : a < min old new * 0x200000
      · rw [if_pos keep]
        exact get_keep _ (fun k => decide (k < min old new * 0x200000)) (decide_eq_true keep)
      · rw [if_neg keep]
        exact get_dropped _ (fun k => decide (k < min old new * 0x200000)) (decide_eq_false keep)
    · have full := inboxTo_full (v := v.toNat) (Nat.succ_ne_zero i.val) lt pod grow no
      rw [full]
      exact ⟨rfl, inbox_inboxOwned (Nat.succ_ne_zero i.val) lt v.toNat, rfl, rfl, rfl⟩
    · rw [inboxTo_none none]
      rfl
  · intro written n u target lt low
    have hn : n = bits (s.splitWord v.toNat) 12 8 := rfl
    have aim : ((s.splitAimed (s.splitWord v.toNat)).integ.splitTarget).toNat = 0 := by
      show (BitVec.ofNat 2 (bits written 3 2)).toNat = 0
      rw [target]
      rfl
    have op : ∀ k, bits written 1 0 = k → bits (maskWrite 0 v.toNat) 1 0 = k := fun k h =>
      (operation_written (split_low s.integ)).symm.trans h
    have split : ∀ k, k ≠ 0 → bits written 1 0 = k →
        s.hostWrite 0x700020 4 v.toNat noCourse = (s.splitWrite v.toNat).arm := fun k h0 hk =>
      hostWrite_open (whole_word covered_splitCtl rfl) noCourse hb hd hl v.isLt
        (unmasked_of_mask (mask_of_operation (op k hk) h0)) rfl
    refine ⟨fun reach => ⟨fun h1 wf => ?_, fun h2 clean => ?_⟩, fun away whole h1 => ?_⟩
    · refine ⟨_, (if_pos (op 1 h1)).trans (congrArg Host.Outcome.next (split 1 (by decide) h1)), ?_⟩
      rw [splitWrite_reached hn reach (Or.inl h1), if_pos (show bits (s.splitWord v.toNat) 1 0 = 1 from h1)]
      obtain ⟨bs, e, len, stored⟩ := splitStore_os aim low n
      rw [stored]
      have core := core_modCore (s.splitAimed (s.splitWord v.toNat)) n n
        (fun c => { c with os := Mem.write c.os (8 * u) bs, osEcc := e c }) lt
      rw [if_pos rfl] at core
      refine ⟨rfl, core_split core, fun a out => ?_, fun m ne => ?_⟩
      · refine (congrArg (fun c : Core => Sparse.get c.os a) core).trans ((Sparse.get_write wf _ _ _).trans (if_neg ?_))
        rw [len]
        omega
      · have other := core_modCore (s.splitAimed (s.splitWord v.toNat)) n m
          (fun c => { c with os := Mem.write c.os (8 * u) bs, osEcc := e c }) lt
        rw [if_neg ne] at other
        exact other
    · refine ⟨_, (if_pos (op 2 h2)).trans (congrArg Host.Outcome.next (split 2 (by decide) h2)), ?_⟩
      rw [splitWrite_reached hn reach (Or.inr h2),
        if_neg (show ¬ bits (s.splitWord v.toNat) 1 0 = 1 by rw [show bits (s.splitWord v.toNat) 1 0 = 2 from h2]; decide),
        splitLoad_os aim low clean]
      exact ⟨rfl, rfl, rfl, rfl⟩
    · refine ⟨_, (if_pos (op 1 h1)).trans (congrArg Host.Outcome.next (split 1 (by decide) h1)), ?_⟩
      rw [splitWrite_refused hn away whole h1]
      exact ⟨rfl, rfl, rfl⟩
  · have armed : exec (.flipArm k v) s = .next (s.flipWrite k.val v.toNat).arm :=
      (if_pos ((bitOf_toNat v 31).trans ha)).trans
        (congrArg Host.Outcome.next (word (covered_flipCfg k) (by omega) rfl rfl))
    refine ⟨fun small => ⟨_, armed, ?_, ?_⟩, fun large => ⟨_, armed, ?_⟩⟩
    · have flip := flip_flipWrite s k.val small
      rw [ha] at flip
      exact flip
    · rw [State.flipWrite, if_neg (by omega)]
      rfl
    · rw [State.flipWrite, if_pos large]
      exact ⟨rfl, rfl⟩

end Sys2Proof.Machine
end

section
/-!
SUPPORT. The flush of R327 and the module reset: what they leave, and that every sector keeps its content.
-/

namespace Sys2Proof.Machine

open Sys2Proof.Safety

/-! ### What a flush leaves alone -/

/-- The state without the flash, its counters and its faults. -/
def State.offFlash (s : State) : State := { s with media := {}, integ := {}, dailies := {}, free := 0, clock := 0 }

theorem offFlash_of_offMap {s t : State} (h : t.offMap = s.offMap) : t.offFlash = s.offFlash :=
  (congrArg State.offFlash h :)

theorem offFlash_abandonOpen (s : State) : s.abandonOpen.offFlash = s.offFlash :=
  offFlash_of_offMap (foldl_keeps State.offMap _ offMap_abandonMerge _ s)

theorem offFlash_appendLog (s : State) (lb : Nat) (es : List LogEntry) : (s.appendLog lb es).offFlash = s.offFlash := by
  unfold State.appendLog
  dsimp only
  split
  · rfl
  · split
    · rfl
    · rfl

theorem offFlash_programLog (s : State) (lb : Nat) (loc : SbLoc) : (s.programLog lb loc).offFlash = s.offFlash := by
  unfold State.programLog
  extract_lets mine u room rest v m
  refine (offFlash_appendLog u lb (entriesOf mine)).trans ?_
  show (if (s.lblock lb).logFull then s.openLog lb loc else s).offFlash = _
  split
  · exact offFlash_of_offMap (offMap_openLog s lb loc)
  · rfl

theorem offFlash_drain (n : Nat) (s : State) : (State.drain n s).offFlash = s.offFlash := by
  induction n generalizing s with
  | zero => rfl
  | succ n ih =>
    unfold State.drain
    split
    · rfl
    · rw [ih, offFlash_programLog]

theorem offFlash_tear (s : State) : s.tear.offFlash = s.offFlash := by
  unfold State.tear
  extract_lets n k u torn m
  exact (offFlash_of_offMap (offMap_programNext k n.2)).trans rfl

/-- A flush leaves everything but the flash, and whether it ended. -/
theorem offFlash_flush (s : State) (holds : Bool) :
    (s.flush holds).offFlash = { s.offFlash with hw := { s.hw with clean := holds } } := by
  have drained : (State.drain s.abandonOpen.media.staging.length s.abandonOpen).offFlash = s.offFlash :=
    (offFlash_drain _ _).trans (offFlash_abandonOpen s)
  have ended : ∀ u : State, u.offFlash = s.offFlash → (if holds then (u.jrec 7 noLblock 0 0 [] none).sync else u.tear).offFlash =
      s.offFlash := fun u h => by
    split
    · exact (offFlash_of_offMap ((offMap_sync _).trans (offMap_jrec u ..))).trans h
    · exact (offFlash_tear u).trans h
  have all := ended _ drained
  unfold State.flush
  dsimp only
  generalize (if holds then _ else _ : State) = w at all ⊢
  exact (congrArg (fun x : State => ({ x with hw := { x.hw with clean := holds } } : State)) all :)

/-- Whether a flush has anything to write. -/
def State.flushes (s : State) : Prop :=
  s.hw.phase = .running ∧ s.sec.err ≠ .hard ∧ s.sec.boot = 0 ∧ s.sec.lcBusy = false

/-- A flush, where there is one, leaves everything but the flash, and whether it ended. -/
theorem offFlash_flushing (s : State) (holds : Bool) :
    ∃ clean, (s.flushing holds).offFlash = { s.offFlash with hw := { s.hw with clean := clean } } := by
  unfold State.flushing
  split
  · exact ⟨holds, offFlash_flush s holds⟩
  · exact ⟨s.hw.clean, rfl⟩

/-! ### A flush keeps every sector (R327) -/

theorem lblock_of_lblocks {s t : State} (h : t.media.lblocks = s.media.lblocks) (k : Nat) : t.lblock k = s.lblock k := by
  unfold State.lblock State.lblock?
  rw [h]

/-- Abandoning a copy leaves the other logical blocks. -/
theorem lblock_abandonMerge (s : State) (l : LBlock) {k : Nat} (h : k ≠ l.num) : (s.abandonMerge l).lblock k = s.lblock k := by
  unfold State.abandonMerge
  split
  · rfl
  · next m hm =>
    have set := (lblock_setLb s { l with chain := m.frozen ++ l.chain, merge := none } k).trans (if_neg h)
    have aside := aside_release_ (s.setLb { l with chain := m.frozen ++ l.chain, merge := none }) m.locs m.jseq
    exact (lblock_of_lblocks (show _ = (s.setLb { l with chain := m.frozen ++ l.chain, merge := none }).media.lblocks
      from congrArg Prod.snd aside) k).trans set

/-- Copies in progress are abandoned one after the other. -/
theorem SameMedia.abandons {l : List LBlock} (hl : (l.map (fun x => x.num)).Nodup) {s : State} (wf : lblocksWf s = true)
    (listed : ∀ x ∈ l, s.lblock x.num = x ∧ x.merge.isSome = true) : SameMedia s (l.foldl State.abandonMerge s) := by
  induction l generalizing s with
  | nil => exact .refl wf
  | cons x l ih =>
    obtain ⟨here, some⟩ := listed x List.mem_cons_self
    obtain ⟨m, hm⟩ := Option.isSome_iff_exists.mp some
    have first : SameMedia s (s.abandonMerge x) := by
      have := abandonMerge_same wf (lb := x.num) (m := m) (by rw [here]; exact hm)
      rwa [here] at this
    rw [List.map_cons, List.nodup_cons] at hl
    refine first.trans (ih hl.2 first.wf fun y hy => ?_)
    obtain ⟨at_, isSome⟩ := listed y (List.mem_cons_of_mem x hy)
    have ne : y.num ≠ x.num := fun e => hl.1 (e ▸ List.mem_map_of_mem hy)
    refine ⟨?_, isSome⟩
    exact (lblock_abandonMerge s x ne).trans at_

theorem drain_sectors (n : Nat) {s : State} (wf : lblocksWf s = true) (hn : s.media.staging.length ≤ n) :
    SameSectors s (State.drain n s) ∧ lblocksWf (State.drain n s) = true ∧ (State.drain n s).media.staging = [] := by
  induction n generalizing s with
  | zero =>
    have none : s.media.staging = [] := List.eq_nil_of_length_eq_zero (by omega)
    exact ⟨⟨fun _ _ => rfl, rfl, rfl, rfl⟩, wf, none⟩
  | succ n ih =>
    rw [State.drain]
    split
    · next none => exact ⟨⟨fun _ _ => rfl, rfl, rfl, rfl⟩, wf, none⟩
    · next e rest staged =>
      have mine : s.media.staging.filter (fun x => x.lb == e.lb) ≠ [] :=
        List.ne_nil_of_mem (List.mem_filter.mpr ⟨by rw [staged]; exact List.mem_cons_self, by simp⟩)
      obtain ⟨⟨sectors, cores, jobs, objs⟩, wf', fewer⟩ := programLog_sectors wf (s.pickLoc true .log) mine
      obtain ⟨⟨sectors', cores', jobs', objs'⟩, wf'', none⟩ := ih wf' (by omega)
      exact ⟨⟨fun k i => (sectors' k i).trans (sectors k i), cores'.trans cores, jobs'.trans jobs, objs'.trans objs⟩,
        wf'', none⟩

/-- What the filter of the open copies lists. -/
theorem openCopies_listed {s : State} (wf : lblocksWf s = true) :
    let l := s.media.lblocks.filter (fun l => l.merge.any (fun m => !m.closed))
    (l.map (fun x => x.num)).Nodup ∧ ∀ x ∈ l, s.lblock x.num = x ∧ x.merge.isSome = true := by
  have nodup : (s.media.lblocks.map (fun l => l.num)).Nodup := of_decide_eq_true wf
  refine ⟨nodup.sublist (List.filter_sublist.map _), fun x hx => ?_⟩
  obtain ⟨mem, opened⟩ := List.mem_filter.mp hx
  refine ⟨lblock_of_mem wf mem, ?_⟩
  cases hm : x.merge with
  | none => rw [hm] at opened; exact absurd opened (by decide)
  | some m => rfl

/-- What is torn of the journal is no sector. -/
theorem SameMedia.tear {s t : State} (h : SameMedia s t) : SameMedia s t.tear := by
  have step := SameMedia.programNext (t.fresh.1 % (t.media.waiting.length + 1)) (s := t.fresh.2) h.wf
  have moved : SameMedia s t.fresh.2 := h.then rfl rfl
  unfold State.tear
  extract_lets n k u torn m
  exact (moved.trans step).then rfl rfl

/-- A flush keeps every sector, and stages none. -/
theorem flush_sectors {s : State} (wf : lblocksWf s = true) (holds : Bool) :
    (∀ k i, (s.flush holds).sectorOf k i = s.sectorOf k i) ∧ (s.flush holds).media.staging = [] := by
  obtain ⟨nodup, listed⟩ := openCopies_listed wf
  have abandoned : SameMedia s s.abandonOpen := .abandons nodup wf listed
  obtain ⟨⟨sectors, -⟩, wf', drained⟩ := drain_sectors s.abandonOpen.media.staging.length abandoned.wf (Nat.le_refl _)
  have marked : ∀ w : State, SameMedia (State.drain s.abandonOpen.media.staging.length s.abandonOpen) w →
      (∀ k i, ({ w with hw := { w.hw with clean := holds } } : State).sectorOf k i = s.sectorOf k i) ∧
        w.media.staging = [] := fun w ended =>
    ⟨fun k i => (ended.sectors.1 k i).trans ((sectors k i).trans (abandoned.sectors.1 k i)),
      (congrArg (fun x => x.2.2.2) ended.around).trans drained⟩
  refine marked (if holds then (State.jrec _ 7 noLblock 0 0 [] none).sync else State.tear _) ?_
  split
  · exact SameMedia.sync ((SameMedia.refl wf').aside (aside_jrec ..))
  · exact (SameMedia.refl wf').tear

/-! ### The module reset -/

/-- A reset of a module that has staged nothing keeps every sector. -/
theorem sectorOf_moduleReset {u : State} (h : u.media.staging = []) (k i : Nat) :
    u.moduleReset.sectorOf k i = u.sectorOf k i := by
  unfold State.sectorOf
  rw [h]
  rfl

end Sys2Proof.Machine
end

section
/-!
SUPPORT. Loss of power, pins, trips, start-up, throttles and scrubbing (chapter 17); O57.
-/

namespace Sys2Proof.Machine

open Sys2Proof.Safety

/-! ### Stopping the module (R327, R437, R443) -/

theorem flushing_keeps (s : State) (holds : Bool) :
    (s.flushing holds).objs = s.objs ∧ ∃ clean, (s.flushing holds).hw = { s.hw with clean := clean } := by
  obtain ⟨clean, h⟩ := offFlash_flushing s holds
  exact ⟨(congrArg State.objs h :), clean, (congrArg State.hw h :)⟩

/-- What the four conditions under which R327 flushes give. -/
theorem flushing_sectors {s : State} (run : s.hw.phase = .running) (holds : Bool) (err : s.sec.err ≠ .hard)
    (boot : s.sec.boot = 0) (busy : s.sec.lcBusy = false) (wf : lblocksWf s = true) :
    (∀ k i, (s.flushing holds).sectorOf k i = s.sectorOf k i) ∧ (s.flushing holds).media.staging = [] := by
  rw [State.flushing, if_pos ⟨run, err, boot, busy⟩]
  exact flush_sectors wf holds

/-- A core of a module that has just been reset. -/
theorem core_moduleReset (u : State) (n : Nat) : u.moduleReset.core n = {} := by
  show (List.replicate 32 ({} : Core)).getD n {} = {}
  exact List.getElem?_getD_replicate_default_eq ({} : Core) 32 n

/-- A module that stops: it is reset, and holds the content of its sectors. -/
structure Stops (s t : State) (phase : Phase) (cause : BitVec 2) : Prop where
  phase : t.hw.phase = phase
  cause : t.hw.lastTrip = cause
  jobs : t.jobs = []
  queues : t.link.queues = []
  cores : ∀ n < 32, t.core n = {}
  arbs : t.arbs = Arb.resetAll
  objs : t.objs = s.objs.map (fun o => { o with pod := 0 })
  sectors : s.sec.err ≠ .hard → s.sec.boot = 0 → s.sec.lcBusy = false → lblocksWf s = true →
    ∀ k i, t.sectorOf k i = s.sectorOf k i

/-- The reset after a flush, with what the pins leave of the hardware's state. -/
theorem stops_flushed {s : State} (run : s.hw.phase = .running) (holds : Bool) (pins after : Hw) :
    Stops s { (State.moduleReset { s.flushing holds with hw := pins }) with hw := after } after.phase after.lastTrip where
  phase := rfl
  cause := rfl
  jobs := rfl
  queues := rfl
  cores := fun n _ => core_moduleReset { s.flushing holds with hw := pins } n
  arbs := rfl
  objs := by
    show (s.flushing holds).objs.map _ = _
    rw [(flushing_keeps s holds).1]
  sectors := fun err boot busy wf k i => by
    obtain ⟨same, none⟩ := flushing_sectors run holds err boot busy wf
    exact (sectorOf_moduleReset (u := { s.flushing holds with hw := pins }) none k i).trans (same k i)

/-- Settles the first part of O57: each way to stop. -/
theorem moduleStops {s : State} (bank : Bool) (tt : Temps) (run : s.hw.phase = .running) (p54 : s.hw.p54 = true)
    (perst : s.hw.perst = false) (pwrdis : s.hw.pwrdis = false) (coolant : s.hw.coolant = false)
    (trips : tripsAt tt = true) :
    ∀ row ∈ [(Instr.powerLoss bank, Phase.off, (0 : BitVec 2)), (.perstAssert, .held, s.hw.lastTrip),
        (.pwrdisAssert, .off, 0), (.coolantFltAssert, .tripped, 1), (.thermalTrip tt, .tripped, 2)],
      ∃ t, exec row.1 s = .next t ∧ Stops s t row.2.1 row.2.2 := by
  have kept : ∀ holds, (s.flushing holds).hw.phase = .running ∧ (s.flushing holds).hw.lastTrip = s.hw.lastTrip :=
    fun holds => by
      obtain ⟨-, clean, h⟩ := flushing_keeps s holds
      rw [h]
      exact ⟨run, rfl⟩
  intro row hrow
  simp only [List.mem_cons, List.not_mem_nil, or_false] at hrow
  rcases hrow with rfl | rfl | rfl | rfl | rfl
  · refine ⟨_, if_neg (by rw [p54]; decide), ?_⟩
    exact stops_flushed run bank _ { (State.moduleReset _).hw with phase := .off, lastTrip := 0 }
  · have held := (kept true).1
    refine ⟨_, (if_neg (by rw [perst]; decide)).trans (if_pos (Or.inl held)), ?_⟩
    have stops := stops_flushed run true { (s.flushing true).hw with perst := true }
      { (State.moduleReset { s.flushing true with hw := { (s.flushing true).hw with perst := true } }).hw with
        phase := .held }
    have cause : (State.moduleReset { s.flushing true with hw := { (s.flushing true).hw with perst := true } }).hw.lastTrip =
      s.hw.lastTrip := (kept true).2
    rw [← cause]
    exact stops
  · refine ⟨_, if_neg (by rw [pwrdis]; decide), ?_⟩
    exact stops_flushed run true _ { (State.moduleReset _).hw with phase := .off, lastTrip := 0 }
  · have on : (s.flushing true).hw.phase ≠ .off := by rw [(kept true).1]; decide
    refine ⟨_, (if_neg (by rw [coolant]; decide)).trans (if_neg on), ?_⟩
    exact stops_flushed run true _ { (State.moduleReset _).hw with phase := .tripped, lastTrip := 1 }
  · refine ⟨_, if_neg (by rw [trips, run]; decide), ?_⟩
    exact stops_flushed run true (s.flushing true).hw { (State.moduleReset _).hw with phase := .tripped, lastTrip := 2 }

/-! ### Start-up (R446, R447) -/

/-- No lost key degrades no object. -/
theorem loseKeys_nil (s : State) : s.loseKeys [] = s := by
  have kept : ∀ o : Obj, ((([] : List Nat).contains o.handle || (o.kind != .volume && s.objs.any (fun x =>
      x.kind == o.kind && x.copy == o.copy && ([] : List Nat).contains x.handle))) : Bool) = false := by
    intro o
    simp
  unfold State.loseKeys
  extract_lets lost
  have none : lost = fun _ => false := funext kept
  have objs : s.objs.map (fun o => if lost o then { o with degraded := true } else o) = s.objs := by
    rw [none]
    exact List.map_id _
  have keys : s.sec.keyTable.filter (fun k => !s.objs.any (fun o => k.serves o && lost o)) = s.sec.keyTable := by
    rw [none]
    exact List.filter_eq_self.mpr fun k _ => by simp
  rw [objs, keys]

/-- The rebuild of the map leaves everything but the flash. -/
theorem offFlash_rebuild (s : State) : s.rebuild.offFlash = { s.offFlash with hw := { s.hw with clean := false } } := by
  have lb : ∀ (map : List (Nat × List SbLoc)) (u : State) (l : LBlock), (u.rebuildLb map l).offFlash = u.offFlash := by
    intro map u l
    unfold State.rebuildLb
    split
    · rfl
    · split
      · exact offFlash_of_offMap (offMap_finishMerge ..)
      · exact (offFlash_of_offMap (offMap_setLb ..)).trans (offFlash_of_offMap (offMap_release_ ..))
  unfold State.rebuild
  extract_lets u map v m h w owners
  have marked : u.offFlash = s.offFlash := by
    show (if s.hw.clean then s else s.mediaEvent 0).offFlash = _
    split <;> rfl
  have found : v.offFlash = s.offFlash := (foldl_keeps State.offFlash _ (lb map) _ u).trans marked
  refine (foldl_keeps State.offFlash _ (fun t o => offFlash_of_offMap (offMap_unmapOwner t o)) owners w).trans ?_
  show ({ v.offFlash with hw := { v.hw with clean := false } } : State) = _
  exact (congrArg (fun x : State => ({ x with hw := { x.hw with clean := false } } : State)) found :)

/-- A map whose copies are whole, and whose runs have their owners, is rebuilt as it was. -/
theorem lblocks_rebuild {s : State} (whole : ∀ l ∈ s.media.lblocks, l.merge = none ∧ l.chains = l)
    (owned : ∀ r ∈ s.media.runs, 4096 ≤ r.1 / 2097152 → (s.copy? (r.1 / 2097152 - 4096)).isSome = true) :
    s.rebuild.media.lblocks = s.media.lblocks := by
  have still : ∀ (map : List (Nat × List SbLoc)) (l : List LBlock), (∀ x ∈ l, x.merge = none) → ∀ u : State,
      l.foldl (fun s l => s.rebuildLb map l) u = u := by
    intro map l
    induction l with
    | nil => exact fun _ _ => rfl
    | cons x l ih =>
      intro none u
      have step : u.rebuildLb map x = u := by
        unfold State.rebuildLb
        rw [none x List.mem_cons_self]
      rw [List.foldl_cons, step]
      exact ih (fun y hy => none y (List.mem_cons_of_mem x hy)) u
  unfold State.rebuild
  extract_lets u map v m h w owners
  have marked : u.media.lblocks = s.media.lblocks ∧ u.media.runs = s.media.runs ∧ u.copies = s.copies := by
    show (if s.hw.clean then s else s.mediaEvent 0).media.lblocks = _ ∧
      (if s.hw.clean then s else s.mediaEvent 0).media.runs = _ ∧
      (if s.hw.clean then s else s.mediaEvent 0).copies = _
    split
    · exact ⟨rfl, rfl, rfl⟩
    · exact ⟨rfl, rfl, rfl⟩
  obtain ⟨lblocks, runs, copies⟩ := marked
  have found : v = u := still map _ (by rw [lblocks]; exact fun x hx => (whole x hx).1) u
  have none : owners = [] := by
    refine List.filter_eq_nil_iff.mpr fun o ho => ?_
    obtain ⟨r, hr, rfl⟩ := List.mem_map.mp (List.mem_dedup.mp ho)
    have hr' : r ∈ s.media.runs := by
      rw [← runs, ← found]
      exact hr
    have copy : w.copy? (r.1 / 2097152 - 4096) = s.copy? (r.1 / 2097152 - 4096) := by
      show v.copies.find? _ = s.copies.find? _
      rw [found, copies]
    rw [copy]
    intro both
    obtain ⟨far, gone⟩ := Bool.and_eq_true_iff.mp both
    have some := owned r hr' (of_decide_eq_true far)
    rw [Option.isNone_iff_eq_none] at gone
    rw [gone] at some
    exact absurd some (by decide)
  rw [none]
  show v.media.lblocks.map LBlock.chains = _
  rw [found, lblocks]
  exact (List.map_congr_left fun l hl => (whole l hl).2).trans (List.map_id _)

section good

variable {env : StartEnv} (rows : env.badRows = []) (tests : env.testsGood = true) (image : env.imageGood = true)
  (keys : env.lostKeys = [])
include rows tests image keys

/-- The state that a start which nothing spoils gives to the rebuild. -/
def State.booted (s : State) (env : StartEnv) : State :=
  let svn := BitVec.ofNat 8 ((s.sec.image.map (fun i => i.svn)).getD 0)
  { s with
    link := (s.train env).link
    integ := { s.integ with repairs := [] }
    sec := { s.sec with svnRun := svn, svnMin := if s.sec.svnMin < svn then svn else s.sec.svnMin } }

/-- A start that nothing spoils. -/
theorem startOnce_good {r : State} (valid : r.sec.imageValid = true) (boot : r.sec.boot = 0) :
    r.startOnce env = (r.booted env).rebuild.ready env := by
  have faulty : r.integ.repairs.filter (fun u => env.badRows.any (sameRow u)) = [] :=
    List.filter_eq_nil_iff.mpr fun u _ => by simp [rows]
  have booted : ∀ u : State, u.sec.imageValid = true → u.boot env = { u with sec := { u.sec with
      svnRun := BitVec.ofNat 8 ((u.sec.image.map (fun i => i.svn)).getD 0)
      svnMin := if u.sec.svnMin < BitVec.ofNat 8 ((u.sec.image.map (fun i => i.svn)).getD 0) then
        BitVec.ofNat 8 ((u.sec.image.map (fun i => i.svn)).getD 0) else u.sec.svnMin } } := by
    intro u good
    unfold State.boot
    rw [tests, image]
    dsimp only
    rw [if_neg (by decide), if_pos rfl, if_pos good]
  have rows' : replaceRows (r.train env).integ.fuses
      ((r.train env).integ.repairs.filter (fun u => env.badRows.any (sameRow u))) = some r.integ.fuses := by
    rw [show (r.train env).integ.repairs = r.integ.repairs from rfl, faulty]
    rfl
  unfold State.startOnce
  dsimp only
  rw [rows']
  dsimp only
  rw [booted { r.train env with integ := { (r.train env).integ with repairs := [], fuses := r.integ.fuses } } valid, keys]
  dsimp only
  rw [if_neg (show ¬ (r.train env).sec.boot = 1 from fun h => absurd (boot.symm.trans h) (by decide)), loseKeys_nil]
  rfl

end good

/-- What step 7 leaves, and what it sets. -/
theorem ready_fields (w : State) (env : StartEnv) :
    ((w.ready env).hw.phase = .running ∧ (w.ready env).hw.started = true ∧ (w.ready env).hw.startStep = 7) ∧
      (w.ready env).link = w.link ∧ (w.ready env).jobs = w.jobs ∧ (w.ready env).cores = w.cores ∧
      (w.ready env).objs = w.objs ∧ (w.ready env).copies = w.copies ∧ (w.ready env).sec = w.sec ∧
      (w.ready env).media = w.media := by
  unfold State.ready
  dsimp only
  split
  · exact ⟨⟨rfl, rfl, rfl⟩, rfl, rfl, rfl, rfl, rfl, rfl, rfl⟩
  · exact ⟨⟨rfl, rfl, rfl⟩, rfl, rfl, rfl, rfl, rfl, rfl, rfl⟩

/-- A start of a module that has been reset: it ends at step 7 with every object in the pool. -/
structure Starts (s t : State) (env : StartEnv) : Prop where
  phase : t.hw.phase = .running
  started : t.hw.started = true
  step : t.hw.startStep = 7
  linkUp : t.link.linkUp = env.linkUp
  queues : t.link.queues = []
  jobs : t.jobs = []
  cores : ∀ n < 32, t.core n = {}
  objs : t.objs = s.objs.map (fun o => { o with pod := 0 })
  lc : t.sec.lc = s.sec.lc
  boot : t.sec.boot = 0
  err : t.sec.err = .none
  map : (∀ l ∈ s.media.lblocks, l.merge = none ∧ l.chains = l) →
    (∀ r ∈ s.media.runs, 4096 ≤ r.1 / 2097152 → (t.copy? (r.1 / 2097152 - 4096)).isSome = true) →
    t.media.lblocks = s.media.lblocks

/-- What a start that nothing spoils gives. -/
theorem starts_good {s : State} {env : StartEnv} (rows : env.badRows = []) (tests : env.testsGood = true)
    (image : env.imageGood = true) (keys : env.lostKeys = []) (erased : s.sec.changes = s.sec.erasedCount)
    (valid : s.sec.imageValid = true) : Starts s (s.moduleReset.start env) env := by
  have once := startOnce_good rows tests image keys (r := s.moduleReset) valid rfl
  generalize hb : s.moduleReset.booted env = b at once
  have rest := offFlash_rebuild b
  obtain ⟨⟨phase, started, step⟩, link, jobs, cores, objs, copies, sec, media⟩ := ready_fields b.rebuild env
  rw [← once] at phase started step link jobs cores objs copies sec media
  have sec' : (s.moduleReset.startOnce env).sec = b.sec := sec.trans (congrArg State.sec rest :)
  have link' : (s.moduleReset.startOnce env).link = b.link := link.trans (congrArg State.link rest :)
  have cores' : (s.moduleReset.startOnce env).cores = b.cores := cores.trans (congrArg State.cores rest :)
  have copies' : (s.moduleReset.startOnce env).copies = b.copies := copies.trans (congrArg State.copies rest :)
  have jobs' : (s.moduleReset.startOnce env).jobs = b.jobs := jobs.trans (congrArg State.jobs rest :)
  have objs' : (s.moduleReset.startOnce env).objs = b.objs := objs.trans (congrArg State.objs rest :)
  have whole : s.moduleReset.start env = s.moduleReset.startOnce env := by
    have same : (s.moduleReset.startOnce env).sec.changes = (s.moduleReset.startOnce env).sec.erasedCount := by
      rw [sec', ← hb]
      exact erased
    have none : (s.moduleReset.startOnce env).erasePending = false := by
      unfold State.erasePending
      rw [decide_eq_false (p := _ ≠ _) (not_not_intro same), Bool.and_false]
    unfold State.start
    exact if_neg (by rw [none]; decide)
  rw [whole]
  exact {
    phase := phase
    started := started
    step := step
    linkUp := by rw [link', ← hb]; rfl
    queues := by rw [link', ← hb]; rfl
    jobs := by rw [jobs', ← hb]; rfl
    cores := fun n _ => by
      rw [State.core, cores', ← hb]
      exact core_moduleReset s n
    objs := by rw [objs', ← hb]; rfl
    lc := by rw [sec', ← hb]; rfl
    boot := by rw [sec', ← hb]; rfl
    err := by rw [sec', ← hb]; rfl
    map := fun full owned => by
      have owned' : ∀ r ∈ b.media.runs, 4096 ≤ r.1 / 2097152 → (b.copy? (r.1 / 2097152 - 4096)).isSome = true := by
        intro r hr far
        have := owned r (by rw [← hb] at hr; exact hr) far
        rwa [State.copy?, copies'] at this
      rw [media, lblocks_rebuild (by rw [← hb]; exact full) owned', ← hb]
      rfl }


/-- Power that reaches the always-on domain starts a module that no pin holds. -/
theorem powerOn_starts {u : State} {env : StartEnv} (p54 : u.hw.p54 = true) (pwrdis : u.hw.pwrdis = false)
    (coolant : u.hw.coolant = false) (perst : u.hw.perst = false) : u.powerOn env = u.moduleReset.start env := by
  unfold State.powerOn
  dsimp only
  rw [if_neg (by rw [p54, pwrdis]; decide), if_neg (by rw [coolant]; decide)]
  exact if_neg (show ¬ u.hw.perst = true by rw [perst]; decide)

/-- The rows that start the module. -/
theorem moduleStarts {s : State} {env : StartEnv} (rows : env.badRows = []) (tests : env.testsGood = true)
    (image : env.imageGood = true) (keys : env.lostKeys = []) (erased : s.sec.changes = s.sec.erasedCount)
    (valid : s.sec.imageValid = true) :
    ∀ row ∈ (if s.hw.phase = .held ∧ s.hw.perst = true then [Instr.perstRelease env] else []) ++
        (if s.hw.p54 = false ∧ s.hw.pwrdis = false ∧ s.hw.coolant = false ∧ s.hw.perst = false then
          [.powerApply env] else []) ++
        (if s.hw.p54 = true ∧ s.hw.pwrdis = true ∧ s.hw.coolant = false ∧ s.hw.perst = false then
          [.pwrdisRelease env] else []),
      ∃ t, exec row s = .next t ∧ Starts s t env := by
  have start : ∀ pins : Hw, Starts s ((State.moduleReset { s with hw := pins }).start env) env := fun pins => by
    obtain ⟨a, b, c, d, e, f, g, h, i, j, k, l⟩ :=
      starts_good (s := { s with hw := pins }) rows tests image keys erased valid
    exact ⟨a, b, c, d, e, f, g, h, i, j, k, l⟩
  intro row hrow
  simp only [List.mem_append, or_assoc] at hrow
  rcases hrow with h | h | h
  · obtain ⟨⟨held, perst⟩, rfl⟩ := mem_guarded h
    exact ⟨_, (if_neg (by rw [perst]; decide)).trans (if_pos (Or.inl held)), start _⟩
  · obtain ⟨⟨p54, pwrdis, coolant, perst⟩, rfl⟩ := mem_guarded h
    refine ⟨_, if_neg (by rw [p54]; decide), ?_⟩
    rw [powerOn_starts (u := { s with hw := { s.hw with p54 := true } }) rfl pwrdis coolant perst]
    exact start _
  · obtain ⟨⟨p54, pwrdis, coolant, perst⟩, rfl⟩ := mem_guarded h
    refine ⟨_, if_neg (by rw [pwrdis]; decide), ?_⟩
    rw [powerOn_starts (u := { s with hw := { s.hw with pwrdis := false } }) p54 rfl coolant perst]
    exact start _

/-! ### Scrubbing the operand store (R363, R364) -/

/-- Recording a corrected row moves no core and no flip mask. -/
theorem rowError_keeps (s : State) (u : ScrubUnit) :
    (s.rowError u).cores = s.cores ∧ (s.rowError u).integ.flips = s.integ.flips := by
  have record : ∀ v : State, (v.recordRow u).cores = v.cores ∧ (v.recordRow u).integ.flips = v.integ.flips := by
    intro v
    unfold State.recordRow
    split
    · exact ⟨rfl, rfl⟩
    · exact ⟨rfl, rfl⟩
  unfold State.rowError
  extract_lets old rest kept t x v
  have same : v.cores = s.cores ∧ v.integ.flips = s.integ.flips := by
    show (if old = 0 then s else s.fresh.2).cores = _ ∧ (if old = 0 then s else s.fresh.2).integ.flips = _
    split
    · exact ⟨rfl, rfl⟩
    · exact ⟨rfl, rfl⟩
  split
  · exact ⟨(record v).1.trans same.1, (record v).2.trans same.2⟩
  · exact same

/-- A word of a coded store written whole has no mark any more, and no other word's bytes move. -/
theorem codedWrite_word (m : Mem) (e : List EccMark) (w : Nat) (bs : List Byte) (len : bs.length = 8) :
    (codedWrite m e (8 * w) bs).1 = Mem.write m (8 * w) bs ∧ ∀ k ∈ (codedWrite m e (8 * w) bs).2, k.unit ≠ w := by
  have whole : ∀ k ∈ marksIn e (8 * w) bs.length, k.unit = w := by
    intro k hk
    obtain ⟨-, touched⟩ := List.mem_filter.mp hk
    rw [Bool.and_eq_true, decide_eq_true_iff, decide_eq_true_iff, len] at touched
    omega
  have none : (marksIn e (8 * w) bs.length).filter (fun k =>
      !(decide (8 * w ≤ 8 * k.unit) && decide (8 * k.unit + 8 ≤ 8 * w + bs.length))) = [] := by
    refine List.filter_eq_nil_iff.mpr fun k hk => ?_
    rw [whole k hk, len]
    simp
  unfold codedWrite
  dsimp only
  rw [none]
  refine ⟨rfl, fun k hk same => ?_⟩
  obtain ⟨x, hx, keep⟩ := List.mem_filterMap.mp hk
  by_cases touched : (marksIn e (8 * w) bs.length).contains x = true
  · have here := whole x (by simpa using touched)
    rw [if_pos touched, if_pos (by rw [here, len]; simp)] at keep
    cases keep
  · rw [if_neg touched] at keep
    cases keep
    refine touched (List.contains_iff_mem.mpr (List.mem_filter.mpr ⟨hx, ?_⟩))
    rw [same, len]
    simp

/-- The bytes that a word's own value writes are its bytes. -/
theorem get_write_field {m : Mem} (wf : Sparse.wf m = true) (a i : Nat) :
    Sparse.get (Mem.write m a (leBytes 8 (Mem.field m a 8))) i = Sparse.get m i := by
  rw [Sparse.get_write wf]
  have bytes : leBytes 8 (Mem.field m a 8) = Mem.bytes m a 8 := by
    have := leBytes_le (Mem.bytes m a 8)
    rwa [length_bytes] at this
  split
  · next inside =>
    rw [length_leBytes] at inside
    rw [bytes, getD_bytes wf a (n := 8) (i := i - a) (by omega), Nat.add_sub_cancel' inside.1]
  · rfl

/-- Writing a word of the operand store back. -/
theorem osWrite_back {s v : State} {n w : Nat} (cores : v.cores = s.cores) (flips : v.integ.flips = s.integ.flips)
    (lt : n < s.cores.length) (unarmed : (s.flip (48 + n)).armed = false) (wf : Sparse.wf (s.core n).os = true) :
    let t := v.osWrite n (8 * w) (leBytes 8 (Mem.field (s.core n).os (8 * w) 8))
    (∀ e ∈ (t.core n).osEcc, e.unit ≠ w) ∧ (t.core n).sregs = (s.core n).sregs ∧
      ∀ i, Sparse.get (t.core n).os i = Sparse.get (s.core n).os i := by
  have core : v.core n = s.core n := by rw [State.core, State.core, cores]
  have flip : (v.flip (osFlip n)).armed = false := by
    rw [State.flip, flips]
    exact unarmed
  obtain ⟨os, ecc⟩ := codedWrite_word (s.core n).os (s.core n).osEcc w
    (leBytes 8 (Mem.field (s.core n).os (8 * w) 8)) (length_leBytes 8 _)
  have run : v.osWrite n (8 * w) (leBytes 8 (Mem.field (s.core n).os (8 * w) 8)) = v.setCore n { s.core n with
      os := (codedWrite (s.core n).os (s.core n).osEcc (8 * w) (leBytes 8 (Mem.field (s.core n).os (8 * w) 8))).1
      osEcc := (codedWrite (s.core n).os (s.core n).osEcc (8 * w) (leBytes 8 (Mem.field (s.core n).os (8 * w) 8))).2 } := by
    unfold State.osWrite
    dsimp only
    rw [if_neg (List.ne_nil_of_length_pos (by rw [length_leBytes]; decide)), flip, core]
    rfl
  dsimp only
  rw [run, core_setCore _ _ _ _ (by rw [cores]; exact lt), if_pos rfl]
  refine ⟨ecc, rfl, fun i => ?_⟩
  dsimp only
  rw [os]
  exact get_write_field wf _ i

section scrub

variable {s : State} (run : s.hw.phase = .running) (started : s.hw.started = true) {n : Fin 32} {w : Nat} {k : EccMark}
  (marked : (s.core n.val).osEcc.find? (fun k => k.unit == w) = some k)
include run started marked

/-- A correctable word is made good. -/
theorem scrub_good (lt : n.val < s.cores.length) (wf : Sparse.wf (s.core n.val).os = true)
    (unarmed : (s.flip (48 + n.val)).armed = false) (good : k.sram = .good) :
    ∃ t, exec (.scrub (.operandStore n w)) s = .next t ∧ (∀ e ∈ (t.core n.val).osEcc, e.unit ≠ w) ∧
      (t.core n.val).sregs = (s.core n.val).sregs ∧
      ∀ i, Sparse.get (t.core n.val).os i = Sparse.get (s.core n.val).os i := by
  have unit : k.unit = w := by simpa using List.find?_some marked
  obtain ⟨cores, flips⟩ := rowError_keeps (s.count n.val 10 1) (.operandStore n w)
  refine ⟨_, ?_, osWrite_back (v := (s.count n.val 10 1).rowError (.operandStore n w)) (w := w) cores flips lt unarmed wf⟩
  show execScrub (.operandStore n w) s = _
  rw [execScrub, if_neg (by rw [run, started]; decide)]
  dsimp only
  rw [marked, State.scrubSram]
  rw [good, ← unit]

/-- The row of an uncorrectable word is recorded. -/
theorem scrub_lost (lost : k.sram = .lost) :
    ∃ t, exec (.scrub (.operandStore n w)) s = .next t ∧ t.cores = s.cores ∧ t.integ.event.getLsbD 3 = true := by
  refine ⟨s.recordRow (.operandStore n w), ?_, ?_⟩
  · show execScrub (.operandStore n w) s = _
    rw [execScrub, if_neg (by rw [run, started]; decide)]
    dsimp only
    rw [marked, State.scrubSram]
    rw [lost]
  · have set : ∀ v : State, (v.integEvent 3).integ.event.getLsbD 3 = true := fun v => by
      show (v.integ.event ||| BitVec.ofNat 5 (2 ^ 3)).getLsbD 3 = true
      rw [BitVec.getLsbD_or, Bool.or_eq_true]
      exact Or.inr (by decide)
    unfold State.recordRow
    split
    · exact ⟨rfl, set _⟩
    · exact ⟨rfl, set _⟩

end scrub

/-- Settles O57: a stop is a flush and a reset, a start is a reset and a rebuild of the map. -/
theorem hardwareEvents : Obligations.HardwareEvents := by
  unfold Obligations.HardwareEvents
  intro s
  refine ⟨fun bank tt run p54 perst pwrdis coolant trips row hrow => ?_,
    fun env rows tests image keys erased valid row hrow => ?_, rfl, fun run => ?_⟩
  · obtain ⟨t, ht, stops⟩ := moduleStops bank tt run p54 perst pwrdis coolant trips row hrow
    exact ⟨t, ht, stops.phase, stops.cause, stops.jobs, stops.queues, stops.cores, stops.arbs, stops.objs, stops.sectors⟩
  · obtain ⟨t, ht, starts⟩ := moduleStarts rows tests image keys erased valid row hrow
    exact ⟨t, ht, starts.phase, starts.started, starts.step, starts.linkUp, starts.queues, starts.jobs, starts.cores,
      starts.objs, starts.lc, starts.boot, starts.err, starts.map⟩
  · refine ⟨fun env => ⟨_, if_neg (fun h => h.1 run), rfl, rfl, rfl, rfl, rfl, rfl, rfl, rfl, rfl⟩, fun engine due => ?_,
      fun tt hot => ?_, fun tt high => ?_, fun ms weak => ?_, fun n w k started lt marked wf unarmed =>
        ⟨scrub_good run started marked lt wf unarmed, scrub_lost run started marked⟩⟩
    · exact if_neg (by rw [run, due]; decide)
    · refine if_neg ?_
      rintro (h | ⟨engine, flash⟩)
      · exact h run
      · have := of_decide_eq_false engine
        have := of_decide_eq_false flash
        omega
    · exact if_neg fun h => h.elim (fun h => h run) (fun h => by omega)
    · exact if_neg fun h => h.elim (fun h => h run) (fun h => by omega)

end Sys2Proof.Machine
end

section
/-!
SUPPORT. Security and life cycle (chapter 14); O55.
-/

namespace Sys2Proof.Machine

open Sys2Proof.Safety

/-! ### The session of the link, and completions -/

theorem session_settle (s : State) : s.settle.link.session = s.link.session := by
  have queues : s.settleQueues.linkRest.session = s.linkRest.session := congrArg Transport.session (linkRest_settleQueues s)
  have down : ∀ t : State, t.settleDown.link.session = t.link.session := fun t => by
    unfold State.settleDown
    split
    · rfl
    · rfl
  rw [settle_eq, down]
  exact queues

theorem session_complete (s : State) (u : Nat) (v : Verdict) : (s.complete u v).link.session = s.link.session := by
  have emit : ∀ (t : State) (last : Bool), (t.emit u last v).link.session = t.link.session := fun t last =>
    (congrArg Transport.session (linkRest_emit t u last v) : (t.emit u last v).linkRest.session = t.linkRest.session)
  have counted : ∀ (t : State) (q : Nat), (t.countReset q).link.session = t.link.session := fun t q =>
    (congrArg Transport.session (linkRest_modQueue t q _) : (t.countReset q).linkRest.session = t.linkRest.session)
  unfold State.complete
  split
  · rfl
  · next c _ =>
    split
    · rfl
    · extract_lets w n x y
      have first : x.link.session = s.link.session := by
        show (if n then w.countReset c.queue else w).link.session = _
        split
        · exact counted w c.queue
        · rfl
      have second : y.link.session = s.link.session := by
        show (if c.queue = 0 then x else x.emit u true v).link.session = _
        split
        · exact first
        · exact (emit x true).trans first
      exact (session_settle y).trans second

theorem session_completeAll (s : State) (us : List Nat) (v : Verdict) :
    (s.completeAll us v).link.session = s.link.session :=
  foldl_keeps (fun t : State => t.link.session) _ (fun t u => session_complete t u v) us s

/-! ### Stopping the jobs (R404) -/

/-- What stopping jobs leaves of the state. -/
def State.offJobs (s : State) : List Obj × Security × Transport × Nat := (s.objs, s.sec, s.link, s.spool.ports.length)

theorem offJobs_freeCores (s : State) (ctx : Nat) : (s.freeCores ctx).offJobs = s.offJobs := by
  have one : ∀ (t : State) (n : Nat), (t.freeCore n).offJobs = t.offJobs := fun t n => by
    have len : (t.freeCore n).spool.ports.length = t.spool.ports.length := List.length_map ..
    unfold State.offJobs
    rw [len]
    rfl
  unfold State.freeCores
  split
  · rfl
  · exact foldl_keeps State.offJobs State.freeCore one _ s

theorem offJobs_haltJob (s : State) (ctx : Nat) : (s.haltJob ctx).offJobs = s.offJobs := by
  unfold State.haltJob
  split
  · rfl
  · split
    · rfl
    · exact (show _ = (s.freeCores ctx).offJobs from rfl).trans (offJobs_freeCores s ctx)

/-- Where a job of a state with one job changed comes from. -/
theorem mem_modJob {s : State} {c : Nat} {f : Job → Job} {x : Job} (h : x ∈ (s.modJob c f).jobs) :
    (∃ y ∈ s.jobs, y.ctx = c ∧ x = f y) ∨ (x ∈ s.jobs ∧ x.ctx ≠ c) := by
  obtain ⟨y, hy, e⟩ := List.mem_map.mp h
  by_cases here : y.ctx = c
  · rw [if_pos (by simpa using here)] at e
    exact Or.inl ⟨y, hy, here, e.symm⟩
  · rw [if_neg (by simpa using here)] at e
    subst e
    exact Or.inr ⟨hy, here⟩

/-- Changing a job that keeps its context keeps the contexts. -/
theorem ctx_modJob (s : State) (c : Nat) {f : Job → Job} (hf : ∀ j, (f j).ctx = j.ctx) :
    (s.modJob c f).jobs.map (fun j => j.ctx) = s.jobs.map (fun j => j.ctx) := by
  show (s.jobs.map _).map _ = _
  rw [List.map_map]
  refine List.map_congr_left fun x _ => ?_
  show (if x.ctx == c then f x else x).ctx = x.ctx
  split
  · exact hf x
  · rfl

/-- The step of a state whose job `ctx` stops. -/
structure Halts (s t : State) (ctx : Nat) : Prop where
  ctxs : t.jobs.map (fun j => j.ctx) = s.jobs.map (fun j => j.ctx)
  ends : ∀ x ∈ t.jobs, x.state = .ended ∨ (x ∈ s.jobs ∧ x.ctx ≠ ctx)

/-- A job as a stop leaves it. -/
def Job.halted (e : JobEnd) (j : Job) : Job :=
  { j with
    state := .ended, ended := e, pendingReqs := [], batch := [], detached := [], leaving := [], reclaims := [],
    endJobs := [], submit := none, lastCut := none, prevCut := none, program := [], writable := [],
    window := false, region := false, idleWait := false }

theorem halts_haltJob {s : State} (nodup : (s.jobs.map (fun j => j.ctx)).Nodup) (ctx : Nat) :
    Halts s (s.haltJob ctx) ctx := by
  unfold State.haltJob
  split
  · next none =>
    refine ⟨rfl, fun x hx => Or.inr ⟨hx, fun e => ?_⟩⟩
    have := List.find?_eq_none.mp none x hx
    simp [e] at this
  · next j found =>
    split
    · next ended =>
      refine ⟨rfl, fun x hx => ?_⟩
      by_cases here : x.ctx = ctx
      · have hj : j ∈ s.jobs := List.mem_of_find?_eq_some found
        have hc : j.ctx = ctx := by simpa using List.find?_some found
        have : x = j := List.inj_on_of_nodup_map nodup hx hj (here.trans hc.symm)
        exact Or.inl (this ▸ ended)
      · exact Or.inr ⟨hx, here⟩
    · extract_lets u v e w x
      have jobs : u.jobs = (s.modJob ctx (fun j => { j with cores := [] })).jobs := by
        show (s.freeCores ctx).jobs = _
        rw [State.freeCores, found]
        dsimp only
        rw [settlePages_jobs]
        show (j.cores.foldl State.freeCore s).jobs.map _ = s.jobs.map _
        rw [foldl_keeps State.jobs State.freeCore freeCore_jobs j.cores s]
      constructor
      · refine (ctx_modJob x ctx (f := fun j => { j with shown := j.acct.engineCycles }) fun _ => rfl).trans ((ctx_modJob w ctx (f := Job.halted e) fun _ => rfl).trans ?_)
        show u.jobs.map _ = _
        rw [jobs]
        exact ctx_modJob s ctx fun _ => rfl
      · intro a ha
        rcases mem_modJob ha with ⟨b, hb, hc, rfl⟩ | ⟨ha, away⟩
        · rcases mem_modJob (f := Job.halted e) hb with ⟨c, -, -, rfl⟩ | ⟨-, away⟩
          · exact Or.inl rfl
          · exact absurd hc away
        · rcases mem_modJob (f := Job.halted e) ha with ⟨c, -, hc, rfl⟩ | ⟨ha, -⟩
          · exact absurd hc away
          · have ha' : a ∈ (s.modJob ctx (fun j => { j with cores := [] })).jobs := by
              rw [← jobs]
              exact ha
            rcases mem_modJob ha' with ⟨c, -, hc, rfl⟩ | ⟨ha, away⟩
            · exact absurd hc away
            · exact Or.inr ⟨ha, away⟩

/-- Stopping every job in turn leaves none that has not ended. -/
theorem halts_all (l : List Nat) {s : State} (nodup : (s.jobs.map (fun j => j.ctx)).Nodup) :
    ∀ x ∈ (l.foldl State.haltJob s).jobs, x.state = .ended ∨ (x ∈ s.jobs ∧ x.ctx ∉ l) := by
  induction l generalizing s with
  | nil => exact fun x hx => Or.inr ⟨hx, List.not_mem_nil⟩
  | cons c l ih =>
    have first := halts_haltJob nodup c
    intro x hx
    rcases ih (by rw [first.ctxs]; exact nodup) x hx with ended | ⟨mem, out⟩
    · exact Or.inl ended
    · rcases first.ends x mem with ended | ⟨mem, away⟩
      · exact Or.inl ended
      · exact Or.inr ⟨mem, by simp [away, out]⟩

/-- What a completion leaves of the state, with the ports' number. -/
theorem portsDownFree_downs (s : State) (h : s.spool.ports.length = 8) :
    SameWork s s.portsDownFree ∧ ∀ p < 8, (s.portsDownFree.port p).state = .down := by
  obtain ⟨work, -, -, down⟩ := portsDown_range s h 8 (Nat.le_refl 8)
  exact ⟨work, down⟩

/-- The security domain in HARD_ERROR. -/
def State.hardened (s : State) : State :=
  { s with
    link := { s.link with ide := false, session := false }
    sec := { s.sec with err := .hard, sessions := [], ideBy := none, staged := [], fwState := 0 } }

/-- What follows the stop of the jobs. -/
def State.lockedOut (s : State) : State :=
  (s.completeAll (s.link.cmds.map (fun c => c.uid)) { status := .locked }).portsDownFree.settle

theorem hardError_eq {s : State} (err : s.sec.err ≠ .hard) :
    s.hardError = ((((s.jobs.map (fun j => j.ctx)).foldl State.haltJob s).flushing true).hardened).lockedOut :=
  if_neg err

theorem lockedOut_keeps (s : State) (h : s.spool.ports.length = 8) :
    s.lockedOut.sec = s.sec ∧ s.lockedOut.link.session = s.link.session ∧ s.lockedOut.jobs = s.jobs ∧
      s.lockedOut.objs = s.objs ∧ ∀ p < 8, (s.lockedOut.port p).state = .down := by
  have session := session_completeAll s (s.link.cmds.map (fun c => c.uid)) { status := .locked }
  have sec := completeAll_sec s (s.link.cmds.map (fun c => c.uid)) { status := .locked }
  have jobs := completeAll_jobs s (s.link.cmds.map (fun c => c.uid)) { status := .locked }
  have objs := completeAll_objs s (s.link.cmds.map (fun c => c.uid)) { status := .locked }
  have spool := completeAll_spool s (s.link.cmds.map (fun c => c.uid)) { status := .locked }
  unfold State.lockedOut
  generalize s.completeAll (s.link.cmds.map (fun c => c.uid)) { status := .locked } = u at session sec jobs objs spool
  obtain ⟨⟨-, jobs', objs', -, -, -, link', sec', -⟩, down⟩ := portsDownFree_downs u (by rw [spool]; exact h)
  refine ⟨?_, ?_, ?_, ?_, fun p hp => ?_⟩
  · rw [settle_sec, sec', sec]
  · rw [session_settle, link', session]
  · rw [settle_jobs, jobs', jobs]
  · rw [settle_objs, objs', objs]
  · have := down p hp
    rwa [State.port, ← settle_spool] at this

/-- HARD_ERROR stops every job, ends every session and takes the ports down. -/
theorem hardError_stops {s : State} (err : s.sec.err ≠ .hard) (nodup : (s.jobs.map (fun j => j.ctx)).Nodup)
    (ports : s.spool.ports.length = 8) :
    s.hardError.sec.err = .hard ∧ s.hardError.sec.sessions = [] ∧ s.hardError.link.session = false ∧
      (∀ j ∈ s.hardError.jobs, j.state = .ended) ∧ (∀ p < 8, (s.hardError.port p).state = .down) ∧
      s.hardError.objs = s.objs := by
  have halted := halts_all (s.jobs.map (fun j => j.ctx)) nodup
  have kept := foldl_keeps State.offJobs State.haltJob offJobs_haltJob (s.jobs.map (fun j => j.ctx)) s
  rw [hardError_eq err]
  generalize (s.jobs.map (fun j => j.ctx)).foldl State.haltJob s = a at halted kept ⊢
  obtain ⟨clean, flushed⟩ := offFlash_flushing a true
  have jobs : (a.flushing true).jobs = a.jobs := (congrArg State.jobs flushed :)
  have objs : (a.flushing true).objs = a.objs := (congrArg State.objs flushed :)
  have spool : (a.flushing true).spool = a.spool := (congrArg State.spool flushed :)
  generalize a.flushing true = b at jobs objs spool ⊢
  have len : b.hardened.spool.ports.length = 8 := by
    show b.spool.ports.length = 8
    rw [spool, show a.spool.ports.length = s.spool.ports.length from congrArg (fun x => x.2.2.2) kept, ports]
  obtain ⟨sec, session, jobs', objs', down⟩ := lockedOut_keeps b.hardened len
  rw [sec, session, jobs', objs']
  refine ⟨rfl, rfl, rfl, fun j hj => ?_, down, ?_⟩
  · have hj' : j ∈ a.jobs := by
      rw [← jobs]
      exact hj
    rcases halted j hj' with ended | ⟨mem, out⟩
    · exact ended
    · exact absurd (List.mem_map_of_mem mem) out
  · show b.objs = s.objs
    rw [objs, show a.objs = s.objs from congrArg (fun x => x.1) kept]

/-! ### Attestation -/

/-- A module that keeps fewer than four sessions has a number that none of them uses. -/
theorem newSession_fresh {s : State} (few : s.sec.sessions.length < 4) : ∀ x ∈ s.sec.sessions, x.1 ≠ s.newSession := by
  have some : ((List.range 4).find? (fun n => !s.sec.sessions.any (fun x => x.1 == n))).isSome = true := by
    rw [List.find?_isSome]
    by_contra none
    have used : ∀ n ∈ List.range 4, n ∈ s.sec.sessions.map (fun x => x.1) := by
      intro n hn
      by_contra out
      refine none ⟨n, hn, ?_⟩
      rw [Bool.not_eq_true', List.any_eq_false]
      intro x hx e
      exact out (List.mem_map.mpr ⟨x, hx, by simpa using e⟩)
    have := (List.nodup_range (n := 4)).subperm used |>.length_le
    rw [List.length_range, List.length_map] at this
    omega
  obtain ⟨n, found⟩ := Option.isSome_iff_exists.mp some
  have unused := List.find?_some found
  rw [Bool.not_eq_true', List.any_eq_false] at unused
  intro x hx e
  rw [State.newSession, found] at e
  exact unused x hx (by simpa using e)

/-- A key exchange opens a session under a number of its own. -/
theorem keyExchange_opens {s : State} (run : s.hw.phase = .running) (err : s.sec.err = .none) (lc : s.sec.lc ≠ .blank)
    (few : s.sec.sessions.length < 4) (req : Option (List Byte)) :
    ∃ t n user, exec (.spdmMessage (.keyExchange req)) s = .next t ∧ t.sec.sessions = s.sec.sessions ++ [(n, user)] ∧
      (∀ x ∈ s.sec.sessions, x.1 ≠ n) ∧
      (user = true ↔ s.sec.lc = .service ∧ ∃ chain, req = some chain ∧
        Config.chainEndsIn chain s.sec.ownerKey = true) := by
  have ran : s.secRuns = true := decide_eq_true run
  have open_ : exec (.spdmMessage (.keyExchange req)) s = _ :=
    (if_neg (by rw [ran]; decide)).trans ((if_neg (by rw [err]; simp [lc])).trans
      (if_neg (show ¬ (s.sec.err = .soft ∨ 4 ≤ s.sec.sessions.length) by rw [err]; simp; omega)))
  refine ⟨_, s.newSession, _, open_, rfl, newSession_fresh few, ?_⟩
  rw [Bool.and_eq_true, decide_eq_true_iff]
  refine and_congr_right fun _ => ?_
  cases req with
  | none => simp
  | some chain => simp

/-- Ending a session ends what it holds of the link. -/
theorem endSession_ends {s : State} (run : s.hw.phase = .running) (err : s.sec.err ≠ .hard) (lc : s.sec.lc ≠ .blank)
    {n : Nat} {user : Bool} (mem : (n, user) ∈ s.sec.sessions) :
    ∃ t, exec (.spdmMessage (.endSession n)) s = .next t ∧ (∀ x ∈ t.sec.sessions, x.1 ≠ n) ∧
      (s.sec.ideBy = some n → t.link.ide = false ∧ t.link.session = false) ∧
      (s.sec.ideBy ≠ some n → t.link = s.link) := by
  have ran : s.secRuns = true := decide_eq_true run
  have held : s.sec.sessions.any (fun x => x.1 == n) = true := List.any_eq_true.mpr ⟨_, mem, by simp⟩
  refine ⟨_, (if_neg (by rw [ran]; decide)).trans ((if_neg (by simp [err, lc])).trans (if_pos held)),
    fun x hx => by simpa using (List.mem_filter.mp hx).2, fun holds => ?_, fun free => ?_⟩
  · have holds' : (s.sec.ideBy == some n) = true := by rw [holds]; simp
    exact ⟨by simp [State.answer, holds'], by simp [State.answer, holds']⟩
  · have free' : (s.sec.ideBy == some n) = false := by simpa using free
    simp [State.answer, free']

/-! ### Erasing and starting again (R390, R391, R396) -/

theorem sec_giveRole (s : State) (b : SBlock) : (s.giveRole b).sec = s.sec := by
  unfold State.giveRole
  split <;> rfl

theorem sec_setSb (s : State) (b : SBlock) : (s.setSb b).sec = s.sec := rfl

theorem sec_retireSb (s : State) (loc : SbLoc) : (s.retireSb loc).sec = s.sec := by
  have worn : ∀ t : State, t.wearOn.sec = t.sec := fun t => by
    unfold State.wearOn
    dsimp only
    split
    · rfl
    · split <;> split <;> rfl
  unfold State.retireSb
  extract_lets b u v w m
  refine (worn _).trans ?_
  show (if b.oneBit then v.giveRole b else v).sec = _
  split
  · exact sec_giveRole v b
  · rfl

theorem sec_eraseSb (s : State) (loc : SbLoc) : (s.eraseSb loc).sec = s.sec := by
  unfold State.eraseSb
  extract_lets old b w m v
  split
  · exact sec_retireSb v loc
  · split
    · have first : v.sec = s.sec := rfl
      exact (sec_setSb _ _).trans ((sec_giveRole v b).trans first)
    · rfl

theorem sec_eraseFlash (s : State) : s.eraseFlash.sec = s.sec := by
  refine foldl_keeps State.sec _ (fun t b => ?_) _ s
  cases b.role with
  | free => rfl
  | retired => rfl
  | mapped => exact sec_eraseSb t b.loc
  | log => exact sec_eraseSb t b.loc
  | copying => exact sec_eraseSb t b.loc
  | released => exact sec_eraseSb t b.loc

/-- A module without objects, copies, keys and content of its flash. -/
structure Emptied (s : State) : Prop where
  objs : s.objs = []
  copies : s.copies = []
  keys : s.sec.keyTable = []
  lblocks : s.media.lblocks = []
  runs : s.media.runs = []

/-- What start-up leaves of a module. -/
structure Restarts (env : StartEnv) (s t : State) : Prop where
  jobs : t.jobs = s.jobs
  lc : t.sec.lc = s.sec.lc
  changes : t.sec.changes = s.sec.changes
  erasedCount : t.sec.erasedCount = s.sec.erasedCount
  ownerKey : t.sec.ownerKey = s.sec.ownerKey
  fwState : t.sec.fwState = s.sec.fwState
  svn : s.sec.svnMin ≤ t.sec.svnMin
  image : env.imageGood = true → t.sec.image = s.sec.image
  emptied : Emptied s → Emptied t

theorem Restarts.trans {env : StartEnv} {s t u : State} (h : Restarts env s t) (k : Restarts env t u) :
    Restarts env s u where
  jobs := k.jobs.trans h.jobs
  lc := k.lc.trans h.lc
  changes := k.changes.trans h.changes
  erasedCount := k.erasedCount.trans h.erasedCount
  ownerKey := k.ownerKey.trans h.ownerKey
  fwState := k.fwState.trans h.fwState
  svn := BitVec.le_trans h.svn k.svn
  image := fun good => (k.image good).trans (h.image good)
  emptied := fun e => k.emptied (h.emptied e)

/-- A stage that leaves all of it alone. -/
theorem Restarts.of_same {env : StartEnv} {s t : State} (jobs : t.jobs = s.jobs) (sec : t.sec = s.sec)
    (objs : t.objs = s.objs) (copies : t.copies = s.copies) (lblocks : t.media.lblocks = s.media.lblocks)
    (runs : t.media.runs = s.media.runs) : Restarts env s t where
  jobs := jobs
  lc := congrArg Security.lc sec
  changes := congrArg Security.changes sec
  erasedCount := congrArg Security.erasedCount sec
  ownerKey := congrArg Security.ownerKey sec
  fwState := congrArg Security.fwState sec
  svn := by rw [sec]; exact BitVec.le_refl _
  image := fun _ => congrArg Security.image sec
  emptied := fun e => ⟨objs.trans e.objs, copies.trans e.copies, (congrArg Security.keyTable sec).trans e.keys,
    lblocks.trans e.lblocks, runs.trans e.runs⟩

/-- The self-tests and the firmware's check. -/
theorem restarts_boot (s : State) (env : StartEnv) : Restarts env s (s.boot env) := by
  unfold State.boot
  split
  · exact ⟨rfl, rfl, rfl, rfl, rfl, rfl, BitVec.le_refl _, fun _ => rfl, fun e => ⟨e.objs, e.copies, e.keys, e.lblocks, e.runs⟩⟩
  · extract_lets image x u svn
    have kept : env.imageGood = true → image = s.sec.image := fun good => if_pos good
    split
    · refine ⟨rfl, rfl, rfl, rfl, rfl, rfl, ?_, kept, fun e => ⟨e.objs, e.copies, e.keys, e.lblocks, e.runs⟩⟩
      show s.sec.svnMin ≤ if s.sec.svnMin < svn then svn else s.sec.svnMin
      split
      · next lt => exact BitVec.le_of_lt lt
      · exact BitVec.le_refl _
    · exact ⟨rfl, rfl, rfl, rfl, rfl, rfl, BitVec.le_refl _, kept, fun e => ⟨e.objs, e.copies, e.keys, e.lblocks, e.runs⟩⟩

/-- The rebuild of an empty map. -/
theorem rebuild_empty {s : State} (lblocks : s.media.lblocks = []) (runs : s.media.runs = []) :
    s.rebuild.media.lblocks = [] ∧ s.rebuild.media.runs = [] := by
  unfold State.rebuild
  extract_lets u map v m h w owners
  have marked : u.media.lblocks = [] ∧ u.media.runs = [] := by
    show (if s.hw.clean then s else s.mediaEvent 0).media.lblocks = _ ∧
      (if s.hw.clean then s else s.mediaEvent 0).media.runs = _
    split
    · exact ⟨lblocks, runs⟩
    · exact ⟨lblocks, runs⟩
  have found : v = u := by
    show u.media.lblocks.foldl _ u = u
    rw [marked.1]
    rfl
  have none : owners = [] := by
    show (((v.media.runs.map (fun r => r.1 / 2097152)).dedup).filter _) = []
    rw [found, marked.2]
    rfl
  rw [none]
  refine ⟨?_, ?_⟩
  · show v.media.lblocks.map LBlock.chains = []
    rw [found, marked.1]
    rfl
  · show v.media.runs = []
    rw [found, marked.2]

theorem restarts_rebuild (s : State) (env : StartEnv) : Restarts env s s.rebuild := by
  have rest := offFlash_rebuild s
  have sec : s.rebuild.sec = s.sec := (congrArg State.sec rest :)
  have objs : s.rebuild.objs = s.objs := (congrArg State.objs rest :)
  have copies : s.rebuild.copies = s.copies := (congrArg State.copies rest :)
  exact {
    jobs := (congrArg State.jobs rest :)
    lc := congrArg Security.lc sec
    changes := congrArg Security.changes sec
    erasedCount := congrArg Security.erasedCount sec
    ownerKey := congrArg Security.ownerKey sec
    fwState := congrArg Security.fwState sec
    svn := by rw [sec]; exact BitVec.le_refl _
    image := fun _ => congrArg Security.image sec
    emptied := fun e => ⟨objs.trans e.objs, copies.trans e.copies,
      (congrArg Security.keyTable sec).trans e.keys, (rebuild_empty e.lblocks e.runs).1, (rebuild_empty e.lblocks e.runs).2⟩ }

theorem restarts_loseKeys (s : State) (hs : List Nat) (env : StartEnv) : Restarts env s (s.loseKeys hs) where
  jobs := rfl
  lc := rfl
  changes := rfl
  erasedCount := rfl
  ownerKey := rfl
  fwState := rfl
  svn := BitVec.le_refl _
  image := fun _ => rfl
  emptied := fun e => by
    refine ⟨?_, e.copies, ?_, e.lblocks, e.runs⟩
    · show s.objs.map _ = []
      rw [e.objs]
      rfl
    · show s.sec.keyTable.filter _ = []
      rw [e.keys]
      rfl

theorem restarts_ready (s : State) (env : StartEnv) : Restarts env s (s.ready env) := by
  obtain ⟨-, -, jobs, -, objs, copies, sec, media⟩ := ready_fields s env
  exact .of_same jobs sec objs copies (congrArg Media.lblocks media) (congrArg Media.runs media)

/-- One start. -/
theorem restarts_once (s : State) (env : StartEnv) : Restarts env s (s.startOnce env) := by
  have trained : Restarts env s (s.train env) := .of_same rfl rfl rfl rfl rfl rfl
  unfold State.startOnce
  extract_lets u
  split
  · exact trained.trans (.of_same rfl rfl rfl rfl rfl rfl)
  · next fuses _ =>
    extract_lets v w x
    have booted : Restarts env s w :=
      (trained.trans (.of_same (s := u) (t := v) rfl rfl rfl rfl rfl rfl)).trans (restarts_boot v env)
    have mapped : Restarts env s x := by
      show Restarts env s (if w.sec.boot = 1 then w else w.rebuild.loseKeys env.lostKeys)
      split
      · exact booted
      · exact (booted.trans (restarts_rebuild w env)).trans (restarts_loseKeys w.rebuild env.lostKeys env)
    exact mapped.trans (restarts_ready x env)

/-- The reset after the erase of a life-cycle change. -/
theorem emptied_erased (x : State) : Emptied x.eraseAll.moduleReset := ⟨rfl, rfl, rfl, rfl, rfl⟩

/-- A start after an erase ends a life-cycle change: nothing of the module's objects and keys is left (R390). -/
theorem start_erased (x : State) (env : StartEnv) :
    let t := x.eraseAll.moduleReset.start env
    Emptied t ∧ t.jobs = [] ∧ t.sec.lc = x.sec.lc ∧ t.sec.changes = x.sec.changes ∧
      t.sec.ownerKey = if x.sec.lc = .service then x.sec.ownerKey else [] := by
  have once := restarts_once x.eraseAll.moduleReset env
  have sec := sec_eraseFlash x
  have erased : x.eraseAll.moduleReset.sec.erasedCount = x.sec.changes := (congrArg Security.changes sec :)
  have changes : x.eraseAll.moduleReset.sec.changes = x.sec.changes := (congrArg Security.changes sec :)
  have lc : x.eraseAll.moduleReset.sec.lc = x.sec.lc := (congrArg Security.lc sec :)
  have key : x.eraseAll.moduleReset.sec.ownerKey = if x.sec.lc = .service then x.sec.ownerKey else [] :=
    congrArg (fun y : Security => if y.lc = .service then y.ownerKey else []) sec
  have none : x.eraseAll.moduleReset.start env = x.eraseAll.moduleReset.startOnce env := by
    have same : (x.eraseAll.moduleReset.startOnce env).sec.changes = (x.eraseAll.moduleReset.startOnce env).sec.erasedCount := by
      rw [once.changes, once.erasedCount, erased, changes]
    refine if_neg ?_
    unfold State.erasePending
    rw [decide_eq_false (p := _ ≠ _) (not_not_intro same), Bool.and_false]
    decide
  rw [none]
  exact ⟨once.emptied (emptied_erased x), once.jobs, once.lc.trans lc, once.changes.trans changes, once.ownerKey.trans key⟩

/-- A start after a reset keeps a firmware image that can be read, and never lowers the least version. -/
theorem start_firmware (x : State) {env : StartEnv} (good : env.imageGood = true) :
    let t := x.moduleReset.start env
    t.jobs = [] ∧ t.sec.fwState = 0 ∧ t.sec.image = x.sec.image ∧ x.sec.svnMin ≤ t.sec.svnMin := by
  have once := restarts_once x.moduleReset env
  unfold State.start
  dsimp only
  generalize x.moduleReset.startOnce env = u at once ⊢
  have image : u.sec.image = x.sec.image := once.image good
  have svn : x.sec.svnMin ≤ u.sec.svnMin := once.svn
  split
  · have again := restarts_once u.eraseAll.moduleReset env
    have sec := sec_eraseFlash u
    have image' : u.eraseAll.moduleReset.sec.image = u.sec.image := (congrArg Security.image sec :)
    have svn' : u.eraseAll.moduleReset.sec.svnMin = u.sec.svnMin := (congrArg Security.svnMin sec :)
    refine ⟨again.jobs, again.fwState, (again.image good).trans (image'.trans image), ?_⟩
    exact BitVec.le_trans svn (svn' ▸ again.svn)
  · exact ⟨once.jobs, once.fwState, image, svn⟩

/-! ### The life-cycle change -/

/-- An offset field of 18 bits. -/
theorem offset_toNat (v : Nat) : (BitVec.ofNat 18 (bits v 31 14)).toNat = bits v 31 14 := by
  rw [BitVec.toNat_ofNat]
  exact Nat.mod_eq_of_lt (Nat.mod_lt _ (by decide))

/-- The state with the token's place written. -/
def State.tokenAt (s : State) (v : Nat) : State :=
  { s with sec := { s.sec with lcOffset := BitVec.ofNat 18 (bits v 31 14) } }

/-- The token that GO reads. -/
def State.tokenRead (s : State) (v : Nat) : List Byte := s.apertureBytes (bits v 31 14 * 4096) 7283

/-- Whether the token lies in the aperture. -/
def tokenInside (v : Nat) : Bool := decide (bits v 31 14 * 4096 + 7283 ≤ 2 ^ 30)

/-- The state with a new nonce. -/
def State.renonced (s : State) : State :=
  { s.fresh.2 with sec := { s.fresh.2.sec with nonce := BitVec.ofNat 256 s.fresh.1 } }

section go

variable {s : State} {v : BitVec 32} (hb : s.bar0 = true) (hd : s.hw.started = true) (hl : s.link.guardOpen = true)
  (go : bitOf v.toNat 0 = true) (busy : s.sec.lcBusy = false) (err : s.sec.err = .none) (quiet : s.quiet = true)
include hb hd hl go busy

/-- GO is the write of LC_CTL. -/
theorem exec_lcGo (env : StartEnv) :
    exec (.lcGo v true env) s = .next (((s.tokenAt v.toNat).lifecycle true env).arm) := by
  refine (if_pos go).trans (congrArg Host.Outcome.next ?_)
  rw [hostWrite_open (r := .lcCtl) (whole_word covered_lcCtl rfl) _ hb hd hl v.isLt (unmasked_plain rfl _) rfl]
  have written : s.putReg .lcCtl v.toNat ⟨true, .whole, env⟩ = s.lcWrite v.toNat true env := rfl
  rw [written, State.lcWrite, if_neg (by rw [busy]; decide)]
  dsimp only
  rw [if_pos go]
  rfl

omit hb hd hl go busy in
include err quiet in
/-- The course of GO, once the token is judged. -/
theorem lifecycle_judged (env : StartEnv) {c : Option Nat} (hc : s.tokenCause (s.tokenRead v.toNat) (tokenInside v.toNat) = c) :
    (∀ r, c = some r → (s.tokenAt v.toNat).lifecycle true env =
      (let t := (s.tokenAt v.toNat).renonced
       { t with sec := { t.sec with lcReason := BitVec.ofNat 8 r } })) ∧
    (c = none → (s.tokenAt v.toNat).lifecycle true env =
      (s.tokenAt v.toNat).renonced.changeLc (fieldAt (s.tokenRead v.toNat) 4 1)
        (bytesAt (s.tokenRead v.toNat) 0x40 2592) true env) := by
  have off : (s.tokenAt v.toNat).sec.lcOffset.toNat = bits v.toNat 31 14 := offset_toNat v.toNat
  have cause : (if (s.tokenAt v.toNat).sec.err ≠ .none then some errorState
      else if (s.tokenAt v.toNat).quiet = false then some notIdle
      else (s.tokenAt v.toNat).tokenCause ((s.tokenAt v.toNat).apertureBytes (bits v.toNat 31 14 * 4096) tokenBytes)
        (decide (bits v.toNat 31 14 * 4096 + tokenBytes ≤ 2 ^ 30))) = c := by
    rw [if_neg (not_not_intro (show (s.tokenAt v.toNat).sec.err = .none from err)),
      if_neg (by rw [show (s.tokenAt v.toNat).quiet = true from quiet]; decide)]
    exact hc
  unfold State.lifecycle
  dsimp only
  rw [off, cause]
  exact ⟨fun r h => by rw [h]; rfl, fun h => by rw [h]; rfl⟩

end go

/-- What a token that holds leaves (R390). -/
theorem changeLc_whole (x : State) (target : Nat) (key : List Byte) (env : StartEnv) :
    let t := x.changeLc target key true env
    Emptied t ∧ t.jobs = [] ∧ t.sec.lc = lcOf target ∧ t.sec.changes = x.sec.changes + 1 ∧
      t.sec.ownerKey = if target = 2 then key else [] := by
  obtain ⟨empty, jobs, lc, changes, owner⟩ := start_erased { x with
    link := { x.link with session := false }
    sec := { x.sec with
      lc := lcOf target, changes := x.sec.changes + 1, lcBusy := true
      entries := if target = 2 then x.sec.entries + 1 else x.sec.entries
      ownerKey := if target = 2 then key else x.sec.ownerKey } } env
  refine ⟨empty, jobs, lc, changes, owner.trans ?_⟩
  show (if lcOf target = .service then if target = 2 then key else x.sec.ownerKey else []) = _
  have service : lcOf target = .service ↔ target = 2 := by
    unfold lcOf
    split <;> simp_all
  by_cases two : target = 2
  · rw [if_pos (service.mpr two), if_pos two, if_pos two]
  · rw [if_neg (fun h => two (service.mp h)), if_neg two]

/-! ### Firmware (R395, R396) -/

/-- The state with an image's place written. -/
def State.imageAt (s : State) (v : Nat) : State :=
  { s with sec := { s.sec with fwLength := BitVec.ofNat 24 (bits v 55 32), fwOffset := BitVec.ofNat 18 (bits v 31 14) } }

section firmware

variable {s : State} {x : BitVec 64} (hb : s.bar0 = true) (hd : s.hw.started = true) (hl : s.link.guardOpen = true)
  (session : s.link.session = true) (err : s.sec.err = .none)

include hb hd hl session in
/-- A write of FW_CTL that stages or commits. -/
theorem hostWrite_fwCtl (state : s.sec.fwState ≠ 4) (how : Course) :
    s.hostWrite 0x800010 8 x.toNat how =
      (if bits x.toNat 1 0 = 1 then (s.imageAt x.toNat).stage
        else if bits x.toNat 1 0 = 2 then (s.imageAt x.toNat).commitFw how.stop how.env
        else s.imageAt x.toNat).arm := by
  rw [hostWrite_open (r := .fwCtl) (whole_double covered_fwCtl rfl) how hb hd hl x.isLt (unmasked_plain rfl _) rfl]
  have written : s.putReg .fwCtl x.toNat how = s.fwWrite x.toNat how.stop how.env := rfl
  rw [written, State.fwWrite, if_neg state]
  dsimp only
  rw [if_neg (fun h => by rw [session] at h; exact absurd h.1 (by decide))]
  rfl

include err in
/-- STAGE copies the image. -/
theorem stage_copies (room : bits x.toNat 31 14 * 4096 + bits x.toNat 55 32 ≤ 2 ^ 30) :
    (s.imageAt x.toNat).stage = { s.imageAt x.toNat with sec := { (s.imageAt x.toNat).sec with
      staged := s.apertureBytes (bits x.toNat 31 14 * 4096) (bits x.toNat 55 32)
      stagedFrom := bits x.toNat 31 14 * 4096, fwState := 1 } } := by
  have off : (s.imageAt x.toNat).sec.fwOffset.toNat = bits x.toNat 31 14 := offset_toNat x.toNat
  have len : (s.imageAt x.toNat).sec.fwLength.toNat = bits x.toNat 55 32 := by
    show (BitVec.ofNat 24 (bits x.toNat 55 32)).toNat = _
    rw [BitVec.toNat_ofNat]
    exact Nat.mod_eq_of_lt (Nat.mod_lt _ (by decide))
  unfold State.stage
  dsimp only
  rw [if_neg (not_not_intro (show (s.imageAt x.toNat).sec.err = .none from err)), off, len, if_pos room]
  rfl

include err in
/-- COMMIT resets the module on the staged image. -/
theorem commit_starts (boot : s.sec.boot = 0) (state : s.sec.fwState = 2) (quiet : s.quiet = true)
    (holds : s.imageCause s.sec.staged = none) {env : StartEnv} (good : env.imageGood = true) :
    let t := (s.imageAt x.toNat).commitFw .whole env
    t.jobs = [] ∧ t.sec.fwState = 0 ∧ t.sec.image = some (imageOf s.sec.staged) ∧ s.sec.svnMin ≤ t.sec.svnMin := by
  obtain ⟨clean, flushed⟩ := offFlash_flushing (s.imageAt x.toNat) true
  have sec : ((s.imageAt x.toNat).flushing true).sec = (s.imageAt x.toNat).sec := (congrArg State.sec flushed :)
  have staged : (s.imageAt x.toNat).stagedImage = s.sec.staged :=
    if_neg (show ¬ s.sec.boot = 1 from fun h => absurd (boot.symm.trans h) (by decide))
  have cause : ((s.imageAt x.toNat).flushing true).imageCause s.sec.staged = none := by
    unfold State.imageCause at holds ⊢
    rw [sec]
    exact holds
  unfold State.commitFw
  dsimp only
  rw [if_neg (not_not_intro (show (s.imageAt x.toNat).sec.err = .none from err)),
    if_neg (show ¬ ((s.imageAt x.toNat).sec.fwState ≠ 2 ∨ (s.imageAt x.toNat).quiet = false) from fun h =>
      h.elim (fun h => h state) (fun h => absurd (quiet.symm.trans h) (by decide))), staged, cause]
  dsimp only
  generalize (s.imageAt x.toNat).flushing true = f at sec
  have least : f.sec.svnMin = s.sec.svnMin := (congrArg Security.svnMin sec :)
  obtain ⟨jobs, fw, image, svn⟩ := start_firmware { f with sec := { f.sec with
    image := some (imageOf s.sec.staged)
    svnMin := if f.sec.svnMin < BitVec.ofNat 8 (imageOf s.sec.staged).svn then BitVec.ofNat 8 (imageOf s.sec.staged).svn
      else f.sec.svnMin } } good
  refine ⟨jobs, fw, image, BitVec.le_trans ?_ svn⟩
  show s.sec.svnMin ≤ if f.sec.svnMin < _ then _ else f.sec.svnMin
  rw [← least]
  split
  · next lt => exact BitVec.le_of_lt lt
  · exact BitVec.le_refl _

end firmware

/-- Settles O55. -/
theorem securityRuns : Obligations.SecurityRuns := by
  unfold Obligations.SecurityRuns
  intro s run err
  have ran : s.secRuns = true := decide_eq_true run
  refine ⟨fun lc => ?_, fun n user found up => ?_, fun hb hd hl => ⟨fun v env go busy none quiet => ?_,
    fun x env boot session none => ?_⟩, fun staged => ?_, fun erase r => ?_, ?_, ?_, fun cf nodup ports row hrow => ?_⟩
  · have heard : ¬ (s.sec.err = .hard ∨ s.sec.lc = .blank) := fun h => h.elim err lc
    refine ⟨fun i v h => (if_neg (by rw [ran]; decide)).trans ((if_neg heard).trans ?_),
      (if_neg (by rw [ran]; decide)).trans (if_neg heard), fun code => (if_neg (by rw [ran]; decide)).trans (if_neg heard),
      fun req none few => keyExchange_opens run none lc few req, fun n user mem => endSession_ends run err lc mem⟩
    dsimp only
    rw [h]
  · show execIdeKmMessage n s = _
    rw [execIdeKmMessage, found]
    exact if_neg (by rw [ran, up]; simp [err])
  · intro off tok
    refine ⟨fun r hr => ?_, fun hr => ?_⟩
    · refine ⟨_, exec_lcGo hb hd hl go busy env, ?_⟩
      rw [(lifecycle_judged none quiet env hr).1 r rfl]
      exact ⟨rfl, rfl, rfl, rfl, rfl⟩
    · refine ⟨_, exec_lcGo hb hd hl go busy env, ?_⟩
      rw [(lifecycle_judged none quiet env hr).2 rfl]
      obtain ⟨empty, jobs, lc, changes, owner⟩ := changeLc_whole (s.tokenAt v.toNat).renonced
        (fieldAt (s.tokenRead v.toNat) 4 1) (bytesAt (s.tokenRead v.toNat) 0x40 2592) env
      generalize (s.tokenAt v.toNat).renonced.changeLc (fieldAt (s.tokenRead v.toNat) 4 1)
        (bytesAt (s.tokenRead v.toNat) 0x40 2592) true env = t at empty jobs lc changes owner ⊢
      exact ⟨lc, empty.objs, empty.copies, jobs, empty.keys, empty.lblocks, owner, changes⟩
  · refine ⟨fun op state room => ?_, fun op state quiet holds good => ?_⟩
    · refine ⟨_, (if_pos op).trans (congrArg Host.Outcome.next (hostWrite_fwCtl hb hd hl session state _)), ?_⟩
      rw [if_pos op, stage_copies none room]
      exact ⟨rfl, rfl, rfl, rfl, rfl⟩
    · refine ⟨_, (if_pos op).trans (congrArg Host.Outcome.next (hostWrite_fwCtl hb hd hl session
        (by rw [state]; decide) _)), ?_⟩
      rw [if_neg (by rw [op]; decide), if_pos op]
      obtain ⟨jobs, fw, image, svn⟩ := commit_starts (x := x) none boot state quiet holds good
      exact ⟨image, svn, fw, jobs⟩
  · have verified : ¬ (s.secRuns = false ∨ s.sec.fwState ≠ 1) := by rw [ran, staged]; decide
    refine ⟨fun h => (if_neg verified).trans ?_, fun r h => (if_neg verified).trans ?_⟩
    · rw [h]
    · rw [h]
      rfl
  · exact if_neg (by rw [ran]; decide)
  · exact if_neg fun h => h.elim (fun h => absurd (ran.symm.trans h) (by decide)) err
  · exact if_neg fun h => h.elim (fun h => absurd (ran.symm.trans h) (by decide)) err
  · have stops := hardError_stops err nodup ports
    simp only [List.mem_cons, List.not_mem_nil, or_false] at hrow
    rcases hrow with rfl | rfl | rfl
    · exact ⟨_, if_neg (by rw [ran]; decide), stops⟩
    · exact ⟨_, if_neg fun h => h.elim (fun h => absurd (ran.symm.trans h) (by decide)) err, stops⟩
    · exact ⟨_, if_neg (by rw [ran, cf]; decide), stops⟩

end Sys2Proof.Machine
end

section
/-!
SUPPORT. The Dailies and metering (chapter 16, R27, R116, R440); O56.
-/

namespace Sys2Proof.Machine

open Sys2Proof.Safety

/-! ### Writes of the Dailies' registers -/

/-- A register that is neither guarded nor masked takes what is written; of the rest, only the lock may move. -/
theorem hostWrite_plain {s : State} {off size v : Nat} {r : Reg} (h : Whole off size r) (hb : s.bar0 = true)
    (hd : s.hw.started = true) (hv : v < 2 ^ (8 * size)) (hm : r.masked = false) (hg : r.guarded = false)
    (hs : r.spendsNothing = false) :
    ∃ lock : Bool, s.hostWrite off size v noCourse =
      (let u := s.putReg r v noCourse
       { u with link := { u.link with guardOpen := lock } }) := by
  rw [hostWrite_taken h noCourse hb (Or.inr hd) hv (unmasked_plain hm _) (Or.inl hg) hs]
  generalize s.putReg r v noCourse = u
  split
  · exact ⟨false, rfl⟩
  · exact ⟨u.link.guardOpen, rfl⟩

theorem covered_dailiesCtl : covered 0xA00000 4 = [⟨.dailiesCtl, 0xA00000, 4⟩] := by decide
theorem covered_dailiesRing : covered 0xA00008 8 = [⟨.dailiesRing, 0xA00008, 8⟩] := by decide

theorem covered_sampleCfg (n : Fin 32) :
    covered (0xA00100 + 4 * n.val) 4 = [⟨.sampleCfg n.val, 0xA00100 + 4 * n.val, 4⟩] :=
  covered_instance (k := 66) (n := 1) (lo := 0xA00100) (hi := 0xA00180)
    (r := ⟨0xA00100, 4, 32, 4, .sampleCfg⟩) rfl (by decide) (by dsimp only; omega) (by dsimp only; omega)
    (by dsimp only; omega) n.isLt (by decide) (by decide) (by decide) rfl rfl

theorem covered_cntSel (i : Fin 1320) (present : i.val % 8 < cntSlots (i.val / 8)) :
    covered (0xA01000 + 4 * i.val) 4 = [⟨.cntSel i.val, 0xA01000 + 4 * i.val, 4⟩] :=
  covered_instance (k := 67) (n := 1) (lo := 0xA01000) (hi := 0xA024A0)
    (r := ⟨0xA01000, 4, 1320, 4, .cntSel⟩) rfl (by decide) (by dsimp only; omega) (by dsimp only; omega)
    (by dsimp only; omega) i.isLt (by decide) (by decide) (by decide) (decide_eq_true present) rfl

/-! ### Selections and counters (R425, R426) -/

/-- The state with a slot's selection, and its counts at zero. -/
def State.selected (s : State) (y : CntSel) : State :=
  { s with dailies := { s.dailies with
      sel := s.dailies.sel.filter (fun z => z.slot != y.slot) ++ [y]
      slots := Sparse.set s.dailies.slots y.slot 0, totals := Sparse.set s.dailies.totals y.slot 0 } }

theorem find?_selected (s : State) (y : CntSel) (k : Nat) :
    (s.selected y).dailies.sel.find? (fun x => x.slot == k) =
      if k = y.slot then some y else s.dailies.sel.find? (fun x => x.slot == k) := by
  show (s.dailies.sel.filter (fun z => z.slot != y.slot) ++ [y]).find? _ = _
  rw [List.find?_append, List.find?_filter]
  split
  · next e =>
    have none : s.dailies.sel.find? (fun x => decide ((x.slot != y.slot) = true ∧ (x.slot == k) = true)) = none :=
      List.find?_eq_none.mpr fun x _ => by rw [e]; simp
    rw [none, Option.none_or]
    exact List.find?_cons_of_pos (by simp [e])
  · next ne =>
    have same : (fun x : CntSel => decide ((x.slot != y.slot) = true ∧ (x.slot == k) = true)) = fun x => x.slot == k := by
      funext x
      by_cases h : x.slot = k
      · simp [h, ne]
      · simp [h]
    rw [same, List.find?_cons_of_neg (by simpa using Ne.symm ne)]
    simp

/-- A selection holds the slot alone. -/
theorem cntSel_selected (s : State) (y : CntSel) :
    (s.selected y).cntSel y.slot = y ∧ ∀ k, k ≠ y.slot → (s.selected y).cntSel k = s.cntSel k := by
  refine ⟨?_, fun k ne => ?_⟩
  · rw [State.cntSel, find?_selected, if_pos rfl]
  · rw [State.cntSel, find?_selected, if_neg ne, State.cntSel]

/-- A new selection is taken. -/
theorem cntSelTo_takes {s : State} (i : Nat) {v : BitVec 32}
    (new : v.truncate 8 ≠ (s.cntSel i).event ∨ v.getLsbD 15 ≠ (s.cntSel i).level) :
    s.cntSelTo i v.toNat = s.selected { slot := i, event := v.truncate 8, level := v.getLsbD 15, changed := true } := by
  have event : BitVec.ofNat 8 (bits v.toNat 7 0) = v.truncate 8 :=
    (ofNat_bits rfl v).trans (by rw [BitVec.ushiftRight_zero])
  rw [← event, ← bitOf_toNat] at new ⊢
  refine if_neg ?_
  rintro ⟨same, level⟩
  exact new.elim (fun h => h same.symm) (fun h => h level.symm)

/-- The counts of a slot that is selected start from zero. -/
theorem counts_selected {s : State} (slots : Sparse.wf s.dailies.slots = true) (totals : Sparse.wf s.dailies.totals = true)
    (y : CntSel) : Sparse.get (s.selected y).dailies.slots y.slot = 0 ∧
      Sparse.get (s.selected y).dailies.totals y.slot = 0 ∧
      ∀ k, k ≠ y.slot → Sparse.get (s.selected y).dailies.slots k = Sparse.get s.dailies.slots k :=
  ⟨(Sparse.get_set slots y.slot 0 y.slot).trans (if_pos rfl), (Sparse.get_set totals y.slot 0 y.slot).trans (if_pos rfl),
    fun k ne => (Sparse.get_set slots y.slot 0 k).trans (if_neg ne)⟩

/-- A counter that has not been timed folds whole into its total. -/
theorem foldSlot_takes {s : State} (slots : Sparse.wf s.dailies.slots = true) (totals : Sparse.wf s.dailies.totals = true)
    {i : Nat} (untimed : cntTimed (i / 8) (s.cntSel i) = false) :
    Sparse.get (s.foldSlot i).dailies.slots i = 0 ∧
      Sparse.get (s.foldSlot i).dailies.totals i = Sparse.get s.dailies.totals i +
        (Sparse.get s.dailies.slots i).zeroExtend 64 := by
  refine ⟨(Sparse.get_set slots i 0 i).trans (if_pos rfl), (Sparse.get_set totals i _ i).trans ((if_pos rfl).trans ?_)⟩
  rw [untimed, if_neg Bool.false_ne_true]
  have same : ∀ b : BitVec 48, b + 0 = b := fun b => BitVec.add_zero b
  rw [same]

/-! ### The ring and snapshots (R427 to R429) -/

/-- What records written into the ring, and folds, leave alone. -/
def State.offRing (s : State) : List Core × List Job × List Obj × Nat × Nat × BitVec 32 × BitVec 32 :=
  (s.cores, s.jobs, s.objs, s.dailies.snap, s.dailies.since, s.dailies.lostSnaps, s.dailies.lostSamples)

theorem offRing_fields {s t : State} (h : t.offRing = s.offRing) :
    t.cores = s.cores ∧ t.jobs = s.jobs ∧ t.dailies.snap = s.dailies.snap ∧ t.dailies.since = s.dailies.since ∧
      t.dailies.lostSnaps = s.dailies.lostSnaps ∧ t.dailies.lostSamples = s.dailies.lostSamples :=
  ⟨congrArg (fun x => x.1) h, congrArg (fun x => x.2.1) h, congrArg (fun x => x.2.2.2.1) h,
    congrArg (fun x => x.2.2.2.2.1) h, congrArg (fun x => x.2.2.2.2.2.1) h, congrArg (fun x => x.2.2.2.2.2.2) h⟩

theorem offRing_writeAperture (s : State) (req off : Nat) (bs : List Byte) :
    (s.writeAperture req off bs).offRing = s.offRing := by
  unfold State.writeAperture
  split
  · rfl
  · exact t1Encode_keeps State.offRing (fun _ _ => rfl) _ req 0 off bs.length

theorem offRing_tail (s : State) (tail : BitVec 32) :
    ({ s with dailies := { s.dailies with tail := tail } } : State).offRing = s.offRing := rfl

theorem offRing_putRecord (s : State) (bs : List Byte) : (s.putRecord bs).offRing = s.offRing := by
  unfold State.putRecord
  dsimp only
  split
  · rw [offRing_tail, offRing_writeAperture, offRing_writeAperture]
  · rw [offRing_tail, offRing_writeAperture]

theorem offRing_foldSlot (s : State) (i : Nat) : (s.foldSlot i).offRing = s.offRing := rfl

theorem offRing_foldAll (s : State) : s.foldAll.offRing = s.offRing := by
  refine foldl_keeps State.offRing _ (fun t b => ?_) _ s
  split
  · rfl
  · exact foldl_keeps State.offRing _ (fun u c => offRing_foldSlot u _) _ t

/-- A count that saturates. -/
theorem addSat_toNat (v : BitVec 32) (n : Nat) : (addSat v n).toNat = min (v.toNat + n) 0xFFFFFFFF := by
  have small : min (v.toNat + n) 0xFFFFFFFF < 2 ^ 32 := by omega
  unfold addSat
  rw [BitVec.toNat_ofNat, Nat.mod_eq_of_lt small]

/-- Whether the records of a snapshot fit the ring. -/
def State.snapFits (s : State) : Bool := s.foldAll.dailies.fits (s.foldAll.snapshotRecords.map List.length)

/-- A snapshot is written whole and counted, or counted as lost. -/
theorem snapshot_counts (s : State) :
    s.snapshot.cores = s.cores ∧ s.snapshot.jobs = s.jobs ∧ s.snapshot.dailies.since = s.dailies.since ∧
      s.snapshot.dailies.snap = s.dailies.snap + (if s.snapFits then 1 else 0) ∧
      (s.snapFits = false → s.snapshot.dailies.lostSnaps.toNat = min (s.dailies.lostSnaps.toNat + 1) 0xFFFFFFFF) := by
  have folded := offRing_foldAll s
  have written := foldl_keeps State.offRing State.putRecord offRing_putRecord s.foldAll.snapshotRecords s.foldAll
  have e : s.snapshot = if s.snapFits then
      (let w := s.foldAll.snapshotRecords.foldl State.putRecord s.foldAll
       { w with dailies := { w.dailies with
          snap := s.foldAll.dailies.snap + 1, sel := w.dailies.sel.map (fun x => { x with changed := false }) } })
      else { s.foldAll with dailies := { s.foldAll.dailies with lostSnaps := addSat s.foldAll.dailies.lostSnaps 1 } } := rfl
  rw [e]
  obtain ⟨cores, jobs, snap, since, lost, -⟩ := offRing_fields folded
  split
  · next fits =>
    obtain ⟨cores', jobs', -, since', -, -⟩ := offRing_fields written
    generalize s.foldAll.snapshotRecords.foldl State.putRecord s.foldAll = w at cores' jobs' since'
    exact ⟨cores'.trans cores, jobs'.trans jobs, since'.trans since, congrArg (fun n => n + 1) snap,
      fun no => absurd (fits.symm.trans no) (by decide)⟩
  · generalize s.foldAll = f at cores jobs snap since lost
    refine ⟨cores, jobs, since, snap, fun _ => ?_⟩
    show (addSat f.dailies.lostSnaps 1).toNat = _
    rw [addSat_toNat, lost]

/-! ### Samples (R430 to R432) -/

/-- A sample record goes to the ring, or its samples are counted as lost. -/
theorem putSample_counts (s : State) (n : Nat) (bs : List Byte) :
    (s.putSample n bs).cores = s.cores ∧ (s.putSample n bs).jobs = s.jobs ∧
      (s.dailies.fits [bs.length] = true → (s.putSample n bs).dailies.lostSamples = s.dailies.lostSamples) ∧
      (s.dailies.fits [bs.length] = false →
        (s.putSample n bs).dailies.lostSamples.toNat = min (s.dailies.lostSamples.toNat + n) 0xFFFFFFFF) := by
  have put := offRing_putRecord s bs
  unfold State.putSample
  split
  · next fits =>
    obtain ⟨cores, jobs, -, -, -, lost⟩ := offRing_fields put
    exact ⟨cores, jobs, fun _ => lost,
      fun no => absurd (fits.symm.trans no) (by decide)⟩
  · next no =>
    exact ⟨rfl, rfl, fun fits => absurd fits no, fun _ => addSat_toNat _ n⟩

/-- The bytes of a record. -/
theorem length_record (d : Dailies) (kind : Nat) (body : List Byte) : (d.record kind body).length = 32 + body.length := by
  unfold Dailies.record
  simp only [List.length_append, length_leBytes]

theorem length_exact (n : Nat) (es : List ExactEntry) : ((es.map (exactBytes n)).flatten).length = 16 * es.length := by
  induction es with
  | nil => rfl
  | cons e es ih =>
    rw [List.map_cons, List.flatten_cons, List.length_append, ih, List.length_cons]
    have one : (exactBytes n e).length = 16 := by
      unfold exactBytes
      simp only [List.length_append, length_leBytes]
    omega

/-! ### Metering (R27, R116, R440) -/

/-- What charging energy leaves alone. -/
def State.offMeter (s : State) : List Core × List Obj × Hw × Dailies :=
  (s.cores, s.objs, s.hw, { s.dailies with overhead := [] })

theorem offMeter_chargeEnergy (s : State) (ctx n : Nat) : (s.chargeEnergy ctx n).offMeter = s.offMeter := rfl

theorem offMeter_addOverhead (s : State) (i n : Nat) : (s.addOverhead i n).offMeter = s.offMeter := rfl

theorem offMeter_meterCore (s : State) (core uj : Nat) : (s.meterCore core uj).offMeter = s.offMeter := by
  unfold State.meterCore
  split
  · rfl
  · rfl

theorem offMeter_meterRail (s : State) (to_ : Nat) (moved : RailBytes → Nat) (uj : Nat) :
    (s.meterRail to_ moved uj).offMeter = s.offMeter := by
  unfold State.meterRail
  extract_lets total part left u
  split
  · rfl
  · exact (offMeter_addOverhead u to_ left).trans
      (foldl_keeps State.offMeter _ (fun t j => offMeter_chargeEnergy t j.ctx (part j)) s.jobs s)

/-- The state with the energy of an interval charged. -/
def State.charged (s : State) (rails : List Nat) : State :=
  let e := fun (i : Nat) => rails.getD i 0
  let s := (List.range 32).foldl (fun s n => s.meterCore n (e n)) s
  let s := s.meterRail 1 (fun r => r.t1) (e 32)
  let s := s.meterRail 2 (fun r => r.flash) (e 33)
  let s := s.meterRail 3 (fun r => r.host) (e 34)
  let s := s.meterRail 4 (fun r => r.spool) (e 35)
  let used := ((List.range 37).map e).sum
  (s.addOverhead 5 (e 36)).addOverhead 6 (e 37 - used)

theorem offMeter_charged (s : State) (rails : List Nat) : (s.charged rails).offMeter = s.offMeter := by
  unfold State.charged
  extract_lets e a b c d f used
  rw [offMeter_addOverhead, offMeter_addOverhead, offMeter_meterRail, offMeter_meterRail, offMeter_meterRail,
    offMeter_meterRail]
  exact foldl_keeps State.offMeter _ (fun t n => offMeter_meterCore t n (e n)) _ s

/-- Sensors that read no limit do not newly read one: such a reading comes with a row of its own. -/
theorem measure_cool (s : State) :
    (hotEngine s.hw.temps = false → hotEngine s.measure = false) ∧
      (hotFlash s.hw.temps = false → hotFlash s.measure = false) := by
  have below : ∀ x m : Nat, 0 < m → m ≤ 256 → (BitVec.ofNat 8 (x % m)).toNat < m := fun x m h0 h => by
    have lt := Nat.mod_lt x h0
    rw [BitVec.toNat_ofNat, Nat.mod_eq_of_lt (by omega)]
    exact lt
  refine ⟨fun cool => decide_eq_false (Nat.not_le.mpr ?_), fun cool => decide_eq_false (Nat.not_le.mpr ?_)⟩
  · show (BitVec.ofNat 8 (Config.freeValue (s.free + 2) % (if hotEngine s.hw.temps then 105 else 95))).toNat < 95
    rw [cool]
    exact below _ 95 (by decide) (by decide)
  · show (BitVec.ofNat 8 (Config.freeValue (s.free + 4) % (if hotFlash s.hw.temps then 85 else 70))).toNat < 70
    rw [cool]
    exact below _ 70 (by decide) (by decide)

/-- What the reading of the meters leaves alone. -/
def State.offLimits (s : State) : List Core × List Obj × List Job × Dailies × Sparse 64 × Temps :=
  (s.cores, s.objs, s.jobs, s.dailies, s.hw.energy, s.hw.temps)

/-- Whether a throttle has set its event. -/
def State.throttled (s : State) : Prop := s.hw.event.getLsbD 0 = true

theorem throttled_hwEvent (s : State) : (s.hwEvent 0).throttled := by
  show (s.hw.event ||| BitVec.ofNat 4 (2 ^ 0)).getLsbD 0 = true
  rw [BitVec.getLsbD_or, Bool.or_eq_true]
  exact Or.inr (by decide)

/-- The engine cores are throttled where the reading before called for it. -/
theorem limits_engine (s : State) :
    let u := if s.hw.limEngine then s.throttle true else s
    u.offLimits = s.offLimits ∧ u.hw.limFlash = s.hw.limFlash ∧
      (s.hw.limEngine = true → u.hw.thrEngine = true ∧ u.throttled) := by
  dsimp only
  split
  · exact ⟨rfl, Bool.and_true _, fun _ => ⟨Bool.or_true _, throttled_hwEvent _⟩⟩
  · next no => exact ⟨rfl, rfl, fun h => absurd h no⟩

/-- The flash back-end is throttled where the reading before called for it. -/
theorem limits_flash (s : State) :
    let u := if s.hw.limFlash then s.throttle false else s
    u.offLimits = s.offLimits ∧ (s.hw.thrEngine = true → u.hw.thrEngine = true) ∧ (s.throttled → u.throttled) ∧
      (s.hw.limFlash = true → u.hw.thrFlash = true ∧ u.throttled) := by
  dsimp only
  split
  · exact ⟨rfl, fun h => (Bool.or_false _).trans h, fun _ => throttled_hwEvent _,
      fun _ => ⟨Bool.or_true _, throttled_hwEvent _⟩⟩
  · next no => exact ⟨rfl, id, id, fun h => absurd h no⟩

/-- T1 and the steward die leave the event alone of their throttle. -/
theorem limits_others (s : State) (b : Bool) :
    let u := if b then s.hwEvent 0 else s
    u.offLimits = s.offLimits ∧ u.hw.thrEngine = s.hw.thrEngine ∧ u.hw.thrFlash = s.hw.thrFlash ∧
      (s.throttled → u.throttled) := by
  dsimp only
  split
  · exact ⟨rfl, rfl, rfl, fun _ => throttled_hwEvent s⟩
  · exact ⟨rfl, rfl, rfl, id⟩

/-- What the Gaffer does with a reading. -/
theorem readMeters_acts (s : State) (rails : List Nat) :
    let t := s.readMeters rails
    t.offLimits = s.offLimits ∧
      (s.hw.limEngine = true → atAllowance rails 0 = true → t.hw.thrEngine = true ∧ t.throttled) ∧
      (s.hw.limFlash = true → atAllowance rails 1 = true → t.hw.thrFlash = true ∧ t.throttled) ∧
      (atAllowance rails 0 = false → hotEngine s.hw.temps = false → t.hw.thrEngine = false) ∧
      (atAllowance rails 1 = false → hotFlash s.hw.temps = false → t.hw.thrFlash = false) := by
  obtain ⟨rest1, lim, engine⟩ := limits_engine s
  generalize ha : (if s.hw.limEngine then s.throttle true else s) = a at rest1 lim engine
  obtain ⟨rest2, keep2, mark2, flash⟩ := limits_flash a
  generalize hb : (if a.hw.limFlash then a.throttle false else a) = b at rest2 keep2 mark2 flash
  obtain ⟨rest3, engine3, flash3, mark3⟩ := limits_others b (atAllowance rails 2 || atAllowance rails 3)
  generalize hc : (if atAllowance rails 2 || atAllowance rails 3 then b.hwEvent 0 else b) = c at rest3 engine3 flash3 mark3
  have e : s.readMeters rails = { c with hw := { c.hw with
      limEngine := atAllowance rails 0, limFlash := atAllowance rails 1
      thrEngine := c.hw.thrEngine && (atAllowance rails 0 || hotEngine c.hw.temps)
      thrFlash := c.hw.thrFlash && (atAllowance rails 1 || hotFlash c.hw.temps) } } := by
    rw [← hc, ← hb, ← ha]
    rfl
  have rest : c.offLimits = s.offLimits := rest3.trans (rest2.trans rest1)
  have temps : c.hw.temps = s.hw.temps := congrArg (fun x => x.2.2.2.2.2) rest
  dsimp only
  rw [e]
  refine ⟨rest, fun lim0 at0 => ?_, fun lim1 at1 => ?_, fun at0 cool => ?_, fun at1 cool => ?_⟩
  · obtain ⟨thr, mark⟩ := engine lim0
    refine ⟨?_, mark3 (mark2 mark)⟩
    show (c.hw.thrEngine && (atAllowance rails 0 || hotEngine c.hw.temps)) = true
    rw [engine3, keep2 thr, at0, Bool.true_or]
    rfl
  · obtain ⟨thr, mark⟩ := flash (lim.trans lim1)
    refine ⟨?_, mark3 mark⟩
    show (c.hw.thrFlash && (atAllowance rails 1 || hotFlash c.hw.temps)) = true
    rw [flash3, thr, at1, Bool.true_or]
    rfl
  · show (c.hw.thrEngine && (atAllowance rails 0 || hotEngine c.hw.temps)) = false
    rw [at0, temps, cool, Bool.or_false, Bool.and_false]
  · show (c.hw.thrFlash && (atAllowance rails 1 || hotFlash c.hw.temps)) = false
    rw [at1, temps, cool, Bool.or_false, Bool.and_false]

/-- The energy of the rails is added, each to its own count. -/
theorem energy_added {m : Sparse 64} (wf : Sparse.wf m = true) (e : Nat → BitVec 64) (n : Nat) :
    let r := (List.range n).foldl (fun m i => Sparse.set m i (Sparse.get m i + e i)) m
    Sparse.wf r = true ∧ ∀ i, Sparse.get r i = if i < n then Sparse.get m i + e i else Sparse.get m i := by
  induction n with
  | zero => exact ⟨wf, fun i => (if_neg (Nat.not_lt_zero i)).symm⟩
  | succ n ih =>
    obtain ⟨wf', get⟩ := ih
    rw [List.range_succ, List.foldl_append, List.foldl_cons, List.foldl_nil]
    generalize (List.range n).foldl (fun m i => Sparse.set m i (Sparse.get m i + e i)) m = r at wf' get
    refine ⟨Sparse.wf_set wf' _ _, fun i => ?_⟩
    rw [Sparse.get_set wf', get n, if_neg (Nat.lt_irrefl n), get i]
    by_cases same : i = n
    · rw [same, if_pos rfl, if_pos (Nat.lt_succ_self n)]
    · rw [if_neg same]
      by_cases lt : i < n
      · rw [if_pos lt, if_pos (by omega)]
      · rw [if_neg lt, if_neg (by omega)]

/-- Showing the jobs' cycles leaves the counts of their rails. -/
theorem rails_shown (l : List Nat) {s : State} (h : ∀ j ∈ s.jobs, j.rail = {}) :
    ∀ j ∈ (l.foldl State.showJob s).jobs, j.rail = {} := by
  induction l generalizing s with
  | nil => exact h
  | cons c l ih =>
    refine ih fun j hj => ?_
    rcases mem_modJob hj with ⟨y, hy, -, rfl⟩ | ⟨mem, -⟩
    · exact h y hy
    · exact h j mem

end Sys2Proof.Machine
end

section
/-!
SUPPORT. O56, from the rules of the ring, the counters and the meters.
-/

namespace Sys2Proof.Machine

open Sys2Proof.Safety

/-! ### Samples that leave their core -/

/-- The body of a tagged sample's record. -/
def tagBody (s : State) (core : Nat) (t : TagTimes) (m : TagMark) : List Byte :=
  leBytes 8 m.job ++ leBytes 4 m.pc ++ leBytes 2 m.word.toNat ++ leBytes 1 core ++
    leBytes 1 (b2n ((s.jobByHandle? m.job).any (fun j => j.window)) + 2 * b2n t.throttled + 4 * b2n t.fetchMiss) ++
    leBytes 4 t.held.toNat ++ leBytes 4 t.accept.toNat ++ leBytes 4 t.done.toNat ++ leBytes 4 0

theorem length_tagBody (s : State) (core : Nat) (t : TagTimes) (m : TagMark) : (tagBody s core t m).length = 32 := by
  simp only [tagBody, List.length_append, length_leBytes]

/-- A tagged sample leaves its core. -/
theorem tagSample_leaves {s : State} (n : Fin 32) (k : TagTimes) {m : TagMark} (tag : (s.core n.val).tag = some m)
    (lt : n.val < s.cores.length) :
    ∃ t, exec (.tagSampleDone n k) s = .next t ∧ t.core n.val = { s.core n.val with tag := none } ∧
      t.jobs = s.jobs ∧ (s.dailies.fits [64] = true → t.dailies.lostSamples = s.dailies.lostSamples) ∧
      (s.dailies.fits [64] = false →
        t.dailies.lostSamples.toNat = min (s.dailies.lostSamples.toNat + 1) 0xFFFFFFFF) := by
  have core := core_modCore s n.val n.val (fun c => { c with tag := none }) lt
  rw [if_pos rfl] at core
  have run : exec (.tagSampleDone n k) s = .next ((s.modCore n.val (fun c => { c with tag := none })).putSample 1
      (s.dailies.record 4 (tagBody s n.val k m))) := by
    show execTagSampleDone n k s = _
    rw [execTagSampleDone, tag]
    rfl
  obtain ⟨cores, jobs, fits, lost⟩ :=
    putSample_counts (s.modCore n.val (fun c => { c with tag := none })) 1
      (s.dailies.record 4 (tagBody s n.val k m))
  rw [length_record, length_tagBody] at fits lost
  refine ⟨_, run, ?_, jobs, fits, lost⟩
  exact (congrArg (fun l : List Core => l.getD n.val {}) cores).trans core

/-- The exact samples leave their core. -/
theorem exactSamples_leave {s : State} (n : Fin 32) (some : (s.core n.val).exact ≠ []) (lt : n.val < s.cores.length) :
    let k := (s.core n.val).exact.length
    ∃ t, exec (.exactDrain n) s = .next t ∧ t.core n.val = { s.core n.val with exact := [] } ∧
      t.jobs = s.jobs ∧ (s.dailies.fits [32 + 16 * k] = true → t.dailies.lostSamples = s.dailies.lostSamples) ∧
      (s.dailies.fits [32 + 16 * k] = false →
        t.dailies.lostSamples.toNat = min (s.dailies.lostSamples.toNat + k) 0xFFFFFFFF) := by
  have core := core_modCore s n.val n.val (fun c => { c with exact := [] }) lt
  rw [if_pos rfl] at core
  obtain ⟨cores, jobs, fits, lost⟩ := putSample_counts (s.modCore n.val (fun c => { c with exact := [] }))
    (s.core n.val).exact.length (s.dailies.record 5 (((s.core n.val).exact.map (exactBytes n.val)).flatten))
  rw [length_record, length_exact] at fits lost
  refine ⟨_, if_neg some, ?_, jobs, fits, lost⟩
  exact (congrArg (fun l : List Core => l.getD n.val {}) cores).trans core

/-! ### A metering interval -/

/-- The energy counts of the rails, an interval's readings added. -/
@[irreducible] def energyWith (m : Sparse 64) (rails : List Nat) : Sparse 64 :=
  (List.range 38).foldl (fun m i => Sparse.set m i (Sparse.get m i + BitVec.ofNat 64 (rails.getD i 0))) m

theorem get_energyWith {m : Sparse 64} (wf : Sparse.wf m = true) (rails : List Nat) {i : Nat} (lt : i < 38) :
    Sparse.get (energyWith m rails) i = Sparse.get m i + BitVec.ofNat 64 (rails.getD i 0) := by
  unfold energyWith
  obtain ⟨-, get⟩ := energy_added wf (fun i => BitVec.ofNat 64 (rails.getD i 0)) 38
  exact (get i).trans (if_pos lt)

/-- The end of an interval: the measures, the rails' counts and the interval's number. -/
def State.intervalEnd (s : State) (rails : List Nat) : State :=
  { s with
    free := s.free + 7
    jobs := s.jobs.map (fun j => { j with rail := {} })
    dailies := { s.dailies with interval := s.dailies.interval + 1, since := s.dailies.since + 1 }
    hw := { s.hw with
      inputDv := BitVec.ofNat 12 (Config.freeValue (s.free + 6))
      energy := energyWith s.hw.energy rails } }

theorem energy_intervalEnd (s : State) (rails : List Nat) :
    (s.intervalEnd rails).hw.energy = energyWith s.hw.energy rails := by
  unfold State.intervalEnd
  rfl

/-- The state with the sensors read again. -/
def State.remeasured (s : State) : State := { s with hw := { s.hw with temps := s.measure } }

theorem exec_meteringInterval {s : State} {rails : List Nat} (run : s.hw.phase = .running)
    (can : drawable s.drawLimit rails = true) :
    exec (.meteringInterval rails) s =
      (let u := (((s.charged rails).remeasured).readMeters rails).intervalEnd rails
       .next ((u.jobs.map (fun j => j.ctx)).foldl State.showJob u)) := by
  show execMeteringInterval rails s = _
  rw [execMeteringInterval, if_neg (by rw [run, can]; decide)]
  extract_lets e core t1 flash host spool used a hw read ended dailies hw' last u
  have charged : s.charged rails = a := by
    unfold State.charged
    exact rfl
  have last_eq : last = (a.remeasured.readMeters rails).intervalEnd rails := by
    show last = (ended.intervalEnd rails)
    clear_value ended
    unfold State.intervalEnd energyWith
    exact rfl
  clear_value last
  subst u
  rw [charged, last_eq]

/-- What an interval does. -/
theorem meteringInterval_acts {s : State} (run : s.hw.phase = .running) (rails : List Nat)
    (wf : Sparse.wf s.hw.energy = true) (can : drawable s.drawLimit rails = true) :
    ∃ t, exec (.meteringInterval rails) s = .next t ∧ t.cores = s.cores ∧ t.objs = s.objs ∧
      (s.hw.limEngine = true → atAllowance rails 0 = true → t.hw.thrEngine = true ∧ t.hw.event.getLsbD 0 = true) ∧
      (s.hw.limFlash = true → atAllowance rails 1 = true → t.hw.thrFlash = true ∧ t.hw.event.getLsbD 0 = true) ∧
      (atAllowance rails 0 = false → hotEngine s.hw.temps = false → t.hw.thrEngine = false) ∧
      (atAllowance rails 1 = false → hotFlash s.hw.temps = false → t.hw.thrFlash = false) ∧
      t.dailies.interval = s.dailies.interval + 1 ∧ t.dailies.since = s.dailies.since + 1 ∧
      (∀ j ∈ t.jobs, j.rail = {}) ∧ ∀ i < 38, Sparse.get t.hw.energy i =
        Sparse.get s.hw.energy i + BitVec.ofNat 64 (rails.getD i 0) := by
  have charged := offMeter_charged s rails
  have run' := exec_meteringInterval run can
  generalize s.charged rails = a at charged run'
  have cores : a.cores = s.cores := congrArg (fun x => x.1) charged
  have objs : a.objs = s.objs := congrArg (fun x => x.2.1) charged
  have hw : a.hw = s.hw := congrArg (fun x => x.2.2.1) charged
  have dailies : ({ a.dailies with overhead := [] } : Dailies) = { s.dailies with overhead := [] } :=
    congrArg (fun x => x.2.2.2) charged
  obtain ⟨rest, engine, flash, coolEngine, coolFlash⟩ := readMeters_acts a.remeasured rails
  obtain ⟨cooled, cooled'⟩ := measure_cool a
  generalize a.remeasured.readMeters rails = b at rest engine flash coolEngine coolFlash run'
  have cores' : b.cores = a.cores := congrArg (fun x => x.1) rest
  have objs' : b.objs = a.objs := congrArg (fun x => x.2.1) rest
  have dailies' : b.dailies = a.dailies := congrArg (fun x => x.2.2.2.1) rest
  have energy' : b.hw.energy = a.hw.energy := congrArg (fun x => x.2.2.2.2.1) rest
  have railed : ∀ j ∈ (b.intervalEnd rails).jobs, j.rail = {} := fun j hj => by
    obtain ⟨y, -, rfl⟩ := List.mem_map.mp hj
    rfl
  have shown := foldl_keeps (fun u : State => (u.cores, u.objs, u.hw, u.dailies)) State.showJob (fun _ _ => rfl)
    ((b.intervalEnd rails).jobs.map (fun j => j.ctx)) (b.intervalEnd rails)
  have rails' := rails_shown ((b.intervalEnd rails).jobs.map (fun j => j.ctx)) railed
  dsimp only at run'
  generalize ((b.intervalEnd rails).jobs.map (fun j => j.ctx)).foldl State.showJob (b.intervalEnd rails) = t
    at shown rails' run'
  have tcores : t.cores = b.cores := congrArg (fun x => x.1) shown
  have tobjs : t.objs = b.objs := congrArg (fun x => x.2.1) shown
  have thw : t.hw = (b.intervalEnd rails).hw := congrArg (fun x => x.2.2.1) shown
  have tdailies : t.dailies = (b.intervalEnd rails).dailies := congrArg (fun x => x.2.2.2) shown
  refine ⟨t, run', tcores.trans (cores'.trans cores), tobjs.trans (objs'.trans objs), fun lim at0 => ?_,
    fun lim at1 => ?_, fun at0 cool => ?_, fun at1 cool => ?_, ?_, ?_, rails', fun i lt => ?_⟩
  · rw [thw]
    exact engine ((congrArg Hw.limEngine hw).trans lim) at0
  · rw [thw]
    exact flash ((congrArg Hw.limFlash hw).trans lim) at1
  · rw [thw]
    exact coolEngine at0 (cooled (by rw [hw]; exact cool))
  · rw [thw]
    exact coolFlash at1 (cooled' (by rw [hw]; exact cool))
  · rw [tdailies]
    show b.dailies.interval + 1 = _
    rw [dailies', show a.dailies.interval = s.dailies.interval from (congrArg Dailies.interval dailies :)]
  · rw [tdailies]
    show b.dailies.since + 1 = _
    rw [dailies', show a.dailies.since = s.dailies.since from (congrArg Dailies.since dailies :)]
  · rw [thw, energy_intervalEnd, energy', hw]
    exact get_energyWith wf rails lt

/-! ### The registers of the Dailies -/

section registers

variable {s : State} (hb : s.bar0 = true) (hd : s.hw.started = true)
include hb hd

/-- The ring is placed, or refused with its event. -/
theorem ring_written (v : BitVec 64) :
    let size := bits v.toNat 55 32
    let off := bits v.toNat 29 12
    (size = 0 ∨ s.rings.any (regionsOverlap (off * 4096, size * 4096)) = false →
      ∃ t, exec (.dailiesRingWrite v) s = .next t ∧ inside t = inside { s with dailies := { s.dailies with
        ringSize := size, ringOffset := off, head := 0, tail := 0 } }) ∧
    (size ≠ 0 → s.rings.any (regionsOverlap (off * 4096, size * 4096)) = true →
      ∃ t, exec (.dailiesRingWrite v) s = .next t ∧ inside t = inside s ∧
        t.link.regEvent = s.link.regEvent ||| 16) := by
  obtain ⟨lock, written⟩ := hostWrite_plain (r := .dailiesRing) (whole_double covered_dailiesRing rfl) hb hd v.isLt
    rfl rfl rfl
  have put : s.putReg .dailiesRing v.toNat noCourse = s.dailiesRingTo v.toNat := rfl
  rw [put] at written
  intro size off
  refine ⟨fun free => ?_, fun some taken => ?_⟩
  · have placed : s.dailiesRingTo v.toNat = { s with dailies := { s.dailies with
        ringSize := size, ringOffset := off, head := 0, tail := 0 } } :=
      if_neg fun h => free.elim h.1 (fun no => absurd (h.2.symm.trans no) (by decide))
    rw [placed] at written
    exact ⟨_, congrArg Host.Outcome.next written, rfl⟩
  · have refused : s.dailiesRingTo v.toNat = s.regEvent 4 := if_pos ⟨some, taken⟩
    rw [refused] at written
    exact ⟨_, congrArg Host.Outcome.next written, rfl, rfl⟩

/-- A new selection of a counter. -/
theorem selection_written (slots : Sparse.wf s.dailies.slots = true) (totals : Sparse.wf s.dailies.totals = true)
    (i : Fin 1320) (v : BitVec 32) (present : i.val % 8 < cntSlots (i.val / 8))
    (new : v.truncate 8 ≠ (s.cntSel i.val).event ∨ v.getLsbD 15 ≠ (s.cntSel i.val).level) :
    ∃ t, exec (.cntSelWrite i v) s = .next t ∧
      t.cntSel i.val = { slot := i.val, event := v.truncate 8, level := v.getLsbD 15, changed := true } ∧
      Sparse.get t.dailies.slots i.val = 0 ∧ Sparse.get t.dailies.totals i.val = 0 ∧ t.cores = s.cores ∧
      ∀ k, k ≠ i.val → t.cntSel k = s.cntSel k ∧
        Sparse.get t.dailies.slots k = Sparse.get s.dailies.slots k := by
  obtain ⟨lock, written⟩ := hostWrite_plain (r := .cntSel i.val) (whole_word (covered_cntSel i present) (by omega)) hb hd
    v.isLt rfl rfl rfl
  have put : s.putReg (.cntSel i.val) v.toNat noCourse = s.cntSelTo i.val v.toNat := rfl
  rw [put, cntSelTo_takes i.val new] at written
  obtain ⟨held, others⟩ := cntSel_selected s { slot := i.val, event := v.truncate 8, level := v.getLsbD 15, changed := true }
  obtain ⟨slot, total, rest⟩ := counts_selected slots totals
    { slot := i.val, event := v.truncate 8, level := v.getLsbD 15, changed := true }
  exact ⟨_, congrArg Host.Outcome.next written, held, slot, total, rfl, fun k ne => ⟨others k ne, rest k ne⟩⟩

/-- A new sampling of a core. -/
theorem sampling_written (wf : Sparse.wf s.dailies.sample = true) (n : Fin 32) (v : BitVec 32)
    (lt : n.val < s.cores.length) :
    ∃ t, exec (.sampleCfgWrite n v) s = .next t ∧
      (Sparse.get t.dailies.sample n.val).toNat = bits v.toNat 31 30 * 2 ^ 30 + bits v.toNat 19 0 ∧
      t.core n.val = { s.core n.val with sampled := 0, tagAt := 0 } ∧ t.jobs = s.jobs := by
  obtain ⟨lock, written⟩ := hostWrite_plain (r := .sampleCfg n.val) (whole_word (covered_sampleCfg n) (by omega)) hb hd
    v.isLt rfl rfl rfl
  have core := core_modCore s n.val n.val (fun c => { c with sampled := 0, tagAt := 0 }) lt
  rw [if_pos rfl] at core
  refine ⟨_, congrArg Host.Outcome.next written, ?_, core, rfl⟩
  show (Sparse.get (Sparse.set s.dailies.sample n.val
    (BitVec.ofNat 32 (pack [(30, bits v.toNat 31 30), (0, bits v.toNat 19 0)]))) n.val).toNat = _
  rw [Sparse.get_set wf, if_pos rfl, BitVec.toNat_ofNat]
  have high : bits v.toNat 31 30 < 4 := Nat.mod_lt _ (by decide)
  have low : bits v.toNat 19 0 < 2 ^ 20 := Nat.mod_lt _ (by decide)
  simp only [pack, List.map_cons, List.map_nil, List.sum_cons, List.sum_nil]
  omega

/-- SNAP_NOW takes a snapshot. -/
theorem snapNow_counts {v : BitVec 32} (now : v.getLsbD 30 = true) :
    let u : State := { s with dailies := { s.dailies with
      enable := v.getLsbD 31, period := v.truncate 16
      since := if v.getLsbD 31 && !s.dailies.enable then 0 else s.dailies.since } }
    let fits := u.foldAll.dailies.fits (u.foldAll.snapshotRecords.map List.length)
    ∃ t, exec (.snapNow v) s = .next t ∧ t.cores = s.cores ∧ t.jobs = s.jobs ∧
      t.dailies.snap = s.dailies.snap + (if fits then 1 else 0) ∧
      (fits = false → t.dailies.lostSnaps.toNat = min (s.dailies.lostSnaps.toNat + 1) 0xFFFFFFFF) := by
  obtain ⟨lock, written⟩ := hostWrite_plain (r := .dailiesCtl) (whole_word covered_dailiesCtl rfl) hb hd v.isLt
    rfl rfl rfl
  have put : s.putReg .dailiesCtl v.toNat noCourse = s.dailiesCtlTo v.toNat := rfl
  have period : BitVec.ofNat 16 (bits v.toNat 15 0) = v.truncate 16 :=
    (ofNat_bits rfl v).trans (by rw [BitVec.ushiftRight_zero])
  intro u fits
  have ctl : s.dailiesCtlTo v.toNat = u.snapshot := by
    unfold State.dailiesCtlTo
    dsimp only
    rw [period, bitOf_toNat, bitOf_toNat, if_pos now]
  obtain ⟨cores, jobs, -, snap, lost⟩ := snapshot_counts u
  rw [put, ctl] at written
  generalize u.snapshot = w at written cores jobs snap lost
  exact ⟨_, (if_pos ((bitOf_toNat v 30).trans now)).trans (congrArg Host.Outcome.next written), cores, jobs, snap, lost⟩

end registers

/-- Settles O56. -/
theorem dailiesRun : Obligations.DailiesRun := by
  unfold Obligations.DailiesRun
  intro s run
  refine ⟨fun hb hd slots totals sample => ⟨fun v => ring_written hb hd v,
      fun i v present new => selection_written hb hd slots totals i v present new,
      fun n v lt => sampling_written hb hd sample n v lt, fun v now => snapNow_counts hb hd now⟩, ?_,
    fun i present moves full untimed slots totals => ?_, fun n k m tag lt => tagSample_leaves n k tag lt,
    fun n some lt => exactSamples_leave n some lt, fun rails wf can => meteringInterval_acts run rails wf can⟩
  · intro u fits on ring due
    obtain ⟨cores, jobs, since, snap, lost⟩ := snapshot_counts u
    have taken : exec .periodicSnapshot s = .next u.snapshot := by
      refine if_neg ?_
      rintro (h | h | h | h)
      · exact h run
      · exact absurd (on.symm.trans h) (by decide)
      · exact ring h
      · exact of_decide_eq_false h due
    generalize u.snapshot = w at taken cores jobs since snap lost
    exact ⟨w, taken, cores, jobs, since, snap, lost⟩
  · obtain ⟨slot, total⟩ := foldSlot_takes slots totals untimed
    refine ⟨s.foldSlot i.val, if_neg ?_, slot, total, rfl, rfl⟩
    rintro (h | h | h | h)
    · exact h run
    · omega
    · exact absurd (moves.symm.trans h) (by decide)
    · rw [Bool.or_eq_false_iff] at h
      exact of_decide_eq_false h.1 full

end Sys2Proof.Machine
end
